-- ==== Sys2Proof/Word.lean ====
section
/-! DEFINITION. Plain word types and the sparse map used for every table and memory of the package. -/

namespace Sys2Proof

/-- One byte. -/
abbrev Byte := BitVec 8
/-- A 32-bit word. -/
abbrev W32 := BitVec 32
/-- A 64-bit word. -/
abbrev W64 := BitVec 64
/-- A physical tile index y × 8 + x (R13). -/
abbrev TileId := Fin 80
/-- A fabric port P0 to P19 (R22). -/
abbrev PortId := Fin 20
/-- A voltage domain D0 to D19, and the stack above it (R17). -/
abbrev DomId := Fin 20
/-- A quadrant Q0 to Q3 (R13). -/
abbrev QuadId := Fin 4
/-- A host-class core HC0 to HC31 (R18). -/
abbrev CoreId := Fin 32
/-- A function number (R303). -/
abbrev FnId := Fin 1024
/-- A physical ring number (Table 11.1). -/
abbrev RingId := Fin 8192
/-- A tally counter or an endpoint of a tile. -/
abbrev Idx64 := Fin 64

/-- A sparse table: keys strictly rising, no entry equal to the table's default. -/
abbrev SMap (α : Type) := List (Nat × α)

namespace SMap

/-- The value at a key; the default `d` where the key is not listed. -/
def get {α : Type} (d : α) : SMap α → Nat → α
  | [], _ => d
  | (k, v) :: m, i => if k = i then v else get d m i

/-- Remove a key. -/
def erase {α : Type} : SMap α → Nat → SMap α
  | [], _ => []
  | (k, v) :: m, i => if k = i then erase m i else (k, v) :: erase m i

/-- Insert or replace a key, keeping the keys rising. -/
def insert {α : Type} : SMap α → Nat → α → SMap α
  | [], i, x => [(i, x)]
  | (k, v) :: m, i, x =>
    if i < k then (i, x) :: (k, v) :: m
    else if k = i then (i, x) :: m
    else (k, v) :: insert m i x

/-- Write a key; writing the default removes the entry, so that equal tables are equal data. -/
def set {α : Type} [DecidableEq α] (d : α) (m : SMap α) (i : Nat) (x : α) : SMap α :=
  if x = d then erase m i else insert m i x

/-- Change the value at one key. -/
def modify {α : Type} [DecidableEq α] (d : α) (m : SMap α) (i : Nat) (f : α → α) : SMap α :=
  set d m i (f (get d m i))

/-- The canonical form: keys strictly rising and no default listed. -/
def wf {α : Type} [DecidableEq α] (d : α) : SMap α → Bool
  | [] => true
  | [(_, v)] => v ≠ d
  | (k, v) :: (k', v') :: m => v ≠ d && k < k' && wf d ((k', v') :: m)

end SMap

end Sys2Proof
end

