-- ==== Sys2Proof/Syntax.lean ====
section
/-! DEFINITION. The commands of the package: one constructor per row of spec/opcode_table.json. -/

namespace Sys2Proof

/-- The register and function fields of Table 4.2, format R, of the opcodes whose FN field is not the
operation: RD, RS1, RS2 and all eleven bits of FN (unused fields must be 0, R100). -/
structure RFields where
  rd : BitVec 5
  rs1 : BitVec 5
  rs2 : BitVec 5
  fn : BitVec 11
  deriving DecidableEq, Repr

/-- The fields of Table 4.2, format I. -/
structure IFields where
  rd : BitVec 5
  rs1 : BitVec 5
  imm : BitVec 16
  deriving DecidableEq, Repr

/-- The fields of Table 4.2, format B. -/
structure BFields where
  rs1 : BitVec 5
  rs2 : BitVec 5
  off : BitVec 16
  deriving DecidableEq, Repr

/-- The tile engine queues of R107 (SFU descriptors enter the VE queue). -/
inductive EngQ where
  | opa | ve | gus | pw | dma
  deriving DecidableEq, Repr

/-- What a fabric link learns of its partner when it comes up (R390). -/
structure Partner where
  addr : BitVec 14
  assigned : Bool
  port : BitVec 5
  isSwitch : Bool
  deriving DecidableEq, Repr

/-- Where a doorbell write of TAIL comes from (R318): a core's aperture or an RDMA connection. -/
inductive DoorSrc where
  | core (c : CoreId)
  | rdma (qpn : BitVec 24)
  deriving DecidableEq, Repr

/-- Where a Skelist datagram comes from: the source address (IPv6 or IPv4-mapped) and UDP port. -/
structure UdpAddr where
  ip : BitVec 128
  port : BitVec 16
  deriving DecidableEq, Repr

/-- The way of a Skelist datagram: whence it comes, and the address it was sent to (R330). -/
structure UdpPath where
  src : UdpAddr
  dst : BitVec 128
  deriving DecidableEq, Repr

/-- What the port finds as a frame comes in: whether every FEC codeword was correctable (R356), and what the receive buffer
of each priority holds (R364). -/
structure FrameRx where
  fecOk : Bool
  occ : List Nat
  deriving DecidableEq, Repr

/-- A temperature sensor: a tile's, or a stack's (Table 16.4). -/
inductive Sensor where
  | tile (t : TileId)
  | stack (d : DomId)
  deriving DecidableEq, Repr

/-- A current reading of R457: a domain's regulator, or the VIN12 input. -/
inductive CurrentSrc where
  | regulator (d : DomId)
  | vin12
  deriving DecidableEq, Repr

/-- One waiting count of R460: domain `waiter` waited `periods` pacer periods on tile `tile` of domain `charged`. -/
structure PaceWait where
  waiter : DomId
  charged : DomId
  tile : TileId
  periods : Nat
  deriving DecidableEq, Repr

/-- The directions of a router's mesh links (Table 17.9). -/
inductive Dir where
  | north | south | west | east
  deriving DecidableEq, Repr

/-- The reasons of R393 for which a port retrains. -/
inductive RetrainCause where
  | replaysFailed | symbolErrors | lockLost
  deriving DecidableEq, Repr

/-- A channel of the cut (R502): an incoming mesh link of a tile, or a virtual channel of a fabric port. -/
inductive CutChannel where
  | mesh (t : TileId) (d : Dir)
  | fabric (p : PortId) (vc : Fin 6)
  deriving DecidableEq, Repr

/-- What the power-up self-test finds (Table 19.4). -/
structure SelfTest where
  comparatorFail : Bool
  flashFail : Bool
  flashCorrected : Bool
  unitFail : Option (BitVec 8)
  failedTiles : List TileId
  badPages : List (TileId × Nat)
  failedDomains : List DomId
  failedCores : List CoreId
  downLinks : List (TileId × Dir)
  failedLanes : List (PortId × Fin 8)
  noOscillator : Bool
  deriving DecidableEq, Repr

/-- The registers that Thimble or JTAG may write by address (R12, R20), each with its instance. -/
inductive Reg where
  | errStat (block : Nat) (inst : Nat)
  | errFirst (block : Nat) (inst : Nat)
  | errCtl (block : Nat) (inst : Nat)
  | errCount (block : Nat) (inst : Nat)
  | stat (block : Nat) (inst : Nat)
  | opaCtl (t : TileId)
  | opaHeld (t : TileId) (bank : Fin 2)
  | sfuPatLoaded (t : TileId)
  | sfuPatMono (t : TileId)
  | slbExt (t : TileId)
  | slbSpread (t : TileId) (set : Fin 32)
  | slbScrub (t : TileId)
  | slbCorrLast (t : TileId)
  | slbRetire (t : TileId) (n : Fin 32)
  | fnState (f : FnId)
  | fnCfg (f : FnId)
  | ringCfg (r : RingId)
  | ringTail (r : RingId)
  | ringPtr (r : RingId)
  | ringStat (r : RingId)
  | dspFence (n : Fin 16384)
  | winPflag (t : TileId) (page : Nat)
  | winCfg (f : FnId)
  | lnkSys
  | lnkRoute (n : Fin 64)
  | lnkStat (p : PortId)
  | pwrVtab (d : DomId) (op : Fin 8)
  | pwrDom (d : DomId)
  | pwrLim (d : DomId)
  | pwrSlow
  | meshLink (t : TileId)
  | thmFatal
  | thmFatalTime
  | thmBoot
  | trcTack
  | trcTackTime
  | trcTackOn
  | coreWatch (c : CoreId) (w : Fin 4)
  | mbCtl (c : CoreId)
  | jtagIdcode
  deriving DecidableEq, Repr

/-- How a register write comes in: by Thimble's register access, or by JTAG, which reaches every register (R328, R544). -/
inductive RegPath where
  | thimble | jtag
  deriving DecidableEq, Repr

/-- A register and the path by which a write reaches it. -/
structure RegTarget where
  path : RegPath
  reg : Reg
  deriving DecidableEq, Repr

/-- The commands and events of the package. A sequencer command names the tile and every field of the
instruction word; an engine command names the tile whose running descriptor it carries out; a Skelist
command carries out the oldest accepted request of its code; a ring command names the ring. -/
inductive Instr where
  -- tile sequencer (R99–R136)
  | aluAdd (t : TileId) (rd rs1 rs2 : BitVec 5)
  | aluSub (t : TileId) (rd rs1 rs2 : BitVec 5)
  | aluAnd (t : TileId) (rd rs1 rs2 : BitVec 5)
  | aluOr (t : TileId) (rd rs1 rs2 : BitVec 5)
  | aluXor (t : TileId) (rd rs1 rs2 : BitVec 5)
  | aluSll (t : TileId) (rd rs1 rs2 : BitVec 5)
  | aluSrl (t : TileId) (rd rs1 rs2 : BitVec 5)
  | aluSra (t : TileId) (rd rs1 rs2 : BitVec 5)
  | aluMul (t : TileId) (rd rs1 rs2 : BitVec 5)
  | aluMulhu (t : TileId) (rd rs1 rs2 : BitVec 5)
  | aluMulh (t : TileId) (rd rs1 rs2 : BitVec 5)
  | aluSlt (t : TileId) (rd rs1 rs2 : BitVec 5)
  | aluSltu (t : TileId) (rd rs1 rs2 : BitVec 5)
  | aluMin (t : TileId) (rd rs1 rs2 : BitVec 5)
  | aluMax (t : TileId) (rd rs1 rs2 : BitVec 5)
  | aluSext32 (t : TileId) (rd rs1 rs2 : BitVec 5)
  | addi (t : TileId) (f : IFields)
  | andi (t : TileId) (f : IFields)
  | ori (t : TileId) (f : IFields)
  | xori (t : TileId) (f : IFields)
  | slti (t : TileId) (f : IFields)
  | shiSll (t : TileId) (rd rs1 : BitVec 5) (hi : BitVec 8) (sh : BitVec 6)
  | shiSrl (t : TileId) (rd rs1 : BitVec 5) (hi : BitVec 8) (sh : BitVec 6)
  | shiSra (t : TileId) (rd rs1 : BitVec 5) (hi : BitVec 8) (sh : BitVec 6)
  | lui (t : TileId) (f : IFields)
  | beq (t : TileId) (f : BFields)
  | bne (t : TileId) (f : BFields)
  | blt (t : TileId) (f : BFields)
  | bge (t : TileId) (f : BFields)
  | bltu (t : TileId) (f : BFields)
  | bgeu (t : TileId) (f : BFields)
  | jal (t : TileId) (rd : BitVec 5) (off : BitVec 21)
  | jalr (t : TileId) (f : IFields)
  | lb (t : TileId) (f : IFields)
  | lh (t : TileId) (f : IFields)
  | lw (t : TileId) (f : IFields)
  | ld (t : TileId) (f : IFields)
  | sb (t : TileId) (f : IFields)
  | sh (t : TileId) (f : IFields)
  | sw (t : TileId) (f : IFields)
  | sd (t : TileId) (f : IFields)
  | sld (t : TileId) (f : IFields)
  | sst (t : TileId) (f : IFields)
  | dsw (t : TileId) (f : IFields)
  | dld (t : TileId) (f : IFields)
  | diss (t : TileId) (f : IFields)
  | dissQueueEntryFreed (t : TileId)
  | msend (t : TileId) (f : RFields)
  | msendCreditTaken (t : TileId)
  | mrecv (t : TileId) (f : RFields)
  | mrecvMessageReturned (t : TileId)
  | mtry (t : TileId) (f : RFields)
  | mfree (t : TileId) (f : RFields)
  | chcfg (t : TileId) (f : RFields)
  | charm (t : TileId) (f : RFields)
  | twait (t : TileId) (f : RFields)
  | tallyWaitRelease (t : TileId)
  | tsig (t : TileId) (f : RFields)
  | tset (t : TileId) (f : RFields)
  | trd (t : TileId) (f : RFields)
  | rdsys (t : TileId) (f : IFields)
  | wrsysDseq (t : TileId) (rd rs1 : BitVec 5) (hi : BitVec 8)
  | wrsysLack (t : TileId) (rd rs1 : BitVec 5) (hi : BitVec 8)
  | fence (t : TileId) (rd rs1 rs2 : BitVec 5)
  | evpost (t : TileId) (rd rs1 rs2 : BitVec 5)
  | halt (t : TileId) (f : RFields)
  -- descriptors and engines
  | descStart (t : TileId) (q : EngQ)
  | descSignal (t : TileId) (q : EngQ)
  | opaPass (t : TileId)
  | opaRowStart (t : TileId) (row : Idx64)
  | opaPassComplete (t : TileId)
  | veCvt (t : TileId)
  | veAdd (t : TileId)
  | veSub (t : TileId)
  | veMul (t : TileId)
  | veMuladd (t : TileId)
  | veMax (t : TileId)
  | veMin (t : TileId)
  | veMuls (t : TileId)
  | veRsum (t : TileId)
  | veRmax (t : TileId)
  | veRmin (t : TileId)
  | veLnorm (t : TileId)
  | veRmsnorm (t : TileId)
  | veRope (t : TileId)
  | veGather (t : TileId)
  | vePermute (t : TileId)
  | veTopk (t : TileId)
  | veArgmax (t : TileId)
  | veSample (t : TileId)
  | veAccRead (t : TileId)
  | veSeamAdd (t : TileId)
  | veSeamCvt (t : TileId)
  | sfuExp2 (t : TileId)
  | sfuLog2 (t : TileId)
  | sfuReciprocal (t : TileId)
  | sfuRsqrt (t : TileId)
  | sfuSqrt (t : TileId)
  | sfuTanh (t : TileId)
  | sfuSigmoid (t : TileId)
  | sfuErf (t : TileId)
  | sfuGelu (t : TileId)
  | sfuSilu (t : TileId)
  | sfuSin (t : TileId)
  | sfuCos (t : TileId)
  | sfuPattern (t : TileId)
  | gusAttend (t : TileId)
  | gusAcquire (t : TileId)
  | gusRebase (t : TileId)
  | gusFinalise (t : TileId)
  | gusRecompute (t : TileId)
  | pwAppend (t : TileId)
  | pwInvalidate (t : TileId)
  | dmaCopy (t : TileId)
  | dmaBulkSend (t : TileId)
  | dmaFill (t : TileId)
  -- channel packets arriving at a tile
  | chanMsgArrive (t : TileId) (ep : Idx64)
  | chanBulkArrive (t : TileId) (ep : Idx64)
  | bulkAckArrive (t : TileId)
  | chanGrantArrive (t : TileId) (ep : Idx64)
  | chanCreditArrive (t : TileId) (ep : Idx64)
  | stopNoticeArrive (t : TileId)
  | unreachableNoticeArrive (t : TileId)
  -- Skelist
  | skelistMessageReceive (dgram : List Byte) (way : UdpPath)
  | mailboxGo (c : CoreId)
  | identify
  | claim
  | rekey
  | serviceCfg
  | quote
  | fnCreate
  | fnDestroy
  | fnStart
  | fnStop
  | fnFaultStop (f : FnId)
  | drainLimitExpire (f : FnId)
  | stopComplete (f : FnId)
  | fnAssignTiles
  | fnAssignSpread
  | fnAssignRings
  | fnAssignFences
  | fnAssignCores
  | fnAssignWindow
  | fnAssignVtileMap
  | fnAssignSettings
  | domainUngateDone (d : DomId)
  | fnWithdraw
  | fnQuery
  | pageRelease
  | slabTag
  | ringConfig
  | ringRead
  | fenceRead
  | fenceWrite
  | winFlags
  | winTransitionComplete (f : FnId)
  | winTransitionTimeout (f : FnId)
  | winQuery
  | winConnect
  | winClose
  | tileLoad
  | hcoreLoad
  | patternLoad
  | patternUnload
  | patternQuery
  | peerWrite
  | sliceSet
  | routeWrite
  | routeRead
  | powerGrant
  | powerQuery
  | countersRead
  | eventSubscribe
  | eventsRead
  | traceCfg
  | tack
  | tackResume
  | tackLogRead
  | faultStatus
  | stopRecord
  | errClear
  | tagRead
  | tagWrite
  | tagLock
  | fwStage
  | fwActivate
  | fwQuery
  -- rings, fences, cores
  | ringDoorbell (src : DoorSrc) (ring : Nat) (tail : W32)
  | ringFetch (q : QuadId)
  | ringNop (r : RingId)
  | ringLaunch (r : RingId)
  | ringLaunchComplete (r : RingId)
  | ringCopy (r : RingId)
  | ringWait (r : RingId)
  | ringWaitRelease (r : RingId)
  | ringSignal (r : RingId)
  | ringCollective (r : RingId)
  | ringBarrier (r : RingId)
  | ringCommandComplete (r : RingId)
  | coreFenceAdd (c : CoreId) (idx : Nat) (value : W64)
  | coreFenceSet (c : CoreId) (idx : Nat) (value : W64)
  | hcoreAccess (c : CoreId) (addr : BitVec 56) (write : Bool) (log2Bytes : Fin 4) (value : W64)
  | fqTxTailWrite (c : CoreId) (tail : W32)
  | fqRxTailWrite (c : CoreId) (tail : W32)
  | fqPortWrite (c : CoreId) (n : Fin 4) (value : W32)
  -- Ethernet
  | rdmaWrite (qpn : BitVec 24) (rkey : W32) (va : W64) (data : List Byte)
  | rdmaRead (qpn : BitVec 24) (rkey : W32) (va : W64) (len : Nat)
  | rdmaSend (qpn : BitVec 24) (data : List Byte)
  | ethFrameReceive (frame : List Byte) (rx : FrameRx)
  | pfcFrameReceive (enable : BitVec 8) (pause : BitVec 8)
  | cnpReceive (qpn : BitVec 24)
  | cnpRateRaise (qpn : BitVec 24)
  | ethLinkUp
  | ethLinkLoss
  | ethHalfWidthFallback
  | addrDadComplete (addr : BitVec 128) (ok : Bool)
  | ptpMessageReceive (domain : Byte) (masterTime : W64) (offset : W64)
  -- stitch chain
  | stchFrameReceive (frame : List Byte) (codingOk : Bool)
  | enumFrame
  | setaddr
  | ping
  | resetReq
  | powerWarn
  | powerWarnClear
  | stchSkelist
  | upstreamLost
  | upstreamLostRepeat
  -- fabric
  | lnkLinkUp (p : PortId) (partner : Partner) (lanes : BitVec 8)
  | fabricPacketReceive (p : PortId) (vc : Fin 6) (packet : List Byte)
  | lnkReplay (p : PortId) (seq : BitVec 11) (ok : Bool)
  | lnkRetrain (p : PortId) (cause : RetrainCause)
  | lnkRetrainTimeout (p : PortId)
  | lnkDownRetry (p : PortId)
  | fenceOrderedSetReceive (p : PortId)
  | portLeaveService (p : PortId)
  | packetAged (p : PortId) (vc : Fin 6)
  | lnkSysUseWrite (use : BitVec 20)
  -- collectives
  | collAdmit
  | collPartReceive (q : QuadId)
  | collResultReceive (q : QuadId)
  | collDeclineReceive (q : QuadId)
  | collGrantReceive (q : QuadId)
  | collNoticeReceive (q : QuadId)
  | collTimeout (f : FnId) (group : BitVec 16)
  | collComplete (f : FnId) (group : BitVec 16)
  -- power, thermal, time
  | govCapIteration (estimateMw : Nat)
  | rateLoopTick (d : DomId) (pacerMsteps : Nat)
  | govMeasureWindow (frameOk : Bool) (readingMw : List Int)
  | paceWindow (periods : List (DomId × Nat)) (waits : List PaceWait)
  | regSetpointAck (d : DomId)
  | regSlewEnd (d : DomId)
  | droopEngage (d : DomId)
  | droopRelease (d : DomId)
  | shortfallEnter (d : DomId) (pacerMsteps : Nat)
  | shortfallClear (d : DomId) (pacerMsteps : Nat)
  | ageingRecord (meanMv : List (DomId × Fin 8 × Int))
  | brownout (d : DomId)
  | regControlLoss (d : DomId)
  | thermalThreshold (sensor : Sensor) (temp : BitVec 16)
  | thermCeilingStep (d : DomId)
  | thermtrip (sensor : Sensor)
  | currentLimit (src : CurrentSrc) (deciAmps : Nat)
  | grantLeaseExpire
  | domainGate (d : DomId)
  | timerefLoss
  | ppsEdge
  | ppsLoss
  | ptpLoss
  | linkTimeOffset (p : PortId) (partnerLocked : Bool) (offset : W64)
  -- faults, mesh, memory upkeep
  | errInject (block inst : Nat) (value : W32)
  | errCountRead (block inst : Nat)
  | fatalEntry
  | meshCrcRetry (t : TileId) (d : Dir)
  | meshHalfDown (t : TileId) (d : Dir)
  | meshLinkDown (t : TileId) (d : Dir)
  | patrolScrubRead (t : TileId)
  | tileRetire (t : TileId)
  -- tack and trace
  | tackNFall
  | tackMarkerReceive (c : CutChannel)
  | tackHeld
  | resumeMarkerReceive (c : CutChannel)
  | traceFlush (f : FnId)
  -- power-up, reset, JTAG
  | v3p3Rise
  | suppliesInRange
  | bootSequence (bootMode : BitVec 2) (found : SelfTest)
  | trialWatchdog
  | resetNAssert (heldNs : Nat)
  | powerDown (vin12Mv v3p3Mv : Nat)
  | fatalLatchClear (vin12Mv v3p3Mv : Nat)
  | jtagImageWrite (slot : Fin 2) (offset : Nat) (data : List Byte)
  | registerWrite (r : RegTarget) (value : BitVec 192)
  | longCommandComplete (f : FnId)
  | timerefRestore
  | tackNRise
  | stchCharacterReceive (control : Bool) (c : Byte)
  | stchNullSend
  | lnkControlFlitReceive (p : PortId) (ack : BitVec 11) (credits : List (Fin 6 × Nat))
  | safeStateEthernetIdle
  deriving DecidableEq, Repr

end Sys2Proof
end

