-- ==== Sys2Proof/Config.lean ====
section
/-! DEFINITION. What an implementation fixes, and the free values that the spec leaves open. -/

namespace Sys2Proof.Config

/-- A tile's local step count (R102 STEPS, Table 18.2): steps depend on data, voltage and temperature, and no
row of the command table counts them. A free value. -/
opaque stepCount : Nat → BitVec 64

/-- A measured latency, voltage, current or temperature that a reply reports and no command supplies. A free
value. -/
opaque measured : Nat → Nat

/-- A counter of steps spent waiting or of bytes moved inside the package (R493), which no command counts, by the reading it
belongs to, the function and the identifier. A free value. -/
opaque openCount : Nat → Nat → Nat → BitVec 48

/-- The QPN, packet sequence number or key that Thimble gives a new connection (Table 12.3 WIN_CONNECT). A free
value. -/
opaque connValue : Nat → BitVec 32

/-- The time to live or hop limit and the identification of an IP packet that the package answers with, which the spec does
not state. A free value. -/
opaque ipOpen : Nat → BitVec 8 × BitVec 16

/-- The controlled value in mW that the governor predicts for a package with one domain one operating point higher
(R461). A free value. -/
opaque predictedMw : Nat → Nat

/-- Bytes of a fuse- or firmware-provided object that the spec does not state. A free value. -/
opaque fuseByte : Nat → BitVec 8

/-- A byte that a copy of overlapping ranges leaves where the spec defines no result (R115). A free value. -/
opaque copyByte : Nat → BitVec 8

/-- A byte that an append leaves in a page to which another tile appends at the same time (R273). A free value. -/
opaque appendByte : Nat → BitVec 8

/-- What a split step of a loaded pattern gives where the input is zero or infinite and Table 7.8 states no value:
the w value as an X40 code and the k value, by the step and the input's code. A free value. -/
opaque splitValue : Nat → Nat → BitVec 40 × BitVec 32

/-- Whether a page walker uses the new entry where its look-aside buffer holds an old one (R267). A free value. -/
opaque plbFresh : Nat → Bool

/-- What RECOMPUTE writes where the row's sum gives no quotient (R246 states none). A free value. -/
opaque probFree : Nat → BitVec 32

/-- The MAC address to which a packet for an IP address goes, which neighbour discovery or ARP finds (R360). A free value. -/
opaque neighbour : BitVec 128 → BitVec 48

/-- The bytes that the receive buffer of a priority outside PFC_MASK holds (R364 gives a size for the others). A free
value. -/
opaque lossyBuffer : Nat

/-- The manufacturer identity of the JTAG device identification register, the same on every part (R543). A free value. -/
opaque manufacturer : BitVec 11

/-- Whether a core's cache writes its dirty bytes back after an access (R348 orders it only by cache operations, which no
command carries). A free value. -/
opaque cacheOut : Nat → Bool

end Sys2Proof.Config
end

