-- ==== Sys2Proof/Machine/Crypto.lean ====
section
/-! DEFINITION. SHA-256, HMAC-SHA-256, the frame check sequences and the slab code. -/

namespace Sys2Proof.Machine

/-- The words of a number of `32 n` bits, most significant first. -/
def wordsOf (n v : Nat) : List W32 := (List.range n).map (fun i => BitVec.ofNat 32 (v >>> (32 * (n - 1 - i))))

/-- Eight round constants of SHA-256 as one number, by the eighth of the rounds they serve. -/
def roundKeys : Nat → Nat
  | 0 => 0x428a2f9871374491b5c0fbcfe9b5dba53956c25b59f111f1923f82a4ab1c5ed5
  | 1 => 0xd807aa9812835b01243185be550c7dc372be5d7480deb1fe9bdc06a7c19bf174
  | 2 => 0xe49b69c1efbe47860fc19dc6240ca1cc2de92c6f4a7484aa5cb0a9dc76f988da
  | 3 => 0x983e5152a831c66db00327c8bf597fc7c6e00bf3d5a7914706ca635114292967
  | 4 => 0x27b70a852e1b21384d2c6dfc53380d13650a7354766a0abb81c2c92e92722c85
  | 5 => 0xa2bfe8a1a81a664bc24b8b70c76c51a3d192e819d6990624f40e3585106aa070
  | 6 => 0x19a4c1161e376c082748774c34b0bcb5391c0cb34ed8aa4a5b9cca4f682e6ff3
  | _ => 0x748f82ee78a5636f84c878148cc7020890befffaa4506cebbef9a3f7c67178f2

/-- The hash value from which SHA-256 starts. -/
def hashStart : List W32 :=
  wordsOf 8 0x6a09e667bb67ae853c6ef372a54ff53a510e527f9b05688c1f83d9ab5be0cd19

/-- A word turned right by three amounts, added without carry; the last is a shift where `short` says so. -/
def mix3 (short : Bool) (i j k : Nat) (x : W32) : W32 :=
  x.rotateRight i ^^^ x.rotateRight j ^^^ (if short then x >>> k else x.rotateRight k)

/-- A round on the eight working words, `n` the sum of its constant and its message word. -/
def hashRound (st : List W32) (n : W32) : List W32 :=
  match st with
  | [p, q, r, s, t, u, v, w] =>
    let up := w + n + mix3 false 6 11 25 t + (v ^^^ (t &&& (u ^^^ v)))
    [up + mix3 false 2 13 22 p + ((p &&& q) ||| (r &&& (p ||| q))), p, q, r, s + up, t, u, v]
  | _ => st

/-- Rounds with the constants given; `win` holds the next sixteen message words, and each round appends the one that follows
them. -/
def hashRounds : List W32 → List W32 × List W32 → List W32 × List W32
  | [], x => x
  | k :: ks, (st, win) =>
    let m := win.headD 0
    let next := m + mix3 true 7 18 3 (win.getD 1 0) + win.getD 9 0 + mix3 true 17 19 10 (win.getD 14 0)
    hashRounds ks (hashRound st (k + m), win.drop 1 ++ [next])

/-- The hash value after a further block of 64 bytes. -/
def hashBlock (st block : List W32) : List W32 :=
  let x := (List.range 8).foldl (fun x q => hashRounds (wordsOf 8 (roundKeys q)) x) (st, block)
  List.zipWith (· + ·) st x.1

/-- Big-endian value of a byte list. -/
def beNat (bs : List Byte) : Nat := bs.foldl (fun v b => v * 256 + b.toNat) 0

/-- `n` big-endian bytes of a value. -/
def beBytes : Nat → Nat → List Byte
  | 0, _ => []
  | n + 1, v => BitVec.ofNat 8 (v / 256 ^ n) :: beBytes n v

/-- Cut a list into pieces of `n` (fuel: the length of the list). -/
def chunksFuel {α : Type} (n : Nat) : Nat → List α → List (List α)
  | 0, _ => []
  | _, [] => []
  | k + 1, l => l.take n :: chunksFuel n k (l.drop n)

def chunks {α : Type} (n : Nat) (l : List α) : List (List α) := chunksFuel n l.length l

/-- SHA-256 of a byte string, 32 bytes. -/
def sha256 (m : List Byte) : List Byte :=
  let whole := m ++ 0x80 :: List.replicate ((55 + 64 - m.length % 64) % 64) 0 ++ beBytes 8 (m.length * 8)
  ((chunks 64 whole).foldl (fun st b => hashBlock st (wordsOf 16 (beNat b))) hashStart).flatMap (fun w => beBytes 4 w.toNat)

/-- SHA-256 as a 256-bit number, most significant byte first. -/
def sha256v (m : List Byte) : BitVec 256 := BitVec.ofNat 256 (beNat (sha256 m))

/-- HMAC-SHA-256 with a 32-byte key. -/
def hmac (key : BitVec 256) (m : List Byte) : List Byte :=
  let k := beBytes 32 key.toNat ++ List.replicate 32 0
  sha256 (k.map (· ^^^ 0x5c) ++ sha256 (k.map (· ^^^ 0x36) ++ m))

/-- The first 16 bytes of HMAC-SHA-256 (R332). -/
def mac16 (key : BitVec 256) (m : List Byte) : List Byte := (hmac key m).take 16

/-- CRC-32 of IEEE 802.3, reflected, over a byte string. -/
def crc32 (bs : List Byte) : W32 :=
  let step := fun (c : W32) => if c &&& 1 = 1 then (c >>> 1) ^^^ 0xEDB88320 else c >>> 1
  ~~~ bs.foldl (fun (c : W32) b =>
    let c := c ^^^ b.setWidth 32
    step (step (step (step (step (step (step (step c)))))))) 0xFFFFFFFF

/-- A 16-bit CRC, most significant bit first, with its polynomial and its start value. -/
def crc16 (poly init : BitVec 16) (bs : List Byte) : BitVec 16 :=
  let step := fun (c : BitVec 16) => if c &&& 0x8000 = 0 then c <<< (1 : Nat) else (c <<< (1 : Nat)) ^^^ poly
  bs.foldl (fun (c : BitVec 16) b =>
    let c := c ^^^ (BitVec.setWidth 16 b <<< (8 : Nat))
    step (step (step (step (step (step (step (step c)))))))) init

/-- Multiplication by x in GF(2⁸) with polynomial x⁸ + x⁴ + x³ + x² + 1 (R291). -/
def gfX (a : Byte) : Byte := if a &&& 0x80 = 0 then a <<< 1 else (a <<< 1) ^^^ 0x1D

/-- Multiplication by α^q. -/
def gfPow : Nat → Byte → Byte
  | 0, a => a
  | q + 1, a => gfPow q (gfX a)

/-- The check symbols 65, 66 and 67 of a codeword whose check symbols differ from the right ones by `e` decide
its three syndromes (R292). -/
def syndromes (e : BitVec 24) : Byte × Byte × Byte :=
  let e65 := (e >>> 16).setWidth 8
  let e66 := (e >>> 8).setWidth 8
  let e67 := e.setWidth 8
  (e65 ^^^ e66 ^^^ e67, gfPow 2 e65 ^^^ gfPow 1 e66 ^^^ e67, gfPow 4 e65 ^^^ gfPow 2 e66 ^^^ e67)

/-- What the controller finds in a codeword it reads (R292). -/
inductive CwRead where
  | clean
  | corrected (symbol : Nat) (diff : Byte)
  | uncorrectable
  deriving DecidableEq, Repr

/-- The search of R292 for q from `q` to 67, with S1 and S2 of the trial advanced by α each time. -/
def cwSearch : Nat → Nat → Byte → Byte → Byte × Byte × Byte → CwRead
  | 0, _, _, _, _ => .uncorrectable
  | k + 1, q, t1, t2, s =>
    if t1 = s.2.1 ∧ t2 = s.2.2 then .corrected (67 - q) s.1
    else cwSearch k (q + 1) (gfX t1) (gfX (gfX t2)) s

/-- R292 on a codeword whose check symbols differ by `e` from those of its content. -/
def cwDecode (e : BitVec 24) : CwRead :=
  let s := syndromes e
  if s = (0, 0, 0) then .clean
  else if s.1 = 0 then .uncorrectable
  else cwSearch 68 0 s.1 s.1 s

end Sys2Proof.Machine
end

