-- ==== Sys2Proof/Machine/Formats.lean ====
section
/-! DEFINITION. Number formats, scales, rounding and the per-lane generator (spec/02_number_formats.md). -/

namespace Sys2Proof.Machine

/-- A number as every unit reads it: a signed dyadic value, an infinity or a NaN (NaN sign and payload are
not carried, R35). A zero keeps its sign. -/
inductive Num where
  | nan
  | inf (neg : Bool)
  | fin (neg : Bool) (mag : Nat) (exp : Int)
  deriving DecidableEq, Repr

/-- Counts of the events of Table 2.10 (orders 1 to 5) and Table 3.11. -/
structure Evc where
  qNan : Nat := 0
  qInf : Nat := 0
  sat : Nat := 0
  readOvf : Nat := 0
  flush : Nat := 0
  aovf : Nat := 0
  vanish : Nat := 0
  trunc : Nat := 0
  seamOvf : Nat := 0
  deriving DecidableEq, Repr

/-- Sum of two event counts. -/
def Evc.add (a b : Evc) : Evc :=
  { qNan := a.qNan + b.qNan, qInf := a.qInf + b.qInf, sat := a.sat + b.sat, readOvf := a.readOvf + b.readOvf,
    flush := a.flush + b.flush, aovf := a.aovf + b.aovf, vanish := a.vanish + b.vanish,
    trunc := a.trunc + b.trunc, seamOvf := a.seamOvf + b.seamOvf }

/-- The storage formats of Table 2.1. -/
inductive Fmt where
  | f32 | f19 | bf16 | f16 | f8m | f8e | f4 | int8 | int4
  deriving DecidableEq, Repr

/-- Table 2.1: the format of a 4-bit code; codes 0x9 to 0xF are not used (R28). -/
def Fmt.ofCode : Nat → Option Fmt
  | 0 => some .f32 | 1 => some .f19 | 2 => some .bf16 | 3 => some .f16 | 4 => some .f8m | 5 => some .f8e
  | 6 => some .f4 | 7 => some .int8 | 8 => some .int4 | _ => none

/-- Table 2.1: the code of a format. -/
def Fmt.code : Fmt → Nat
  | .f32 => 0 | .f19 => 1 | .bf16 => 2 | .f16 => 3 | .f8m => 4 | .f8e => 5 | .f4 => 6 | .int8 => 7 | .int4 => 8

/-- Width classes of Table 2.1, ordered wide, 8-bit, 4-bit. -/
inductive WClass where
  | wide | c8 | c4
  deriving DecidableEq, Repr

def Fmt.wclass : Fmt → WClass
  | .f32 | .f19 | .bf16 | .f16 => .wide
  | .f8m | .f8e | .int8 => .c8
  | .f4 | .int4 => .c4

/-- Bits of one element in memory (F19 is held in 32, R32). -/
def Fmt.bits : Fmt → Nat
  | .f32 | .f19 => 32
  | .bf16 | .f16 => 16
  | .f8m | .f8e | .int8 => 8
  | .f4 | .int4 => 4

def Fmt.scaled : Fmt → Bool
  | .f8m | .f8e | .f4 | .int8 | .int4 => true
  | _ => false

/-- Bytes of `n` packed elements (R40: two 4-bit elements a byte, an odd last nibble padded). -/
def Fmt.bytes (f : Fmt) (n : Nat) : Nat := (n * f.bits + 7) / 8

/-- The wider class of two (R64). -/
def WClass.wider : WClass → WClass → WClass
  | .wide, _ | _, .wide => .wide
  | .c8, _ | _, .c8 => .c8
  | .c4, .c4 => .c4

/-- Products per cell per step of a pass class (Table 2.12). -/
def WClass.perStep : WClass → Nat
  | .wide => 1 | .c8 => 4 | .c4 => 16

/-- The window width W of a pass class (R64). -/
def WClass.window : WClass → Nat
  | .wide => 24 | .c8 => 12 | .c4 => 6

/-- Fraction bits p (Table 2.7; 0 for the integers, R54). -/
def Fmt.p : Fmt → Nat
  | .f32 => 23 | .f19 => 10 | .bf16 => 7 | .f16 => 10 | .f8m => 3 | .f8e => 2 | .f4 => 1 | .int8 | .int4 => 0

/-- emin of Table 2.7. -/
def Fmt.emin : Fmt → Int
  | .f32 | .f19 | .bf16 => -126
  | .f16 => -14 | .f8m => -6 | .f8e => -14 | .f4 => 0 | .int8 | .int4 => 0

/-- Exponent of the largest finite value. -/
def Fmt.emax : Fmt → Int
  | .f32 | .f19 | .bf16 => 127
  | .f16 => 15 | .f8m => 8 | .f8e => 15 | .f4 => 2 | .int8 => 6 | .int4 => 2

/-- Eₘₐₓ of Table 2.6, the exponent of the format's top binade. -/
def Fmt.eTop (f : Fmt) : Int := f.emax

def Fmt.hasSub : Fmt → Bool
  | .f16 | .f8m | .f8e | .f4 => true
  | _ => false

def Fmt.hasInf : Fmt → Bool
  | .f32 | .f19 | .bf16 | .f16 | .f8e => true
  | _ => false

def Fmt.isInt : Fmt → Bool
  | .int8 | .int4 => true
  | _ => false

/-- Bits of the exponent field. -/
def Fmt.ebits : Fmt → Nat
  | .f32 | .f19 | .bf16 => 8
  | .f16 => 5 | .f8m => 4 | .f8e => 5 | .f4 => 2 | .int8 | .int4 => 0

/-- The position of the sign bit. -/
def Fmt.signPos (f : Fmt) : Nat := match f with
  | .int8 => 7
  | .int4 => 3
  | f => f.p + f.ebits

/-- Canonical NaN (R35, Table 2.3, Table 2.4). -/
def Fmt.nanCode : Fmt → Nat
  | .f32 => 0x7FC00000 | .f19 => 0x3FE00 | .bf16 => 0x7FC0 | .f16 => 0x7E00 | .f8m => 0x80 | .f8e => 0x7E
  | .f4 => 0x8 | .int8 | .int4 => 0

/-- Infinity of a sign; formats without infinity have no such code (their canonical NaN is given). -/
def Fmt.infCode (f : Fmt) (neg : Bool) : Nat :=
  if f.hasInf then ((2 ^ f.ebits - 1) <<< f.p) + (if neg then 2 ^ f.signPos else 0) else f.nanCode

/-- signed_zero of R53; +0 in F8M, F4 (R54) and the integers. -/
def Fmt.zeroCode (f : Fmt) (neg : Bool) : Nat :=
  match f with
  | .f8m | .f4 | .int8 | .int4 => 0
  | _ => if neg then 2 ^ f.signPos else 0

/-- Two's-complement reading of an n-bit code. -/
def toSigned (n : Nat) (c : Nat) : Int :=
  let v := c % 2 ^ n
  if v < 2 ^ (n - 1) then (v : Int) else (v : Int) - (2 ^ n : Nat)

/-- Two's-complement code of an integer in n bits. -/
def ofSigned (n : Nat) (v : Int) : Nat := (v % (2 ^ n : Nat)).toNat

/-- The value of a code as read by an operand port (R31 to R39), and whether a subnormal was flushed (R33). -/
def Fmt.decode (f : Fmt) (code : Nat) : Num × Bool :=
  match f with
  | .int8 => let v := toSigned 8 code; (.fin (v < 0) v.natAbs 0, false)
  | .int4 => let v := toSigned 4 code; (.fin (v < 0) v.natAbs 0, false)
  | .f8m =>
    if code % 256 = 0x80 then (.nan, false) else
    let e := code / 8 % 16; let fr := code % 8
    let neg := code / 128 % 2 = 1
    if e = 0 then (.fin neg fr (-9), false) else (.fin neg (8 + fr) ((e : Int) - 10), false)
  | .f4 =>
    if code % 16 = 8 then (.nan, false) else
    let e := code / 2 % 4; let fr := code % 2
    let neg := code / 8 % 2 = 1
    if e = 0 then (.fin neg fr (-1), false) else (.fin neg (2 + fr) ((e : Int) - 2), false)
  | _ =>
    let e := (code >>> f.p) % 2 ^ f.ebits
    let fr := code % 2 ^ f.p
    let neg := (code >>> f.signPos) % 2 = 1
    if e = 2 ^ f.ebits - 1 then (if fr = 0 then .inf neg else .nan, false)
    else if e = 0 then
      if f.hasSub then (.fin neg fr (f.emin - f.p), false) else (.fin neg 0 0, fr ≠ 0)
    else (.fin neg (2 ^ f.p + fr) ((e : Int) - 1 + f.emin - f.p), false)

/-- The rounding modes of R51. -/
inductive Rnd where
  | rne | trunc | stoch
  deriving DecidableEq, Repr

/-- 2^e as a numerator and a denominator. -/
def pow2 (e : Int) : Nat × Nat := if e ≥ 0 then (2 ^ e.toNat, 1) else (1, 2 ^ (-e).toNat)

/-- ⌊log₂ (num / den)⌋ for positive num and den. -/
def floorLog2 (num den : Nat) : Int :=
  let k : Int := (num.log2 : Int) - (den.log2 : Int)
  let (a, b) := pow2 k
  if num * b ≥ den * a then k else k - 1

/-- The rounded integer q of R53 for the magnitude num/den: nearest even, truncation, or up exactly when the
first R_BITS bits of the draw lie below those of the discarded fraction (R51, R52). -/
def roundQ (num den : Nat) (mode : Rnd) (rb u : Nat) : Nat :=
  let q := num / den
  let r := num % den
  match mode with
  | .trunc => q
  | .rne => if 2 * r > den ∨ (2 * r = den ∧ q % 2 = 1) then q + 1 else q
  | .stoch => if (u >>> (64 - rb)) < (r * 2 ^ rb) / den then q + 1 else q

/-- The sign and finite magnitude q × 2^(e−p) as a code (R53 encode). -/
def Fmt.encode (f : Fmt) (neg : Bool) (q : Nat) (e : Int) : Nat :=
  if f.isInt then ofSigned (f.signPos + 1) (if neg then -(q : Int) else q)
  else
    let (q, e) := if q ≥ 2 ^ (f.p + 1) then (q / 2, e + 1) else (q, e)
    (if neg then 2 ^ f.signPos else 0) + ((e - f.emin).toNat <<< f.p) + q

/-- The largest finite code of a sign. -/
def Fmt.maxCode (f : Fmt) (neg : Bool) : Nat :=
  match f with
  | .int8 => ofSigned 8 (if neg then -127 else 127)
  | .int4 => ofSigned 4 (if neg then -7 else 7)
  | f => f.encode neg (2 ^ (f.p + 1) - 1) f.emax

/-- Does q × 2^(e−p) exceed the format's largest finite value? -/
def Fmt.above (f : Fmt) (q : Nat) (e : Int) : Bool :=
  match f with
  | .int8 => q > 127
  | .int4 => q > 7
  | f => q ≠ 0 ∧ (q.log2 : Int) + e - f.p > f.emax

/-- The conversion procedure of R53 and R54 on a finite magnitude num/den × 2^exp (num may be 0), with the
draw `u` made by the caller. -/
def convertFin (f : Fmt) (neg : Bool) (num den : Nat) (exp : Int) (mode : Rnd) (rb u : Nat) (quant : Bool) :
    Nat × Evc :=
  if num = 0 then (f.zeroCode neg, {})
  else
    let l := floorLog2 num den + exp
    if !f.isInt && !f.hasSub && l < f.emin then (f.zeroCode neg, { flush := 1 })
    else
      let e := if f.isInt then 0 else max l f.emin
      let (a, b) := pow2 (exp + f.p - e)
      let q := roundQ (num * a) (den * b) mode rb u
      if f.above q e then
        if f.hasInf && mode ≠ .trunc && !quant then (f.infCode neg, {})
        else (f.maxCode neg, { sat := 1 })
      else if q = 0 then (f.zeroCode neg, { flush := 1 })
      else (f.encode neg q e, {})

/-- convert of R53. -/
def convert (f : Fmt) (x : Num) (mode : Rnd) (rb u : Nat) (quant : Bool) : Nat × Evc :=
  match x with
  | .nan => (f.nanCode, {})
  | .inf neg => (f.infCode neg, {})
  | .fin neg mag exp => convertFin f neg mag 1 exp mode rb u quant

/-- Round a number to a working format under nearest even, as a value again. -/
def roundTo (f : Fmt) (x : Num) : Num × Evc :=
  let (c, ev) := convert f x .rne 12 0 false
  ((f.decode c).1, ev)

/-- A working-format value as its code. -/
def Num.toCode (f : Fmt) (x : Num) : Nat := (convert f x .rne 12 0 false).1

/-- The exact product of two numbers (infinity times zero is NaN). -/
def Num.mul : Num → Num → Num
  | .nan, _ | _, .nan => .nan
  | .inf a, .inf b => .inf (a != b)
  | .inf a, .fin b m _ => if m = 0 then .nan else .inf (a != b)
  | .fin b m _, .inf a => if m = 0 then .nan else .inf (a != b)
  | .fin a m e, .fin b n g => .fin (a != b) (m * n) (e + g)

def Num.neg : Num → Num
  | .nan => .nan
  | .inf a => .inf (!a)
  | .fin a m e => .fin (!a) m e

/-- The exact signed integer of a finite value on the grid 2^g (g at or below its exponent). -/
def finInt (neg : Bool) (mag : Nat) (exp g : Int) : Int :=
  let v : Int := (mag * 2 ^ (exp - g).toNat : Nat)
  if neg then -v else v

/-- The exact sum; a zero sum of opposite signs is +0, of two −0 is −0 (IEEE 754 under nearest even). -/
def Num.add : Num → Num → Num
  | .nan, _ | _, .nan => .nan
  | .inf a, .inf b => if a = b then .inf a else .nan
  | .inf a, .fin _ _ _ => .inf a
  | .fin _ _ _, .inf a => .inf a
  | .fin a m e, .fin b n g =>
    if m = 0 ∧ n = 0 then .fin (a && b) 0 0
    else
      let k := min e g
      let s := finInt a m e k + finInt b n g k
      .fin (s < 0) s.natAbs k

def Num.sub (x y : Num) : Num := x.add y.neg

def Num.isNan : Num → Bool
  | .nan => true
  | _ => false

def Num.isInf : Num → Bool
  | .inf _ => true
  | _ => false

def Num.isZero : Num → Bool
  | .fin _ m _ => m = 0
  | _ => false

def Num.isNeg : Num → Bool
  | .nan => false
  | .inf n => n
  | .fin n _ _ => n

/-- +0. -/
def Num.zero : Num := .fin false 0 0
/-- 1. -/
def Num.one : Num := .fin false 1 0

/-- The order of R57 on numbers that are not NaN: −inf < negative < −0 < +0 < positive < +inf. -/
def Num.lt (x y : Num) : Bool :=
  match x, y with
  | .nan, _ | _, .nan => false
  | .inf a, .inf b => a && !b
  | .inf a, .fin _ _ _ => a
  | .fin _ _ _, .inf b => !b
  | .fin a m e, .fin b n g =>
    if m = 0 ∧ n = 0 then a && !b
    else
      let k := min e g
      finInt a m e k < finInt b n g k

/-- The larger of two by Table 2.11. -/
def Num.max (x y : Num) : Num :=
  if x.isNan || y.isNan then .nan else if x.lt y then y else x

/-- The smaller of two by Table 2.11. -/
def Num.min (x y : Num) : Num :=
  if x.isNan || y.isNan then .nan else if y.lt x then y else x

/-- Division of a number by a positive finite one, correctly rounded to F32 nearest even (R45 step 1);
other divisors follow the infinity rules of IEEE 754. -/
def divF32 (x c : Num) : Num × Evc :=
  match x, c with
  | .nan, _ | _, .nan => (.nan, {})
  | .inf _, .inf _ => (.nan, {})
  | .inf a, .fin b _ _ => (.inf (a != b), {})
  | .fin a _ _, .inf b => (.fin (a != b) 0 0, {})
  | .fin a m e, .fin b n g =>
    if n = 0 then (if m = 0 then .nan else .inf (a != b), {})
    else
      let (code, ev) := convertFin .f32 (a != b) m n (e - g) .rne 12 0 false
      ((Fmt.f32.decode code).1, ev)

/-- The coarse scale must be a positive normal F32 value (R43). -/
def coarseOk (c : Nat) : Bool :=
  let e := (c >>> 23) % 256
  c < 2 ^ 31 && e ≠ 0 && e ≠ 255

/-- A coarse scale as a number. -/
def coarseNum (c : Nat) : Num := (Fmt.f32.decode c).1

/-- The element value of R65 of a scaled format: the payload times its fine scale, without the coarse scale;
zero blocks read +0 and NaN blocks NaN (R42), and a bad coarse scale makes every element NaN (R43). -/
def scaledElem (f : Fmt) (bad : Bool) (e8 payload : Nat) : Num :=
  if bad || e8 = 0xFF then .nan
  else if e8 = 0 then .zero
  else match (f.decode payload).1 with
    | .fin neg m e => .fin neg m (e + (e8 : Int) - 127)
    | x => x

/-- F32 entering F19 by ENTRY_RND (Table 2.8). -/
def f32ToF19 (code : Nat) (rne : Bool) : Num × Evc :=
  let (x, fl) := Fmt.f32.decode code
  let (c, ev) := convert .f19 x (if rne then .rne else .trunc) 12 0 false
  ((Fmt.f19.decode c).1, if fl then { flush := 1 } else ev)

/-- The element value of R65 of one stored element, with its flush event (R33). -/
def elemValue (f : Fmt) (entryRne : Bool) (bad : Bool) (e8 code : Nat) : Num × Evc :=
  match f with
  | .f32 => f32ToF19 code entryRne
  | .f19 | .bf16 | .f16 => let (x, fl) := f.decode code; (x, if fl then { flush := 1 } else {})
  | _ => (scaledElem f bad e8 code, {})

/-- One element as read outside the array into a working format (R44, Table 2.8): a scaled element is the
exact product of its scales and payload rounded once, nearest even. -/
def readElem (work f : Fmt) (entryRne : Bool) (coarse : Option Nat) (e8 code : Nat) : Num × Evc :=
  match f with
  | .f32 =>
    if work = .f19 then f32ToF19 code entryRne
    else let (x, fl) := f.decode code; (x, if fl then { flush := 1 } else {})
  | .f19 | .bf16 | .f16 => let (x, fl) := f.decode code; (x, if fl then { flush := 1 } else {})
  | _ =>
    let bad := match coarse with | some c => !coarseOk c | none => false
    let c := match coarse with | some c => coarseNum c | none => .one
    match scaledElem f bad e8 code with
    | .fin neg m e =>
      let (y, ev) := roundTo work (Num.mul c (.fin neg m e))
      (y, if y.isInf then { readOvf := 1 } else ev)
    | x => (x, {})

/-- R46: the fine exponent of a block whose largest finite magnitude is num × 2^exp (num > 0). -/
def quantExp (f : Fmt) (num : Nat) (exp : Int) : Int :=
  let e := floorLog2 num 1 + exp
  let s := e - f.eTop
  let x := exp - s
  let l := if f.isInt then (0 : Int) else max (floorLog2 num 1 + x) f.emin
  let (a, b) := pow2 (x + f.p - l)
  let s := if f.above (roundQ (num * a) b .rne 12 0) l then s + 1 else s
  max (-126) (min 127 s)

/-- The larger of two finite magnitudes. -/
def maxMag (a b : Nat × Int) : Nat × Int :=
  let k := min a.2 b.2
  if a.1 * 2 ^ (a.2 - k).toNat < b.1 * 2 ^ (b.2 - k).toNat then b else a

/-- The quantiser on one block (R45 to R50): E8, the element codes and the events. `us` holds the draw of each
position (read only under stochastic rounding). A block with an infinity counts as a NaN block too, as step 3 says. DESIGN
CHOICE (log 133): in steps 2 and 3 a quotient that flushed in step 1 is not counted besides, since those steps write no
element of it. -/
def quantBlock (f : Fmt) (mode : Rnd) (rb : Nat) (coarse : Num) (xs : List Num) (us : List Nat) :
    Nat × List Nat × Evc :=
  let ds := xs.map (divF32 · coarse)
  let ys := ds.map (·.1)
  if ys.any Num.isNan then (0xFF, xs.map (fun _ => 0), { qNan := 1 })
  else if f ≠ .f8e && ys.any Num.isInf then (0xFF, xs.map (fun _ => 0), { qNan := 1, qInf := 1 })
  else
    let m := ys.foldl (fun m y => match y with | .fin _ n e => maxMag m (n, e) | _ => m) (0, 0)
    let lost := ds.foldl (fun ev d => ev.add { flush := d.2.flush }) {}
    if m.1 = 0 then
      if ys.any Num.isInf then (0x7F, ys.map (fun y => match y with
        | .inf neg => f.infCode neg
        | y => f.zeroCode y.isNeg), {})
      else (0x00, xs.map (fun _ => 0), lost)
    else
      let s := quantExp f m.1 m.2
      let one := fun (p : Num × Nat) => match p.1 with
        | .fin neg n e => convertFin f neg n 1 (e - s) mode rb p.2 true
        | .inf neg => (f.infCode neg, ({} : Evc))
        | .nan => (f.nanCode, {})
      let cs := (ys.zip us).map one
      ((s + 127).toNat, cs.map (·.1), cs.foldl (fun ev c => ev.add c.2) lost)

/-- One draw of a lane's generator (R58): the next state and the output. -/
def nextOutput (s : W64) : W64 × W64 :=
  let s := s * 0x9E6C63D0676A9A99 + 0x6A3C17E5B082C4F1
  let x := s
  let x := x ^^^ (x >>> 29)
  let x := x * 0xA24BAED4963EE407
  let x := x ^^^ (x >>> 32)
  (s, x)

/-- mix of R59. -/
def mix (z : W64) : W64 :=
  let z := z ^^^ (z >>> 31)
  let z := z * 0xC3A5C85C97CB3127
  let z := z ^^^ (z >>> 27)
  let z := z * 0x8E2F51D90B76A4E5
  z ^^^ (z >>> 33)

/-- The seed of one lane's generator at the start of a descriptor (R59). -/
def laneSeed (seed : W64) (dseq : W32) (tile lane : Nat) : W64 :=
  mix (seed ^^^ mix (BitVec.ofNat 64 ((dseq.toNat <<< 16) + (tile <<< 8) + lane)))

/-- `n` draws of one lane from a state, in order, with the state after them. -/
def draws : Nat → W64 → List Nat × W64
  | 0, s => ([], s)
  | n + 1, s =>
    let (s, x) := nextOutput s
    let (l, s) := draws n s
    (x.toNat :: l, s)

/-- The generators of one descriptor, lane number to state; a lane not listed is at its seed. -/
structure Gens where
  seed : W64
  dseq : W32
  tile : Nat
  lanes : SMap (Option W64) := []
  deriving DecidableEq, Repr

/-- Draw once from a lane (R52). -/
def Gens.draw (g : Gens) (lane : Nat) : Nat × Gens :=
  let s := match g.lanes.get none lane with
    | some s => s
    | none => laneSeed g.seed g.dseq g.tile lane
  let (s, x) := nextOutput s
  (x.toNat, { g with lanes := g.lanes.set none lane (some s) })

/-- A decoded format specifier (Table 2.2). -/
structure FSpec where
  fmt : Fmt
  rnd : Rnd
  entryRne : Bool
  unitScale : Bool
  rb : Nat
  coarse : Nat
  deriving DecidableEq, Repr

/-- The coarse scale that a read applies: none under UNIT_SCALE or for an unscaled format. -/
def FSpec.readCoarse (f : FSpec) : Option Nat :=
  if f.fmt.scaled && !f.unitScale then some f.coarse else none

/-- A read of this tensor would find a coarse scale refused by R43. -/
def FSpec.badScale (f : FSpec) : Bool :=
  match f.readCoarse with
  | some c => !coarseOk c
  | none => false

/-- The coarse scale as the factor of R80 (1.0 for an unscaled operand or UNIT_SCALE). -/
def FSpec.coarseFactor (f : FSpec) : Num :=
  match f.readCoarse with
  | some c => if coarseOk c then coarseNum c else .nan
  | none => .one

/-- Little-endian value of a byte list. -/
def leNat : List Nat → Nat
  | [] => 0
  | b :: bs => b + 256 * leNat bs

/-- `n` little-endian bytes of a value. -/
def leBytes : Nat → Nat → List Nat
  | 0, _ => []
  | n + 1, v => v % 256 :: leBytes n (v / 256)

/-- The fields of Table 2.2 for a format, whatever else is malformed about the specifier. -/
def FSpec.of (f : Fmt) (v : Nat) : FSpec :=
  let rb := v / 256 % 32
  { fmt := f, rnd := match v / 16 % 4 with | 0 => .rne | 1 => .trunc | _ => .stoch,
    entryRne := v / 64 % 2 = 1, unitScale := v / 128 % 2 = 1, rb := if rb = 0 then 12 else rb, coarse := v / 2 ^ 32 }

/-- The fields of a specifier that names a format of Table 2.1, by which its tensor can be walked. -/
def FSpec.loose (v : Nat) : Option FSpec := (Fmt.ofCode (v % 16)).map (fun f => FSpec.of f v)

/-- Table 2.2 read from its 8-byte value: `none` where it is malformed (R28, RND 0b11, RB, a reserved bit set;
a write of a scaled format with UNIT_SCALE, R30). -/
def FSpec.parse (v : Nat) (write : Bool) : Option FSpec :=
  match FSpec.loose v with
  | none => none
  | some f =>
    let rb := v / 256 % 32
    if v / 16 % 4 = 3 ∨ (rb ≠ 0 ∧ (rb < 4 ∨ rb > 16)) ∨ v / 8192 % 2 ^ 19 ≠ 0 ∨ (write ∧ f.fmt.scaled ∧ f.unitScale) then none
    else some f

end Sys2Proof.Machine
end

