-- ==== Sys2Proof/Machine/Align.lean ====
section
/-! DEFINITION. Alignment, special tags, accumulators and seam words (spec/03_order_free_arithmetic.md). -/

namespace Sys2Proof.Machine

/-- The special tag of R79. -/
inductive Tag where
  | fin | pinf | ninf | nan
  deriving DecidableEq, Repr

/-- The 2-bit code of a tag (R79). -/
def Tag.code : Tag → Nat
  | .fin => 0 | .pinf => 1 | .ninf => 2 | .nan => 3

def Tag.ofCode (c : Nat) : Tag :=
  match c % 4 with
  | 0 => .fin | 1 => .pinf | 2 => .ninf | _ => .nan

/-- Tag combination on addition (Table 3.7). -/
def Tag.add : Tag → Tag → Tag
  | .fin, t => t
  | t, .fin => t
  | .pinf, .pinf => .pinf
  | .ninf, .ninf => .ninf
  | _, _ => .nan

/-- The tag of one value. -/
def Num.tag : Num → Tag
  | .nan => .nan
  | .inf neg => if neg then .ninf else .pinf
  | .fin _ _ _ => .fin

/-- The tag of a product of two element values as read (Table 3.6): a non-zero element that vanishes at
alignment is not zero. -/
def prodTag (x y : Num) : Tag := (Num.mul x y).tag

/-- The alignment events one element can count (R71). -/
inductive AlEv where
  | none | aovf | vanish | trunc
  deriving DecidableEq, Repr

/-- One aligned element: the integer, the special tag and its event. -/
structure Aligned where
  n : Int
  tag : Tag
  ev : AlEv
  deriving DecidableEq, Repr

/-- align of R71 for a grid step 2^g and a largest magnitude `lim` (R72, R77). -/
def alignTo (v : Num) (g : Int) (lim : Nat) : Aligned :=
  match v with
  | .nan => ⟨0, .nan, .none⟩
  | .inf neg => ⟨0, if neg then .ninf else .pinf, .none⟩
  | .fin neg m e =>
    if m = 0 then ⟨0, .fin, .none⟩
    else
      let (a, b) := pow2 (e - g)
      let n := m * a / b
      let sg := fun (k : Nat) => if neg then -(k : Int) else (k : Int)
      if n > lim then ⟨sg lim, .fin, .aovf⟩
      else if n = 0 then ⟨0, .fin, .vanish⟩
      else if n * b ≠ m * a then ⟨sg n, .fin, .trunc⟩
      else ⟨sg n, .fin, .none⟩

/-- align of R71 on anchor `a` and window `w`. -/
def align (v : Num) (a : Int) (w : Nat) : Aligned := alignTo v (a + 1 - w) (2 ^ w - 1)

/-- One alignment event as a count. -/
def AlEv.count : AlEv → Evc
  | .none => {}
  | .aovf => { aovf := 1 }
  | .vanish => { vanish := 1 }
  | .trunc => { trunc := 1 }

/-- The grid exponent g of an accumulator (R74). -/
def accGrid (a b : Int) (w : Nat) : Int := a + b + 2 - 2 * w

/-- One accumulator of a bank: the 80-bit integer, the special tag and the flags of R78. -/
structure Acc where
  int : Int := 0
  tag : Tag := .fin
  trunc : Bool := false
  aovf : Bool := false
  poison : Bool := false
  deriving DecidableEq, Repr

/-- Add one product to an accumulator (R74, R79). -/
def Acc.addProduct (c : Acc) (n m : Int) (t : Tag) : Acc :=
  { c with int := c.int + n * m, tag := c.tag.add t }

/-- The F32, F19, BF16 or F16 code of an exact integer on a grid times coarse scales (R80). -/
def outConvert (f : Fmt) (int g : Int) (tag : Tag) (scale : Num) (mode : Rnd) (rb u : Nat) : Nat × Evc :=
  match tag with
  | .nan => (f.nanCode, {})
  | .pinf => if scale.isNan then (f.nanCode, {}) else (f.infCode false, {})
  | .ninf => if scale.isNan then (f.nanCode, {}) else (f.infCode true, {})
  | .fin =>
    if int = 0 ∧ !scale.isNan then (f.zeroCode false, {})
    else convert f (Num.mul (.fin (int < 0) int.natAbs g) scale) mode rb u false

/-- A seam word (Table 3.8). -/
structure Seam where
  int : Int
  tag : Int
  res : Nat
  special : Tag
  trunc : Bool
  aovf : Bool
  ovf : Bool
  poison : Bool
  deriving DecidableEq, Repr

/-- INT mod 255 as a mathematical residue (R81). -/
def res255 (i : Int) : Nat := (i % 255).toNat

/-- The seam word of an accumulator on grid g (R81). -/
def Acc.toSeam (c : Acc) (g : Int) : Seam :=
  { int := c.int, tag := g, res := res255 c.int, special := c.tag, trunc := c.trunc, aovf := c.aovf,
    ovf := false, poison := c.poison }

def bit (b : Bool) (n : Nat) : Nat := if b then 2 ^ n else 0

/-- The 128-bit value of a seam word (Table 3.8). -/
def Seam.toNat (s : Seam) : Nat :=
  ofSigned 96 s.int + ofSigned 16 s.tag * 2 ^ 96 + s.res * 2 ^ 112 + s.special.code * 2 ^ 120 +
    bit s.trunc 122 + bit s.aovf 123 + bit s.ovf 124 + bit s.poison 125

def tb (v n : Nat) : Bool := v / 2 ^ n % 2 = 1

/-- A seam word read from its 128-bit value. -/
def Seam.ofNat (v : Nat) : Seam :=
  { int := toSigned 96 v, tag := toSigned 16 (v / 2 ^ 96), res := v / 2 ^ 112 % 256,
    special := Tag.ofCode (v / 2 ^ 120), trunc := tb v 122, aovf := tb v 123, ovf := tb v 124, poison := tb v 125 }

/-- The residue check of R83 on a received word. -/
def Seam.resOk (s : Seam) : Bool := s.res = res255 s.int

/-- A received word, poisoned where its residue does not match (R83). -/
def Seam.check (s : Seam) : Seam := if s.resOk then s else { s with poison := true }

/-- seam_add of R82, with whether the residue comparison failed. -/
def seamAdd (a b : Seam) : Seam × Bool :=
  let t := min a.tag b.tag
  let da := (a.tag - t).toNat
  let db := (b.tag - t).toNat
  let ra := a.res * 2 ^ (da % 8) % 255
  let rb := b.res * 2 ^ (db % 8) % 255
  let s := a.int * (2 ^ da : Nat) + b.int * (2 ^ db : Nat)
  let lim : Int := (2 ^ 95 - 1 : Nat)
  let out := s > lim || s < -lim
  let int := if s > lim then lim else if s < -lim then -lim else s
  let ovf := a.ovf || b.ovf || out
  let bad := !ovf && res255 int ≠ (ra + rb) % 255
  ({ int := int, tag := t, res := res255 int, special := a.special.add b.special, trunc := a.trunc || b.trunc,
     aovf := a.aovf || b.aovf, ovf := ovf, poison := a.poison || b.poison || bad }, bad)

/-- Conversion of a seam word to a format (R86): a finite word with OVF set converts to the canonical NaN and
counts SEAM_OVF. -/
def Seam.convert (f : Fmt) (s : Seam) (scale : Num) (mode : Rnd) (rb u : Nat) : Nat × Evc :=
  if s.special = .fin && s.ovf then (f.nanCode, { seamOvf := 1 })
  else outConvert f s.int s.tag s.special scale mode rb u

/-- A seam word as a number (INT × 2^TAG, or its special value). -/
def Seam.num (s : Seam) : Num :=
  match s.special with
  | .nan => .nan
  | .pinf => .inf false
  | .ninf => .inf true
  | .fin => if s.ovf then .nan else .fin (s.int < 0) s.int.natAbs s.tag

/-- A decoded hem entry (Table 3.3). -/
structure Hem where
  maxExp : Int
  zero : Bool
  hasInf : Bool
  hasNan : Bool
  valid : Bool
  deriving DecidableEq, Repr

def Hem.ofNat (v : Nat) : Hem :=
  { maxExp := toSigned 10 v, zero := tb v 10, hasInf := tb v 11, hasNan := tb v 12, valid := tb v 15 }

def Hem.toNat (h : Hem) : Nat :=
  ofSigned 10 h.maxExp + bit h.zero 10 + bit h.hasInf 11 + bit h.hasNan 12 + bit h.valid 15

/-- The anchor of a hem entry, `none` where the entry is invalid (R68). -/
def Hem.anchor (h : Hem) : Option Int :=
  if !h.valid then none
  else if h.zero then some (-126)
  else if h.maxExp < -160 ∨ h.maxExp > 160 then none
  else some h.maxExp

/-- The hem entry of a row of element values (Table 3.3); `nanBlock` says that the row lies in a NaN block. -/
def hemOf (xs : List Num) : Hem :=
  let m := xs.foldl (fun m x => match x with
    | .fin _ n e => if n = 0 then m else
        let l := floorLog2 n 1 + e
        match m with
        | none => some l
        | some k => some (max k l)
    | _ => m) (none : Option Int)
  { maxExp := m.getD 0, zero := m.isNone, hasInf := xs.any Num.isInf, hasNan := xs.any Num.isNan, valid := true }

/-- Where a line's anchor comes from (Tables 3.1 and 3.2). -/
inductive AnchorSrc where
  | uniform (a : Int)
  | array (addr : Nat)
  | block
  | blockSpan (addr count : Nat)
  | hem (addr : Nat)
  deriving DecidableEq, Repr

/-- An anchor specifier read from its 8-byte value for an operand format (Table 3.1, SPEC_MALFORMED of
Table 3.13). Fields that its mode does not use are ignored (R11). -/
def AnchorSrc.parse (v : Nat) (f : Fmt) : Option AnchorSrc :=
  let addr := v / 2 ^ 32
  let a := toSigned 16 (v / 2 ^ 16)
  let count := v / 2 ^ 16 % 2 ^ 16 + v / 2 ^ 8 % 2 ^ 8 * 65536
  match v % 8 with
  | 0 => if a < -160 ∨ a > 160 then none else some (.uniform a)
  | 1 => if addr % 2 = 1 then none else some (.array addr)
  | 2 => if f.scaled then some .block else none
  | 3 => if f.scaled ∧ count ≠ 0 then some (.blockSpan addr count) else none
  | 4 => if addr % 2 = 1 then none else some (.hem addr)
  | _ => none

/-- The anchor of a line over its E8 bytes (R66 BLOCK, R67). -/
def blockAnchor (f : Fmt) (e8s : List Nat) : Int :=
  let m := e8s.foldl (fun m e => if e ≠ 0 ∧ e ≠ 0xFF then max m e else m) 0
  if m = 0 then f.eTop - 126 else f.eTop + (m : Int) - 127

end Sys2Proof.Machine
end

