-- ==== Sys2Proof/Machine/StateTile.lean ====
section
/-! DEFINITION. The state of a tile, of a slab, of a channel packet, of a ring and of a function. -/

namespace Sys2Proof.Machine

/-- Error registers of one block instance (R473, Tables 17.3 to 17.5). `crossing` is the pending class C
threshold crossing of R477. -/
structure ErrRegs where
  stat : W32 := 0
  first : W32 := 0
  ctl : W32 := 0xFFFF
  corr : Nat := 0
  uncorr : Nat := 0
  crossing : Bool := false
  deriving DecidableEq, Repr

/-- One event record (Table 18.2) as it is kept in a ring. -/
structure EvRec where
  time : Nat
  steps : W64
  seq : Nat
  block : Nat
  inst : Nat
  kind : Nat
  inj : Bool
  tacked : Bool
  resync : Bool
  fn : Option Nat
  payload : Nat
  deriving DecidableEq, Repr

/-- An event ring of 256 records, oldest first, with its next sequence number (R496). -/
structure EvRing where
  recs : List EvRec := []
  next : Nat := 0
  deriving DecidableEq, Repr

/-- Sequencer states (Table 4.1). -/
inductive SeqState where
  | empty | loaded | running | waiting | halted
  deriving DecidableEq, Repr

/-- What a sequencer in WAITING waits for (Table 4.12). -/
inductive Wait where
  | none
  | tally (id : Nat) (value : W32)
  | recv (ep : Nat) (rd : BitVec 5)
  | credit (ep : Nat) (addr : W64) (len : W64)
  | queue (q : EngQ) (slot : Nat)
  deriving DecidableEq, Repr

/-- Endpoint kinds (Table 4.10). -/
inductive EpKind where
  | unconf | send | recvInline | recvBulk
  deriving DecidableEq, Repr

/-- What a send endpoint holds of its peer's grant (R124). -/
inductive Grant where
  | none
  | slots (size : Nat)
  | bulk (size : Nat)
  deriving DecidableEq, Repr

/-- One of the 64 channel endpoints of a tile (Table 4.10, R124, R127). `lens` holds the lengths of the
messages that have arrived and have not been returned, oldest first; `arrived`, `returned` and `freed` count
messages; `part` is the first packet of a message of which more is to come, with its poison. -/
structure Endpoint where
  kind : EpKind := .unconf
  peerEp : Nat := 0
  peerVt : Nat := 0
  peerPkg : Nat := 0
  tally : Nat := 0
  tallyEn : Bool := false
  slotLog2 : Nat := 0
  slotsM1 : Nat := 0
  base : Nat := 0
  window : Nat := 0
  armed : Bool := false
  grant : Grant := .none
  credits : Nat := 0
  arrived : Nat := 0
  returned : Nat := 0
  freed : Nat := 0
  lens : List Nat := []
  part : Option (List Byte × Bool) := none
  deriving DecidableEq, Repr

/-- A descriptor as queued: its 64 or 128 bytes as a little-endian number, and the sequence number attached by
DISS (R108). -/
structure Desc where
  raw : Nat
  dseq : W32
  deriving DecidableEq, Repr

/-- The descriptor an engine runs. `anchCol` and `anchRow` are the anchors resolved when it started, which do not change
while it runs (R63, R70, R254); `begun` says that its first part has been done, or for a DMA descriptor that a slab
controller refused it while it ran (R286); `rows` are the OPA rows that have not taken their preload yet and `rowFlags` the flags of the
row lines of its pass; `acquired` says that a Gusset descriptor holds the array, VE and SFU (R232); `ack` that a BULK_SEND still
waits for its receiver (R126); `done` that every write is visible. -/
structure Run where
  desc : Desc
  done : Bool := false
  begun : Bool := false
  anchCol : SMap Int := []
  anchRow : SMap Int := []
  rows : W64 := 0
  rowFlags : SMap (BitVec 3) := []
  acquired : Bool := false
  ack : Bool := false
  deriving DecidableEq, Repr

/-- An engine queue of 16 descriptors (R107) and the descriptor that runs. -/
structure Eng where
  queue : List Desc := []
  run : Option Run := none
  deriving DecidableEq, Repr

/-- One accumulator (80 bits), its special tag, and whether its parity is wrong (R140, R141). -/
structure AccCell where
  int : BitVec 80 := 0
  tag : Tag := .fin
  parityBad : Bool := false
  deriving DecidableEq, Repr

/-- An accumulator bank and its bank record (Table 5.1). Line flags are TRUNC (bit 0), AOVF (bit 1) and POISON
(bit 2). Rows held for draining are `held` (Table 5.8). DESIGN CHOICE (log 9): a record that no pass has written holds coarse
scales 1.0, against which the first KEEP pass is checked, and N 1; R158 gives only ROW_VALID 0 and the image 0. -/
structure Bank where
  accs : SMap AccCell := []
  cls : WClass := .wide
  coarseCol : W32 := 0x3F800000
  coarseRow : W32 := 0x3F800000
  anchCol : SMap Int := []
  anchRow : SMap Int := []
  flagsCol : SMap (BitVec 3) := []
  flagsRow : SMap (BitVec 3) := []
  rowValid : W64 := 0
  n : Nat := 1
  hem : SMap (BitVec 16) := []
  held : W64 := 0
  deriving DecidableEq, Repr

/-- A page-table entry (Table 9.2). -/
structure PtEntry where
  addr : Nat
  fmt : Nat
  count : Nat
  valid : Bool
  poison : Bool
  dir : Bool
  rsvd : Bool
  tag : Nat
  deriving DecidableEq, Repr

/-- A page look-aside buffer entry (R265), with the slab address of the leaf entry it copies; the buffer lists the
least recently used entry first. -/
structure Plb where
  fn : Nat
  tag : Nat
  page : Nat
  root : Nat
  leaf : Nat
  entry : PtEntry
  deriving DecidableEq, Repr

/-- A loaded tile program image (Table 4.11) with its measurement. -/
structure Image where
  entry : Nat
  code : List Byte
  data : List Byte
  dataAddr : Nat
  digest : BitVec 256
  deriving DecidableEq, Repr

/-- Four launch arguments (R134). -/
structure Largs where
  a0 : W64 := 0
  a1 : W64 := 0
  a2 : W64 := 0
  a3 : W64 := 0
  deriving DecidableEq, Repr

/-- An SFU pattern image and its check report (R221, Table 7.9), kept in a pattern slot of a tile. -/
structure PatSlot where
  image : List Byte
  report : List Byte
  monotone : Bool
  deriving DecidableEq, Repr

/-- A tile. `mem` holds the tile store, the operand cache and the tile buffers by tile address (Table 4.6) and
`slots` the 16 descriptor slots; unlisted bytes read 0. `poison` marks 64-byte lines. `lacks` and `halts` count
the releases of launch arguments and the entries into HALTED, by which a LAUNCH completes (R320). -/
structure Tile where
  owner : Option Nat := none
  seq : SeqState := .empty
  wait : Wait := .none
  pc : Nat := 0
  regs : SMap W64 := []
  faultPc : Nat := 0
  dseq : W32 := 0
  larg : Largs := {}
  argsHeld : Bool := false
  lacks : Nat := 0
  halts : Nat := 0
  image : Option Image := none
  slots : SMap Byte := []
  mem : SMap Byte := []
  poison : SMap Bool := []
  tallies : SMap W32 := []
  eps : SMap Endpoint := []
  opa : Eng := {}
  ve : Eng := {}
  gus : Eng := {}
  pw : Eng := {}
  dma : Eng := {}
  bank0 : Bank := {}
  bank1 : Bank := {}
  forceQueued : Bool := false
  firstPass : Bool := true
  lastQueued : Bool := false
  plb : List Plb := []
  patterns : SMap (Option PatSlot) := []
  retired : Bool := false
  gated : Bool := false
  resync : Bool := false
  tally24 : List Nat := []
  retireReq : Bool := false
  seqFault : Bool := false
  deriving DecidableEq, Repr

/-- SLB_EXT (Table 10.5). -/
structure Extent where
  basePage : Nat := 0
  pages : Nat := 0
  fn : Nat := 0
  valid : Bool := false
  deriving DecidableEq, Repr

/-- One SLB_SPREAD register (Table 10.6). -/
structure Spread where
  members : BitVec 80 := 0
  basePage : Nat := 0
  granules : Nat := 0
  valid : Bool := false
  deriving DecidableEq, Repr

/-- One SLB_RETIRE register (Table 10.10). -/
structure Retire where
  page : Nat := 0
  valid : Bool := false
  retired : Bool := false
  deriving DecidableEq, Repr

/-- WIN_PFLAG of one slab page (Table 11.17); `newFlag` is the flag a pending transition writes (R325). -/
structure PFlag where
  flag : Nat := 0
  inWin : Bool := false
  pending : Bool := false
  newFlag : Nat := 0
  deriving DecidableEq, Repr

/-- A slab: its data bytes by physical offset, its metadata bytes by codeword, and for each codeword the
difference of the stored check symbols 65 to 67 from the right ones (R291; 0 where the codeword is valid).
`corrLog` lists the corrections of the last 168 hours, the longest window of R299 (codeword, time in ns). -/
structure Slab where
  ext : Extent := {}
  spread : SMap Spread := []
  scrubPeriod : BitVec 8 := 24
  scrubEnable : Bool := true
  scrubPos : Nat := 0
  corrLast : W64 := 0
  retire : SMap Retire := []
  pflag : SMap PFlag := []
  data : SMap Byte := []
  mdata : SMap Byte := []
  chk : SMap (BitVec 24) := []
  corrLog : List (Nat × Nat) := []
  deriving DecidableEq, Repr

/-- What a channel packet carries (R123 to R129, R312); bulk data carries the poison of each byte. -/
inductive ChBody where
  | msg (data : List Byte) (poison : Bool)
  | bulk (off : Nat) (data : List Byte) (poison : List Bool) (last : Bool)
  | bulkAck
  | grantSlots (size count : Nat)
  | grantBulk (size : Nat)
  | credit
  | stopNotice
  | unreachable
  deriving DecidableEq, Repr

/-- A channel packet on its way to a tile of this package: the router where it entered the mesh (a tile, or 80 + the port it
came in by), the tile and endpoint it goes to, its function there, and its source (0xFFFF for this package or 0x10000 + the
source package's fabric address, virtual tile, endpoint). -/
structure ChPkt where
  src : Nat
  dst : Nat
  ep : Nat
  fn : Nat
  srcPkg : Nat
  srcVt : Nat
  srcEp : Nat
  body : ChBody
  deriving DecidableEq, Repr

/-- A ring command that has started and whose completion DONE has not passed. `run` says that its row has run
it, `released` that the condition of a WAIT has held (R321), `complete` that its work is visible and `signalled` that it has
completed and signalled (R319); `cut` that a stop cut it or that it raised a cause at its end (R311, R327). `need` holds, for a LAUNCH, the tiles still to be reached and the count of releases or halts that each must
pass. -/
structure RCmd where
  idx : W32
  raw : Nat
  run : Bool := false
  released : Bool := false
  complete : Bool := false
  signalled : Bool := false
  cut : Bool := false
  deliver : List Nat := []
  need : List (Nat × Nat) := []
  deriving DecidableEq, Repr

/-- A ring: RING_CFG, RING_TAIL, RING_PTR, RING_STAT (Tables 11.13 to 11.16) and its started commands. -/
structure Ring where
  base : W64 := 0
  doneAddr : W64 := 0
  sizeLog2 : Nat := 0
  fn : Nat := 0
  valid : Bool := false
  group : Bool := false
  tail : W32 := 0
  head : W32 := 0
  done : W32 := 0
  refused : Bool := false
  waiting : Bool := false
  serialHold : Bool := false
  cmds : List RCmd := []
  deriving DecidableEq, Repr

/-- Function states (Table 11.2). -/
inductive FnSt where
  | free | stopped | running | stopping
  deriving DecidableEq, Repr

/-- The first class U error charged to a function: the block, its instance and the ERR_FIRST image. -/
structure Charge where
  block : Nat
  inst : Nat
  first : W32
  deriving DecidableEq, Repr

/-- Per-tile counts of a stop (R315). -/
structure StopCnt where
  discarded : Nat := 0
  cut : Nat := 0
  drained : Nat := 0
  deriving DecidableEq, Repr

/-- A stop record (Table 12.5), with its per-tile counts, and HEAD and DONE of each ring as fetching stopped (R315). -/
structure StopRec where
  abort : Bool := false
  faulted : Bool := false
  block : Nat := 0
  inst : Nat := 0
  first : W32 := 0
  discarded : Nat := 0
  cut : Nat := 0
  drained : Nat := 0
  collAborted : Nat := 0
  time : Nat := 0
  tiles : SMap StopCnt := []
  rings : SMap (W32 × W32) := []
  deriving DecidableEq, Repr

/-- A request that Thimble has accepted for a function (R334): its sequence number, its bytes and the reply
once sent. -/
structure Accepted where
  seq : Nat
  bytes : List Byte
  reply : Option (List Byte)
  deriving DecidableEq, Repr

/-- A peer package table entry (R405). -/
structure Peer where
  addr : Nat := 0
  fn : Nat := 0
  valid : Bool := false
  deriving DecidableEq, Repr

/-- A trace configuration (Table 18.4) and its position (R498 to R500): records written, those waiting, the records
dropped since the last one kept with the times of the first and last, datagrams sent, and the token bucket in tenths of a
byte with the time it was filled. -/
structure Trace where
  en : Bool := false
  dest : Nat := 0
  cap : Nat := 20
  blocks : W32 := 0
  buf : Nat := 0
  bytes : Nat := 0
  ip : BitVec 128 := 0
  port : BitVec 16 := 0
  written : Nat := 0
  waiting : List EvRec := []
  dropped : Nat := 0
  dropFirst : Nat := 0
  dropLast : Nat := 0
  seq : Nat := 0
  bucket : Nat := 20480
  bucketTime : Nat := 0
  deriving DecidableEq, Repr

/-- A function (Tables 11.1, 11.2, 11.11, 11.12, 11.18). `service` says that it belongs to the default memory service
(R353); `ringRanges` are the ring ranges it was assigned (R343); `patterns` are its loaded patterns, which every tile of it
holds (R221). -/
structure Fn where
  st : FnSt := .free
  abort : Bool := false
  faulted : Bool := false
  key : BitVec 256 := 0
  lastSeq : Nat := 0
  accepted : List Accepted := []
  evSeq : Nat := 0
  sub0 : Option UdpAddr := none
  sub1 : Option UdpAddr := none
  seed : W64 := 0
  drainLimit : Nat := 200
  fenceBase : Nat := 0
  fences : Nat := 0
  vtmap : List (Option Nat) := []
  winSet : Nat := 0
  winPages : Nat := 0
  winValid : Bool := false
  slice : Nat := 0
  peers : SMap Peer := []
  charge : Option Charge := none
  stop : StopRec := {}
  stopTime : Nat := 0
  lastStop : Option StopRec := none
  service : Bool := false
  trace : Trace := {}
  ringRanges : List (Nat × Nat) := []
  patterns : SMap (Option PatSlot) := []
  deriving DecidableEq, Repr

end Sys2Proof.Machine
end

