-- ==== Sys2Proof/Machine/StatePkg.lean ====
section
/-! DEFINITION. The state of the package's units outside the tiles: Thimble, ports, collectives, power, time,
trace and the safe state. -/

namespace Sys2Proof.Machine

/-- TRC_TACK.STATE (Table 18.8). -/
inductive TackState where
  | none | stopping | held
  deriving DecidableEq, Repr

/-- A log of a channel of the cut (R503): its entries as TACK_LOG_READ returns them, and whether its marker has
arrived. -/
structure TackLog where
  closed : Bool := false
  entries : List (List Byte) := []
  deriving DecidableEq, Repr

/-- TRC registers and the tack (Tables 18.8 and 18.9, R501 to R507). `pinArmed` is the edge detector of TACK_N;
`resumeWait` a resume that reached a STOPPING package. -/
structure Trc where
  tack : TackState := .none
  origin : Nat := 0
  block : Nat := 0
  pinDrive : Bool := false
  pinArmed : Bool := true
  tackTime : Nat := 0
  tackOn : W32 := 0
  logs : SMap TackLog := []
  resumeWait : Bool := false
  deriving DecidableEq, Repr

/-- The safe state (R481 to R486): the latched causes waiting for entry, THM_FATAL and THM_FATAL_TIME, and the
levels of FAULT_N and THERMTRIP_N. -/
structure Fatal where
  pendingCause : Nat := 0
  cause : Nat := 0
  multi : Bool := false
  domain : Nat := 0x1F
  sensor : Nat := 0x7F
  time : Nat := 0
  faultN : Bool := true
  thermtripN : Bool := true
  ethIdle : Bool := false
  boardEventSent : Bool := false
  deriving DecidableEq, Repr

/-- Where Thimble sends a message: a UDP address, a core's mailbox, or the stitch chain (R330). -/
inductive MsgDest where
  | udp (a : UdpAddr)
  | mailbox (c : Nat)
  | chain
  deriving DecidableEq, Repr

/-- A message that Thimble has sent and the outside has not taken from the model's state, with the UDP port it leaves from
(R330). `held`: its frame waits for the port, whose priority is paused or which has no link (R364). -/
structure OutMsg where
  dest : MsgDest
  bytes : List Byte
  port : Nat := 7714
  held : Bool := false
  deriving DecidableEq, Repr

/-- A request that Thimble has accepted (R334 to R337) and whose command has not run, with the key that signs its reply;
none for an unsigned IDENTIFY. -/
structure Req where
  cmd : Nat
  fn : Nat
  seq : Nat
  payload : List Byte
  src : MsgDest
  key : Option (BitVec 256) := none
  deriving DecidableEq, Repr

/-- A long command in progress (R337): its request, the function it acts on, and its status and reply once its
work has been done. -/
structure Long where
  req : Req
  fn : Nat
  result : Option (Nat × List Byte) := none
  first : Nat := 0
  pages : Nat := 0
  deriving DecidableEq, Repr

/-- Thimble's own state (R328 to R350): its keys and settings, the requests accepted and waiting, the long
commands, the messages sent, and the times of recent unsigned IDENTIFY requests (R335). -/
structure Thm where
  opKey : Option (BitVec 256) := none
  bootEpoch : W32 := 1
  defaultMem : Bool := true
  queue : List Req := []
  long : List Long := []
  outbox : List OutMsg := []
  unsignedTimes : List Nat := []
  unclaimedSeq : Nat := 0
  deriving DecidableEq, Repr

/-- What the fuses and the mask ROM hold (Tables 0.2 and 0.3, R339, R342, R521, R529, R531). -/
structure Fuses where
  part : Nat := 1
  stackDies : Nat := 8
  grade : Nat := 0x0F
  stepLetter : Nat := 0
  stepDigit : Nat := 0
  serial : W64 := 1
  mac : BitVec 48 := 0x0A0000000001
  claimKey : BitVec 256 := 0
  vendorHash : BitVec 256 := 0
  idPub : List Byte := []
  romDigest : BitVec 256 := 0
  floor : Nat := 0
  vtab : SMap Nat := []
  ageMax : SMap Nat := []
  ilim : SMap Nat := []
  deriving DecidableEq, Repr

/-- Slot record states (R511). -/
inductive SlotState where
  | empty | valid | trial | active
  deriving DecidableEq, Repr

/-- A firmware slot: its record and its image region (R510, R511). `factory` says that the region holds the
image the part was shipped with, whose bytes the spec does not give. -/
structure Slot where
  state : SlotState := .empty
  tried : Bool := false
  seq : Nat := 0
  factory : Bool := false
  region : SMap Byte := []
  deriving DecidableEq, Repr

/-- Kinds of record of the Thimble log's history part (R512). -/
inductive HistKind where
  | fatal | govMode | shortfall | ageing | fault
  deriving DecidableEq, Repr

/-- A record of the history part: its kind, its time, and what it records. -/
structure HistRec where
  kind : HistKind
  time : Nat
  unit : Nat
  value : Int
  deriving DecidableEq, Repr

/-- The flash outside the image bytes (R511, R512, Tables 1.3 and 19.9). `retiredPages` are tile × 2^20 + page; `library`
is the pattern library, which no command writes. -/
structure Flash where
  slotA : Slot := { state := .active, seq := 1, factory := true }
  slotB : Slot := {}
  tag : SMap Byte := [(0, 0x41), (1, 0x47), (2, 0x41), (3, 0x54), (4, 1)]
  writeCount : Nat := 0
  retiredTiles : List Nat := []
  retiredPages : List Nat := []
  downLinks : List (Nat × Dir) := []
  failedLanes : List (Nat × Nat) := []
  withheldCores : List Nat := []
  sigBlock : Nat := 0
  failed : Bool := false
  history : List HistRec := []
  library : SMap Byte := []
  deriving DecidableEq, Repr

/-- Power-up, supplies and reset pins (R513 to R518, Table 19.5). `order` is the last order of Table 19.2. -/
structure Boot where
  v3p3 : Bool := true
  vin12 : Bool := true
  pgood : Bool := true
  order : Nat := 2
  mode : Nat := 0
  slot : Nat := 0
  fallback : Bool := false
  trial : Bool := false
  modeBad : Bool := false
  fail : Nat := 0
  failBlock : Nat := 0
  trialReverted : Bool := false
  nextSig : Nat := 0
  deriving DecidableEq, Repr

/-- What a host-class core does (R345, R351). -/
inductive CoreState where
  | reset | waiting | running | halted
  deriving DecidableEq, Repr

/-- One fence watch (Table 12.9); `pending` is its interrupt, which stays until software clears EN (R349). -/
structure Watch where
  index : Nat := 0
  en : Bool := false
  pending : Bool := false
  value : W64 := 0
  deriving DecidableEq, Repr

/-- What a core's last access came to (R347): nothing yet, done with the bytes read (little-endian; 0 for a store), or an
access-fault exception. -/
inductive CoreAns where
  | none
  | data (v : W64)
  | fault
  deriving DecidableEq, Repr

/-- A host-class core as the package sees it (R345 to R350): its function, its run state, the image that its last
HCORE_LOAD gave it, the address and the mode in which it began, its watches and its mailbox. Its L2 and its two ways of the
quadrant's cache hold, by slab address, the bytes that it has stored and not written back (`dirty`) and the copies that it has
read (`clean`). `answer` is what the package answered its last access. -/
structure HCore where
  fn : Option Nat := none
  st : CoreState := .reset
  entry : Option W64 := none
  digest : BitVec 256 := 0
  pc : W64 := 0
  machine : Bool := false
  watches : SMap Watch := []
  request : SMap Byte := []
  reply : List Byte := []
  go : Bool := false
  done : Bool := false
  irqEn : Bool := false
  txTail : W32 := 0
  txDone : W32 := 0
  rxTail : W32 := 0
  rxDone : W32 := 0
  ports : SMap W32 := []
  bound : SMap Bool := []
  fqMem : SMap Byte := []
  dirty : SMap Byte := []
  clean : SMap Byte := []
  answer : CoreAns := .none
  deriving DecidableEq, Repr

/-- A fabric packet: the header of Table 14.4 and its payload. -/
structure FPkt where
  dst : Nat := 0
  src : Nat := 0
  slice : Nat := 0
  epoch : Nat := 0
  dstFn : Nat := 0
  kind : Nat := 0
  hx : Nat := 0
  bx : Nat := 0
  hy : Nat := 0
  byd : Nat := 0
  hz : Nat := 0
  bz : Nat := 0
  dirX : Bool := false
  dirY : Bool := false
  dirZ : Bool := false
  transit : Bool := false
  vcB : Bool := false
  poison : Bool := false
  final : Nat := 0
  finalPort : Nat := 0
  flow : Nat := 0
  length : Nat := 0
  dstVt : Nat := 0
  dstEp : Nat := 0
  srcVt : Nat := 0
  srcEp : Nat := 0
  aux : Nat := 0
  payload : List Byte := []
  deriving DecidableEq, Repr

/-- A packet that waits in a port's queue for a virtual channel, or that the port has sent and that is not
acknowledged: its virtual channel, and once sent the number of its last flit. -/
structure PortPkt where
  vc : Nat
  lastSeq : Option Nat := none
  pkt : FPkt
  deriving DecidableEq, Repr

/-- Port states (Table 14.3) but for ABSENT, which the part decides. -/
inductive PortSt where
  | down | training | active8 | active4 | retrain | fenced | miswired
  deriving DecidableEq, Repr

/-- A fabric port: LNK_STAT (Table 14.10), its queue, its replay buffer, the flit number it sends next, the number from which
it has asked for a replay, its credits per virtual channel in units of 256 bytes (Table 14.2), and its place in the windows
of R400. -/
structure Port where
  st : PortSt := .down
  lanes : BitVec 8 := 0
  upper : Bool := false
  partner : Option Partner := none
  queue : List PortPkt := []
  sent : List PortPkt := []
  txSeq : Nat := 0
  used : SMap Nat := []
  replayFrom : Option Nat := none
  winFlits : Nat := 0
  winTransit : Nat := 0
  transitNext : Bool := false
  timeOffset : W64 := 0
  partnerLocked : Bool := false
  deriving DecidableEq, Repr

/-- A routing entry LNK_ROUTE (Table 14.8) as its register image. -/
abbrev RouteReg := W64

/-- The fabric registers: LNK_SYS sizes and USE (Table 14.7), the routing entries, and the package's fabric
address once assigned (R382). -/
structure Fab where
  xsM1 : Nat := 0
  ysM1 : Nat := 0
  zsM1 : Nat := 0
  use : BitVec 20 := 0xFFFFF
  routes : SMap RouteReg := []
  addr : Option Nat := none
  deriving DecidableEq, Repr

/-- A RoCEv2 connection (R365, R368): its function, the peer's GID, QPN and first PSN, the path MTU, its own first
PSN and R_KEYs, the rate of its read responses in 10^-9 of the line rate, and the times of the last congestion
notifications sent and received. -/
structure Conn where
  fn : Nat
  gid : BitVec 128
  peerQpn : BitVec 24
  peerPsn : BitVec 24
  mtu : Nat
  psn : BitVec 24
  rkeyWin : W32
  rkeyRing : W32
  rate : Nat := 1000000000
  cnpSent : Option Nat := none
  cnpGot : Option Nat := none
  deriving DecidableEq, Repr

/-- How the port answers an RDMA request: an RNR NAK carries its timer code (R371). `cnp` is a congestion notification
(R365). -/
inductive RdmaAns where
  | ack
  | nak (code : Nat)
  | rnr (timer : Nat := 0x0E)
  | data (bytes : List Byte)
  | cnp
  deriving DecidableEq, Repr

/-- What a connection sends (R358, R360, R363, R365): the connection's QPN, the peer, the VLAN tag and priority of its
frames, the DSCP, ECN and DF of its packets, whether it waits for a paused priority (R364), and the answer. -/
structure RoceOut where
  qpn : Nat
  gid : BitVec 128
  peerQpn : BitVec 24
  vlan : Nat
  pcp : Nat
  dscp : Nat
  ecn : Nat := 2
  df : Bool := true
  held : Bool
  ans : RdmaAns
  deriving DecidableEq, Repr

/-- The network record in force (Table 13.2). -/
structure NetRec where
  vlan : Nat := 0
  rocePcp : Nat := 3
  mgmtPcp : Nat := 6
  pfcMask : Nat := 8
  roceDscp : Nat := 26
  cnpDscp : Nat := 48
  ipv4Mode : Nat := 1
  ptpDomain : Nat := 0
  ipv4Addr : Nat := 0
  ipv4Prefix : Nat := 0
  ipv4Gw : Nat := 0
  deriving DecidableEq, Repr

/-- The Ethernet port (R356 to R376): its link and what it advertises, the record and MAC in force, the addresses
that have passed detection and those learned that have not, the DHCP exchange in progress, the priorities paused by the
peer and those it has paused, the connections by QPN, the frames that wait for a priority, and what it has sent: frames,
answers to RDMA requests, congestion notifications. -/
structure Eth where
  training : Bool := false
  advHalf : Bool := false
  link : Bool := false
  half : Bool := false
  everUp : Bool := false
  netrec : NetRec := {}
  netrecBad : Bool := false
  mac : BitVec 48 := 0
  addrs : List (BitVec 128) := []
  learned : List (BitVec 128) := []
  dhcp : Option Nat := none
  paused : BitVec 8 := 0
  xoff : BitVec 8 := 0
  conns : SMap (Option Conn) := []
  waiting : List (Nat × List Byte) := []
  frames : List (List Byte) := []
  answers : List RoceOut := []
  cnps : List RoceOut := []
  datagrams : List (UdpAddr × List Byte) := []
  deriving DecidableEq, Repr

/-- The stitch chain (R377 to R385): STCH_STAT, frames taken and not acted on, own frames that wait (at most four),
and what has left on STCH_OUT (the fields of a frame, or an empty list for a NULL). -/
structure Stch where
  index : Nat := 0xFF
  upstreamLost : Bool := false
  inbox : List (List Byte) := []
  own : List (List Byte) := []
  out : List (List Byte) := []
  deriving DecidableEq, Repr

/-- One voltage domain (R442 to R461, Table 16.9). `op` is the operating point commanded last, `target` the setpoint
commanded with it, `acked` that the regulator has acknowledged it, `shortfall` its PWR_STAT.SHORTFALL bit; `wWait`,
`bWait` and `periods` are the counts of the last pace window, `quiet` the windows with *b* below 2 %; `tileTemp` and
`stackTemp` the last temperatures read, in 1/16 °C; `stackSlow` the slab limit of 95 °C, `doubled` the doubled refresh. -/
structure Dom where
  op : Nat := 0
  vset : Nat := 0
  target : Nat := 0
  slewing : Bool := false
  acked : Bool := false
  droop : Bool := false
  thermGate : Bool := false
  gated : Bool := true
  ungating : Bool := false
  want : Nat := 6
  grant : Nat := 8
  therm : Nat := 8
  curr : Nat := 8
  pace : Nat := 8
  wWait : Nat := 0
  bWait : Nat := 0
  periods : Nat := 0
  quiet : Nat := 0
  shortfall : Bool := false
  tileTemp : SMap (BitVec 16) := []
  stackTemp : BitVec 16 := 0
  stackSlow : Bool := false
  doubled : Bool := false
  idle : Bool := true
  deriving DecidableEq, Repr

/-- The power governor (R450 to R464). `estSum` and `estN` are the estimates of the window that runs, `lastEst` the sum
and count of the last window's and `lastM` its measurement; `ratioM` ÷ `ratioE` is M ÷ Ē of the last valid window; `dur`
and `domDur` are the durations of Table 16.5 and Table 18.1 in ns, brought up to date at `since`. -/
structure Pwr where
  doms : SMap Dom := []
  capW : Nat := 1200
  grantW : Nat := 0
  leaseEnd : Nat := 0
  duty : Nat := 8
  mode : Nat := 0
  hostWarn : Bool := false
  estMw : Nat := 0
  estSum : Nat := 0
  estN : Nat := 0
  lastEst : Nat × Nat := (0, 0)
  lastM : Option Nat := none
  ratioM : Nat := 1
  ratioE : Nat := 1
  divergent : Nat := 0
  agreeing : Nat := 0
  invalid : Nat := 0
  valid : Nat := 0
  slowDom : Nat := 0
  slowTile : Nat := 0
  dur : SMap Nat := []
  domDur : SMap Nat := []
  since : Nat := 0
  thermEnd : Nat := 0
  tackInWindow : Bool := false
  deriving DecidableEq, Repr

/-- The time base (R465 to R467, Tables 16.7 and 16.14): its state, the sources present, the last PTP offset, the step
that the last PTP message calls for, and the sum and number of the offsets it steers to. -/
structure TimeB where
  state : Nat := 0
  stepped : Bool := false
  timeref : Bool := true
  pps : Bool := false
  ptp : Bool := false
  ptpOffset : Int := 0
  ptpDelta : Int := 0
  steerSum : Int := 0
  steerN : Nat := 0
  deriving DecidableEq, Repr

/-- An ARRIVE record (Table 15.9). -/
structure Arrive where
  sig : W64
  latest : Nat
  earliest : Nat
  rank : Nat
  mismatch : Bool := false
  deriving DecidableEq, Repr

/-- A group description (R415): the record's address, the header fields and the members as peer package indices,
fabric addresses and functions in rank order. -/
structure Group where
  id : Nat
  addr : Nat
  size : Nat
  rank : Nat
  timeoutUs : Nat
  vpkgs : List Nat
  addrs : List Nat
  fns : List Nat
  deriving DecidableEq, Repr

/-- A value that an engine holds for one chunk (R422): bytes, poison, and whether a switch adder failed. -/
structure ChunkVal where
  bytes : List Byte
  poison : Bool := false
  resFail : Bool := false
  deriving DecidableEq, Repr

/-- What one chunk of a collective waits for at this member: the values that have arrived, by stage and sender (rank
for tray and inter-rack parts, POS for the rack ring), the value formed so far at each stage, and whether its result
has been written. -/
structure ChunkSt where
  parts : List (Nat × Nat × ChunkVal) := []
  trayVal : Option ChunkVal := none
  rackVal : Option ChunkVal := none
  sentTray : Bool := false
  sentRack : Bool := false
  sentGlobal : Bool := false
  declined : Bool := false
  ringSent : Bool := false
  result : Option ChunkVal := none
  written : Bool := false
  gotBlocks : List Nat := []
  passed : Bool := false
  deriving DecidableEq, Repr

/-- A chunk that waits for a grant of its receiver (R425): the receiver's rank (or 0x10000 for the rack switch), the
stage, and the packet. -/
structure CollSend where
  dest : Nat
  stage : Nat
  pkt : FPkt
  deriving DecidableEq, Repr

/-- A collective at this package (R416 to R433): its ring command, the quadrant of its dispatcher, its group, its
OPSEQ and start; the chunks by number (131,071 is ARRIVE), the grants held and given by peer and stage, the chunks
that wait for a grant, and how far it has come. -/
structure Coll where
  fn : Nat
  ring : Nat
  idx : W32
  raw : Nat
  quad : Nat
  barrier : Bool
  group : Group
  opseq : Nat
  admitted : Bool := false
  running : Bool := false
  start : Nat := 0
  chunks : SMap ChunkSt := []
  arrive : Option Arrive := none
  final : Option Arrive := none
  held : SMap Nat := []
  given : SMap Nat := []
  consumed : SMap Nat := []
  sends : List CollSend := []
  abort : Nat := 0
  deriving DecidableEq, Repr

/-- A counter snapshot (R494); `key` tells the readings of free-valued counters apart. -/
structure Snap where
  time : Nat
  ctrs : SMap Nat
  key : Nat := 0
  deriving DecidableEq, Repr

/-- Mesh link halves out of service (R480, MESH_LINK), by tile × 4 + direction. -/
structure Mesh where
  halves : SMap Nat := []
  deriving DecidableEq, Repr

end Sys2Proof.Machine
end

