-- ==== Sys2Proof/Machine/State.lean ====
section
/-! DEFINITION. The state of the package: plain data, every register, buffer, queue and pin of the spec. -/

namespace Sys2Proof.Machine

/-- The faults of the model. -/
inductive Fault where
  /-- Raised by no meaning: an error of the package is the command's effect on State. Safe. -/
  | none
  deriving DecidableEq, Repr

/-- The refusals of the model. -/
inductive Refusal where
  /-- Raised by an arm of Dispatch whose command has no meaning yet. Safe. -/
  | notModelled (mnemonic : String)
  deriving DecidableEq, Repr

/-- The package. `pending` is the queue of commands, first in first out. `dspNext` is each dispatcher's round-robin position
(R319), `opseqs` the last OPSEQ of each group by function × 65,536 + GROUP_ID (R419). `freeCtr` is the model's own counter by
which a step draws a free value of Config; it is no state of the spec. -/
structure State where
  pending : List Instr := []
  freeCtr : Nat := 0
  timeNs : Nat := 0
  tiles : SMap Tile := []
  slabs : SMap Slab := []
  fns : SMap Fn := []
  rings : SMap Ring := []
  dspNext : SMap Nat := []
  fences : SMap W64 := []
  noc : List ChPkt := []
  errs : SMap ErrRegs := []
  stats : SMap W32 := []
  ctrs : SMap Nat := []
  evrings : SMap EvRing := []
  trc : Trc := {}
  fatal : Fatal := {}
  thm : Thm := {}
  fuses : Fuses := {}
  flash : Flash := {}
  boot : Boot := {}
  cores : SMap HCore := []
  ports : SMap Port := []
  fab : Fab := {}
  collIn : List FPkt := []
  colls : List Coll := []
  groups : List (Nat × Group) := []
  opseqs : SMap Nat := []
  eth : Eth := {}
  stch : Stch := {}
  pwr : Pwr := {}
  timeBase : TimeB := {}
  mesh : Mesh := {}
  snap : Option Snap := none
  deriving DecidableEq, Repr

/-- The package right after a reset (R515): supplies in range, PGOOD asserted, RESET_N high, order 2 of Table
19.2 reached and order 3 next. Function 0 is STOPPED and every other FREE (Table 11.11). -/
def State.reset : State := { fns := [(0, { st := .stopped })] }

end Sys2Proof.Machine
end

