-- ==== Sys2Proof/Machine/Flags.lean ====
section
/-! DEFINITION. Status, error and event reporting: the registers of R473 to R478, counters, event rings, Skelist
events, and the charge of an error to a function (spec/17, spec/18). -/

namespace Sys2Proof.Machine

/-- The blocks of Table 1.5. -/
inductive Blk where
  | tseq | dma | opa | mesh | sel | lnk | ve | eth | sfu | stch | gus | pwr | pw | time | dsp | thm | slb | fn
  | ring | win | coll | trc
  deriving DecidableEq, Repr

/-- Block codes of R344. -/
def Blk.code : Blk → Nat
  | .tseq => 1 | .dma => 2 | .opa => 3 | .mesh => 4 | .sel => 5 | .lnk => 6 | .ve => 7 | .eth => 8 | .sfu => 9
  | .stch => 10 | .gus => 11 | .pwr => 12 | .pw => 13 | .time => 14 | .dsp => 15 | .thm => 16 | .slb => 17
  | .fn => 18 | .ring => 19 | .win => 20 | .coll => 21 | .trc => 22

def Blk.ofCode : Nat → Option Blk
  | 1 => some .tseq | 2 => some .dma | 3 => some .opa | 4 => some .mesh | 5 => some .sel | 6 => some .lnk
  | 7 => some .ve | 8 => some .eth | 9 => some .sfu | 10 => some .stch | 11 => some .gus | 12 => some .pwr
  | 13 => some .pw | 14 => some .time | 15 => some .dsp | 16 => some .thm | 17 => some .slb | 18 => some .fn
  | 19 => some .ring | 20 => some .win | 21 => some .coll | 22 => some .trc | _ => none

/-- The blocks with one instance per tile whose owner is charged (Table 17.2 row 8, R496). -/
def Blk.perTile : Blk → Bool
  | .tseq | .dma | .opa | .sel | .ve | .sfu | .gus | .pw | .slb => true
  | _ => false

/-- The OVERFLOW bit of a block's ERR_STAT, which is also the number of its cause bits but for OPA. -/
def Blk.ovf : Blk → Nat
  | .tseq => 9 | .dma => 4 | .opa => 5 | .mesh => 3 | .sel => 3 | .lnk => 7 | .ve => 4 | .eth => 3 | .sfu => 5
  | .stch => 3 | .gus => 4 | .pwr => 4 | .pw => 5 | .time => 3 | .dsp => 4 | .thm => 3 | .slb => 3 | .fn => 0
  | .ring => 0 | .win => 1 | .coll => 8 | .trc => 2

/-- The fault classes of R470. -/
inductive Cls where
  | c | u | f
  deriving DecidableEq, Repr

/-- The 2-bit code of a class in ERR_FIRST (Table 17.3); a higher code ranks higher (R475). -/
def Cls.code : Cls → Nat
  | .c => 1 | .u => 2 | .f => 3

/-- The class of a cause bit (R470), `none` where the block defines no such cause. -/
def Blk.cls (b : Blk) (n : Nat) : Option Cls :=
  match b with
  | .tseq => if n < 9 then some .u else none
  | .dma => if n < 4 then some .u else none
  | .opa => if n < 5 ∨ n = 6 then some .u else none
  | .mesh => if n < 2 then some .c else if n = 2 then some .u else none
  | .sel => if n < 3 then some .u else none
  | .lnk => if n < 7 then some .c else none
  | .ve => if n < 4 then some .u else none
  | .eth => if n < 2 then some .c else if n = 2 then some .u else none
  | .sfu => if n < 5 then some .u else none
  | .stch => if n < 3 then some .c else none
  | .gus => if n < 4 then some .u else none
  | .pwr => if n = 0 then some .c else if n < 4 then some .f else none
  | .pw => if n < 5 then some .u else none
  | .time => if n < 3 then some .c else none
  | .dsp => if n < 4 then some .u else none
  | .thm => if n = 0 then some .f else if n < 3 then some .c else none
  | .slb => if n < 3 then some .u else none
  | .win => if n = 0 then some .u else none
  | .coll => if n < 8 then some .u else none
  | .trc => if n < 2 then some .c else none
  | .fn | .ring => none

/-- The key of a block instance in the register tables. -/
def instKey (b : Blk) (inst : Nat) : Nat := b.code * 1024 + inst

def State.tile (s : State) (t : Nat) : Tile := s.tiles.get {} t
def State.slab (s : State) (t : Nat) : Slab := s.slabs.get {} t
def State.fn (s : State) (f : Nat) : Fn := s.fns.get {} f
def State.ring (s : State) (r : Nat) : Ring := s.rings.get {} r
def State.fence (s : State) (i : Nat) : W64 := s.fences.get 0 i
def State.core (s : State) (c : Nat) : HCore := s.cores.get {} c
def State.err (s : State) (b : Blk) (inst : Nat) : ErrRegs := s.errs.get {} (instKey b inst)
/-- The w1c status bits of a block instance; the rh fields of a status register are formed when it is read. -/
def State.stat (s : State) (b : Blk) (inst : Nat) : W32 := s.stats.get 0 (instKey b inst)

def State.setTile (s : State) (t : Nat) (x : Tile) : State := { s with tiles := s.tiles.set {} t x }
def State.setSlab (s : State) (t : Nat) (x : Slab) : State := { s with slabs := s.slabs.set {} t x }
def State.setFn (s : State) (f : Nat) (x : Fn) : State := { s with fns := s.fns.set {} f x }
def State.setRing (s : State) (r : Nat) (x : Ring) : State := { s with rings := s.rings.set {} r x }
def State.setFence (s : State) (i : Nat) (x : W64) : State := { s with fences := s.fences.set 0 i x }
def State.setCore (s : State) (c : Nat) (x : HCore) : State := { s with cores := s.cores.set {} c x }
def State.setErr (s : State) (b : Blk) (inst : Nat) (x : ErrRegs) : State :=
  { s with errs := s.errs.set {} (instKey b inst) x }
def State.setStat (s : State) (b : Blk) (inst : Nat) (x : W32) : State :=
  { s with stats := s.stats.set 0 (instKey b inst) x }

def State.onTile (s : State) (t : Nat) (f : Tile → Tile) : State := s.setTile t (f (s.tile t))
def State.onSlab (s : State) (t : Nat) (f : Slab → Slab) : State := s.setSlab t (f (s.slab t))
def State.onFn (s : State) (n : Nat) (f : Fn → Fn) : State := s.setFn n (f (s.fn n))
def State.onRing (s : State) (r : Nat) (f : Ring → Ring) : State := s.setRing r (f (s.ring r))
def State.onCore (s : State) (c : Nat) (f : HCore → HCore) : State := s.setCore c (f (s.core c))

/-- Set w1c status bits. -/
def State.orStat (s : State) (b : Blk) (inst : Nat) (mask : Nat) : State :=
  s.setStat b inst (s.stat b inst ||| BitVec.ofNat 32 mask)

/-- Set one w1c status bit where a condition holds. -/
def State.statIf (s : State) (c : Bool) (b : Blk) (inst n : Nat) : State :=
  if c then s.orStat b inst (2 ^ n) else s

/-- The key of a counter: block, instance (a physical tile for per-tile blocks), event, sub and function. -/
def ctrKey (b : Blk) (inst ev sub fn : Nat) : Nat :=
  (((b.code * 1024 + inst) * 256 + ev) * 256 + sub) * 1024 + fn

/-- Add to a 48-bit counter (R492). -/
def State.count (s : State) (b : Blk) (inst ev sub fn n : Nat) : State :=
  if n = 0 then s
  else { s with ctrs := s.ctrs.modify 0 (ctrKey b inst ev sub fn) (fun v => (v + n) % 2 ^ 48) }

/-- The function a tile's counters and errors are charged to; function 0 where the tile is unassigned. -/
def State.ownerOr0 (s : State) (t : Nat) : Nat := (s.tile t).owner.getD 0

/-- Count an event of a per-tile block, charged to the tile's owner. -/
def State.countT (s : State) (b : Blk) (t ev sub n : Nat) : State := s.count b t ev sub (s.ownerOr0 t) n

/-- A fresh free value: the counter is advanced and its old value indexes the opaque constants of Config. -/
def State.fresh (s : State) : Nat × State := (s.freeCtr, { s with freeCtr := s.freeCtr + 1 })

/-- The event ring of a block instance: one for each tile, one for each package block (R496). -/
def evRingKey (b : Blk) (inst : Nat) : Nat :=
  if b.perTile || b = .mesh then inst % 256 else 256 + b.code

/-- A gap record (Table 18.3) for the records that a trace dropped. -/
def Trace.gap (x : Trace) : EvRec :=
  { time := x.dropFirst, steps := 0, seq := 0, block := Blk.trc.code, inst := 0, kind := 0xFF, inj := false, tacked := false,
    resync := false, fn := none, payload := x.dropped % 2 ^ 32 + (x.dropLast - x.dropFirst) % 2 ^ 48 * 2 ^ 32 }

/-- An event becomes a trace record where the trace selects its block (R499) and the token bucket of 64 records allows
(R500); under a tack the bucket is not refilled. Answers whether the record was dropped. -/
def Trace.take (x : Trace) (now : Nat) (held : Bool) (r : EvRec) : Trace × Bool :=
  let rate := if x.dest = 0 then 30 * x.cap else x.cap
  let fill := if held then x.bucket else min 20480 (x.bucket + rate * (now - x.bucketTime))
  let x := { x with bucket := fill, bucketTime := now }
  if fill < 320 then
    ({ x with dropped := x.dropped + 1, dropFirst := if x.dropped = 0 then now else x.dropFirst, dropLast := now }, true)
  else
    let gap := if x.dropped = 0 then [] else [x.gap]
    ({ x with bucket := fill - 320, waiting := x.waiting ++ gap ++ [r], dropped := 0 }, false)

/-- Function f may read a record: the operator every one, a tenant its own (R497). -/
def EvRec.readable (r : EvRec) (f : Nat) : Bool := f = 0 || r.fn = some f

/-- Give an event to every trace that takes it. -/
def State.traceAll (s : State) (r : EvRec) : State :=
  s.fns.foldl (fun (s : State) e =>
    let x := e.2.trace
    if x.en && x.blocks.getLsbD r.block && r.readable e.1 then
      let (y, lost) := x.take s.timeNs (s.trc.tack ≠ .none) r
      let s := s.onFn e.1 (fun g => { g with trace := y })
      if lost then s.count .trc 0 2 1 e.1 1 else s
    else s) s

/-- Write a record into an event ring, overwriting the oldest of 256 (R496). STEPS is a free value for a tile. -/
def State.event (s : State) (b : Blk) (inst kind : Nat) (fn : Option Nat) (payload : Nat) (inj : Bool) : State :=
  let key := evRingKey b inst
  let r := s.evrings.get {} key
  let tileRing := key < 256
  let rec0 : EvRec :=
    { time := s.timeNs, steps := if tileRing then Config.stepCount s.freeCtr else 0, seq := r.next, block := b.code,
      inst := inst % 256, kind := kind, inj := inj, tacked := s.trc.tack = .held,
      resync := tileRing && (s.tile key).resync, fn := fn, payload := payload }
  let recs := r.recs ++ [rec0]
  let r := { r with recs := recs.drop (recs.length - 256), next := (r.next + 1) % 65536 }
  let s := if tileRing then { s.onTile key (fun x => { x with resync := false }) with freeCtr := s.freeCtr + 1 } else s
  { s with evrings := s.evrings.set {} key r }.traceAll rec0

/-- The bytes of a Skelist message without its MAC (Table 12.1). -/
def skelistHeader (cmd status flags fn len seq : Nat) : List Byte :=
  beBytes 2 cmd ++ beBytes 1 status ++ beBytes 1 flags ++ beBytes 2 fn ++ beBytes 2 len ++ beBytes 8 seq

/-- The key of a function: the operator key for function 0 and for the default memory service (R353), the
function's own otherwise. -/
def State.keyOf (s : State) (f : Nat) : Option (BitVec 256) :=
  if f = 0 then s.thm.opKey else if (s.fn f).st = .free then none else some (s.fn f).key

/-- A message signed under a function's key and the boot epoch (R332). -/
def State.sign (s : State) (f : Nat) (msg : List Byte) : List Byte :=
  match s.keyOf f with
  | some k => msg ++ mac16 k (beBytes 4 s.thm.bootEpoch.toNat ++ msg)
  | none => msg ++ List.replicate 16 0

/-- The port sends at a priority: its link is up and the peer has not paused the priority (R364). -/
def State.ethGo (s : State) (pcp : Nat) : Bool := s.eth.link && !s.eth.paused.getLsbD pcp

/-- Datagrams of Thimble leave the port at MGMT_PCP, one frame each (R363), or wait for it. -/
def State.sendUdp (s : State) (ds : List UdpAddr) (m : List Byte) : State :=
  let go := s.ethGo s.eth.netrec.mgmtPcp
  let outs := ds.map (fun a => ({ dest := .udp a, bytes := m, held := !go } : OutMsg))
  ({ s with thm := { s.thm with outbox := s.thm.outbox ++ outs } }).count .eth 0 1 0 0 (if go then ds.length else 0)

/-- Send an event of a function to its subscribed destinations (R338, Table 12.4). -/
def State.notify (s : State) (f kind : Nat) (payload : List Byte) : State :=
  let fn := s.fn f
  let dests := [fn.sub0, fn.sub1].filterMap id
  if dests.isEmpty then s
  else
  let seq := fn.evSeq + 1
  let body := beBytes 1 kind ++ payload
  let msg := s.sign f (skelistHeader 0 0 2 f body.length seq ++ body)
  (s.onFn f (fun x => { x with evSeq := seq })).sendUdp dests msg

/-- Trigger a tack (R501 order 1): no effect while one is stopping or held, or in the safe state. -/
def State.triggerTack (s : State) (origin block : Nat) : State :=
  if s.trc.tack ≠ .none ∨ s.fatal.cause ≠ 0 then s
  else
    let s := { s with trc := { s.trc with tack := .stopping, origin := origin, block := block, tackTime := s.timeNs,
                                          pinDrive := decide (s.boot.order = 10), logs := [], resumeWait := false },
                      pwr := { s.pwr with tackInWindow := true } }
    s.event .trc 0 6 none (origin * 256 + s.timeNs * 65536) false

/-- Latch a fatal cause (R481): the first waits for its entry into the safe state, a further one sets MULTI. -/
def State.latchFatal (s : State) (cause domain sensor : Nat) : State :=
  if s.fatal.cause ≠ 0 ∨ s.fatal.pendingCause ≠ 0 then { s with fatal := { s.fatal with multi := true } }
  else { s with fatal := { s.fatal with pendingCause := cause, domain := domain, sensor := sensor } }

/-- Charge a class U error to a function (R472, Table 17.7, R313): a RUNNING function will stop in ABORT mode, a
DRAIN stop becomes ABORT and its record takes the error where it had none; otherwise it is recorded only. -/
def State.charge (s : State) (f : Nat) (c : Charge) : State :=
  match (s.fn f).st with
  | .running => s.onFn f (fun x => { x with charge := x.charge.or (some c) })
  | .stopping => s.onFn f (fun x =>
      let st := x.stop
      { x with abort := true, faulted := true,
               stop := if st.faulted then { st with abort := true }
                 else { st with abort := true, faulted := true, block := c.block, inst := c.inst, first := c.first } })
  | _ => s

/-- Where an error is charged (Table 17.2): the function, the SCOPE code of ERR_FIRST and the row or slot. -/
structure Scope where
  fn : Option Nat := none
  code : Nat := 0
  row : Nat := 0
  deriving DecidableEq, Repr

/-- The lowest set bit below `n` of a mask. -/
def lowBit (mask n : Nat) : Nat := ((List.range n).find? (fun i => mask.testBit i)).getD 0

/-- The highest class among the causes of a mask. -/
def Blk.maskCls (b : Blk) (mask : Nat) : Cls :=
  if (List.range 16).any (fun i => mask.testBit i && b.cls i = some .f) then .f
  else if (List.range 16).any (fun i => mask.testBit i && b.cls i = some .u) then .u
  else .c

/-- The ERR_FIRST image of an event (Table 17.3). -/
def errImage (cause : Nat) (k : Cls) (sc : Scope) (inj : Bool) : Nat :=
  cause + k.code * 32 + 128 + (match sc.fn with | some f => f * 256 + 2 ^ 18 | none => 0) + sc.row * 2 ^ 19 +
    sc.code * 2 ^ 25 + bit inj 27

/-- The registers of a block instance after an event with the causes of `mask` (R474, R475, R477). -/
def ErrRegs.report (r : ErrRegs) (b : Blk) (mask : Nat) (sc : Scope) (inj : Bool) : ErrRegs :=
  let cls := b.maskCls mask
  let image := errImage (lowBit mask 16) cls sc inj
  let ovf : W32 := BitVec.ofNat 32 (2 ^ b.ovf)
  let stat := r.stat ||| BitVec.ofNat 32 mask ||| (if r.stat &&& ~~~ovf ≠ 0 then ovf else 0)
  let old := r.first.toNat
  let latch := old / 128 % 2 = 0 || decide (cls.code > old / 32 % 4)
  let lim := 2 ^ 64 - 1
  let corr := if cls = .c then min lim (r.corr + 1) else r.corr
  let irq := (r.ctl.toNat &&& mask &&& 0xFFFF) ≠ 0
  let step := 2 ^ (min 20 (r.ctl.toNat / 2 ^ 16 % 32))
  { r with stat := stat, first := if latch then BitVec.ofNat 32 image else r.first, corr := corr,
           uncorr := if cls = .c then r.uncorr else min lim (r.uncorr + 1),
           crossing := r.crossing || (cls = .c && irq && corr % step = 0) }

/-- What calls for a tile's retirement (R488): RETIRE_FULL of its slab, or the third of its ACC_PARITY and STORE_UNCORR
events within 24 h. -/
def State.retireTally (s : State) (b : Blk) (inst mask : Nat) : State :=
  if b = .slb ∧ mask.testBit 2 then s.onTile inst (fun x => { x with retireReq := true })
  else if (b = .opa ∧ mask.testBit 4) ∨ (b = .sfu ∧ mask.testBit 4) then
    s.onTile inst (fun x =>
      let l := (x.tally24 ++ [s.timeNs]).filter (fun t => s.timeNs - t ≤ 86400000000000)
      { x with tally24 := l, retireReq := x.retireReq || decide (l.length ≥ 3) })
  else s

/-- An error event of a block instance (R472 to R475): its registers, its event record, a tack where TRC_TACK_ON
asks for one (R501), the charge to the function for a class U cause with function scope, with what the block's ERR_FIRST has
latched (Table 12.5), and the fatal latch is left to `latchFatal`. -/
def State.raise (s : State) (b : Blk) (inst mask : Nat) (sc : Scope) (inj : Bool := false) : State :=
  if mask = 0 then s
  else
    let r := (s.err b inst).report b mask sc inj
    let cls := b.maskCls mask
    let image := errImage (lowBit mask 16) cls sc inj
    let s := (s.setErr b inst r).retireTally b inst mask
    let edge := if b = .sel ∧ inst ≥ 256 then 2 ^ 64 else 0
    let s := s.event b inst 1 sc.fn (image + r.stat.toNat * 2 ^ 32 + edge) inj
    let s := if cls = .u && s.trc.tackOn.getLsbD b.code then s.triggerTack 1 b.code else s
    match sc.fn with
    | some f => if cls = .u && sc.code = 3 then s.charge f ⟨b.code, inst, r.first⟩ else s
    | none => s

/-- Function scope for the owner of a tile; none where the tile is unassigned. -/
def State.tileScope (s : State) (t : Nat) : Scope :=
  match (s.tile t).owner with
  | some f => { fn := some f, code := 3 }
  | none => {}

/-- Function scope for a named function. -/
def fnScope (f : Nat) : Scope := { fn := some f, code := 3 }

/-- An error of a per-tile block, charged to the function that owns the tile (Table 17.2 row 8). -/
def State.raiseT (s : State) (b : Blk) (t mask : Nat) : State := s.raise b t mask (s.tileScope t)

/-- The interrupt line of a block instance to Thimble (R477). -/
def State.irqLine (s : State) (b : Blk) (inst : Nat) : Bool :=
  let r := s.err b inst
  r.crossing || (List.range 16).any (fun i =>
    r.stat.getLsbD i && r.ctl.getLsbD i && (b.cls i = some .u || b.cls i = some .f))

end Sys2Proof.Machine
end

