-- ==== Sys2Proof/Machine/Ops.lean ====
section
/-! DEFINITION. The named operations over tile memory, slab memory, registers and page states (spec/04, spec/10,
spec/11). -/

namespace Sys2Proof.Machine

/-- The requesters of Table 4.6. -/
inductive Requester where
  | scalar | dma | opa | ve | gus
  deriving DecidableEq, Repr

/-- The spans of tile addresses that a requester may read or write (Table 4.6, adjacent ranges joined). -/
def tmSpans : Requester → Bool → List (Nat × Nat)
  | .scalar, false => [(0, 0x600000), (0x800000, 0x880000), (0x900000, 0x920000), (0xC00000, 0xC40000), (0xD00000, 0xD00400)]
  | .scalar, true => [(0, 0x600000), (0x800000, 0x880000), (0x900000, 0x920000), (0xD00000, 0xD00400)]
  | .dma, _ => [(0, 0x600000), (0x800000, 0x880000), (0x900000, 0x920000)]
  | .opa, false => [(0, 0x600000), (0x900000, 0x920000)]
  | .opa, true => []
  | .ve, false => [(0, 0x600000), (0x800000, 0x880000), (0x900000, 0x920000), (0xA00000, 0xA28000)]
  | .ve, true => [(0, 0x600000), (0x800000, 0x880000), (0x900000, 0x920000)]
  | .gus, false => [(0, 0x600000), (0x800000, 0x880000), (0x900000, 0x920000)]
  | .gus, true => [(0, 0x600000)]

/-- Every byte of a range is mapped and permitted to the requester (R103). -/
def tmOk (q : Requester) (write : Bool) (a n : Nat) : Bool :=
  n = 0 || (tmSpans q write).any (fun p => p.1 ≤ a && a + n ≤ p.2)

/-- One byte of the accumulator banks' image (R140): accumulator n of a bank at n × 10, little-endian. -/
def Tile.accByte (x : Tile) (o : Nat) : Byte :=
  let k := if o < 81920 then x.bank0 else x.bank1
  BitVec.ofNat 8 ((k.accs.get {} (o % 81920 / 10)).int.toNat / 256 ^ (o % 81920 % 10))

/-- One byte of tile memory (Table 4.6): program memory from the loaded image (0 beyond its code), descriptor
slots, accumulator banks, or the memories that keep poison. -/
def Tile.byte (x : Tile) (a : Nat) : Byte :=
  if 0xC00000 ≤ a ∧ a < 0xC40000 then
    match x.image with
    | some i => i.code.getD (a - 0xC00000) 0
    | none => 0
  else if 0xD00000 ≤ a ∧ a < 0xD00400 then x.slots.get 0 (a - 0xD00000)
  else if 0xA00000 ≤ a ∧ a < 0xA28000 then x.accByte (a - 0xA00000)
  else x.mem.get 0 a

/-- `n` bytes of tile memory from an address. -/
def Tile.bytes (x : Tile) (a n : Nat) : List Byte := (List.range n).map (fun i => x.byte (a + i))

/-- Little-endian value of bytes. -/
def leVal : List Byte → Nat
  | [] => 0
  | b :: bs => b.toNat + 256 * leVal bs

/-- `n` little-endian bytes of a value. -/
def toLe : Nat → Nat → List Byte
  | 0, _ => []
  | n + 1, v => BitVec.ofNat 8 v :: toLe n (v / 256)

/-- A little-endian value of tile memory. -/
def Tile.rd (x : Tile) (a n : Nat) : Nat := leVal (x.bytes a n)

/-- Some 64-byte line that a range touches is poisoned (R104). -/
def Tile.poisoned (x : Tile) (a n : Nat) : Bool :=
  n ≠ 0 && (List.range ((a + n - 1) / 64 - a / 64 + 1)).any (fun i => x.poison.get false (a / 64 + i))

/-- Put bytes at an address, one by one. -/
def putBytes (m : SMap Byte) : Nat → List Byte → SMap Byte
  | _, [] => m
  | a, b :: bs => putBytes (m.set 0 a b) (a + 1) bs

/-- The poison of the lines a write touches (R104): set by poisoned data, cleared by clean data that covers the
whole line, kept by a clean partial write. -/
def markLines (p : SMap Bool) (a n : Nat) (poison : Bool) : SMap Bool :=
  if n = 0 then p
  else (List.range ((a + n - 1) / 64 - a / 64 + 1)).foldl (fun p i =>
    let l := a / 64 + i
    if poison then p.set false l true
    else if a ≤ l * 64 ∧ l * 64 + 64 ≤ a + n then p.set false l false else p) p

/-- Write bytes into tile memory (Table 4.6, R104). Descriptor slots keep no poison; program memory and the
accumulator banks are not written through tile addresses. -/
def Tile.write (x : Tile) (a : Nat) (bs : List Byte) (poison : Bool) : Tile :=
  if 0xD00000 ≤ a then { x with slots := putBytes x.slots (a - 0xD00000) bs }
  else { x with mem := putBytes x.mem a bs, poison := markLines x.poison a bs.length poison }

/-- A register of the sequencer; s0 reads 0 (R94). -/
def Tile.reg (x : Tile) (r : BitVec 5) : W64 := if r = 0 then 0 else x.regs.get 0 r.toNat

/-- Write a register of the sequencer; a write of s0 is ignored (R94). -/
def Tile.setReg (x : Tile) (r : BitVec 5) (v : W64) : Tile :=
  if r = 0 then x else { x with regs := x.regs.set 0 r.toNat v }

def Tile.tally (x : Tile) (n : Nat) : W32 := x.tallies.get 0 n
def Tile.setTally (x : Tile) (n : Nat) (v : W32) : Tile := { x with tallies := x.tallies.set 0 n v }
/-- Add to a tally modulo 2³² (R116). -/
def Tile.addTally (x : Tile) (n : Nat) (v : W32) : Tile := x.setTally n (x.tally n + v)
/-- A tally value satisfies a wait value when their difference modulo 2³² is below 2³¹ (R117). -/
def tallyOk (t v : W32) : Bool := (t - v).toNat < 2 ^ 31
def Tile.ep (x : Tile) (n : Nat) : Endpoint := x.eps.get {} n
def Tile.setEp (x : Tile) (n : Nat) (e : Endpoint) : Tile := { x with eps := x.eps.set {} n e }
def Tile.bank (x : Tile) (b : Nat) : Bank := if b = 0 then x.bank0 else x.bank1
def Tile.setBank (x : Tile) (b : Nat) (k : Bank) : Tile := if b = 0 then { x with bank0 := k } else { x with bank1 := k }
def Tile.eng (x : Tile) : EngQ → Eng
  | .opa => x.opa | .ve => x.ve | .gus => x.gus | .pw => x.pw | .dma => x.dma
def Tile.setEng (x : Tile) (q : EngQ) (e : Eng) : Tile :=
  match q with
  | .opa => { x with opa := e } | .ve => { x with ve := e } | .gus => { x with gus := e }
  | .pw => { x with pw := e } | .dma => { x with dma := e }

/-- The pages of one slab (R280). -/
def State.slabPages (s : State) : Nat := if s.fuses.part = 2 then 65536 else 131072

/-- The tiles a function owns, ascending. -/
def State.tilesOf (s : State) (f : Nat) : List Nat := (List.range 80).filter (fun t => (s.tile t).owner = some f)

/-- The number of entries of a function's virtual tile map (R119). -/
def State.vtiles (s : State) (f : Nat) : Nat := (s.fn f).vtmap.length

/-- The physical tile of a virtual tile; a hole names none (R343). -/
def State.vtile (s : State) (f v : Nat) : Option Nat := ((s.fn f).vtmap.getD v none)

/-- The virtual tile of a physical tile in a function's map. DESIGN CHOICE (log 136): 0xFF for a tile that is in no entry. -/
def State.vtOf (s : State) (f t : Nat) : Nat := ((s.fn f).vtmap.findIdx? (· = some t)).getD 0xFF

/-- The work of tiles, dispatchers, collective engines and cores goes on: no safe state (R483) and no tack
(R502). -/
def State.live (s : State) : Bool := s.fatal.cause = 0 && s.trc.tack = .none && s.boot.pgood

/-- A tile's units run: the package is live and the tile is neither retired nor gated. -/
def State.tileLive (s : State) (t : Nat) : Bool := s.live && !(s.tile t).retired && !(s.tile t).gated

/-- A function's tiles take channel packets: while it runs, and while it stops until its state is lost (Table 11.5). -/
def State.fnTakes (s : State) (f : Nat) : Bool := (s.fn f).st = .running || (s.fn f).st = .stopping

/-- The k-th set bit of an 80-bit mask. -/
def kthBit (m : BitVec 80) (k : Nat) : Option Nat := ((List.range 80).filter (fun i => m.getLsbD i))[k]?

def popcount (m : BitVec 80) : Nat := ((List.range 80).filter (fun i => m.getLsbD i)).length

/-- R284: a LOCAL address of a virtual tile and an offset, as tile and physical offset. -/
def State.resolveLocal (s : State) (f vt off : Nat) : Option (Nat × Nat) :=
  if vt < s.vtiles f then
    match s.vtile f vt with
    | none => none
    | some t =>
      let e := (s.slab t).ext
      if e.valid && off < e.pages * 65536 then some (t, e.basePage * 65536 + off) else none
  else none

/-- The tile whose spread table a requester uses: its own, or for a requester that is no tile the function's
first (every tile of a function holds the same table, R285). -/
def State.spreadTile (s : State) (f : Nat) (req : Option Nat) : Nat :=
  match req with
  | some t => t
  | none => (s.tilesOf f).headD 0

/-- Slab address resolution (R283 to R285). -/
def State.resolve (s : State) (f : Nat) (req : Option Nat) (addr : Nat) : Option (Nat × Nat) :=
  if addr ≥ 2 ^ 62 then none
  else if addr.testBit 61 then
    if addr / 2 ^ 45 % 2 ^ 16 ≠ 0 then none
    else
      let off := addr % 2 ^ 40
      let sp := (s.slab (s.spreadTile f req)).spread.get {} (addr / 2 ^ 40 % 32)
      let n := popcount sp.members
      let g := off / 65536
      if !sp.valid || n = 0 || g ≥ n * sp.granules then none
      else match kthBit sp.members (g % n) with
        | none => none
        | some v => s.resolveLocal f v (sp.basePage * 65536 + g / n * 65536 + off % 65536)
  else if addr / 2 ^ 40 ≠ 0 then none
  else s.resolveLocal f (addr / 2 ^ 33) (addr % 2 ^ 33)

/-- The retirement register that names a page of a slab, if any (R300). -/
def Slab.retireOf (b : Slab) (page : Nat) : Option Retire :=
  ((List.range 32).map (fun i => b.retire.get {} i)).find? (fun r => r.valid && r.page = page)

/-- A page is RETIRED. -/
def Slab.isRetired (b : Slab) (page : Nat) : Bool :=
  match b.retireOf page with
  | some r => r.retired
  | none => false

/-- May one side access a page under one flag (Table 11.9)? -/
def flagAllows (flag : Nat) (host write : Bool) : Bool :=
  match flag with
  | 0 => host
  | 1 => !host
  | 2 => !write
  | _ => false

/-- May one side access a page (R323, R325)? A page in no window is under no flag, and only the device side
reaches it; a pending page is checked against the old flag and the new one. -/
def PFlag.allows (p : PFlag) (host write : Bool) : Bool :=
  if !p.inWin then !host
  else flagAllows p.flag host write && (!p.pending || flagAllows p.newFlag host write)

/-- Slab controllers perform a request (R286): the extent is the function's, it holds the offset, the page is not
RETIRED and the tile is in service. -/
def State.slabOwns (s : State) (f t off : Nat) : Bool :=
  let b := s.slab t
  let p := off / 65536
  b.ext.valid && b.ext.fn = f && b.ext.basePage ≤ p && p < b.ext.basePage + b.ext.pages &&
    !b.isRetired p && !(s.tile t).retired

/-- What the check of one slab address range finds: the pieces (tile, physical offset, bytes), an address
outside the function's slab, a range refused by a slab controller, or one refused by a window flag. -/
inductive SlabRes where
  | ok (pieces : List (Nat × Nat × Nat))
  | outside
  | refused (t : Nat)
  | flag (t : Nat)
  deriving DecidableEq, Repr

/-- The pieces of a range, one for each 64 KiB granule it touches (fuel: granules). -/
def State.pieces (s : State) (f : Nat) (req : Option Nat) : Nat → Nat → Nat → Option (List (Nat × Nat × Nat))
  | 0, _, n => if n = 0 then some [] else none
  | k + 1, a, n =>
    if n = 0 then some []
    else
      let len := min n (65536 - a % 65536)
      match s.resolve f req a with
      | none => none
      | some (t, o) => (s.pieces f req k (a + len) (n - len)).map ((t, o, len) :: ·)

/-- Every byte of a range of slab addresses is the function's (R286). -/
def State.slabOwned (s : State) (f t a n : Nat) : Bool :=
  match s.pieces f (some t) (n / 65536 + 2) a n with
  | some ps => ps.all (fun p => s.slabOwns f p.1 p.2.1)
  | none => false

/-- The steps of the dimension-ordered path from one tile to another (R287): the tile entered and the incoming
direction (0 north, 1 south, 2 west, 3 east), x first. -/
def meshPath (a b : Nat) : List (Nat × Nat) :=
  let xa := a % 8
  let ya := a / 8
  let xb := b % 8
  let yb := b / 8
  let xs := if xa ≤ xb then (List.range (xb - xa)).map (fun i => (ya * 8 + xa + i + 1, 2))
    else (List.range (xa - xb)).map (fun i => (ya * 8 + (xa - i - 1), 3))
  let ys := if ya ≤ yb then (List.range (yb - ya)).map (fun i => ((ya + i + 1) * 8 + xb, 0))
    else (List.range (ya - yb)).map (fun i => ((ya - i - 1) * 8 + xb, 1))
  xs ++ ys

/-- An incoming link of a tile has lost both halves (R480). -/
def State.linkDown (s : State) (l : Nat × Nat) : Bool := s.mesh.halves.get 0 (l.1 * 4 + l.2) ≥ 2

def State.pathOk (s : State) (a b : Nat) : Bool := (meshPath a b).all (fun l => !s.linkDown l)

/-- The check of a range of slab addresses (R284 to R286, Table 11.9). A request over a link that is down is lost, and
its requester reports it as its own (R480). -/
def State.slabCheck (s : State) (f : Nat) (req : Option Nat) (a n : Nat) (write host : Bool) : SlabRes :=
  match s.pieces f req (n / 65536 + 2) a n with
  | none => .outside
  | some ps =>
    if (match req with
      | some t => ps.any (fun p => !s.pathOk t p.1 || !s.pathOk p.1 t)
      | none => false) then .outside
    else
    match ps.find? (fun p => !s.slabOwns f p.1 p.2.1) with
    | some p => .refused p.1
    | none =>
      match ps.find? (fun p => !((s.slab p.1).pflag.get {} (p.2.1 / 65536)).allows host write) with
      | some p => .flag p.1
      | none => .ok ps

/-- Drop the PLB entries of a function on its tiles (R267). -/
def State.dropPlb (s : State) (f : Nat) : State :=
  (s.tilesOf f).foldl (fun s t => s.onTile t (fun x => { x with plb := x.plb.filter (fun e => e.fn ≠ f) })) s

/-- The function that owns a page of a slab (R281), if any. -/
def Slab.pageFn (b : Slab) (page : Nat) : Option Nat :=
  if b.ext.valid && b.ext.basePage ≤ page && page < b.ext.basePage + b.ext.pages then some b.ext.fn else none

/-- The scope of an error of a page (R294, Table 17.2): its owner, where it has one. -/
def Slab.pageScope (b : Slab) (page : Nat) : Scope :=
  match b.pageFn page with
  | some f => fnScope f
  | none => {}

/-- A page that meets R299 would be the 33rd of its slab (R301). -/
def Slab.retireFull (b : Slab) (page : Nat) : Bool :=
  (b.retireOf page).isNone && (List.range 32).all (fun i => (b.retire.get {} i).valid)

/-- A page of a slab that meets R299 takes an entry (R300): in an extent it becomes RETIRING, its owner's PLB entries are
dropped and the owner is told; outside every extent it becomes RETIRED. -/
def State.retireEnter (s : State) (t page : Nat) : State :=
  let b := s.slab t
  match b.retireOf page with
  | some _ => s
  | none =>
    let owned := (b.pageFn page).isSome
    match (List.range 32).find? (fun i => !(b.retire.get {} i).valid) with
    | none => s
    | some i =>
      let s := s.setSlab t { b with retire := b.retire.set {} i { page := page, valid := true, retired := !owned } }
      let s := { s with flash := { s.flash with retiredPages := s.flash.retiredPages ++ [t * 2 ^ 20 + page] } }
      if owned then
        let f := b.ext.fn
        (s.dropPlb f).notify f 2 (beBytes 1 (s.vtOf f t) ++ [0, 0] ++ beBytes 4 page)
      else s

/-- A page meets R299 by corrections or at self-test; a 33rd one sets RETIRE_FULL (R301). -/
def State.retirePage (s : State) (t page : Nat) : State :=
  if (s.slab t).retireFull page then s.raise .slb t 4 ((s.slab t).pageScope page) else s.retireEnter t page

/-- An hour in ns. -/
def hourNs : Nat := 3600000000000

/-- SLB_SCRUB.PERIOD in ns; a value outside 1 to 168 is treated as 24 hours (Table 10.7). -/
def Slab.period (b : Slab) : Nat :=
  (if b.scrubPeriod.toNat < 1 ∨ b.scrubPeriod.toNat > 168 then 24 else b.scrubPeriod.toNat) * hourNs

/-- Read one codeword of a slab (R292 to R294, R299): a corrected codeword is written back and recorded, an
uncorrectable one is written back poisoned, reported and its page placed in RETIRING. Corrections of the longest period are
kept and judged over the period in force. Where the page of an uncorrectable codeword is the 33rd, UNCORR and RETIRE_FULL
are one event (R474). Answers whether the data is poisoned and whether it was uncorrectable. -/
def State.readCw (s : State) (t cw : Nat) (scrub : Bool) : State × Bool × Bool :=
  let b := s.slab t
  let page := cw / 1024
  let fn := (b.pageFn page).getD 0
  match cwDecode (b.chk.get 0 cw) with
  | .clean => (s, (b.mdata.get 0 cw).getLsbD 7, false)
  | .corrected sym d =>
    let b := if sym < 64 then { b with data := b.data.modify 0 (cw * 64 + sym) (· ^^^ d) }
      else if sym = 64 then { b with mdata := b.mdata.modify 0 cw (· ^^^ d) } else b
    let log := (b.corrLog ++ [(cw, s.timeNs)]).filter (fun e => s.timeNs - e.2 ≤ 168 * hourNs)
    let near := log.filter (fun e => s.timeNs - e.2 ≤ b.period)
    let b := { b with chk := b.chk.set 0 cw 0, corrLog := log,
                      corrLast := BitVec.ofNat 64 (cw * 64 + sym * 2 ^ 33 + bit scrub 40) }
    let s := (s.setSlab t b).orStat .slb t 1
    let r := s.err .slb t
    let s := s.setErr .slb t { r with corr := min (2 ^ 64 - 1) (r.corr + 1) }
    let s := s.count .slb t 1 0 fn 1
    let again := (near.filter (fun e => e.1 = cw)).length ≥ 2
    let distinct := ((near.filter (fun e => e.1 / 1024 = page)).map (·.1)).eraseDups.length ≥ 4
    let s := if again || distinct then s.retirePage t page else s
    (s, (b.mdata.get 0 cw).getLsbD 7, false)
  | .uncorrectable =>
    let s := s.setSlab t { b with chk := b.chk.set 0 cw 0, mdata := b.mdata.modify 0 cw (· ||| 0x80) }
    let s := s.raise .slb t (1 + bit (b.retireFull page) 2) (b.pageScope page)
    let s := s.count .slb t 2 0 fn 1
    (s.retireEnter t page, true, true)

/-- Read the codewords from one to another: the state after, any poison, any uncorrectable. -/
def State.readCws (s : State) (t : Nat) : Nat → Nat → State × Bool × Bool
  | _, 0 => (s, false, false)
  | cw, k + 1 =>
    let (s, p, u) := s.readCw t cw false
    let (s, p', u') := s.readCws t (cw + 1) k
    (s, p || p', u || u')

/-- `n` bytes at a physical offset of a slab, with the poison and the uncorrectable errors met (R290 to R294). -/
def State.slabRead (s : State) (t off n : Nat) : State × List Byte × Bool × Bool :=
  if n = 0 then (s, [], false, false)
  else
    let (s, p, u) := s.readCws t (off / 64) ((off + n - 1) / 64 - off / 64 + 1)
    let b := s.slab t
    (s, (List.range n).map (fun i => b.data.get 0 (off + i)), p, u)

/-- The bytes at a physical offset as they stand, without an access. -/
def State.slabPeek (s : State) (t off n : Nat) : List Byte :=
  let b := s.slab t
  (List.range n).map (fun i => b.data.get 0 (off + i))

/-- Write the part of a byte range that lies in one codeword (R290, R295, R296): a partial write reads first, a
poisoned write sets POISON, a clean whole write clears it, and the software tag is kept or replaced. -/
def State.writeCw (s : State) (t off : Nat) (bs : List Byte) (poison : Bool) (tag : Option Byte) : State :=
  let cw := off / 64
  let whole := bs.length = 64
  let s := if whole then s else (s.readCw t cw false).1
  let b := s.slab t
  let old := b.mdata.get 0 cw
  let p := poison || (!whole && old.getLsbD 7)
  let tg := (tag.getD old) &&& 0x7F
  let b := { b with data := putBytes b.data off bs, chk := b.chk.set 0 cw 0,
                    mdata := b.mdata.set 0 cw (if p then tg ||| 0x80 else tg) }
  let s := s.setSlab t b
  s.statIf poison .slb t 1

/-- Write bytes at a physical offset of a slab, codeword by codeword (fuel: codewords). -/
def State.slabWriteFuel (s : State) (t : Nat) (poison : Bool) : Nat → Nat → List Byte → State
  | 0, _, _ => s
  | k + 1, off, bs =>
    if bs.isEmpty then s
    else
      let n := 64 - off % 64
      (s.writeCw t off (bs.take n) poison none).slabWriteFuel t poison k (off + n) (bs.drop n)

def State.slabWrite (s : State) (t off : Nat) (bs : List Byte) (poison : Bool) : State :=
  s.slabWriteFuel t poison (bs.length / 64 + 2) off bs

/-- Read the pieces of a checked range in order. -/
def State.readPieces (s : State) : List (Nat × Nat × Nat) → State × List Byte × Bool × Bool
  | [] => (s, [], false, false)
  | (t, o, n) :: ps =>
    let (s, bs, p, u) := s.slabRead t o n
    let (s, bs', p', u') := s.readPieces ps
    (s, bs ++ bs', p || p', u || u')

/-- Write bytes over the pieces of a checked range in order. -/
def State.writePieces (s : State) : List (Nat × Nat × Nat) → List Byte → Bool → State
  | [], _, _ => s
  | (t, o, n) :: ps, bs, p => (s.slabWrite t o (bs.take n) p).writePieces ps (bs.drop n) p

/-- Report a refused device-side access (R286, R324): SLB FOREIGN where a slab controller refused it, WIN
DEV_REFUSED where a window flag did; the requester's own cause is its own report. -/
def State.reportRefused (s : State) (f : Nat) (r : SlabRes) : State :=
  match r with
  | .refused t => (s.raise .slb t 2 (fnScope f)).count .slb t 4 0 f 1
  | .flag _ => s.raise .win 0 1 (fnScope f)
  | _ => s

/-- A range that holds no refusal. -/
def SlabRes.isOk : SlabRes → Bool
  | .ok _ => true
  | _ => false

/-- A range whose check has passed before is refused now only by a slab controller, because a page became RETIRED, or by
a link that went down (R286, R480): the window flags were checked once (R324). -/
def SlabRes.stillOk : SlabRes → Bool
  | .ok _ | .flag _ => true
  | _ => false

def SlabRes.pieces : SlabRes → List (Nat × Nat × Nat)
  | .ok ps => ps
  | _ => []

/-- Poison whole lines or codewords of a slab range, writing its bytes 0 (R311). -/
def State.poisonPieces (s : State) : List (Nat × Nat × Nat) → State
  | [] => s
  | (t, o, n) :: ps => (s.slabWrite t o (List.replicate n 0) true).poisonPieces ps

end Sys2Proof.Machine
end

