-- ==== Sys2Proof/Machine/FabricOps.lean ====
section
/-! DEFINITION. Fabric packets, routes, forwarding and delivery (spec/14_fabric_and_slices.md). -/

namespace Sys2Proof.Machine

/-- The 32 header bytes of a packet (Table 14.4). -/
def FPkt.header (p : FPkt) : List Byte :=
  toLe 2 p.dst ++ toLe 2 p.src ++ toLe 2 (p.slice + p.epoch * 2 ^ 12) ++ toLe 2 (p.dstFn + p.kind * 2 ^ 10) ++
  toLe 2 (p.hx + p.bx * 8 + p.hy * 64 + p.byd * 512 + p.hz * 4096 + p.bz * 16384) ++
  toLe 1 (bit p.dirX 0 + bit p.dirY 1 + bit p.dirZ 2 + bit p.transit 3 + bit p.vcB 4 + bit p.poison 5) ++
  toLe 1 (p.final + p.finalPort * 4 + p.flow * 32) ++ toLe 2 p.length ++
  toLe 1 p.dstVt ++ toLe 1 p.dstEp ++ toLe 1 p.srcVt ++ toLe 1 p.srcEp ++ toLe 6 0 ++ toLe 8 p.aux

/-- A packet read from its bytes; `none` for a reserved bit set, a malformed KIND, FINAL 0b11, LENGTH above
2,048, or a payload of another length (R395). -/
def FPkt.parse (bs : List Byte) : Option FPkt :=
  let g := fun o n => leVal ((bs.drop o).take n)
  let p : FPkt :=
    { dst := g 0 2, src := g 2 2, slice := g 4 2 % 4096, epoch := g 4 2 / 4096, dstFn := g 6 2 % 1024,
      kind := g 6 2 / 1024 % 16, hx := g 8 2 % 8, bx := g 8 2 / 8 % 8, hy := g 8 2 / 64 % 8,
      byd := g 8 2 / 512 % 8, hz := g 8 2 / 4096 % 4, bz := g 8 2 / 16384, dirX := tb (g 10 1) 0,
      dirY := tb (g 10 1) 1, dirZ := tb (g 10 1) 2, transit := tb (g 10 1) 3, vcB := tb (g 10 1) 4,
      poison := tb (g 10 1) 5, final := g 11 1 % 4, finalPort := g 11 1 / 4 % 8, flow := g 11 1 / 32,
      length := g 12 2, dstVt := g 14 1, dstEp := g 15 1, srcVt := g 16 1, srcEp := g 17 1, aux := g 24 8,
      payload := bs.drop 32 }
  let kindOk := (1 ≤ p.kind ∧ p.kind ≤ 6) ∨ (8 ≤ p.kind ∧ p.kind ≤ 11)
  if bs.length < 32 ∨ p.dst ≥ 2 ^ 14 ∨ p.src ≥ 2 ^ 14 ∨ g 6 2 ≥ 2 ^ 14 ∨ !kindOk ∨ g 10 1 ≥ 64 ∨ p.final = 3 ∨
      p.length > 2048 ∨ p.dstVt ≥ 128 ∨ p.dstEp ≥ 64 ∨ p.srcVt ≥ 128 ∨ p.srcEp ≥ 64 ∨ g 18 6 ≠ 0 ∨
      p.payload.length ≠ p.length then none
  else some p

/-- Ports P14 to P19 are absent on a TVX-LK4E (R389). -/
def State.portAbsent (s : State) (p : Nat) : Bool := s.fuses.part = 3 && p ≥ 14

def State.port (s : State) (p : Nat) : Port := s.ports.get {} p
def State.setPort (s : State) (p : Nat) (x : Port) : State := { s with ports := s.ports.set {} p x }
def State.onPort (s : State) (p : Nat) (f : Port → Port) : State := s.setPort p (f (s.port p))

/-- ACTIVE8 or ACTIVE4. -/
def PortSt.active : PortSt → Bool
  | .active8 | .active4 => true
  | _ => false

/-- State codes of Table 14.3. -/
def PortSt.code : PortSt → Nat
  | .down => 0 | .training => 1 | .active8 => 2 | .active4 => 3 | .retrain => 4 | .fenced => 5 | .miswired => 6

/-- A port takes a state, which its block's ring records (Table 18.3). -/
def State.portGo (s : State) (p : Nat) (st : PortSt) : State :=
  let was := (s.port p).st
  if was = st then s
  else (s.onPort p (fun x => { x with st := st })).event .lnk p 4 (some 0) (st.code + was.code * 256) false

/-- LNK_STAT.IN_ROUTE: the port is active and its USE bit is 1 (Table 14.10). -/
def State.inRoute (s : State) (p : Nat) : Bool :=
  !s.portAbsent p && (s.port p).st.active && s.fab.use.getLsbD p

/-- Fields of a routing entry (Table 14.8). -/
def routeSlice (r : RouteReg) : Nat := r.toNat % 4096
def routeEpoch (r : RouteReg) : Nat := r.toNat / 4096 % 16
def routeValid (r : RouteReg) : Bool := r.getLsbD 16
def routeMask (r : RouteReg) (k : Nat) : Bool := r.getLsbD (24 + k)

/-- The valid routing entry of a slice, if any (R403). -/
def State.routeOf (s : State) (slice : Nat) : Option RouteReg :=
  ((List.range 64).map (fun i => s.fab.routes.get 0 i)).find? (fun r => routeValid r && routeSlice r = slice)

/-- The hops, the dateline mark and the direction along one axis of size `n` (R396). -/
def axisRoute (src dst n : Nat) (closed : Bool) : Nat × Nat × Bool :=
  if dst = src then (0, 0, false)
  else if closed then
    let f := (dst + n - src) % n
    if f ≤ n - f then
      (f, if src + f ≥ n then f - (n - 1 - src) else 0, false)
    else
      (n - f, if src < n - f then n - f - src else 0, true)
  else if src < dst then (dst - src, 0, false) else (src - dst, 0, true)

/-- A packet with the route fields of R396 from the package's own address. -/
def State.routed (s : State) (r : RouteReg) (me : Nat) (p : FPkt) : FPkt :=
  let ax := fun (a : Nat) (sh w : Nat) => a / 2 ^ sh % 2 ^ w
  let x := axisRoute (ax me 11 3) (ax p.dst 11 3) (s.fab.xsM1 + 1) (r.getLsbD 17)
  let y := axisRoute (ax me 8 3) (ax p.dst 8 3) (s.fab.ysM1 + 1) (r.getLsbD 18)
  let z := axisRoute (ax me 6 2) (ax p.dst 6 2) (s.fab.zsM1 + 1) (r.getLsbD 19)
  let ss := me % 64
  let ds := p.dst % 64
  let fin := if ds = ss then (0, 0)
    else if ds / 4 = ss / 4 ∧ r.getLsbD 20 then
      (1, 2 * ((ss % 4 ^^^ ds % 4) - 1) + p.flow % 2)
    else (2, p.flow)
  { p with src := me, epoch := routeEpoch r, hx := x.1, bx := x.2.1, dirX := x.2.2, hy := y.1, byd := y.2.1,
           dirY := y.2.2, hz := z.1, bz := z.2.1, dirZ := z.2.2, final := fin.1, finalPort := fin.2 }

/-- The next hop of a packet by its header alone (R397): the header after the hop, the first port tried, and
whether the hop is along an axis. VC_B is set at the hop where HOPS equals B; on Y and Z it is cleared first where the packet
starts the axis, not having come in by a port of it (`came` is that port, none at the sender). -/
def FPkt.hop (p : FPkt) (came : Option Nat) : FPkt × Option Nat × Bool :=
  let half := fun (y h b : Nat) => (p.vcB && came.any (fun c => c / 2 = y / 2)) || h = b
  if p.hx > 0 then ({ p with vcB := p.vcB || p.hx = p.bx, hx := p.hx - 1 }, some (if p.dirX then 15 else 14), true)
  else if p.hy > 0 then ({ p with vcB := half 16 p.hy p.byd, hy := p.hy - 1 }, some (if p.dirY then 17 else 16), true)
  else if p.hz > 0 then ({ p with vcB := half 18 p.hz p.bz, hz := p.hz - 1 }, some (if p.dirZ then 19 else 18), true)
  else match p.final with
    | 1 => (p, some p.finalPort, false)
    | 2 => (p, some (6 + p.finalPort), false)
    | _ => (p, none, false)

/-- The port a hop takes among those in route (R397); `mask` restricts the sender's rack ports. -/
def State.pickPort (s : State) (p : FPkt) (first : Nat) (axis : Bool) (mask : Nat → Bool) : Option Nat :=
  if axis then (if s.inRoute first then some first else none)
  else if p.final = 1 then
    if s.inRoute first then some first
    else if s.inRoute (first ^^^ 1) then some (first ^^^ 1) else none
  else ((List.range 8).map (fun i => 6 + (p.finalPort + i) % 8)).find? (fun q => s.inRoute q && mask (q - 6))

/-- The groups of R398: DATA for messages, bulk data and collectives, CTRL for the rest, TRANSIT when marked. -/
def FPkt.group (p : FPkt) : Nat :=
  if p.transit then 2 else if p.kind = 1 ∨ p.kind = 2 ∨ p.kind ≥ 8 then 0 else 1

/-- Some function of the package is in a slice. -/
def State.hasSlice (s : State) (slice : Nat) : Bool :=
  s.fns.any (fun e => e.2.st ≠ .free && e.2.slice = slice && slice ≠ 0)

/-- Flits of a packet: 254 bytes of packet stream each (Table 14.2). -/
def FPkt.flits (p : FPkt) : Nat := (32 + p.length + 253) / 254

/-- Credits of 256 bytes that a packet takes: one a flit. -/
def portCredits : Nat := 256

/-- The packet of a group that a port may send next: half B before half A (R400), each virtual channel in order, where its
credits last and the replay buffer of 2,048 flits has room (R391). -/
def Port.head (x : Port) (g : Nat) : Option PortPkt :=
  let held := x.sent.foldl (fun a e => a + e.pkt.flits) 0
  ([2 * g + 1, 2 * g].filterMap (fun v => x.queue.find? (fun e => e.vc = v))).find? (fun e =>
    x.used.get 0 e.vc + e.pkt.flits ≤ portCredits && held + e.pkt.flits ≤ 2048)

/-- The schedule of R400 in windows of 64 flits: TRANSIT where it must still have its 8 flits of the window, else CTRL, else
DATA and TRANSIT in turn. -/
def Port.pick (x : Port) : Option PortPkt :=
  let t := x.head 2
  let d := x.head 0
  if t.isSome && x.winTransit < 8 && 64 ≤ x.winFlits + (8 - x.winTransit) then t
  else (x.head 1).or (if x.transitNext then t.or d else d.or t)

/-- Send what waits in an active port's queue, whole packet by whole packet (fuel: packets). -/
def Port.pumpFuel : Nat → Port → Port
  | 0, x => x
  | k + 1, x =>
    match x.pick with
    | none => x
    | some q =>
      let n := q.pkt.flits
      let flits := x.winFlits + n
      let g := q.vc / 2
      Port.pumpFuel k { x with
        queue := x.queue.eraseP (fun e => e.vc = q.vc), txSeq := (x.txSeq + n) % 2048, used := x.used.modify 0 q.vc (· + n),
        sent := x.sent ++ [{ q with lastSeq := some ((x.txSeq + n - 1) % 2048) }], winFlits := flits % 64,
        winTransit := if flits ≥ 64 then 0 else if g = 2 then x.winTransit + n else x.winTransit,
        transitNext := if g = 1 then x.transitNext else decide (g = 0) }

def Port.pump (x : Port) : Port :=
  if x.st.active then Port.pumpFuel x.queue.length x else x

/-- Queue a packet on a port (R398): it is marked TRANSIT where the package has no function in its slice. A port sends
nothing while a tack stops or holds the package (R502). -/
def State.enqueue (s : State) (port : Nat) (p : FPkt) (axis : Bool) : State :=
  let p := if s.hasSlice p.slice then p else { p with transit := true }
  let vc := 2 * p.group + (if axis && p.vcB then 1 else 0)
  let s := s.onPort port (fun x =>
    let x : Port := { x with queue := x.queue ++ [{ vc := vc, pkt := p }] }
    if s.trc.tack = .none then x.pump else x)
  s.count .lnk port 1 vc 0 p.flits

/-- Send a packet of a function of this package (R396, R397, R403): it is not sent where the package has no
address, the slice has no valid entry or no permitted port is in route. A route that ends here is delivered. -/
def State.fabSend (s : State) (f : Nat) (p : FPkt) : State × Option FPkt × Bool :=
  let slice := (s.fn f).slice
  match s.fab.addr, s.routeOf slice with
  | some me, some r =>
    if slice = 0 then (s, none, false)
    else
      let p := s.routed r me { p with slice := slice }
      match p.hop none with
      | (q, some first, axis) =>
        match s.pickPort q first axis (routeMask r) with
        | some port => (s.enqueue port q axis, none, true)
        | none => (s, none, false)
      | (q, none, _) => (s, some q, true)
  | _, _ => (s, none, false)

/-- Send a notice to the source of a packet (R312, R407): on CTRL with FLOW 0, carrying the packet's DST and
DST_FN in AUX; one that cannot be sent is discarded and counted. -/
def State.sendNotice (s : State) (kind fn : Nat) (p : FPkt) : State × Option FPkt :=
  let fail := s.count .lnk 0 3 6 0 1
  match s.fab.addr, s.routeOf p.slice with
  | some me, some r =>
    let n := s.routed r me { dst := p.src, slice := p.slice, dstFn := fn, kind := kind, dstVt := p.srcVt,
                             aux := p.dst + p.dstFn * 2 ^ 16 }
    match n.hop none with
    | (q, some first, axis) =>
      match s.pickPort q first axis (routeMask r) with
      | some port => ((s.enqueue port q axis).count .lnk 0 4 0 0 1, none)
      | none => (fail, none)
    | (q, none, _) => (s.count .lnk 0 4 0 0 1, some q)
  | _, _ => (fail, none)

/-- The quadrant of a tile (R13). -/
def tileQuad (t : Nat) : Nat := t % 8 / 4 + 2 * (t / 40)

/-- The quadrant of a fabric port (Table 1.2). -/
def portQuad (p : Nat) : Nat :=
  if p < 2 ∨ p = 6 ∨ p = 7 ∨ p = 14 then 0
  else if p = 2 ∨ p = 3 ∨ p = 8 ∨ p = 9 ∨ p = 15 then 1
  else if p = 4 ∨ p = 10 ∨ p = 11 ∨ p = 16 ∨ p = 18 then 2 else 3

/-- The tiles of a quadrant. -/
def quadTiles (q : Nat) : List Nat := (List.range 80).filter (fun t => tileQuad t = q)

/-- A path of the mesh leads from a quadrant's interfaces to a tile. DEDUCED (log 138): the spec gives an interface's quadrant
and not its router, so a packet is lost only where no router of the quadrant reaches the tile (R480). -/
def State.quadReaches (s : State) (q t : Nat) : Bool :=
  s.mesh.halves.isEmpty || (quadTiles q).any (fun u => s.pathOk u t)

/-- A path leads from one quadrant's interfaces to another's. -/
def State.quadsJoin (s : State) (q r : Nat) : Bool :=
  s.mesh.halves.isEmpty || (quadTiles r).any (fun t => s.quadReaches q t)

/-- What a delivered channel packet carries, by its KIND (Table 14.4). -/
def FPkt.body (p : FPkt) : ChBody :=
  match p.kind with
  | 1 => .msg p.payload p.poison
  | 2 => .bulk (p.aux % 2 ^ 63) p.payload (List.replicate p.length p.poison) (tb p.aux 63)
  | 3 =>
    if p.length = 16 then .grantBulk (leVal (p.payload.drop 8))
    else .grantSlots (leVal (p.payload.take 4)) (leVal ((p.payload.drop 4).take 4))
  | 4 => .credit
  | 5 => .stopNotice
  | _ => .unreachable

/-- Put a delivered channel packet on its way to the tile (R406): messages, bulk data, grants, credits and
notices. An unreachable notice to a hole of the map goes to the function's first tile, since it may name a collective packet
(R407). DESIGN CHOICE (log 136): a packet whose DST_VTILE names no tile of the map is discarded and counted, and raises nothing, since
no program of this package presented the number. A packet that no path of the mesh takes to its tile is lost (R480). -/
def State.deliverChannel (s : State) (port : Nat) (p : FPkt) : State :=
  match (s.vtile p.dstFn p.dstVt).or (if p.kind = 6 then (s.tilesOf p.dstFn).head? else none) with
  | none => s.count .lnk 0 3 2 0 1
  | some t =>
    if !s.quadReaches (portQuad port) t then s
    else
      let src := if p.kind = 5 ∨ p.kind = 6 then p.aux % 2 ^ 14 else p.src
      let ep := if p.kind = 5 ∨ p.kind = 6 then p.aux / 2 ^ 16 % 1024 else p.dstEp
      { s with noc := s.noc ++ [{ src := 80 + port, dst := t, ep := ep, fn := p.dstFn, srcPkg := 0x10000 + src, srcVt := p.srcVt,
                                  srcEp := p.srcEp, body := p.body }] }

/-- The source function of a packet as the destination function's peer table names it. -/
def State.peerFn (s : State) (f src : Nat) : Nat :=
  (((s.fn f).peers.find? (fun e => e.2.valid && e.2.addr = src)).map (fun e => e.2.fn)).getD 0

/-- The chunk number that carries ARRIVE (Table 15.7); it travels with chunk 0 (R429). -/
def arriveChunk : Nat := 0x1FFFF
def leadIdx (ch : Nat) : Nat := if ch = arriveChunk then 0 else ch

/-- The engine that owns a chunk (R422). -/
def chunkQuad (ch : Nat) : Nat := leadIdx ch % 8 / 2

/-- Fields of AUX (Tables 15.7 and 15.8). -/
def FPkt.gid (p : FPkt) : Nat := p.aux % 2 ^ 16
def FPkt.opseq (p : FPkt) : Nat := p.aux / 2 ^ 16 % 2 ^ 16
def FPkt.chunk (p : FPkt) : Nat := p.aux / 2 ^ 32 % 2 ^ 17
def FPkt.stage (p : FPkt) : Nat := p.aux / 2 ^ 49 % 4
def FPkt.noticeCode (p : FPkt) : Nat := p.aux / 2 ^ 32 % 256

/-- The collective that a packet names, running or waiting. -/
def State.collFor (s : State) (p : FPkt) : Option Coll :=
  s.colls.find? (fun c => c.fn = p.dstFn && c.group.id = p.gid && c.opseq = p.opseq)

/-- The engine that takes a NOTICE: that of the quadrant where its collective started. -/
def State.noticeQuad (s : State) (p : FPkt) : Nat := ((s.collFor p).map (·.quad)).getD 0

/-- A collective packet that came in by a port is passed over the mesh to the engine that takes it (R22, R422); one behind a
mesh link that is down is lost (R480). -/
def State.deliverColl (s : State) (port : Nat) (p : FPkt) : State :=
  if s.quadsJoin (portQuad port) (if p.kind = 11 then s.noticeQuad p else chunkQuad p.chunk) then
    { s with collIn := s.collIn ++ [p] }
  else s

/-- The delivery check of R406 and its results: delivery, a stop notice (R312), or a counted discard. -/
def State.deliver (s : State) (port : Nat) (p : FPkt) : State :=
  if s.fab.addr = none then s.count .lnk port 3 5 0 1
  else
    let f := s.fn p.dstFn
    let ok := s.fab.addr = some p.dst && f.st ≠ .free && f.slice = p.slice && p.slice ≠ 0 &&
      (match s.routeOf p.slice with | some r => routeEpoch r = p.epoch | none => false)
    if !ok then s.count .lnk port 3 2 0 1
    else if f.st ≠ .running then
      if p.kind = 5 ∨ p.kind = 6 then s.count .lnk port 3 2 0 1
      else (s.sendNotice 5 (s.peerFn p.dstFn p.src) p).1
    else
      let s := if p.kind = 5 ∨ p.kind = 6 then s.count .lnk port 4 1 0 1 else s
      if p.kind ≥ 8 then s.deliverColl port p else s.deliverChannel port p

/-- Discard a packet (R407, R408): one of group DATA is answered by an unreachable notice to its source. DEDUCED (log 156): a
packet marked TRANSIT counts by its KIND here. -/
def State.discard (s : State) (port cause : Nat) (p : FPkt) : State :=
  let s := s.count .lnk port 3 cause 0 1
  if p.kind = 1 ∨ p.kind = 2 ∨ p.kind ≥ 8 then
    match s.sendNotice 6 (if s.hasSlice p.slice then s.peerFn p.dstFn p.src else p.dstFn) p with
    | (s, some n) => s.deliver port n
    | (s, none) => s
  else s

/-- Forward a received packet by its header, or deliver it (R397). -/
def State.forward (s : State) (port : Nat) (p : FPkt) : State :=
  match p.hop (some port) with
  | (q, some first, axis) =>
    match s.pickPort q first axis (fun _ => true) with
    | some out => s.enqueue out q axis
    | none => s.discard port 3 p
  | (q, none, _) => s.deliver port q

/-- Send one channel packet to a peer package (R129, R401, R405): answers whether it was sent. -/
def State.sendRemote (s : State) (f t : Nat) (e : Endpoint) (epn kind : Nat) (payload : List Byte) (poison : Bool)
    (aux : Nat) : State × Bool :=
  let peer := (s.fn f).peers.get {} e.peerPkg
  if !peer.valid then (s, false)
  else
    let p : FPkt :=
      { dst := peer.addr, dstFn := peer.fn, kind := kind, flow := (t ^^^ e.peerVt ^^^ e.peerEp) % 8,
        length := payload.length, dstVt := e.peerVt, dstEp := e.peerEp, srcVt := s.vtOf f t, srcEp := epn,
        aux := aux, poison := poison, payload := payload }
    match s.fabSend f p with
    | (s, some q, ok) => (s.deliver 0 q, ok)
    | (s, none, ok) => (s, ok)

end Sys2Proof.Machine
end

