-- ==== Sys2Proof/Machine/ChannelOps.lean ====
section
/-! DEFINITION. Sending on a channel, and raising the tile's channel errors (R120 to R130). -/

namespace Sys2Proof.Machine

/-- Cut a bulk payload into packets of at most 2,048 bytes (fuel: packets), the last one marked. -/
def bulkCuts : Nat → Nat → List Byte → List (Nat × List Byte × Bool)
  | 0, _, _ => []
  | k + 1, off, bs =>
    if bs.length ≤ 2048 then [(off, bs, true)]
    else (off, bs.take 2048, false) :: bulkCuts k (off + 2048) (bs.drop 2048)

/-- Send a list of packets to a peer package (payload, AUX, POISON), stopping at the first that cannot be sent. -/
def State.sendAll (s : State) (f t : Nat) (e : Endpoint) (epn kind : Nat) : List (List Byte × Nat × Bool) → State × Bool
  | [] => (s, true)
  | (bs, aux, poison) :: rest =>
    match s.sendRemote f t e epn kind bs poison aux with
    | (s, true) => s.sendAll f t e epn kind rest
    | (s, false) => (s, false)

/-- The packets of a channel body to another package: its KIND, and payloads with AUX and POISON (Table 14.4). A packet of
bulk data is poisoned where one of its own bytes is (R114). DESIGN CHOICE (log 137): a grant's payload holds the slot size and
count as two 4-byte fields, or eight bytes of 0 and the window size, and bit 63 of a bulk packet's AUX marks the last byte. -/
def ChBody.packets (b : ChBody) (size : Nat) : Nat × List (List Byte × Nat × Bool) :=
  match b with
  | .msg d p => (1, if size > 2048 && d.length ≥ 2048 then [(d.take 2048, 0, p), (d.drop 2048, 0, p)] else [(d, 0, p)])
  | .bulk off d ps last => (2, (bulkCuts (d.length / 2048 + 1) off d).map (fun c =>
      (c.2.1, c.1 + bit (c.2.2 && last) 63, ((ps.drop (c.1 - off)).take c.2.1.length).any id)))
  | .grantSlots z n => (3, [(toLe 4 z ++ toLe 4 n, 0, false)])
  | .grantBulk z => (3, [(toLe 8 0 ++ toLe 8 z, 0, false)])
  | .credit | .bulkAck => (4, [([], 0, false)])
  | .stopNotice => (5, [([], 0, false)])
  | .unreachable => (6, [([], 0, false)])

/-- The slot size an endpoint was granted, for the cut of messages into packets. -/
def Grant.size : Grant → Nat
  | .slots n => n
  | _ => 0

/-- Send a body from a tile's endpoint to its peer (R125 to R129): within the package by the virtual tile map,
to another package through the fabric. Answers whether it could be sent; over a mesh link that is down it cannot (R480). -/
def State.chSend (s : State) (t epn : Nat) (b : ChBody) : State × Bool :=
  let x := s.tile t
  let e := x.ep epn
  let f := x.owner.getD 0
  if e.peerPkg = 0xFFFF then
    match s.vtile f e.peerVt with
    | none => (s, false)
    | some d =>
      if !s.pathOk t d then (s, false)
      else
        let p : ChPkt := { src := t, dst := d, ep := e.peerEp, fn := f, srcPkg := 0xFFFF, srcVt := s.vtOf f t, srcEp := epn, body := b }
        ({ s with noc := s.noc ++ [p] }, true)
  else
    let k := b.packets e.grant.size
    s.sendAll f t e epn k.1 k.2

/-- A channel error of a tile outside any instruction (R123, R129): TSEQ_ERR_STAT, charged to the owner. -/
def State.chanErr (s : State) (t n : Nat) : State := s.raiseT .tseq t (2 ^ n)

/-- Send, raising CHAN_LOST where the peer package cannot be reached (R129, R397). -/
def State.chSendOrLost (s : State) (t epn : Nat) (b : ChBody) : State :=
  match s.chSend t epn b with
  | (s, true) => s
  | (s, false) => s.chanErr t 7

end Sys2Proof.Machine
end

