-- ==== Sys2Proof/Machine/Operands.lean ====
section
/-! DEFINITION. Operand forms: the fields of an instruction word, of a descriptor and of its header. -/

namespace Sys2Proof.Machine

/-- A field of a little-endian structure: `n` bits from bit `o` of byte offset `b`. -/
def fld (raw b o n : Nat) : Nat := raw / 2 ^ (8 * b + o) % 2 ^ n

/-- Descriptor header fields (Table 4.7). -/
def Desc.engine (d : Desc) : Nat := fld d.raw 0 0 4
def Desc.long (d : Desc) : Bool := fld d.raw 0 4 1 = 1
def Desc.op (d : Desc) : Nat := fld d.raw 1 0 8
def Desc.waitTally (d : Desc) : Nat := fld d.raw 2 0 6
def Desc.waitEn (d : Desc) : Bool := fld d.raw 2 6 1 = 1
def Desc.sigTally (d : Desc) : Nat := fld d.raw 3 0 6
def Desc.sigEn (d : Desc) : Bool := fld d.raw 3 6 1 = 1
def Desc.waitValue (d : Desc) : W32 := BitVec.ofNat 32 (fld d.raw 4 0 32)

/-- The queue that takes a descriptor's ENGINE (R107); codes 6 to 15 are malformed. -/
def engQ : Nat → Option EngQ
  | 0 => some .opa | 1 => some .ve | 2 => some .ve | 3 => some .gus | 4 => some .pw | 5 => some .dma | _ => none

/-- The header check of R108 on a slot. -/
def headerOk (raw slot : Nat) : Bool :=
  (engQ (fld raw 0 0 4)).isSome && !(fld raw 0 4 1 = 1 && slot % 2 = 1) && fld raw 0 5 3 = 0 &&
    fld raw 2 7 1 = 0 && fld raw 3 7 1 = 0

/-- Opcodes that the sequencer implements and the fields that each leaves unused (R100, Tables 4.2 to 4.5). DEDUCED (log 134):
a 64-bit DSW at an odd word and a HALT whose FN is not 0 are not implemented either. -/
def seqWordOk (w : Nat) : Bool :=
  let op := w / 2 ^ 26 % 64
  let rd := w / 2 ^ 21 % 32
  let rs1 := w / 2 ^ 16 % 32
  let rs2 := w / 2 ^ 11 % 32
  let fn := w % 2048
  let imm := w % 65536
  match op with
  | 0x00 => fn < 16
  | 0x06 => imm / 256 = 0 && imm / 64 % 4 < 3
  | 0x07 => rs1 = 0
  | 0x20 => rs1 = 0 && imm % 128 = 0 && !(imm / 128 % 2 = 1 && imm / 256 % 2 = 1)
  | 0x28 => fn < 64 && rd = 0
  | 0x29 | 0x2A => fn < 64 && rs1 = 0 && rs2 = 0
  | 0x2B | 0x2D => fn < 64 && rd = 0 && rs1 = 0 && rs2 = 0
  | 0x2C => fn < 64 && rd = 0 && rs2 = 0
  | 0x30 => fn < 64 && rd = 0 && rs2 = 0
  | 0x31 | 0x32 => fn < 63 && rd = 0 && rs2 = 0
  | 0x33 => fn < 64 && rs1 = 0 && rs2 = 0
  | 0x3C => imm % 256 < 10
  | 0x3D => imm % 256 = 2 || imm % 256 = 10
  | 0x3E => (fn = 0 && rs1 = 0 || fn = 1) && rd = 0 && rs2 = 0
  | 0x3F => fn = 0 && rd = 0 && rs1 = 0 && rs2 = 0
  | op => (1 ≤ op && op ≤ 0x19) || op = 0x21 || op = 0x22

/-- The word of an instruction of format R (Table 4.2). -/
def encR (op : Nat) (rd rs1 rs2 : BitVec 5) (fn : Nat) : Nat :=
  op * 2 ^ 26 + rd.toNat * 2 ^ 21 + rs1.toNat * 2 ^ 16 + rs2.toNat * 2 ^ 11 + fn

/-- The word of an instruction of format I (Table 4.2). Format B is laid out alike, with RS1 and RS2 in the places of RD and
RS1. -/
def encI (op : Nat) (rd rs1 : BitVec 5) (imm : Nat) : Nat :=
  op * 2 ^ 26 + rd.toNat * 2 ^ 21 + rs1.toNat * 2 ^ 16 + imm

/-- The word of an instruction of format J (Table 4.2). -/
def encJ (op : Nat) (rd : BitVec 5) (off : BitVec 21) : Nat := op * 2 ^ 26 + rd.toNat * 2 ^ 21 + off.toNat

end Sys2Proof.Machine

namespace Sys2Proof

/-- The words of instructions by the fields of their rows. -/
def RFields.word (f : RFields) (op : Nat) : Nat := Machine.encR op f.rd f.rs1 f.rs2 f.fn.toNat
def IFields.word (f : IFields) (op : Nat) : Nat := Machine.encI op f.rd f.rs1 f.imm.toNat
def BFields.word (f : BFields) (op : Nat) : Nat := Machine.encI op f.rs1 f.rs2 f.off.toNat

end Sys2Proof
end

