-- ==== Sys2Proof/Machine/MemOps.lean ====
section
/-! DEFINITION. Moving bytes between tile and slab memory line by line, with their poison and tags (R104, R114,
R290, R295, R296). -/

namespace Sys2Proof.Machine

/-- A SPACE code of Table 4.8: 0 tile address, 1 slab address. The bytes of a range with the poison of each, the
software tag of the codeword of each line, and whether a slab read failed correction (fuel: lines). -/
def State.getLinesFuel (s : State) (f t space : Nat) :
    Nat → Nat → Nat → State × List (Byte × Bool) × List Byte × Bool
  | 0, _, _ => (s, [], [], false)
  | k + 1, a, n =>
    if n = 0 then (s, [], [], false)
    else
      let len := min n (64 - a % 64)
      let (s, bs, tag, u) :=
        if space = 0 then
          let x := s.tile t
          let p := x.poisoned a len
          (s, (x.bytes a len).map (fun b => (b, p)), (0 : Byte), false)
        else match s.resolve f (some t) a with
          | none => (s, List.replicate len ((0 : Byte), false), (0 : Byte), false)
          | some (d, o) =>
            let (s, bs, p, u) := s.slabRead d o len
            (s, bs.map (fun b => (b, p)), (s.slab d).mdata.get 0 (o / 64) &&& 0x7F, u)
      let (s, bs', tags, u') := s.getLinesFuel f t space k (a + len) (n - len)
      (s, bs ++ bs', tag :: tags, u || u')

def State.getLines (s : State) (f t space a n : Nat) : State × List (Byte × Bool) × List Byte × Bool :=
  s.getLinesFuel f t space (n / 64 + 2) a n

/-- Write bytes with their poison, line by line: a line that takes a poisoned byte is written poisoned (R114).
`tags` are the software tags of whole codewords copied, in order; none are carried where it is empty. -/
def State.putLinesFuel (s : State) (f t space : Nat) : Nat → Nat → List (Byte × Bool) → List Byte → State
  | 0, _, _, _ => s
  | k + 1, a, d, tags =>
    if d.isEmpty then s
    else
      let n := 64 - a % 64
      let line := d.take n
      let bs := line.map (·.1)
      let p := line.any (·.2)
      let s := if space = 0 then s.onTile t (fun x => x.write a bs p)
        else match s.resolve f (some t) a with
          | none => s
          | some (td, o) => s.writeCw td o bs p (if bs.length = 64 then tags.head? else none)
      s.putLinesFuel f t space k (a + n) (d.drop n) tags.tail

def State.putLines (s : State) (f t space a : Nat) (d : List (Byte × Bool)) (tags : List Byte) : State :=
  s.putLinesFuel f t space (d.length / 64 + 2) a d tags

/-- The check of a byte range in a space (R113): a tile range by Table 4.6, a slab range by R284 to R286 and the
window flags. -/
def State.rangeCheck (s : State) (q : Requester) (f t space a n : Nat) (write : Bool) : SlabRes :=
  if space = 0 then (if tmOk q write a n then .ok [] else .outside)
  else s.slabCheck f (some t) a n write false

end Sys2Proof.Machine
end

