-- ==== Sys2Proof/Machine/Sequencer.lean ====
section
/-! DEFINITION. The tile sequencer's instructions (spec/04_tile_programs.md). -/

namespace Sys2Proof.Machine

/-- State codes of Table 4.1. -/
def SeqState.code : SeqState → Nat
  | .empty => 0 | .loaded => 1 | .running => 2 | .waiting => 3 | .halted => 4

/-- Change a sequencer's state, recording the change (Table 18.3, kind 0x04). -/
def State.seqGoto (s : State) (t : Nat) (new : SeqState) : State :=
  let old := (s.tile t).seq
  if old = new then s
  else (s.onTile t (fun x => { x with seq := new })).event .tseq t 4 (s.tile t).owner (new.code + old.code * 256) false

/-- A sequencer that retires instructions: RUNNING (Table 4.1), with no error of its own that stops its function
(R136), on a live tile. -/
def State.seqReady (s : State) (t : Nat) : Bool :=
  s.tileLive t && (s.tile t).seq = .running && !(s.tile t).seqFault

/-- The instruction word at the PC. -/
def Tile.word (x : Tile) : Nat := x.rd (0xC00000 + x.pc) 4

/-- What the effect of one instruction is: it retires with the state after its effect and a next PC, it waits, or
it raises causes of Table 4.13. -/
inductive SeqOut where
  | go (s : State) (npc : Int)
  | wait (w : Wait)
  | fault (s : State) (mask : Nat)

/-- A sequencer error (R136): the causes, FAULT_PC, and no further instruction until the function stops. DEDUCED (log 16): the
sequencer stays in RUNNING meanwhile, since Table 4.1 names no state that a fault enters. -/
def State.seqError (s : State) (t mask : Nat) : State :=
  (s.onTile t (fun x => { x with faultPc := x.pc, seqFault := true })).raiseT .tseq t mask

/-- An instruction retires (R98): the PC moves and the instruction is counted. -/
def State.retire (s : State) (t : Nat) (npc : Nat) : State :=
  (s.onTile t (fun x => { x with pc := npc, wait := .none })).countT .tseq t 1 0 1

/-- The outcome of an instruction at its tile (R94, R98, R136). DEDUCED (log 134): a HALT in the last word leaves a next PC
outside program memory as every instruction there does, so it raises ADDR_FAULT and does not halt. -/
def State.finish (s : State) (t : Nat) (o : SeqOut) : State :=
  match o with
  | .go s' npc => if 0 ≤ npc ∧ npc < 262144 then s'.retire t npc.toNat else s.seqError t 2
  | .wait w => (s.seqGoto t .waiting).onTile t (fun x => { x with wait := w })
  | .fault s' m => s'.seqError t m

/-- One instruction of a running sequencer: the one whose encoding `w` stands at the PC. A word there that the sequencer does
not implement raises ILLEGAL (R100); another instruction's word leaves this row nothing to run. -/
def State.seqStep (s : State) (t w : Nat) (f : State → Tile → SeqOut) : State :=
  if s.seqReady t then
    let v := (s.tile t).word
    if !seqWordOk v then s.seqError t 1
    else if v = w then s.finish t (f s (s.tile t)) else s
  else s

/-- Write a register and go on with the next word. -/
def wrReg (t : Nat) (rd : BitVec 5) (v : State → Tile → W64) (s : State) (x : Tile) : SeqOut :=
  .go (s.setTile t (x.setReg rd (v s x))) (x.pc + 4)

/-- An ALU instruction with its function code (Table 4.4). -/
def aluOp (t : TileId) (rd rs1 rs2 : BitVec 5) (fn : Nat) (f : W64 → W64 → W64) (s : State) : State :=
  s.seqStep t (encR 0x00 rd rs1 rs2 fn) (wrReg t rd (fun _ x => f (x.reg rs1) (x.reg rs2)))

/-- A Boolean as a register value. -/
def b64 (b : Bool) : W64 := if b then 1 else 0

def execAluAdd (t : TileId) (rd rs1 rs2 : BitVec 5) (s : State) : Host.Outcome State Fault Refusal :=
  .next (aluOp t rd rs1 rs2 0 (· + ·) s)
def execAluSub (t : TileId) (rd rs1 rs2 : BitVec 5) (s : State) : Host.Outcome State Fault Refusal :=
  .next (aluOp t rd rs1 rs2 1 (· - ·) s)
def execAluAnd (t : TileId) (rd rs1 rs2 : BitVec 5) (s : State) : Host.Outcome State Fault Refusal :=
  .next (aluOp t rd rs1 rs2 2 (· &&& ·) s)
def execAluOr (t : TileId) (rd rs1 rs2 : BitVec 5) (s : State) : Host.Outcome State Fault Refusal :=
  .next (aluOp t rd rs1 rs2 3 (· ||| ·) s)
def execAluXor (t : TileId) (rd rs1 rs2 : BitVec 5) (s : State) : Host.Outcome State Fault Refusal :=
  .next (aluOp t rd rs1 rs2 4 (· ^^^ ·) s)
def execAluSll (t : TileId) (rd rs1 rs2 : BitVec 5) (s : State) : Host.Outcome State Fault Refusal :=
  .next (aluOp t rd rs1 rs2 5 (fun a b => a <<< (b.toNat % 64)) s)
def execAluSrl (t : TileId) (rd rs1 rs2 : BitVec 5) (s : State) : Host.Outcome State Fault Refusal :=
  .next (aluOp t rd rs1 rs2 6 (fun a b => a >>> (b.toNat % 64)) s)
def execAluSra (t : TileId) (rd rs1 rs2 : BitVec 5) (s : State) : Host.Outcome State Fault Refusal :=
  .next (aluOp t rd rs1 rs2 7 (fun a b => a.sshiftRight (b.toNat % 64)) s)
def execAluMul (t : TileId) (rd rs1 rs2 : BitVec 5) (s : State) : Host.Outcome State Fault Refusal :=
  .next (aluOp t rd rs1 rs2 8 (· * ·) s)
def execAluMulhu (t : TileId) (rd rs1 rs2 : BitVec 5) (s : State) : Host.Outcome State Fault Refusal :=
  .next (aluOp t rd rs1 rs2 9 (fun a b => BitVec.ofNat 64 (a.toNat * b.toNat / 2 ^ 64)) s)
def execAluMulh (t : TileId) (rd rs1 rs2 : BitVec 5) (s : State) : Host.Outcome State Fault Refusal :=
  .next (aluOp t rd rs1 rs2 10 (fun a b => BitVec.ofInt 64 (a.toInt * b.toInt / 2 ^ 64)) s)
def execAluSlt (t : TileId) (rd rs1 rs2 : BitVec 5) (s : State) : Host.Outcome State Fault Refusal :=
  .next (aluOp t rd rs1 rs2 11 (fun a b => b64 (a.slt b)) s)
def execAluSltu (t : TileId) (rd rs1 rs2 : BitVec 5) (s : State) : Host.Outcome State Fault Refusal :=
  .next (aluOp t rd rs1 rs2 12 (fun a b => b64 (a.ult b)) s)
def execAluMin (t : TileId) (rd rs1 rs2 : BitVec 5) (s : State) : Host.Outcome State Fault Refusal :=
  .next (aluOp t rd rs1 rs2 13 (fun a b => if a.slt b then a else b) s)
def execAluMax (t : TileId) (rd rs1 rs2 : BitVec 5) (s : State) : Host.Outcome State Fault Refusal :=
  .next (aluOp t rd rs1 rs2 14 (fun a b => if a.slt b then b else a) s)
def execAluSext32 (t : TileId) (rd rs1 rs2 : BitVec 5) (s : State) : Host.Outcome State Fault Refusal :=
  .next (aluOp t rd rs1 rs2 15 (fun a _ => (a.setWidth 32).signExtend 64) s)

/-- An instruction of format I that writes RD (R99). -/
def immOp (t : TileId) (f : IFields) (code : Nat) (op : W64 → BitVec 16 → W64) (s : State) : State :=
  s.seqStep t (f.word code) (wrReg t f.rd (fun _ x => op (x.reg f.rs1) f.imm))

def execAddi (t : TileId) (f : IFields) (s : State) : Host.Outcome State Fault Refusal :=
  .next (immOp t f 0x01 (fun a i => a + i.signExtend 64) s)
def execAndi (t : TileId) (f : IFields) (s : State) : Host.Outcome State Fault Refusal :=
  .next (immOp t f 0x02 (fun a i => a &&& i.setWidth 64) s)
def execOri (t : TileId) (f : IFields) (s : State) : Host.Outcome State Fault Refusal :=
  .next (immOp t f 0x03 (fun a i => a ||| i.setWidth 64) s)
def execXori (t : TileId) (f : IFields) (s : State) : Host.Outcome State Fault Refusal :=
  .next (immOp t f 0x04 (fun a i => a ^^^ i.setWidth 64) s)
def execSlti (t : TileId) (f : IFields) (s : State) : Host.Outcome State Fault Refusal :=
  .next (immOp t f 0x05 (fun a i => b64 (a.slt (i.signExtend 64))) s)
/-- LUI leaves RS1 unused, and seqWordOk checks that (Table 4.3). -/
def execLui (t : TileId) (f : IFields) (s : State) : Host.Outcome State Fault Refusal :=
  .next (immOp t f 0x07 (fun _ i => i.signExtend 64 <<< (16 : Nat)) s)

/-- SHI: IMM[15:8] is unused, IMM[7:6] selects the kind and IMM[5:0] is the amount (Table 4.3). -/
def shiOp (t : TileId) (rd rs1 : BitVec 5) (hi : BitVec 8) (kind : Nat) (sh : BitVec 6) (f : W64 → W64) (s : State) : State :=
  s.seqStep t (encI 0x06 rd rs1 (hi.toNat * 256 + kind * 64 + sh.toNat)) (wrReg t rd (fun _ x => f (x.reg rs1)))

def execShiSll (t : TileId) (rd rs1 : BitVec 5) (hi : BitVec 8) (sh : BitVec 6) (s : State) :
    Host.Outcome State Fault Refusal := .next (shiOp t rd rs1 hi 0 sh (fun a => a <<< sh.toNat) s)
def execShiSrl (t : TileId) (rd rs1 : BitVec 5) (hi : BitVec 8) (sh : BitVec 6) (s : State) :
    Host.Outcome State Fault Refusal := .next (shiOp t rd rs1 hi 1 sh (fun a => a >>> sh.toNat) s)
def execShiSra (t : TileId) (rd rs1 : BitVec 5) (hi : BitVec 8) (sh : BitVec 6) (s : State) :
    Host.Outcome State Fault Refusal := .next (shiOp t rd rs1 hi 2 sh (fun a => a.sshiftRight sh.toNat) s)

/-- A branch of format B (R99): to PC + 4 × OFF where the comparison holds, else the next word. -/
def branchOp (t : TileId) (f : BFields) (code : Nat) (c : W64 → W64 → Bool) (s : State) : State :=
  s.seqStep t (f.word code) (fun s x =>
    .go s (if c (x.reg f.rs1) (x.reg f.rs2) then (x.pc : Int) + 4 * f.off.toInt else x.pc + 4))

def execBeq (t : TileId) (f : BFields) (s : State) : Host.Outcome State Fault Refusal :=
  .next (branchOp t f 0x08 (· = ·) s)
def execBne (t : TileId) (f : BFields) (s : State) : Host.Outcome State Fault Refusal :=
  .next (branchOp t f 0x09 (· ≠ ·) s)
def execBlt (t : TileId) (f : BFields) (s : State) : Host.Outcome State Fault Refusal :=
  .next (branchOp t f 0x0A BitVec.slt s)
def execBge (t : TileId) (f : BFields) (s : State) : Host.Outcome State Fault Refusal :=
  .next (branchOp t f 0x0B (fun a b => !a.slt b) s)
def execBltu (t : TileId) (f : BFields) (s : State) : Host.Outcome State Fault Refusal :=
  .next (branchOp t f 0x0C BitVec.ult s)
def execBgeu (t : TileId) (f : BFields) (s : State) : Host.Outcome State Fault Refusal :=
  .next (branchOp t f 0x0D (fun a b => !a.ult b) s)

/-- JAL (Table 4.3). -/
def execJal (t : TileId) (rd : BitVec 5) (off : BitVec 21) (s : State) : Host.Outcome State Fault Refusal :=
  .next (s.seqStep t (encJ 0x0E rd off) (fun s x =>
    .go (s.setTile t (x.setReg rd (BitVec.ofNat 64 (x.pc + 4)))) ((x.pc : Int) + 4 * off.toInt)))

/-- JALR (Table 4.3): the target is formed from RS1 before RD is written. -/
def execJalr (t : TileId) (f : IFields) (s : State) : Host.Outcome State Fault Refusal :=
  .next (s.seqStep t (f.word 0x0F) (fun s x =>
    .go (s.setTile t (x.setReg f.rd (BitVec.ofNat 64 (x.pc + 4))))
      ((x.reg f.rs1 + f.imm.signExtend 64) &&& 0xFFFFFFFFFFFFFFFC).toNat))

/-- The address RS1 + IMM. -/
def Tile.ea (x : Tile) (f : IFields) : W64 := x.reg f.rs1 + f.imm.signExtend 64

/-- What a scalar read of tile memory breaks (R101, R103, R104, R136): an address that is not aligned, not mapped or not
permitted, and bytes in poisoned lines. -/
def Tile.readFault (x : Tile) (align a n : Nat) : Nat :=
  (if a % align ≠ 0 || !tmOk .scalar false a n then 2 else 0) + (if x.poisoned a n then 4 else 0)

/-- A scalar load of `n` bytes, zero-extended. -/
def loadOp (t : TileId) (f : IFields) (code n : Nat) (s : State) : State :=
  s.seqStep t (f.word code) (fun s x =>
    let a := (x.ea f).toNat
    if x.readFault n a n ≠ 0 then .fault s (x.readFault n a n)
    else .go (s.setTile t (x.setReg f.rd (BitVec.ofNat 64 (x.rd a n)))) (x.pc + 4))

def execLb (t : TileId) (f : IFields) (s : State) : Host.Outcome State Fault Refusal := .next (loadOp t f 0x10 1 s)
def execLh (t : TileId) (f : IFields) (s : State) : Host.Outcome State Fault Refusal := .next (loadOp t f 0x11 2 s)
def execLw (t : TileId) (f : IFields) (s : State) : Host.Outcome State Fault Refusal := .next (loadOp t f 0x12 4 s)
def execLd (t : TileId) (f : IFields) (s : State) : Host.Outcome State Fault Refusal := .next (loadOp t f 0x13 8 s)

/-- A scalar store of the low `n` bytes of RD (R101, R103). -/
def storeOp (t : TileId) (f : IFields) (code n : Nat) (s : State) : State :=
  s.seqStep t (f.word code) (fun s x =>
    let a := (x.ea f).toNat
    if a % n ≠ 0 || !tmOk .scalar true a n then .fault s 2
    else .go (s.setTile t (x.write a (toLe n (x.reg f.rd).toNat) false)) (x.pc + 4))

def execSb (t : TileId) (f : IFields) (s : State) : Host.Outcome State Fault Refusal := .next (storeOp t f 0x14 1 s)
def execSh (t : TileId) (f : IFields) (s : State) : Host.Outcome State Fault Refusal := .next (storeOp t f 0x15 2 s)
def execSw (t : TileId) (f : IFields) (s : State) : Host.Outcome State Fault Refusal := .next (storeOp t f 0x16 4 s)
def execSd (t : TileId) (f : IFields) (s : State) : Host.Outcome State Fault Refusal := .next (storeOp t f 0x17 8 s)

/-- A range of LOCAL slab addresses presents a virtual tile at or beyond VTILES (R120). -/
def State.vtileBad (s : State) (f a n : Nat) : Bool := a + n ≤ 2 ^ 40 && (a + n - 1) / 2 ^ 33 ≥ s.vtiles f

/-- The causes of an SLD or SST whose address is unaligned or not in the function's slab: ADDR_FAULT, with VTILE_RANGE where
it presents a virtual tile at or beyond VTILES (R120, R136). -/
def State.slabFault (s : State) (f a : Nat) : Nat := if s.vtileBad f a 8 then 2 + 16 else 2

/-- SLD (R283 to R286, R324, R557). -/
def execSld (t : TileId) (f : IFields) (s : State) : Host.Outcome State Fault Refusal :=
  .next (s.seqStep t (f.word 0x18) (fun s x =>
    let a := (x.ea f).toNat
    let own := x.owner.getD 0
    if a % 8 ≠ 0 then .fault s (s.slabFault own a)
    else
      let c := s.slabCheck own (some t) a 8 false false
      if c.isOk then
        let (s, bs, p, _) := s.readPieces c.pieces
        if p then .fault s 4
        else .go (s.setTile t ((s.tile t).setReg f.rd (BitVec.ofNat 64 (leVal bs)))) (x.pc + 4)
      else .fault (s.reportRefused own c) (s.slabFault own a)))

/-- SST (R283 to R286, R290, R324). -/
def execSst (t : TileId) (f : IFields) (s : State) : Host.Outcome State Fault Refusal :=
  .next (s.seqStep t (f.word 0x19) (fun s x =>
    let a := (x.ea f).toNat
    let own := x.owner.getD 0
    if a % 8 ≠ 0 then .fault s (s.slabFault own a)
    else
      let c := s.slabCheck own (some t) a 8 true false
      if c.isOk then .go (s.writePieces c.pieces (toLe 8 (x.reg f.rd).toNat) false) (x.pc + 4)
      else .fault (s.reportRefused own c) (s.slabFault own a)))

/-- DSW (Table 4.3). -/
def execDsw (t : TileId) (f : IFields) (s : State) : Host.Outcome State Fault Refusal :=
  let i := f.imm.toNat
  .next (s.seqStep t (f.word 0x20) (fun s x =>
    .go (s.setTile t (x.write (0xD00000 + i / 4096 * 64 + i / 256 % 16 * 4)
      (toLe (if i / 128 % 2 = 1 then 8 else 4) (x.reg f.rd).toNat) false)) (x.pc + 4)))

/-- DLD (R557). -/
def execDld (t : TileId) (f : IFields) (s : State) : Host.Outcome State Fault Refusal :=
  .next (s.seqStep t (f.word 0x21) (fun s x =>
    let a := (x.reg f.rs1).toNat
    if x.readFault 64 a 64 ≠ 0 then .fault s (x.readFault 64 a 64)
    else .go (s.setTile t (x.write (0xD00000 + f.imm.toNat % 16 * 64) (x.bytes a 64) false)) (x.pc + 4)))

/-- The bytes of a slot, or of two for LONG, as a little-endian number. -/
def Tile.slotRaw (x : Tile) (n : Nat) : Nat :=
  let lo := x.rd (0xD00000 + n * 64) 64
  if fld lo 0 4 1 = 1 then lo + x.rd (0xD00000 + n * 64 + 64) 64 * 2 ^ 512 else lo

/-- A queue entry is free (R107). -/
def Eng.hasRoom (e : Eng) : Bool := e.queue.length < 16

/-- Steps 2 to 5 of DISS on a slot (R108). -/
def dissTry (t slot : Nat) (s : State) (x : Tile) : SeqOut :=
  let raw := x.slotRaw slot
  match engQ (fld raw 0 0 4) with
  | none => .fault s 8
  | some q =>
    if !headerOk raw slot then .fault s 8
    else if !(x.eng q).hasRoom then .wait (.queue q slot)
    else
      let e := x.eng q
      let x := x.setEng q { e with queue := e.queue ++ [{ raw := raw, dseq := x.dseq }] }
      .go ((s.setTile t { x with dseq := x.dseq + 1 }).countT .tseq t 3 (fld raw 0 0 4) 1) (x.pc + 4)

def execDiss (t : TileId) (f : IFields) (s : State) : Host.Outcome State Fault Refusal :=
  .next (s.seqStep t (f.word 0x22) (dissTry t (f.imm.toNat % 16)))

/-- A sequencer that waits on a live tile resumes with the rest of its instruction. -/
def State.seqResume (s : State) (t : Nat) (f : Wait → Option (State → Tile → SeqOut)) : State :=
  let x := s.tile t
  if s.tileLive t && x.seq = .waiting && !x.seqFault then
    match f x.wait with
    | none => s
    | some g =>
      match g s x with
      | .wait _ => s
      | _ =>
        let s := (s.seqGoto t .running).onTile t (fun x => { x with wait := .none })
        s.finish t (g s (s.tile t))
  else s

def execDissQueueEntryFreed (t : TileId) (s : State) : Host.Outcome State Fault Refusal :=
  .next (s.seqResume t (fun w => match w with | .queue _ slot => some (dissTry t slot) | _ => none))

/-- Steps 2 to 7 of MSEND (R125, R557). A message that cannot be sent raises CHAN_LOST (R397, R480) and takes no credit. -/
def msendTry (t epn : Nat) (addr len : W64) (s : State) (x : Tile) : SeqOut :=
  let e := x.ep epn
  let a := addr.toNat
  let n := len.toNat
  let w : SeqOut := .wait (.credit epn addr len)
  let bad := if tmOk .scalar false a n then 0 else 2
  if e.kind ≠ .send then .fault s (256 + bad)
  else match e.grant with
    | .none => w
    | .bulk _ => .fault s (256 + bad)
    | .slots size =>
      if n > size then .fault s (256 + bad)
      else if e.credits = 0 then w
      else if bad ≠ 0 then .fault s 2
      else match s.chSend t epn (.msg (x.bytes a n) (x.poisoned a n)) with
        | (s, true) => .go (s.onTile t (fun y => y.setEp epn { y.ep epn with credits := e.credits - 1 })) (x.pc + 4)
        | (s, false) => .fault s 128

def execMsend (t : TileId) (f : RFields) (s : State) : Host.Outcome State Fault Refusal :=
  .next (s.seqStep t (f.word 0x28) (fun s x => msendTry t f.fn.toNat (x.reg f.rs1) (x.reg f.rs2) s x))

def execMsendCreditTaken (t : TileId) (s : State) : Host.Outcome State Fault Refusal :=
  .next (s.seqResume t (fun w => match w with
    | .credit ep a n => some (msendTry t ep a n)
    | _ => none))

/-- The next message of a receive endpoint: its length and slot address, and the endpoint after it (R127). -/
def Endpoint.next (e : Endpoint) : Option (W64 × Endpoint) :=
  match e.lens with
  | [] => none
  | n :: rest =>
    some (BitVec.ofNat 64 (n * 2 ^ 32 + e.base + e.returned % (e.slotsM1 + 1) * 2 ^ e.slotLog2),
      { e with lens := rest, returned := e.returned + 1 })

/-- MRECV on an endpoint (R127). -/
def mrecvTry (t epn : Nat) (rd : BitVec 5) (s : State) (x : Tile) : SeqOut :=
  let e := x.ep epn
  if e.kind ≠ .recvInline then .fault s 32
  else match e.next with
    | none => .wait (.recv epn rd)
    | some (v, e) => .go (s.setTile t ((x.setEp epn e).setReg rd v)) (x.pc + 4)

def execMrecv (t : TileId) (f : RFields) (s : State) : Host.Outcome State Fault Refusal :=
  .next (s.seqStep t (f.word 0x29) (mrecvTry t f.fn.toNat f.rd))

def execMrecvMessageReturned (t : TileId) (s : State) : Host.Outcome State Fault Refusal :=
  .next (s.seqResume t (fun w => match w with | .recv ep rd => some (mrecvTry t ep rd) | _ => none))

/-- MTRY: as MRECV, returning all ones where no message waits (R127). -/
def execMtry (t : TileId) (f : RFields) (s : State) : Host.Outcome State Fault Refusal :=
  .next (s.seqStep t (f.word 0x2A) (fun s x =>
    match mrecvTry t f.fn.toNat f.rd s x with
    | .wait _ => .go (s.setTile t (x.setReg f.rd (BitVec.allOnes 64))) (x.pc + 4)
    | o => o))

/-- Send one packet of an endpoint and change the endpoint; CHAN_LOST where it cannot be sent (R397, R480). -/
def sendGo (t epn : Nat) (b : ChBody) (g : Endpoint → Endpoint) (s : State) (x : Tile) : SeqOut :=
  match s.chSend t epn b with
  | (s, true) => .go (s.onTile t (fun y => y.setEp epn (g (y.ep epn)))) (x.pc + 4)
  | (s, false) => .fault s 128

def execMfree (t : TileId) (f : RFields) (s : State) : Host.Outcome State Fault Refusal :=
  .next (s.seqStep t (f.word 0x2B) (fun s x =>
    let epn := f.fn.toNat
    let e := x.ep epn
    if e.kind ≠ .recvInline || e.freed ≥ e.returned then .fault s 32
    else sendGo t epn .credit (fun e => { e with freed := e.freed + 1 }) s x))

/-- The tile or slab range that a record of Table 4.10 names: the slots of RECV_INLINE or the window of RECV_BULK, as SPACE,
address and length. -/
def chRange (r : Nat) : Nat × Nat × Nat :=
  let base := fld r 8 0 64
  match fld r 0 0 2 with
  | 2 => (0, base, 2 ^ fld r 6 0 4 * (fld r 7 0 8 + 1))
  | 3 => (base / 2 ^ 62, base % 2 ^ 62, fld r 16 0 64)
  | _ => (0, 0, 0)

/-- The endpoint that a record of Table 4.10 describes; `none` where the record is malformed, a slot base is
misaligned, or a slot or window range is not the function's (R122). DEDUCED (log 135): a field that its kind has software
write 0 makes the record malformed where it is not 0, and Table 4.6 is asked as for the DMA engine's writes. -/
def State.chRecord (s : State) (t : Nat) (r : Nat) : Option Endpoint :=
  let vpkg := fld r 4 0 16
  let lg := fld r 6 0 4
  let m1 := fld r 7 0 8
  let base := fld r 8 0 64
  let win := fld r 16 0 64
  let f := (s.tile t).owner.getD 0
  let e : Endpoint := { peerEp := fld r 1 0 6, peerVt := fld r 2 0 7, peerPkg := vpkg, tally := fld r 3 0 6,
                        tallyEn := fld r 3 6 1 = 1, slotLog2 := lg, slotsM1 := m1, base := base, window := win }
  let (space, a, n) := chRange r
  let ok := match space with
    | 0 => tmOk .dma true a n
    | 1 => (s.slabOwned f t a n)
    | _ => false
  if 0x4000 ≤ vpkg ∧ vpkg < 0xFFFF then none
  else match fld r 0 0 2 with
    | 1 => if lg ≠ 0 ∨ m1 ≠ 0 ∨ base ≠ 0 ∨ win ≠ 0 then none else some { e with kind := .send }
    | 2 => if lg < 6 ∨ lg > 12 ∨ win ≠ 0 ∨ base % 2 ^ lg ≠ 0 ∨ !ok then none else some { e with kind := .recvInline }
    | 3 => if lg ≠ 0 ∨ m1 ≠ 0 ∨ win = 0 ∨ !ok then none else some { e with kind := .recvBulk }
    | _ => none

/-- What a record names lies outside its map (R120, R405): the peer's virtual tile or package, or the virtual tile of a
window's LOCAL address. -/
def State.peerBad (s : State) (f r : Nat) : Bool :=
  let vpkg := fld r 4 0 16
  let (space, a, n) := chRange r
  (if vpkg = 0xFFFF then decide (fld r 2 0 7 ≥ s.vtiles f)
    else vpkg < 0x4000 && !((s.fn f).peers.get {} vpkg).valid) || (space = 1 && n ≠ 0 && s.vtileBad f a n)

/-- CHCFG (R122, R557): every cause that the record and the endpoint have is raised (R136). -/
def execChcfg (t : TileId) (f : RFields) (s : State) : Host.Outcome State Fault Refusal :=
  .next (s.seqStep t (f.word 0x2C) (fun s x =>
    let a := (x.reg f.rs1).toNat
    let epn := f.fn.toNat
    let used := if (x.ep epn).kind = .unconf then 0 else 32
    if x.readFault 1 a 24 ≠ 0 then .fault s (x.readFault 1 a 24 + used)
    else
      let r := x.rd a 24
      let bad := if s.peerBad (x.owner.getD 0) r then 16 else 0
      match s.chRecord t r with
      | none => .fault s (32 + bad)
      | some e => if used + bad ≠ 0 then .fault s (used + bad) else .go (s.setTile t (x.setEp epn e)) (x.pc + 4)))

/-- CHARM (R124). -/
def execCharm (t : TileId) (f : RFields) (s : State) : Host.Outcome State Fault Refusal :=
  .next (s.seqStep t (f.word 0x2D) (fun s x =>
    let epn := f.fn.toNat
    let e := x.ep epn
    let arm := fun b => sendGo t epn b (fun e => { e with armed := true }) s x
    if e.armed then .fault s 32
    else match e.kind with
      | .recvInline => arm (.grantSlots (2 ^ e.slotLog2) (e.slotsM1 + 1))
      | .recvBulk => arm (.grantBulk e.window)
      | _ => .fault s 32))

/-- TWAIT (R117); its compare value is RS1[31:0]. -/
def twaitTry (n : Nat) (v : W32) (s : State) (x : Tile) : SeqOut :=
  if tallyOk (x.tally n) v then .go s (x.pc + 4) else .wait (.tally n v)

def execTwait (t : TileId) (f : RFields) (s : State) : Host.Outcome State Fault Refusal :=
  .next (s.seqStep t (f.word 0x30) (fun s x => twaitTry f.fn.toNat ((x.reg f.rs1).setWidth 32) s x))

/-- A TWAIT is released as soon as its tally satisfies its value (R118). A queued descriptor is released by its
start, DESC_START. -/
def execTallyWaitRelease (t : TileId) (s : State) : Host.Outcome State Fault Refusal :=
  .next (s.seqResume t (fun w => match w with | .tally n v => some (twaitTry n v) | _ => none))

/-- TSIG; seqWordOk refuses t63 (R116). -/
def execTsig (t : TileId) (f : RFields) (s : State) : Host.Outcome State Fault Refusal :=
  .next (s.seqStep t (f.word 0x31) (fun s x =>
    .go (s.setTile t (x.addTally f.fn.toNat ((x.reg f.rs1).setWidth 32))) (x.pc + 4)))

def execTset (t : TileId) (f : RFields) (s : State) : Host.Outcome State Fault Refusal :=
  .next (s.seqStep t (f.word 0x32) (fun s x =>
    .go (s.setTile t (x.setTally f.fn.toNat ((x.reg f.rs1).setWidth 32))) (x.pc + 4)))

def execTrd (t : TileId) (f : RFields) (s : State) : Host.Outcome State Fault Refusal :=
  .next (s.seqStep t (f.word 0x33) (wrReg t f.rd (fun _ x => (x.tally f.fn.toNat).setWidth 64)))

/-- The value of a system register (Table 4.5). STEPS is a free value. -/
def State.sysReg (s : State) (t n : Nat) : W64 :=
  let x := s.tile t
  let f := x.owner.getD 0
  match n with
  | 0 => BitVec.ofNat 64 (s.vtOf f t)
  | 1 => BitVec.ofNat 64 (s.vtiles f)
  | 2 => x.dseq.setWidth 64
  | 3 => BitVec.ofNat 64 s.timeNs
  | 4 => Config.stepCount s.freeCtr
  | 5 => x.larg.a0
  | 6 => x.larg.a1
  | 7 => x.larg.a2
  | 8 => x.larg.a3
  | _ => BitVec.ofNat 64 x.faultPc

/-- RDSYS (R102): seqWordOk refuses an index that is not listed and the write-only LACK. -/
def execRdsys (t : TileId) (f : IFields) (s : State) : Host.Outcome State Fault Refusal :=
  let n := f.imm.toNat % 256
  .next (s.seqStep t (f.word 0x3C) (fun s x =>
    let s' := s.setTile t (x.setReg f.rd (s.sysReg t n))
    .go (if n = 4 then { s' with freeCtr := s'.freeCtr + 1 } else s') (x.pc + 4)))

def execWrsysDseq (t : TileId) (rd rs1 : BitVec 5) (hi : BitVec 8) (s : State) :
    Host.Outcome State Fault Refusal :=
  .next (s.seqStep t (encI 0x3D rd rs1 (hi.toNat * 256 + 2)) (fun s x =>
    .go (s.setTile t { x with dseq := (x.reg rs1).setWidth 32 }) (x.pc + 4)))

/-- Launch arguments reach a tile (R134, R97): they are written, t63 is incremented, and a HALTED tile restarts
at ENTRY with every register cleared. -/
def State.launchTile (s : State) (t : Nat) (a : Largs) : State :=
  let s := s.onTile t (fun x => ({ x with larg := a, argsHeld := true }).addTally 63 1)
  let x := s.tile t
  if x.seq = .halted then
    (s.seqGoto t .running).onTile t (fun x =>
      { x with regs := [], pc := (x.image.map (·.entry)).getD 0, wait := .none })
  else s

/-- The arguments of a LAUNCH command (Table 11.7). -/
def launchArgs (raw : Nat) : Largs :=
  { a0 := BitVec.ofNat 64 (fld raw 24 0 64), a1 := BitVec.ofNat 64 (fld raw 32 0 64),
    a2 := BitVec.ofNat 64 (fld raw 40 0 64), a3 := BitVec.ofNat 64 (fld raw 48 0 64) }

/-- Deliver a LAUNCH to a tile if its arguments are free: the tile leaves the command's list, and the release or
halt count that the command waits for is noted (R320). -/
def State.deliverOne (s : State) (r : Nat) (idx : W32) (t : Nat) : State :=
  match (s.ring r).cmds.find? (fun c => c.idx = idx) with
  | none => s
  | some c =>
    let x := s.tile t
    if x.argsHeld || !c.deliver.contains t then s
    else
      let target := if fld c.raw 1 2 2 = 1 then x.lacks + 1 else x.halts + 1
      let c' := { c with deliver := c.deliver.filter (· ≠ t), need := c.need ++ [(t, target)] }
      (s.onRing r (fun g => { g with cmds := g.cmds.map (fun d => if d.idx = idx then c' else d) })).launchTile t
        (launchArgs c.raw)

/-- The oldest LAUNCH that waits for a tile's arguments to be released, by ring number. -/
def State.pendingLaunch (s : State) (f t : Nat) : Option (Nat × W32) :=
  (s.rings.filter (fun e => e.2.valid && e.2.fn = f)).findSome? (fun e =>
    (e.2.cmds.find? (fun c => c.run && !c.cut && c.deliver.contains t)).map (fun c => (e.1, c.idx)))

/-- Release the launch arguments of a tile (R134), and deliver the next LAUNCH that waits for it (R320). -/
def State.lackTile (s : State) (t : Nat) : State :=
  let x := s.tile t
  if x.argsHeld then
    let s := s.setTile t { x with argsHeld := false, lacks := x.lacks + 1 }
    match s.pendingLaunch (x.owner.getD 0) t with
    | some (r, idx) => s.deliverOne r idx t
    | none => s
  else s

def execWrsysLack (t : TileId) (rd rs1 : BitVec 5) (hi : BitVec 8) (s : State) :
    Host.Outcome State Fault Refusal :=
  .next (s.seqStep t (encI 0x3D rd rs1 (hi.toNat * 256 + 10)) (fun s x => .go (s.lackTile t) (x.pc + 4)))

/-- FENCE (R132): every earlier scalar store of the model is visible already. -/
def execFence (t : TileId) (rd rs1 rs2 : BitVec 5) (s : State) : Host.Outcome State Fault Refusal :=
  .next (s.seqStep t (encR 0x3E rd rs1 rs2 0) (fun s x => .go s (x.pc + 4)))

def execEvpost (t : TileId) (rd rs1 rs2 : BitVec 5) (s : State) : Host.Outcome State Fault Refusal :=
  .next (s.seqStep t (encR 0x3E rd rs1 rs2 1) (fun s x =>
    .go (s.event .tseq t 2 x.owner (x.reg rs1).toNat false) (x.pc + 4)))

/-- HALT (Table 4.1). -/
def execHalt (t : TileId) (f : RFields) (s : State) : Host.Outcome State Fault Refusal :=
  .next (s.seqStep t (f.word 0x3F) (fun s x =>
    .go ((s.seqGoto t .halted).onTile t (fun y => { y with halts := y.halts + 1 })) (x.pc + 4)))

end Sys2Proof.Machine
end

