-- ==== Sys2Proof/Machine/Channels.lean ====
section
/-! DEFINITION. Channel packets arriving at a tile (R123 to R129, R312, R407). -/

namespace Sys2Proof.Machine

/-- Take the oldest packet that satisfies a test. -/
def takeFirst {α : Type} (p : α → Bool) : List α → Option (α × List α)
  | [] => none
  | x :: xs => if p x then some (x, xs) else (takeFirst p xs).map (fun r => (r.1, x :: r.2))

/-- The kinds of channel packet, as the arrival rows tell them apart. -/
inductive ChKind where
  | msg | bulk | ack | grant | credit | stop | unreachable
  deriving DecidableEq, Repr

/-- The kind of a packet at an endpoint: a credit return at an endpoint that holds a bulk window is the
acknowledgement of the last bulk byte (log 12). -/
def ChBody.kind (b : ChBody) (g : Grant) : ChKind :=
  match b with
  | .msg _ _ => .msg
  | .bulk _ _ _ _ => .bulk
  | .bulkAck => .ack
  | .grantSlots _ _ | .grantBulk _ => .grant
  | .credit => match g with
    | .bulk _ => .ack
    | _ => .credit
  | .stopNotice => .stop
  | .unreachable => .unreachable

/-- The packet's source is the endpoint's configured peer (R123). -/
def State.fromPeer (s : State) (f : Nat) (e : Endpoint) (p : ChPkt) : Bool :=
  e.peerEp = p.srcEp && e.peerVt = p.srcVt &&
    (if e.peerPkg = 0xFFFF then p.srcPkg = 0xFFFF
     else
       let peer := (s.fn f).peers.get {} e.peerPkg
       peer.valid && p.srcPkg = 0x10000 + peer.addr)

/-- The endpoint kind that takes a kind of packet (R123). -/
def ChKind.takenBy (k : ChKind) : EpKind :=
  match k with
  | .msg => .recvInline
  | .bulk => .recvBulk
  | _ => .send

/-- The oldest packet to a tile that satisfies a test and that no older packet from the same router precedes: packets from
one router to another arrive in the order they were sent (R287). `seen` are the routers of older packets. -/
def takeInOrder (t : Nat) (p : ChPkt → Bool) : List Nat → List ChPkt → Option (ChPkt × List ChPkt)
  | _, [] => none
  | seen, x :: xs =>
    if x.dst ≠ t then (takeInOrder t p seen xs).map (fun r => (r.1, x :: r.2))
    else if p x && !seen.contains x.src then some (x, xs)
    else (takeInOrder t p (x.src :: seen) xs).map (fun r => (r.1, x :: r.2))

/-- The next packet of some kinds for an endpoint of a live tile reaches it: it is discarded where the tile is no
longer its function's, and raises CHAN_PEER where its source or its kind is not the endpoint's (R123). While its function
stops, it is taken too until the tile's state is lost (Table 11.5). -/
def State.arrive (s : State) (t ep : Nat) (k : ChKind → Bool) (f : State → Endpoint → ChPkt → State) : State :=
  let x := s.tile t
  let e := x.ep ep
  if s.tileLive t then
    match takeInOrder t (fun p => p.ep = ep && k (p.body.kind e.grant)) [] s.noc with
    | none => s
    | some (p, rest) =>
      let s := { s with noc := rest }
      if x.owner ≠ some p.fn || !s.fnTakes p.fn then s
      else if e.kind ≠ (p.body.kind e.grant).takenBy || !s.fromPeer p.fn e p then s.chanErr t 6
      else f s e p
  else s

/-- Increment the bound tally of a receive endpoint (R126). -/
def Tile.bump (x : Tile) (e : Endpoint) : Tile := if e.tallyEn then x.addTally e.tally 1 else x

/-- A whole message lands in the next slot (R126). -/
def landMsg (t ep : Nat) (e : Endpoint) (d : List Byte) (poison : Bool) (s : State) : State :=
  s.onTile t (fun x =>
    let a := e.base + e.arrived % (e.slotsM1 + 1) * 2 ^ e.slotLog2
    let x := x.write a d poison
    let x := x.setEp ep { e with arrived := e.arrived + 1, lens := e.lens ++ [d.length], part := none }
    x.bump e)

def execChanMsgArrive (t : TileId) (ep : Idx64) (s : State) : Host.Outcome State Fault Refusal :=
  .next (s.arrive t ep (· = .msg) (fun s e p =>
    match p.body with
    | .msg d poison =>
      match e.part with
      | some (d0, p0) => landMsg t ep e (d0 ++ d) (p0 || poison) s
      | none =>
        if p.srcPkg ≠ 0xFFFF && e.slotLog2 = 12 && d.length = 2048 then
          s.onTile t (fun x => x.setEp ep { e with part := some (d, poison) })
        else landMsg t ep e d poison s
    | _ => s))

/-- Bulk data at an offset of a receive window (R126): tile or slab memory, each line poisoned where it takes a
poisoned byte (R114). -/
def State.writeWindow (s : State) (t : Nat) (e : Endpoint) (off : Nat) (d : List (Byte × Bool)) : State :=
  s.putLines ((s.tile t).owner.getD 0) t (e.base / 2 ^ 62) (e.base % 2 ^ 62 + off) d []

/-- What refuses the landing of bulk data in a window of slab memory: within the package the sending engine has checked the
flags (R324), and only a page RETIRED since refuses; from another package every check falls here (log 145). -/
def State.landRefused (s : State) (t : Nat) (e : Endpoint) (p : ChPkt) (off n : Nat) : Option SlabRes :=
  if e.base / 2 ^ 62 = 0 ∨ n = 0 then none
  else
    let c := s.slabCheck p.fn (some t) (e.base % 2 ^ 62 + off) n true false
    if (if p.srcPkg = 0xFFFF then c.stillOk else c.isOk) then none else some c

/-- The tile whose DMA engine requested the landing of a packet: the sender within the package, else the receiver. -/
def ChPkt.lander (p : ChPkt) : Nat := if p.srcPkg = 0xFFFF ∧ p.src < 80 then p.src else p.dst

def execChanBulkArrive (t : TileId) (ep : Idx64) (s : State) : Host.Outcome State Fault Refusal :=
  .next (s.arrive t ep (· = .bulk) (fun s e p =>
    match p.body with
    | .bulk off d poison last =>
      if off + d.length > e.window then s
      else match s.landRefused t e p off d.length with
      | some c => (s.reportRefused p.fn c).raiseT .dma p.lander 2
      | none =>
        let s := (s.writeWindow t e off (d.zip poison)).countT .dma t 1 5 d.length
        if last then (s.onTile t (fun x => x.bump e)).chSendOrLost t ep .bulkAck else s
    | _ => s))

def execChanGrantArrive (t : TileId) (ep : Idx64) (s : State) : Host.Outcome State Fault Refusal :=
  .next (s.arrive t ep (· = .grant) (fun s e p =>
    match p.body with
    | .grantSlots size n => s.onTile t (fun x => x.setEp ep { e with grant := .slots size, credits := n })
    | .grantBulk size => s.onTile t (fun x => x.setEp ep { e with grant := .bulk size })
    | _ => s))

/-- The running BULK_SEND of a tile may signal (R126). -/
def execBulkAckArrive (t : TileId) (s : State) : Host.Outcome State Fault Refusal :=
  .next (match (s.tile t).dma.run with
    | none => s
    | some r =>
      if r.ack then
        s.arrive t (fld r.desc.raw 40 0 6) (· = .ack) (fun s _ _ => s.onTile t (fun x =>
          { x with dma := { x.dma with run := some { r with ack := false, done := true } } }))
      else s)

/-- The running BULK_SEND of a tile waits for the acknowledgement of its receiver on an endpoint (R126). -/
def Tile.awaitsAck (x : Tile) (ep : Nat) : Bool :=
  match x.dma.run with
  | some r => r.ack && fld r.desc.raw 40 0 6 = ep
  | none => false

/-- A credit return reaches a send endpoint; so does one at an endpoint with a bulk window where no BULK_SEND waits for an
acknowledgement. -/
def execChanCreditArrive (t : TileId) (ep : Idx64) (s : State) : Host.Outcome State Fault Refusal :=
  .next (s.arrive t ep (fun k => k = .credit || (k = .ack && !(s.tile t).awaitsAck ep)) (fun s e _ => s.onTile t (fun x => x.setEp ep { e with credits := e.credits + 1 })))

/-- A notice about a peer package and function raises CHAN_LOST where some endpoint's peer is that package and
function (R129, R312, R407). -/
def State.noticeAt (s : State) (t : Nat) (k : ChKind) : State :=
  if s.tileLive t then
    match takeInOrder t (fun p => p.body.kind .none = k) [] s.noc with
    | none => s
    | some (p, rest) =>
      let x := s.tile t
      let s := { s with noc := rest }
      if x.owner ≠ some p.fn || !s.fnTakes p.fn then s
      else if (List.range 64).any (fun n =>
          let e := x.ep n
          let peer := (s.fn p.fn).peers.get {} e.peerPkg
          e.kind ≠ .unconf && e.peerPkg ≠ 0xFFFF && peer.valid && p.srcPkg = 0x10000 + peer.addr && peer.fn = p.ep)
        then s.chanErr t 7 else s
  else s

def execStopNoticeArrive (t : TileId) (s : State) : Host.Outcome State Fault Refusal := .next (s.noticeAt t .stop)

end Sys2Proof.Machine
end

