-- ==== Sys2Proof/Machine/Dma.lean ====
section
/-! DEFINITION. The DMA engine (R112 to R115, Tables 4.8 and 4.9). -/

namespace Sys2Proof.Machine

/-- A DMA descriptor's fields (Table 4.8). -/
structure DmaD where
  op : Nat
  src : Nat
  srcSpace : Nat
  dst : Nat
  dstSpace : Nat
  rowBytes : Nat
  rows : Nat
  srcPitch : Nat
  dstPitch : Nat
  ep : Nat
  pattern : Nat
  deriving DecidableEq, Repr

def DmaD.of (raw : Nat) : DmaD :=
  { op := fld raw 1 0 8, src := fld raw 8 0 62, srcSpace := fld raw 8 62 2, dst := fld raw 16 0 62,
    dstSpace := fld raw 16 62 2, rowBytes := fld raw 24 0 32, rows := fld raw 28 0 32,
    srcPitch := fld raw 32 0 32, dstPitch := fld raw 36 0 32, ep := fld raw 40 0 6, pattern := fld raw 48 0 64 }

/-- MALFORMED of Table 4.9. -/
def dmaMalformed (raw : Nat) : Bool :=
  let d := DmaD.of raw
  fld raw 0 4 1 = 1 || d.op < 1 || d.op > 3 || (d.op ≠ 3 && d.srcSpace > 1) ||
    (if d.op = 2 then d.dstSpace ≠ 2 else d.dstSpace > 1) || d.rowBytes < 1 || d.rowBytes > 16777216 ||
    d.rows < 1 || d.rows > 65536 || (d.op ≠ 2 && d.ep ≠ 0) || fld raw 40 6 2 ≠ 0 || fld raw 41 0 56 ≠ 0 ||
    fld raw 56 0 64 ≠ 0

/-- The starts of a descriptor's rows. -/
def rowStarts (base pitch rows : Nat) : List Nat := (List.range rows).map (fun i => base + i * pitch)

/-- The first refusal among the rows of one side, if any. -/
def State.rowsCheck (s : State) (f t space : Nat) (starts : List Nat) (n : Nat) (write : Bool) : Option SlabRes :=
  (starts.map (fun a => s.rangeCheck .dma f t space a n write)).find? (fun r => !r.isOk)

/-- The rows of a descriptor can be walked: an operation, spaces and counts that Table 4.8 allows. -/
def DmaD.walks (d : DmaD) : Bool :=
  1 ≤ d.op && d.op ≤ 3 && (d.op = 3 || d.srcSpace ≤ 1) && (if d.op = 2 then d.dstSpace = 2 else d.dstSpace ≤ 1) &&
    1 ≤ d.rowBytes && d.rowBytes ≤ 16777216 && 1 ≤ d.rows && d.rows ≤ 65536

/-- The starts of the rows of the source and of the destination in slab memory. -/
def DmaD.slabRows (d : DmaD) : List Nat :=
  (if d.op ≠ 3 && d.srcSpace = 1 then rowStarts d.src d.srcPitch d.rows else []) ++
    (if d.op ≠ 2 && d.dstSpace = 1 then rowStarts d.dst d.dstPitch d.rows else [])

/-- A row's LOCAL slab address presents a virtual tile at or beyond VTILES: VTILE_RANGE besides the engine's RANGE (R120). -/
def State.dmaVtile (s : State) (t raw : Nat) : Bool :=
  let d := DmaD.of raw
  d.walks && d.slabRows.any (fun a => s.vtileBad (s.ownerOr0 t) a d.rowBytes)

/-- The receiver of a BULK_SEND within the package: its tile and the endpoint. -/
def State.bulkPeer (s : State) (t : Nat) (d : DmaD) : Option (Nat × Endpoint) :=
  let e := (s.tile t).ep d.ep
  if e.peerPkg ≠ 0xFFFF then none
  else (s.vtile (s.ownerOr0 t) e.peerVt).map (fun r => (r, (s.tile r).ep e.peerEp))

/-- The slab rows in which a BULK_SEND within the package lands (R126): those of a receive window in slab memory. -/
def State.bulkRows (s : State) (t : Nat) (d : DmaD) : List Nat :=
  match s.bulkPeer t d with
  | some (_, e) => if e.kind = .recvBulk && e.base / 2 ^ 62 = 1 then rowStarts (e.base % 2 ^ 62 + d.dst) d.dstPitch d.rows else []
  | none => []

/-- The check of a DMA descriptor before it moves any byte (R113): the causes of DMA_ERR_STAT, every one that applies
(R474), and the refusals to report. The slab bytes where a BULK_SEND within the package lands are bytes it touches (R324). -/
def State.dmaCheck (s : State) (t : Nat) (raw : Nat) : Nat × List SlabRes :=
  let bad := if dmaMalformed raw then 1 else 0
  let d := DmaD.of raw
  if !d.walks then (bad, [])
  else
    let x := s.tile t
    let f := x.owner.getD 0
    let src := if d.op = 3 then none
      else s.rowsCheck f t d.srcSpace (rowStarts d.src d.srcPitch d.rows) d.rowBytes false
    if d.op = 2 then
      let e := x.ep d.ep
      let fits := match e.grant with
        | .bulk w => decide (d.dst + (d.rows - 1) * d.dstPitch + d.rowBytes ≤ w)
        | _ => false
      let land := if e.kind = .send && fits then s.rowsCheck f t 1 (s.bulkRows t d) d.rowBytes true else none
      (bad + (if src.isSome || land.isSome then 2 else 0) + (if e.kind = .send && fits then 0 else 4), src.toList ++ land.toList)
    else
      let dst := s.rowsCheck f t d.dstSpace (rowStarts d.dst d.dstPitch d.rows) d.rowBytes true
      (bad + (if src.isSome || dst.isSome then 2 else 0), src.toList ++ dst.toList)

/-- The spans a side touches: tile bytes as one pseudo-tile, slab bytes by tile and physical offset. -/
def State.spans (s : State) (f t space : Nat) (starts : List Nat) (n : Nat) : List (Nat × Nat × Nat) :=
  if space = 0 then starts.map (fun a => (1000, a, n))
  else starts.flatMap (fun a => (s.pieces f (some t) (n / 65536 + 2) a n).getD [])

/-- Source and destination share a byte (R115). -/
def spansMeet (a b : List (Nat × Nat × Nat)) : Bool :=
  a.any (fun p => b.any (fun q => p.1 = q.1 && p.2.1 < q.2.1 + q.2.2 && q.2.1 < p.2.1 + p.2.2))

/-- The copy of overlapping ranges whose result R115 does not define. -/
def State.copyOpen (s : State) (f t : Nat) (d : DmaD) : Bool :=
  d.dst > d.src && spansMeet (s.spans f t d.srcSpace (rowStarts d.src d.srcPitch d.rows) d.rowBytes)
    (s.spans f t d.dstSpace (rowStarts d.dst d.dstPitch d.rows) d.rowBytes)

/-- Replace the bytes of a row by free values. -/
def freeBytes (ctr : Nat) (d : List (Byte × Bool)) : List (Byte × Bool) :=
  d.zipIdx.map (fun p => (Config.copyByte (ctr + p.2), p.1.2))

/-- Copy rows in ascending order (R112, R114, R115), carrying the software tags of whole codewords where `tags` says so
(R296); answers whether a slab read failed correction. -/
def State.copyRows (s : State) (f t : Nat) (d : DmaD) (free carryTags : Bool) : List (Nat × Nat) → State × Bool
  | [] => (s, false)
  | (a, b) :: rest =>
    let (s, bs, tags, u) := s.getLines f t d.srcSpace a d.rowBytes
    let carry := carryTags && d.srcSpace = 1 && d.dstSpace = 1 && a % 64 = b % 64
    let bs' := if free then freeBytes s.freeCtr bs else bs
    let s := if free then { s with freeCtr := s.freeCtr + bs.length } else s
    let (s, u') := (s.putLines f t d.dstSpace b bs' (if carry then tags else [])).copyRows f t d free carryTags rest
    (s, u || u')

/-- The DMA engine's running descriptor, where it has an operation and has not ended. -/
def Eng.running (e : Eng) (ok : Desc → Bool) : Option Run :=
  match e.run with
  | some r => if !r.done && ok r.desc then some r else none
  | none => none

/-- Run the operation of an engine's running descriptor on a live tile. -/
def State.engStep (s : State) (t : Nat) (q : EngQ) (ok : Desc → Bool) (f : State → Run → State) : State :=
  if s.tileLive t then
    match ((s.tile t).eng q).running ok with
    | some r => f s r
    | none => s
  else s

/-- The writes of an engine's running descriptor are visible: it may signal (R111). -/
def State.engDone (s : State) (t : Nat) (q : EngQ) : State :=
  s.onTile t (fun x =>
    let e := x.eng q
    x.setEng q { e with run := e.run.map (fun r => { r with done := true }) })

/-- Count the bytes a DMA descriptor moves. -/
def State.countDma (s : State) (t : Nat) (d : DmaD) : State :=
  let n := d.rows * d.rowBytes
  let s := if d.op = 3 then s else s.countT .dma t 1 (if d.srcSpace = 1 then 0 else 2) n
  if d.op = 2 then s.countT .dma t 1 4 n else s.countT .dma t 1 (if d.dstSpace = 1 then 1 else 3) n

/-- The ranges of a started descriptor that a slab controller refuses now, or that a link down keeps from it (R286, R480). -/
def State.dmaLost (s : State) (t raw : Nat) : List SlabRes :=
  let d := DmaD.of raw
  let f := s.ownerOr0 t
  let lost := fun (space : Nat) (starts : List Nat) (write : Bool) =>
    ((starts.map (fun a => s.rangeCheck .dma f t space a d.rowBytes write)).find? (fun r => !r.stillOk)).toList
  (if d.op = 3 then [] else lost d.srcSpace (rowStarts d.src d.srcPitch d.rows) false) ++
    (if d.op = 2 then lost 1 (s.bulkRows t d) true else lost d.dstSpace (rowStarts d.dst d.dstPitch d.rows) true)

/-- Run the operation of a DMA descriptor: one that a slab controller refuses reports RANGE once, moves nothing more and does
not signal (R286). -/
def State.dmaStep (s : State) (t op : Nat) (f : State → Run → DmaD → State) : State :=
  s.engStep t .dma (fun d => d.op = op) (fun s r =>
    if r.begun || r.ack then s
    else match s.dmaLost t r.desc.raw with
      | [] => f s r (DmaD.of r.desc.raw)
      | l => ((l.foldl (fun s c => s.reportRefused (s.ownerOr0 t) c) s).raiseT .dma t 2).onTile t (fun x =>
          { x with dma := { x.dma with run := some { r with begun := true } } }))

def execDmaCopy (t : TileId) (s : State) : Host.Outcome State Fault Refusal :=
  .next (s.dmaStep t 1 (fun s _ d =>
    let f := s.ownerOr0 t
    let free := s.copyOpen f t d
    let (s, u) := s.copyRows f t d free true ((rowStarts d.src d.srcPitch d.rows).zip (rowStarts d.dst d.dstPitch d.rows))
    let s := if u then s.raiseT .dma t 8 else s
    (s.countDma t d).engDone t .dma))

/-- The bytes of one row of a FILL (Table 4.8). -/
def fillRow (pattern n : Nat) : List (Byte × Bool) :=
  (List.range n).map (fun i => (BitVec.ofNat 8 (pattern / 256 ^ (i % 8)), false))

def execDmaFill (t : TileId) (s : State) : Host.Outcome State Fault Refusal :=
  .next (s.dmaStep t 3 (fun s _ d =>
    let f := s.ownerOr0 t
    let s := (rowStarts d.dst d.dstPitch d.rows).foldl
      (fun s a => s.putLines f t d.dstSpace a (fillRow d.pattern d.rowBytes) []) s
    (s.countDma t d).engDone t .dma))

/-- Send the rows of a BULK_SEND, the last one marked; answers a failed slab read and a row not sent. -/
def State.sendRows (s : State) (f t : Nat) (d : DmaD) : List (Nat × Nat) → State × Bool × Bool
  | [] => (s, false, true)
  | (a, b) :: rest =>
    let (s, bs, _, u) := s.getLines f t d.srcSpace a d.rowBytes
    match s.chSend t d.ep (.bulk b (bs.map (·.1)) (bs.map (·.2)) rest.isEmpty) with
    | (s, false) => (s, u, false)
    | (s, true) =>
      let (s, u', ok) := s.sendRows f t d rest
      (s, u || u', ok)

/-- BULK_SEND (R112, R126): the data leaves; the descriptor signals once the receiver acknowledges its last
byte. -/
def execDmaBulkSend (t : TileId) (s : State) : Host.Outcome State Fault Refusal :=
  .next (s.dmaStep t 2 (fun s r d =>
    let (s, u, ok) := s.sendRows (s.ownerOr0 t) t d ((rowStarts d.src d.srcPitch d.rows).zip (rowStarts d.dst d.dstPitch d.rows))
    let s := if u then s.raiseT .dma t 8 else s
    let s := if ok then s else s.chanErr t 7
    (s.countDma t d).onTile t (fun x => { x with dma := { x.dma with run := some { r with ack := true } } })))

end Sys2Proof.Machine
end

