-- ==== Sys2Proof/Machine/Opa.lean ====
section
/-! DEFINITION. The outer-product array (spec/05): descriptor checks, anchors, preloads, passes and drain tokens. -/

namespace Sys2Proof.Machine

/-- One operand of a pass: where its lines lie, its format and its anchor specifier. `bases` are the eight GROUP_BASE addresses
of a GROUPED column operand, none otherwise (R144). -/
structure Operand where
  bases : List Nat := []
  addr : Nat
  pitch : Nat
  fmt : Nat
  anch : Nat
  e8 : Nat
  e8Pitch : Nat
  deriving DecidableEq, Repr

/-- An OPA descriptor's fields (Table 5.2). -/
structure OpaD where
  col : Operand
  row : Operand
  k : Nat
  m : Nat
  n : Nat
  bank : Nat
  pre : Nat
  drain : Bool
  feed : Bool
  grouped : Bool
  preAddr : Nat
  prePitch : Nat
  rowValid : Nat
  deriving DecidableEq, Repr

def OpaD.of (r : Nat) : OpaD :=
  { col := { bases := if tb (fld r 74 0 8) 6 then (List.range 8).map (fun g => fld r (96 + 4 * g) 0 32) else [],
             addr := fld r 8 0 32, pitch := fld r 12 0 32, fmt := fld r 16 0 64, anch := fld r 24 0 64,
             e8 := fld r 32 0 32, e8Pitch := fld r 92 0 16 * 65536 + fld r 36 0 16 },
    row := { addr := fld r 40 0 32, pitch := fld r 44 0 32, fmt := fld r 48 0 64, anch := fld r 56 0 64,
             e8 := fld r 64 0 32, e8Pitch := fld r 94 0 16 * 65536 + fld r 38 0 16 },
    k := fld r 68 0 32, m := fld r 72 0 8, n := fld r 73 0 8, bank := fld r 74 0 1, pre := fld r 74 1 3,
    drain := tb (fld r 74 0 8) 4, feed := tb (fld r 74 0 8) 5, grouped := tb (fld r 74 0 8) 6,
    preAddr := fld r 76 0 32, prePitch := fld r 88 0 32, rowValid := fld r 80 0 64 }

/-- The valid rows of a pass (R152), ascending. -/
def OpaD.rows (d : OpaD) : List Nat := (List.range (min d.m 64)).filter (fun i => d.rowValid.testBit i)
/-- The columns in use. -/
def OpaD.cols (d : OpaD) : List Nat := List.range (min d.n 128)
/-- The bytes of one preloaded value. -/
def OpaD.preSize (d : OpaD) : Nat := if d.pre = 4 then 16 else if d.pre = 2 ∨ d.pre = 3 then 4 else 0
/-- The address of a row's preload source (Table 5.3). -/
def OpaD.preBase (d : OpaD) (i : Nat) : Nat := d.preAddr + (if d.pre = 3 then 0 else i * d.prePitch)

/-- One stored element of a line, packed as in R40. -/
def Tile.elem (x : Tile) (f : Fmt) (addr k : Nat) : Nat :=
  if f.bits = 4 then (x.byte (addr + k / 2)).toNat / (if k % 2 = 0 then 1 else 16) % 16
  else x.rd (addr + k * (f.bits / 8)) (f.bits / 8)

/-- A format with E8 bytes in memory. -/
def FSpec.hasE8 (f : FSpec) : Bool := f.fmt.scaled && !f.unitScale

/-- The fine-scale code of a block (R29, R42). -/
def Tile.e8 (x : Tile) (f : FSpec) (base b : Nat) : Nat := if f.hasE8 then (x.byte (base + b)).toNat else 0x7F

/-- Where line i starts (R144). -/
def Operand.line (o : Operand) (i : Nat) : Nat :=
  if o.bases.isEmpty then o.addr + i * o.pitch else o.bases.getD (i / 8) 0 + i % 8 * o.pitch
def Operand.lineE8 (o : Operand) (i : Nat) : Nat := o.e8 + i * o.e8Pitch

/-- The element values of a line with their flush events (R65). -/
def Tile.lineVals (x : Tile) (o : Operand) (f : FSpec) (i k : Nat) : List (Num × Evc) :=
  (List.range k).map (fun c => elemValue f.fmt f.entryRne f.badScale (x.e8 f (o.lineE8 i) (c / 32))
    (x.elem f.fmt (o.line i) c))

/-- A line reads a poisoned element or E8 byte (R78). -/
def Tile.linePoisoned (x : Tile) (o : Operand) (f : FSpec) (i k : Nat) : Bool :=
  x.poisoned (o.line i) (f.fmt.bytes k) || (f.hasE8 && x.poisoned (o.lineE8 i) ((k + 31) / 32))

/-- The ranges that a line's elements and E8 bytes take. -/
def Operand.ranges (o : Operand) (f : FSpec) (k i : Nat) : List (Nat × Nat) :=
  (o.line i, f.fmt.bytes k) :: (if f.hasE8 then [(o.lineE8 i, (k + 31) / 32)] else [])

/-- The range that an anchor source names for a line. -/
def AnchorSrc.range (a : AnchorSrc) (o : Operand) (f : Option FSpec) (i : Nat) : List (Nat × Nat) :=
  match a with
  | .array p | .hem p => [(p + 2 * i, 2)]
  | .blockSpan p n => if (f.map FSpec.hasE8).getD true then [(p + i * o.e8Pitch, n)] else []
  | _ => []

/-- The anchor of a line (Table 3.2, R67, R68), or the SEL cause that refuses it. -/
def Tile.anchor (x : Tile) (a : AnchorSrc) (o : Operand) (f : FSpec) (k i : Nat) : Except Nat Int :=
  let scan := fun base n => blockAnchor f.fmt ((List.range n).map (fun b => (x.byte (base + b)).toNat))
  match a with
  | .uniform v => .ok v
  | .array p =>
    let v := toSigned 16 (x.rd (p + 2 * i) 2)
    if v < -160 ∨ v > 160 then .error 4 else .ok v
  | .hem p =>
    match (Hem.ofNat (x.rd (p + 2 * i) 2)).anchor with
    | some v => .ok v
    | none => .error 2
  | .block => .ok (if f.hasE8 then scan (o.lineE8 i) ((k + 31) / 32) else f.fmt.eTop)
  | .blockSpan p n => .ok (if f.hasE8 then scan (p + i * o.e8Pitch) n else f.fmt.eTop)

/-- The anchors of the lines of an operand whose descriptor has passed its checks (R70). -/
def Tile.anchors (x : Tile) (o : Operand) (f : FSpec) (k : Nat) (lines : List Nat) : SMap Int :=
  lines.foldl (fun (m : SMap Int) i => m.set 0 i (match (AnchorSrc.parse o.anch f.fmt).map (fun a => x.anchor a o f k i) with
    | some (.ok v) => v
    | _ => 0)) []

/-- What one line's anchor specifier comes to: a named byte out of range, or the SEL cause that refuses it (R70, R145). -/
def Tile.anchorCheck (x : Tile) (q : Requester) (a : AnchorSrc) (o : Operand) (f : Option FSpec) (k i : Nat) : Bool × Nat :=
  let e8 := match a, f with
    | .block, some f => if f.hasE8 then [(o.lineE8 i, (k + 31) / 32)] else []
    | _, _ => []
  if (a.range o f i ++ e8).any (fun r => !tmOk q false r.1 r.2) then (true, 0)
  else match f with
    | some f => (false, match x.anchor a o f k i with
      | .error c => c
      | .ok _ => 0)
    | none => (false, 0)

/-- Causes of one operand (R70, R93, R145): a byte out of range, and every bit of SEL_ERR_STAT that applies to its lines. A
specifier that names a format can be walked, whatever else is wrong with it. -/
def Tile.operandCheck (x : Tile) (o : Operand) (k : Nat) (lines : List Nat) : Bool × Nat :=
  let f := FSpec.loose o.fmt
  let data := match f with
    | some f => lines.any (fun i => (o.ranges f k i).any (fun r => !tmOk .opa false r.1 r.2))
    | none => false
  match AnchorSrc.parse o.anch ((f.map (·.fmt)).getD .f8m) with
  | none => (data, 1)
  | some a =>
    let found := lines.map (fun i => x.anchorCheck .opa a o f k i)
    (data || found.any (·.1), found.foldl (fun m c => m ||| c.2) 0)

/-- The coarse scale that the bank record keeps (Table 5.1). -/
def FSpec.recordCoarse (f : FSpec) : W32 := if f.hasE8 then BitVec.ofNat 32 f.coarse else 0x3F800000

/-- The pass class of two formats (R64). -/
def passClass (c r : FSpec) : WClass := c.fmt.wclass.wider r.fmt.wclass

/-- MALFORMED of Table 5.9. -/
def opaMalformed (raw : Nat) : Bool :=
  let d := OpaD.of raw
  let fmts := match FSpec.parse d.col.fmt false, FSpec.parse d.row.fmt false with
    | some c, some r => decide (d.k > 2 ^ 24 * (passClass c r).perStep)
    | _, _ => true
  let bases := (List.range 8).any (fun g => fld raw (96 + 4 * g) 0 32 % 64 ≠ 0)
  fld raw 1 0 8 ≠ 1 || fld raw 0 4 1 = 0 || fmts || d.m < 1 || d.m > 64 || d.n < 1 || d.n > 128 || d.pre > 4 ||
    d.col.pitch % 64 ≠ 0 || d.row.addr % 64 ≠ 0 || d.row.pitch % 64 ≠ 0 || (!d.grouped && d.col.addr % 64 ≠ 0) ||
    (d.grouped && bases) || (d.pre ≥ 2 && d.preAddr % 64 ≠ 0) || fld raw 74 7 1 = 1 || fld raw 75 0 8 ≠ 0

/-- The check of a pass (R139, R145, R146, R151): the causes of OPA, of the column-edge aligner and of the
row-edge aligner. Every descriptor comes from a tile program, so GROUPED is refused (R153). -/
def State.opaCheck (s : State) (t raw : Nat) : Nat × Nat × Nat :=
  let x := s.tile t
  let d := OpaD.of raw
  let (cr, cs) := x.operandCheck d.col d.k d.rows
  let (rr, rs) := x.operandCheck d.row d.k d.cols
  let pre := d.rows.any (fun i => !tmOk .opa false (d.preBase i) (d.preSize * d.cols.length))
  let k := x.bank d.bank
  let keep := match FSpec.loose d.col.fmt, FSpec.loose d.row.fmt with
    | some c, some r => d.pre = 1 && (c.recordCoarse ≠ k.coarseCol || r.recordCoarse ≠ k.coarseRow)
    | _, _ => false
  (bit (opaMalformed raw) 0 + bit (cr || rr || pre) 1 + bit d.grouped 2 + bit keep 3, cs, rs)

/-- One aligned line: its integers with their values, its events and its flags (R71, R78). -/
structure AlLine where
  elems : List (Int × Num)
  ev : Evc
  poison : Bool
  deriving DecidableEq, Repr

/-- A line aligned on its anchor `a`. -/
def Tile.alignLine (x : Tile) (o : Operand) (f : FSpec) (a : Int) (i k w : Nat) : AlLine :=
  let l := (x.lineVals o f i k).map (fun v => (align v.1 a w, v))
  { elems := l.map (fun p => (p.1.n, p.2.1)), poison := x.linePoisoned o f i k,
    ev := l.foldl (fun e p => (e.add p.2.2).add p.1.ev.count) {} }

/-- TRUNC, AOVF and POISON of a line (R78). -/
def lineFlags (e : Evc) (poison : Bool) : BitVec 3 :=
  BitVec.ofNat 3 (bit (e.trunc + e.vanish ≠ 0) 0 + bit (e.aovf ≠ 0) 1 + bit poison 2)

/-- Count one edge's events and set its SEL_STAT (R91, R92, Tables 3.11 and 3.12). -/
def State.selEvents (s : State) (t : Nat) (row : Bool) (e : Evc) (poison bad : Bool) : State :=
  let o := if row then 0x80 else 0
  let i := if row then t + 0x100 else t
  let s := s.countT .sel t 1 o e.aovf
  let s := s.countT .sel t 1 (o + 1) e.vanish
  let s := s.countT .sel t 1 (o + 2) e.trunc
  let s := s.countT .sel t 1 (o + 3) e.seamOvf
  let s := s.countT .sel t 2 o e.flush
  let m := bit (e.trunc ≠ 0) 0 + bit (e.vanish ≠ 0) 1 + bit (e.aovf ≠ 0) 2 + bit poison 3 + bit bad 4 +
    bit (e.flush ≠ 0) 5
  if m = 0 then s else s.orStat .sel i m

/-- What a row's preload gives: each accumulator's integer and tag, its events, the line flags it sets, a residue
mismatch (R150) and a parity error (R168). -/
structure Preload where
  accs : List (Int × Tag)
  ev : Evc := {}
  flags : BitVec 3 := 0
  badRes : Bool := false
  badPar : Bool := false
  deriving DecidableEq, Repr

/-- The preload of row `i` on the grids `gs` of its columns (R148 to R151, Table 5.3). -/
def Tile.preload (x : Tile) (d : OpaD) (i : Nat) (gs : List Int) : Preload :=
  let b := x.bank d.bank
  let lim := 2 ^ 79 - 1
  let base := d.preBase i
  let poison : BitVec 3 := if d.preSize ≠ 0 && x.poisoned base (d.preSize * gs.length) then 4 else 0
  match d.pre with
  | 1 =>
    let w := b.cls.window
    let l := gs.zipIdx.map (fun p =>
      let c := b.accs.get {} (i * 128 + p.2)
      let g0 := accGrid (b.anchCol.get 0 i) (b.anchRow.get 0 p.2) w
      let v := c.int.toInt
      let al : Aligned := if g0 = p.1 then ⟨v, .fin, .none⟩ else alignTo (.fin (v < 0) v.natAbs g0) p.1 lim
      (al, c))
    { accs := l.map (fun p => (p.1.n, p.2.tag)), ev := l.foldl (fun e p => e.add p.1.ev.count) {},
      flags := b.flagsCol.get 0 i ||| (if l.any (fun p => p.2.parityBad) then 4 else 0),
      badPar := l.any (fun p => p.2.parityBad) }
  | 2 | 3 =>
    let l := gs.zipIdx.map (fun p =>
      let v := Fmt.f32.decode (x.rd (base + 4 * p.2) 4)
      (alignTo v.1 p.1 lim, v.2))
    { accs := l.map (fun p => (p.1.n, p.1.tag)), flags := poison,
      ev := l.foldl (fun e p => (e.add p.1.ev.count).add { flush := if p.2 then 1 else 0 }) {} }
  | 4 =>
    let l := gs.zipIdx.map (fun p =>
      let w := Seam.ofNat (x.rd (base + 16 * p.2) 16)
      (alignTo (.fin (w.int < 0) w.int.natAbs w.tag) p.1 lim, w))
    let bad := l.any (fun p => !p.2.resOk)
    { accs := l.map (fun p => (p.1.n, if p.2.ovf then .nan else p.2.special)), badRes := bad,
      ev := l.foldl (fun e p => (e.add p.1.ev.count).add { seamOvf := if p.2.ovf then 1 else 0 }) {},
      flags := poison ||| BitVec.ofNat 3 (bit (l.any (fun p => p.2.trunc)) 0 + bit (l.any (fun p => p.2.aovf)) 1 +
        bit (bad || l.any (fun p => p.2.poison)) 2) }
  | _ => { accs := gs.map (fun _ => (0, .fin)) }

/-- One cell's accumulator after its products (R74, R79). -/
def cellSum (p : Int × Tag) (c r : List (Int × Num)) : Int × Tag :=
  (c.zip r).foldl (fun a q => (a.1 + q.1.1 * q.2.1, a.2.add (prodTag q.1.2 q.2.2))) p

/-- The hem entry of a bank row (R142). -/
def bankHem (accs : List (Int × Tag)) (gs : List Int) : Hem :=
  let l := (accs.zip gs).filterMap (fun p =>
    if p.1.2 = .fin ∧ p.1.1 ≠ 0 then some ((p.1.1.natAbs.log2 : Int) + p.2) else none)
  { maxExp := (l.foldl (fun m v => match m with
      | none => some v
      | some k => some (max k v)) none).getD 0,
    zero := l.isEmpty, hasInf := accs.any (fun a => a.2 = .pinf || a.2 = .ninf),
    hasNan := accs.any (fun a => a.2 = .nan), valid := true }

/-- The row-operand lines of a pass, aligned on the anchors of its run. -/
def Tile.rowLines (x : Tile) (d : OpaD) (r : FSpec) (bs : SMap Int) (w : Nat) : List AlLine :=
  d.cols.map (fun j => x.alignLine d.row r (bs.get 0 j) j d.k w)

/-- Run one valid row of a pass (R147 to R151, R160): preload, products, its accumulators and its row of the bank
record; with DRAIN it becomes HELD (R158). -/
def State.opaRow (s : State) (t : Nat) (d : OpaD) (run : Run) (c r : FSpec) (lines : List AlLine) (i : Nat) : State :=
  let x := s.tile t
  let w := (passClass c r).window
  let a := run.anchCol.get 0 i
  let gs := d.cols.map (fun j => accGrid a (run.anchRow.get 0 j) w)
  let pre := x.preload d i gs
  let cl := x.alignLine d.col c a i d.k w
  let accs := (pre.accs.zip lines).map (fun p => cellSum p.1 cl.elems p.2.elems)
  let ev := cl.ev.add pre.ev
  let fl := lineFlags ev cl.poison ||| pre.flags
  let b := x.bank d.bank
  let cell := fun (j : Nat) => match accs[j]? with
    | some p => ({ int := BitVec.ofInt 80 p.1, tag := p.2 } : AccCell)
    | none => {}
  let b := { b with accs := (List.range 128).foldl (fun m j => m.set {} (i * 128 + j) (cell j)) b.accs,
                    anchCol := b.anchCol.set 0 i a, flagsCol := b.flagsCol.set 0 i fl,
                    hem := b.hem.set 0 i (BitVec.ofNat 16 (bankHem accs gs).toNat),
                    held := if d.drain then b.held ||| BitVec.ofNat 64 (2 ^ i) else b.held }
  let s := s.setTile t (x.setBank d.bank b)
  let s := s.selEvents t false ev (cl.poison || pre.flags.getLsbD 2) c.badScale
  s.raiseT .opa t (bit pre.badPar 4 + bit pre.badRes 6)

/-- The rest of the bank record, written as the last row of the pass lands (Table 5.1, R152). KEEP carries the line flags of
the record forward (R151). -/
def Tile.commitPass (x : Tile) (d : OpaD) (run : Run) (c r : FSpec) : Tile :=
  let b := x.bank d.bank
  let flags : SMap (BitVec 3) := d.cols.foldl (fun (m : SMap (BitVec 3)) j =>
    m.set 0 j (run.rowFlags.get 0 j ||| (if d.pre = 1 then b.flagsRow.get 0 j else 0))) []
  let b := { b with cls := passClass c r, coarseCol := c.recordCoarse, coarseRow := r.recordCoarse, anchRow := run.anchRow,
                    flagsRow := flags, n := d.n, rowValid := BitVec.ofNat 64 (d.rows.foldl (fun m i => m + 2 ^ i) 0) }
  x.setBank d.bank b

/-- Steps in which some cell takes a product in skewed feeding: the rows' product steps overlap in the skew (R154, R165).
DESIGN CHOICE (log 140): of a pass in queued feeding the counts are free values. -/
def activeSteps (steps : Nat) : List Nat → Nat
  | [] => 0
  | [_] => steps
  | i :: j :: l => min steps (j - i) + activeSteps steps (j :: l)

/-- A pass starts (R147, R156): its feeding mode, the row operand's events, and the counts of products. In queued feeding the
rows' lags, and so the steps in which some cell works, are not stated: between S and 2S + 96 (Table 5.5), a free value. -/
def State.opaBegin (s : State) (t : Nat) (d : OpaD) (c r : FSpec) (lines : List AlLine) : State :=
  let x := s.tile t
  let queued := d.feed || x.forceQueued || x.firstPass
  let s := s.setTile t { x with firstPass := false, lastQueued := queued }
  if d.rows.isEmpty then s
  else
    let ev := lines.foldl (fun e l => e.add l.ev) {}
    let s := s.selEvents t true ev (lines.any (·.poison)) r.badScale
    let p := (passClass c r).perStep
    let steps := (d.k + p - 1) / p
    let (k, s) := s.fresh
    let s := s.countT .opa t 1 0 (if steps = 0 then 0
      else if queued then steps + Config.measured k % (steps + 97) else activeSteps steps d.rows)
    s.countT .opa t 2 (r.fmt.code * 16 + c.fmt.code) (d.rows.length * d.cols.length * d.k)

/-- The rows of a pass that wait, ascending. -/
def Run.waiting (run : Run) (d : OpaD) : List Nat := if run.begun then d.rows.filter (fun i => run.rows.getLsbD i) else d.rows

/-- Run the waiting rows of a pass in order up to the first one whose drain token is HELD, where the array stalls (R154, R160,
R161, R163), and end the pass with its last row. -/
def State.opaRun (s : State) (t : Nat) (run : Run) : State :=
  let d := OpaD.of run.desc.raw
  match FSpec.parse d.col.fmt false, FSpec.parse d.row.fmt false with
  | some c, some r =>
    let lines := (s.tile t).rowLines d r run.anchRow (passClass c r).window
    let s := if run.begun then s else s.opaBegin t d c r lines
    let held := ((s.tile t).bank d.bank).held
    let go := (run.waiting d).takeWhile (fun i => !held.getLsbD i)
    let rest := (run.waiting d).dropWhile (fun i => !held.getLsbD i)
    let flags := if run.begun then run.rowFlags else if d.rows.isEmpty then []
      else lines.zipIdx.foldl (fun (m : SMap (BitVec 3)) l => m.set 0 l.2 (lineFlags l.1.ev l.1.poison)) []
    let run := { run with begun := true, rowFlags := flags, rows := BitVec.ofNat 64 (rest.foldl (fun m i => m + 2 ^ i) 0),
                          done := rest.isEmpty }
    let s := go.foldl (fun s i => s.opaRow t d run c r lines i) s
    let s := if rest.isEmpty then s.onTile t (fun x => x.commitPass d run c r) else s
    s.onTile t (fun x => { x with opa := { x.opa with run := some run } })
  | _, _ => s

/-- A pass starts: its valid rows take their preload and their products in order while their drain tokens are FREE. -/
def execOpaPass (t : TileId) (s : State) : Host.Outcome State Fault Refusal :=
  .next (s.engStep t .opa (fun d => d.op = 1) (fun s r => if r.begun then s else s.opaRun t r))

/-- The row at which a pass stalls starts once its drain token has returned, and the rows after it follow (R160, R163). -/
def execOpaRowStart (t : TileId) (row : Idx64) (s : State) : Host.Outcome State Fault Refusal :=
  .next (s.engStep t .opa (fun d => d.op = 1) (fun s r =>
    if r.begun && (r.waiting (OpaD.of r.desc.raw)).head? = some row.val then s.opaRun t r else s))

/-- Count one descriptor of a tile that ran to its end while its function was stopping (R315). -/
def State.countDrained (s : State) (t : Nat) : State :=
  match (s.tile t).owner with
  | none => s
  | some f =>
    if (s.fn f).st = .stopping then
      s.onFn f (fun x => { x with stop := { x.stop with
        drained := x.stop.drained + 1,
        tiles := x.stop.tiles.modify {} t (fun c => { c with drained := c.drained + 1 }) } })
    else s

/-- Signal the running descriptor of an engine whose writes are visible (R111, R162), and free the engine. -/
def State.signalEng (s : State) (t : Nat) (q : EngQ) : State :=
  match ((s.tile t).eng q).run with
  | some r =>
    if r.done then
      (s.onTile t (fun x =>
        let x := x.setEng q { x.eng q with run := none }
        if r.desc.sigEn then x.addTally r.desc.sigTally 1 else x)).countDrained t
    else s
  | none => s

/-- A pass signals once its last row has landed (R162). -/
def execOpaPassComplete (t : TileId) (s : State) : Host.Outcome State Fault Refusal :=
  .next (if s.tileLive t && (((s.tile t).opa.run.map (·.done)).getD false) then
      (s.countT .opa t 6 0 1).signalEng t .opa
    else s)

/-- A function stop cuts a pass (R167): it does not signal, its column lines are poisoned in the record, its valid
rows convert as poisoned and every row of the bank is FREE. -/
def Tile.cutPass (x : Tile) (run : Run) : Tile :=
  let d := OpaD.of run.desc.raw
  match FSpec.parse d.col.fmt false, FSpec.parse d.row.fmt false with
  | some c, some r =>
    let x := x.commitPass d run c r
    let b := x.bank d.bank
    x.setBank d.bank { b with flagsCol := d.rows.foldl (fun m i => m.modify 0 i (· ||| 4)) b.flagsCol, held := 0 }
  | _, _ => x

/-- The anchors of a pass whose descriptor has passed its checks. -/
def Tile.passAnchors (x : Tile) (raw : Nat) : SMap Int × SMap Int :=
  let d := OpaD.of raw
  match FSpec.parse d.col.fmt false, FSpec.parse d.row.fmt false with
  | some c, some r => (x.anchors d.col c d.k d.rows, x.anchors d.row r d.k d.cols)
  | _, _ => ([], [])

end Sys2Proof.Machine
end

