-- ==== Sys2Proof/Machine/SfuMath.lean ====
section
/-! DEFINITION. The special functions (spec/07): X40 arithmetic, seed tables by R206, built-in evaluation and
the pattern machine of R219. -/

namespace Sys2Proof.Machine

/-- Fraction bits of the fixed-point numbers from which seed tables are rounded. -/
def fixBits : Nat := 512

/-- A rational number with a positive denominator. -/
structure Rat' where
  num : Int
  den : Nat
  deriving DecidableEq, Repr

/-- The fixed-point image of a rational, rounded towards minus infinity. -/
def Rat'.fix (x : Rat') : Int := (x.num * (2 ^ fixBits : Nat)) / (x.den : Int)

def Rat'.ofFix (v : Int) : Rat' := ⟨v, 2 ^ fixBits⟩

/-- m × 2^e as a rational. -/
def Rat'.dyadic (m : Int) (e : Int) : Rat' :=
  if e ≥ 0 then ⟨m * (2 ^ e.toNat : Nat), 1⟩ else ⟨m, 2 ^ (-e).toNat⟩

def fixMul (a b : Int) : Int := (a * b) / (2 ^ fixBits : Nat)
def fixDiv (a b : Int) : Int := (a * (2 ^ fixBits : Nat)) / b
def fixOne : Int := (2 ^ fixBits : Nat)

/-- Σ of a series whose next term is the current one times x over a divisor (fuel: terms). -/
def fixSeries (x : Int) (div : Nat → Int) : Nat → Nat → Int → Int → Int
  | 0, _, _, sum => sum
  | fuel + 1, n, term, sum =>
    if term = 0 ∨ term = -1 then sum
    else fixSeries x div fuel (n + 1) (fixMul term x / div n) (sum + term)

/-- Σ z^(2k+1) / (2k+1): the inverse hyperbolic tangent of z = 1/n or of a fixed-point z. -/
def fixAtanhGo (z2 : Int) : Nat → Nat → Int → Int → Int
  | 0, _, _, sum => sum
  | fuel + 1, k, pow, sum =>
    if pow = 0 then sum else fixAtanhGo z2 fuel (k + 2) (fixMul pow z2) (sum + pow / (k : Int))

def fixAtanh (z : Int) : Int := fixAtanhGo (fixMul z z) 1000 1 z 0

/-- ln 2 = 2 atanh(1/3). -/
def fixLn2 : Int := 2 * fixAtanh (fixOne / 3)

/-- Σ (−1)^k / ((2k+1) n^(2k+1)) with `bits` fraction bits. -/
def atanInvGo (n2 : Nat) : Nat → Nat → Nat → Bool → Int → Int
  | 0, _, _, _, sum => sum
  | fuel + 1, k, pow, neg, sum =>
    if pow = 0 then sum
    else atanInvGo n2 fuel (k + 2) (pow / n2) (!neg) (if neg then sum - (pow / k : Nat) else sum + (pow / k : Nat))

/-- π with 800 fraction bits, by Machin's formula. -/
def pi800 : Int :=
  16 * atanInvGo 25 2000 1 (2 ^ 800 / 5) false 0 - 4 * atanInvGo 57121 2000 1 (2 ^ 800 / 239) false 0

/-- π in fixed point. -/
def fixPi : Int := pi800 / (2 ^ (800 - fixBits) : Nat)

/-- e^x for a fixed-point x: e^(x − n ln 2) × 2^n. -/
def fixExp (x : Int) : Int :=
  let n := x / fixLn2
  let r := x - n * fixLn2
  let y := fixSeries r (fun k => (k : Int)) 1000 1 fixOne 0
  if n ≥ 0 then y * (2 ^ n.toNat : Nat) else y / (2 ^ (-n).toNat : Nat)

/-- Square root of a non-negative fixed-point number. -/
def fixSqrt (x : Int) : Int := ((x * (2 ^ fixBits : Nat)).toNat.sqrt : Nat)

def fixSin (x : Int) : Int :=
  fixSeries (-(fixMul x x)) (fun k => (((2 * k) * (2 * k + 1) : Nat) : Int)) 1000 1 x 0

def fixCos (x : Int) : Int :=
  fixSeries (-(fixMul x x)) (fun k => (((2 * k - 1) * (2 * k) : Nat) : Int)) 1000 1 fixOne 0

/-- Φ(x) − 1/2 for x ≥ 0: φ(x) × Σ x^(2n+1) / (1·3·5…(2n+1)). -/
def fixPhi (x : Int) : Int :=
  let s := fixSeries (fixMul x x) (fun k => ((2 * k + 1 : Nat) : Int)) 4000 1 x 0
  let e := fixExp (-(fixMul x x) / 2)
  fixDiv (fixMul e s) (fixSqrt (2 * fixPi))

/-- erf x for x ≥ 0, as 2Φ(x√2) − 1. -/
def fixErf (x : Int) : Int := 2 * fixPhi (fixMul x (fixSqrt (2 * fixOne)))

/-- The logistic function. -/
def fixSigmoid (x : Int) : Int := fixDiv fixOne (fixOne + fixExp (-x))

/-- The segment functions of Table 7.2. -/
inductive Seg where
  | exp2 | log2 | recip | rsqrt | tanh | sigP | sigN | erf | geluP | geluN | siluP | siluN | sin | cos
  deriving DecidableEq, Repr

/-- log₂ of t in [1, 2] in fixed point. -/
def fixLog2 (t : Rat') : Int :=
  fixDiv (2 * fixAtanh (Rat'.fix ⟨t.num - t.den, (t.num + t.den).toNat⟩)) fixLn2

/-- g at a reduced argument of segment j. -/
def Seg.g (f : Seg) (j : Nat) (t : Rat') : Rat' :=
  let x := t.fix
  match f with
  | .recip => ⟨t.den, t.num.toNat⟩
  | .exp2 => .ofFix (fixExp (fixMul x fixLn2))
  | .log2 => .ofFix (if t.num = 2 * t.den then fixOne - (if j < 128 then 0 else fixOne)
      else fixLog2 t - (if j < 128 then 0 else fixOne))
  | .rsqrt => .ofFix (fixDiv fixOne (fixSqrt x))
  | .tanh => let e := fixExp (-2 * x); .ofFix (fixDiv (fixOne - e) (fixOne + e))
  | .sigP => .ofFix (fixSigmoid x)
  | .sigN => .ofFix (fixSigmoid (-x))
  | .erf => .ofFix (fixErf x)
  | .geluP => .ofFix (fixMul x (fixOne / 2 + fixPhi x))
  | .geluN => .ofFix (-(fixMul x (fixOne / 2 - fixPhi x)))
  | .siluP => .ofFix (fixMul x (fixSigmoid x))
  | .siluN => .ofFix (-(fixMul x (fixSigmoid (-x))))
  | .sin => .ofFix (fixSin x)
  | .cos => .ofFix (fixCos x)

/-- An X40 value with the underflow mark of the steps that made it (R203, R210). -/
structure X40 where
  v : Num
  u : Bool := false
  deriving DecidableEq, Repr

/-- Round a magnitude num/den × 2^exp once to 32 significant bits (R203). -/
def x40Fin (neg : Bool) (num den : Nat) (exp : Int) : X40 :=
  if num = 0 then ⟨.fin neg 0 0, false⟩
  else
    let l := floorLog2 num den + exp
    if l < -126 then ⟨.fin neg 0 0, true⟩
    else
      let (a, b) := pow2 (exp + 31 - l)
      let q := roundQ (num * a) (den * b) .rne 12 0
      if (q.log2 : Int) + l - 31 > 127 then ⟨.inf neg, false⟩ else ⟨.fin neg q (l - 31), false⟩

/-- Round a number once to X40. -/
def x40 : Num → X40
  | .fin neg m e => x40Fin neg m 1 e
  | v => ⟨v, false⟩

/-- A rational rounded to X40. -/
def Rat'.x40 (r : Rat') : X40 := x40Fin (r.num < 0) r.num.natAbs r.den 0

/-- The X40 code of a value, and the value of a code (R203). -/
def X40.code (x : X40) : Nat :=
  match x.v with
  | .nan => 0x7FC0000000
  | .inf n => 0x7F80000000 + bit n 39
  | .fin n m e =>
    if m = 0 then bit n 39
    else
      let k := m.log2
      let fr := if k ≤ 31 then m * 2 ^ (31 - k) else m / 2 ^ (k - 31)
      bit n 39 + (e + k + 127).toNat * 2 ^ 31 + fr % 2 ^ 31

def X40.ofCode (c : Nat) : X40 :=
  let e : Nat := c / 2 ^ 31 % 256
  let f : Nat := c % 2 ^ 31
  let n : Bool := c / 2 ^ 39 % 2 = 1
  ⟨if e = 255 then (if f = 0 then .inf n else .nan) else if e = 0 then .fin n 0 0
    else .fin n (2 ^ 31 + f) ((e : Int) - 127 - 31), false⟩

/-- wA × wB + wC, one rounding. -/
def X40.mad (a b c : X40) : X40 :=
  let r := Machine.x40 ((a.v.mul b.v).add c.v)
  { r with u := r.u || a.u || b.u || c.u }
/-- wC − wA × wB, one rounding. -/
def X40.nmad (a b c : X40) : X40 :=
  let r := Machine.x40 (c.v.sub (a.v.mul b.v))
  { r with u := r.u || a.u || b.u || c.u }
def X40.mul (a b : X40) : X40 :=
  let r := Machine.x40 (a.v.mul b.v)
  { r with u := r.u || a.u || b.u }
def X40.add (a b : X40) : X40 :=
  let r := Machine.x40 (a.v.add b.v)
  { r with u := r.u || a.u || b.u }
def X40.scale (a : X40) (k : Int) : X40 :=
  match a.v with
  | .fin n m e => let r := x40Fin n m 1 (e + k); { r with u := r.u || a.u }
  | _ => a
def X40.neg (a : X40) : X40 := { a with v := a.v.neg }
def X40.one : X40 := ⟨.one, false⟩
def X40.int (k : Int) : X40 := Machine.x40 (.fin (k < 0) k.natAbs 0)

/-- One entry of a built-in table by R206: C0, C1, C2 and the anchor point. `unit` is the unit table. -/
def seedEntry (f : Seg) (unit : Bool) (b : Int) (j : Nat) : X40 × X40 × X40 × Rat' :=
  let at' := fun (num : Nat) (sh : Int) =>
    if unit then Rat'.dyadic num sh else Rat'.dyadic num (sh + b)
  let base := if unit then 0 else 256
  let lo := at' (base + j) (-8)
  let hi := at' (base + j + 1) (-8)
  let mid := at' (2 * (base + j) + 1) (-9)
  let anchorHi := f = .log2 && j ≥ 128
  let p := if anchorHi then hi else lo
  let q := if anchorHi then lo else hi
  let g0 := f.g j p
  let gm := f.g j mid
  let g1 := f.g j q
  let d := g0.den * gm.den * g1.den
  let n0 := g0.num * (gm.den * g1.den : Nat)
  let nm := gm.num * (g0.den * g1.den : Nat)
  let n1 := g1.num * (g0.den * gm.den : Nat)
  let h : Int := if unit then -8 else b - 8
  let sg : Int := if anchorHi then -1 else 1
  let c1 := sg * (4 * nm - 3 * n0 - n1)
  let c2 := 2 * (n1 - 2 * nm + n0)
  (x40Fin (g0.num < 0) g0.num.natAbs g0.den 0, x40Fin (c1 < 0) c1.natAbs d (-h), x40Fin (c2 < 0) c2.natAbs d (-2 * h), p)

/-- C0 + d × (C1 + d × C2), two fused steps (R205). -/
def seedEval (c0 c1 c2 d : X40) : X40 := d.mad (d.mad c2 c1) c0

/-- A number minus a rational that is dyadic, rounded to X40 (R204). -/
def offset (u : Num) (p : Rat') : X40 :=
  x40 (u.sub (.fin (p.num < 0) p.num.natAbs (-(p.den.log2 : Int))))

/-- The segment of a positive number in a binade table. -/
def segOf (m : Nat) : Nat := if m.log2 ≥ 8 then m / 2 ^ (m.log2 - 8) % 256 else m * 2 ^ (8 - m.log2) % 256

/-- The seed of a positive reduced argument in the binade tables of a function, with its segment. -/
def seedB (f : Seg) (u : Num) : X40 × Nat :=
  match u with
  | .fin _ m e =>
    let b := (m.log2 : Int) + e
    let j := segOf m
    let (c0, c1, c2, p) := seedEntry f false b j
    (seedEval c0 c1 c2 (offset u p), j)
  | _ => (⟨.nan, false⟩, 0)

/-- The seed of u in [0, 1) in the unit table. -/
def seedU (f : Seg) (u : Num) : X40 :=
  match u with
  | .fin _ m e =>
    let (a, b) := pow2 (e + 8)
    let (c0, c1, c2, p) := seedEntry f true 0 (m * a / b)
    seedEval c0 c1 c2 (offset u p)
  | _ => ⟨.nan, false⟩

/-- P(x) of R208. -/
def poly (x c0 c1 c2 c3 c4 : X40) : X40 := x.mad (x.mad (x.mad (x.mad c4 c3) c2) c1) c0

def ratX (n : Int) (d : Nat) : X40 := Rat'.x40 ⟨n, d⟩

/-- The small forms of Table 7.3. -/
def smallForm (f : Seg) (x : X40) : X40 :=
  let z := ratX 0 1
  let one := ratX 1 1
  match f with
  | .tanh => poly x z one z (ratX (-1) 3) z
  | .sin => poly x z one z (ratX (-1) 6) z
  | .cos => poly x one z (ratX (-1) 2) z z
  | .erf =>
    let c := fixDiv (2 * fixOne) (fixSqrt fixPi)
    poly x z (Rat'.x40 (.ofFix c)) z (Rat'.x40 ⟨-c, 3 * 2 ^ fixBits⟩) z
  | .sigP | .sigN => poly x (ratX 1 2) (ratX 1 4) z (ratX (-1) 48) z
  | .geluP | .geluN =>
    let c := fixDiv fixOne (fixSqrt (2 * fixPi))
    poly x z (ratX 1 2) (Rat'.x40 (.ofFix c)) z (Rat'.x40 ⟨-c, 6 * 2 ^ fixBits⟩)
  | _ => poly x z (ratX 1 2) (ratX 1 4) z (ratX (-1) 48)

/-- |u| lies below 2^k. -/
def below (u : Num) (k : Int) : Bool :=
  match u with
  | .fin _ m e => m = 0 || (m.log2 : Int) + e < k
  | _ => false

def Num.abs : Num → Num
  | .fin _ m e => .fin false m e
  | .inf _ => .inf false
  | .nan => .nan

/-- The exponent of a non-zero finite number. -/
def Num.expo : Num → Int
  | .fin _ m e => (m.log2 : Int) + e
  | _ => 0

/-- A number scaled by a power of two, exactly. -/
def Num.shift (k : Int) : Num → Num
  | .fin n m e => .fin n m (e + k)
  | x => x

/-- ⌊x⌋ of a finite number. -/
def Num.floor : Num → Int
  | .fin n m e =>
    let (a, b) := pow2 e
    let v : Int := if n then -((m * a : Nat) : Int) else ((m * a : Nat) : Int)
    v / (b : Int)
  | _ => 0

def clamp20 (k : Int) : Int := max (-(2 ^ 20)) (min (2 ^ 20) k)

def Num.ofInt (k : Int) : Num := .fin (k < 0) k.natAbs 0

/-- k and r of the sine reduction (Table 7.2), with π of 800 fraction bits. -/
def quadrant (x : Num) : Int × X40 :=
  match x with
  | .fin n m e =>
    let sg : Int := if n then -1 else 1
    let (a, b) := pow2 e
    let num : Int := 2 * ((m * a : Nat) : Int) * (2 ^ 800 : Nat)
    let den : Int := pi800 * (b : Int)
    let k0 := (2 * num + den) / (2 * den)
    let r := 2 * ((m * a : Nat) : Int) * (2 ^ 800 : Nat) - k0 * pi800 * (b : Int)
    let r := sg * r
    (sg * k0, x40Fin (r < 0) r.natAbs b (-801))
  | _ => (0, ⟨.nan, false⟩)

/-- sin |r| with the sign of r, and cos |r|. -/
def sinPart (r : X40) : X40 :=
  if below r.v (-6) then smallForm .sin r
  else
    let y := (seedB .sin r.v.abs).1
    if r.v.isNeg then y.neg else y

def cosPart (r : X40) : X40 := if below r.v (-6) then smallForm .cos r else (seedB .cos r.v.abs).1

/-- A per-sign function with a direct small form (sigmoid, gelu, silu). A result of the negative side that flushes is the
zero of Table 7.4, which the sum of R205 need not give. -/
def perSign (pos neg : Seg) (top : Int) (largePos largeNeg : X40) (topNeg : Int) (x : X40) : X40 :=
  if below x.v (-6) then smallForm pos x
  else if x.v.isNeg then
    let y := if below x.v topNeg then (seedB neg x.v.abs).1 else largeNeg
    if y.v.isZero then { y with v := largeNeg.v } else y
  else if below x.v top then (seedB pos x.v).1 else largePos

/-- An odd function with value ±1 above its tables (tanh, erf). -/
def oddForm (f : Seg) (top : Int) (x : X40) : X40 :=
  if below x.v (-6) then smallForm f x
  else
    let y := if below x.v top then (seedB f x.v.abs).1 else .one
    if x.v.isNeg then y.neg else y

/-- v, m and y₁ of rsqrt. -/
def rsqrtCore (x : Num) : X40 × Int × X40 :=
  let m := x.expo / 2
  let v := x.abs.shift (-2 * m)
  let y0 := (seedB .rsqrt v).1
  let vx : X40 := ⟨v, false⟩
  let h := vx.mul y0
  let h := h.nmad y0 .one
  (vx, m, (y0.scale (-1)).mad h y0)

/-- The built-in functions on an evaluated argument: finite, non-zero and in the domain (Table 7.2). DEDUCED (log 142): the
tables are those of R206, which determine every bit, also where their quadratics miss the bound that R211 states. -/
def sfuCore (code : Nat) (x : Num) : X40 :=
  let xx : X40 := ⟨x, false⟩
  match code with
  | 0x01 => let fl := x.floor; (seedU .exp2 (x.sub (Num.ofInt fl))).scale (clamp20 fl)
  | 0x02 =>
    let e := x.expo
    let (y, j) := seedB .log2 (x.shift (-e))
    y.add ⟨Num.ofInt (e + (j / 128 : Nat)), false⟩
  | 0x03 =>
    let e := x.expo
    let t : X40 := ⟨x.abs.shift (-e), false⟩
    let y0 := (seedB .recip t.v).1
    let h := t.nmad y0 .one
    let y1 := (y0.mad h y0).scale (-e)
    if x.isNeg then y1.neg else y1
  | 0x04 => let (_, m, y) := rsqrtCore x; y.scale (-m)
  | 0x05 =>
    let (v, m, y) := rsqrtCore x
    let q := v.mul y
    let h := q.nmad q v
    ((y.scale (-1)).mad h q).scale m
  | 0x06 => oddForm .tanh 4 xx
  | 0x07 => perSign .sigP .sigN 5 .one ⟨.zero, true⟩ 7 xx
  | 0x08 => oddForm .erf 2 xx
  | 0x09 => perSign .geluP .geluN 3 xx ⟨.fin true 0 0, true⟩ 4 xx
  | 0x0A => perSign .siluP .siluN 5 xx ⟨.fin true 0 0, true⟩ 7 xx
  | 0x0B | 0x0C =>
    let (k, r) := quadrant x
    let q := ((k + (if code = 0x0C then 1 else 0)) % 4).toNat
    match q with
    | 0 => sinPart r
    | 1 => cosPart r
    | 2 => (sinPart r).neg
    | _ => (cosPart r).neg
  | _ => ⟨.nan, false⟩

/-- A result of the SFU: its F32 value, and whether it counts FLUSH or DOMAIN. -/
structure SfuRes where
  v : Num
  flush : Bool := false
  domain : Bool := false
  deriving DecidableEq, Repr

/-- Round from X40 to F32 (R210). -/
def X40.out (x : X40) : SfuRes :=
  let y := (roundTo .f32 x.v).1
  { v := y, flush := x.u && y.isZero }

/-- A built-in function on an F32 value (Tables 7.2 and 7.4). -/
def sfuBuiltin (code : Nat) (x : Num) : SfuRes :=
  let dom : SfuRes := { v := .nan, domain := true }
  match x with
  | .nan => { v := .nan }
  | .inf n =>
    match code with
    | 0x01 => { v := if n then .zero else x }
    | 0x02 | 0x05 => if n then dom else { v := x }
    | 0x03 => { v := .fin n 0 0 }
    | 0x04 => if n then dom else { v := .zero }
    | 0x06 | 0x08 => { v := .fin n 1 0 }
    | 0x07 => { v := if n then .zero else .one }
    | 0x09 | 0x0A => { v := if n then .fin true 0 0 else x }
    | _ => dom
  | .fin n 0 _ =>
    match code with
    | 0x01 | 0x0C => { v := .one }
    | 0x02 => { v := .inf true }
    | 0x03 | 0x04 => { v := .inf n }
    | 0x07 => { v := .fin false 1 (-1) }
    | _ => { v := .fin n 0 0 }
  | .fin n _ _ => if n && (code = 0x02 || code = 0x04 || code = 0x05) then dom else (sfuCore code x).out

/-- A table record of a pattern (Table 7.7). -/
structure PRec where
  kind : Nat
  map : Nat
  binade : Int
  monoPos : Nat
  monoNeg : Nat
  fracLo : Int
  fracHi : Int
  deriving DecidableEq, Repr

/-- A parsed pattern image (Tables 7.6 and 7.7, R218). -/
structure Pattern where
  fixed : Nat
  negDomain : Bool
  fix : List Nat
  records : List PRec
  steps : List Nat
  consts : List Nat
  tables : List Nat
  deriving DecidableEq, Repr

/-- The machine of R219: w and k registers, the underflow mark and the step to run. -/
structure PatM where
  w : SMap Nat := []
  k : SMap (BitVec 32) := []
  u : Bool := false
  pc : Nat := 0
  deriving DecidableEq, Repr

def PatM.wr (m : PatM) (i : Nat) : X40 := X40.ofCode (m.w.get 0 i)
def PatM.setW (m : PatM) (i : Nat) (x : X40) : PatM :=
  { m with w := m.w.set 0 i x.code, u := m.u || x.u }
def PatM.kr (m : PatM) (i : Nat) : BitVec 32 := m.k.get 0 (i % 4)
def PatM.setK (m : PatM) (i : Nat) (v : BitVec 32) : PatM := { m with k := m.k.set 0 (i % 4) v }

/-- The table record that covers a value among a range (R204), with its segment. -/
def Pattern.cover (p : Pattern) (lo hi : Nat) (v : Num) : Option (Nat × Nat) :=
  (List.range p.records.length).filterMap (fun i =>
    if i < lo ∨ hi < i then none
    else match p.records[i]?, v with
      | some r, .fin n m e =>
        if r.kind = 0 then (if m ≠ 0 ∧ (m.log2 : Int) + e = r.binade then some (i, segOf m) else none)
        else if (n && m ≠ 0) || !(below v 0) then none
        else let (a, c) := pow2 (e + 8); some (i, m * a / c)
      | _, _ => none) |>.head?

/-- The entry of a loaded table: C0, C1, C2 and the anchor point of a segment (Table 7.1). -/
def Pattern.entry (p : Pattern) (i j : Nat) : X40 × X40 × X40 × Rat' :=
  let w := (p.tables.getD i 0) / 2 ^ (128 * j) % 2 ^ 128
  let at' := j + w / 2 ^ 120 % 2
  let r := p.records.getD i ⟨0, 0, 0, 0, 0, 0, 0⟩
  (X40.ofCode (w % 2 ^ 40), X40.ofCode (w / 2 ^ 40 % 2 ^ 40), X40.ofCode (w / 2 ^ 80 % 2 ^ 40),
    if r.kind = 0 then Rat'.dyadic (256 + at' : Nat) (r.binade - 8) else Rat'.dyadic (at' : Nat) (-8))

/-- The split steps of Table 7.8 on w0; where w0 is zero or infinite and the spec states no value, the free value
of Config. -/
def PatM.split (m : PatM) (op d : Nat) : PatM :=
  let x := (m.wr 0).v
  let s : BitVec 32 := if x.isNeg then 1 else 0
  let free :=
    let v := Config.splitValue op (m.w.get 0 0)
    ((m.setW d (X40.ofCode v.1.toNat)).setK 0 v.2).setK 1 s
  match x with
  | .fin _ mm _ =>
    match op with
    | 0x10 => if mm = 0 then free else
        ((m.setW d ⟨x.abs.shift (-x.expo), false⟩).setK 0 (BitVec.ofInt 32 x.expo)).setK 1 s
    | 0x11 => if mm = 0 then free else
        let k := x.expo / 2
        ((m.setW d ⟨x.abs.shift (-2 * k), false⟩).setK 0 (BitVec.ofInt 32 k)).setK 1 s
    | 0x12 => ((m.setW d (x40 (x.sub (Num.ofInt x.floor)))).setK 0 (BitVec.ofInt 32 (clamp20 x.floor))).setK 1 s
    | 0x13 =>
      let (k, r) := quadrant x
      ((m.setW d { r with v := r.v.abs }).setK 0 (BitVec.ofInt 32 (k % 4))).setK 1
        (if r.v.isNeg && !r.v.isZero then 1 else 0)
    | _ => (m.setW d ⟨x.abs, false⟩).setK 1 s
  | _ => if op = 0x14 then (m.setW d ⟨x.abs, false⟩).setK 1 s else free

/-- One basic step other than OUT (Table 7.8). -/
def PatM.step (p : Pattern) (m : PatM) (w : Nat) : PatM :=
  let op := w / 2 ^ 26 % 64
  let d := w / 2 ^ 23 % 8
  let a := w / 2 ^ 20 % 8
  let b := w / 2 ^ 17 % 8
  let c := w / 2 ^ 14 % 8
  let imm := w % 2 ^ 14
  let K := X40.ofCode (p.consts.getD (imm % 32) 0)
  let go := { m with pc := m.pc + 1 }
  let br := { m with pc := m.pc + imm / 256 % 64 }
  match op with
  | 0x01 => go.setW d ((m.wr a).mad (m.wr b) (m.wr c))
  | 0x02 => go.setW d ((m.wr a).nmad (m.wr b) (m.wr c))
  | 0x03 => go.setW d ((m.wr a).mad (m.wr b) K)
  | 0x04 => go.setW d ((m.wr a).nmad (m.wr b) K)
  | 0x05 => go.setW d ((m.wr a).mul K)
  | 0x06 => go.setW d K
  | 0x07 => go.setW d ((m.wr a).add ⟨Num.ofInt (m.kr b).toInt, false⟩)
  | 0x08 => go.setW d ((m.wr a).scale (if imm % 2 = 1 then -(m.kr b).toInt else (m.kr b).toInt))
  | 0x09 => go.setW d (if (m.kr b).getLsbD 0 then (m.wr a).neg else m.wr a)
  | 0x0A => go.setK d (m.kr a + (BitVec.ofNat 8 imm).signExtend 32)
  | 0x18 =>
    match p.cover (imm % 16) (imm / 16 % 16) (m.wr a).v with
    | none => br
    | some (i, j) =>
      let (c0, c1, c2, pt) := p.entry i j
      let r := p.records.getD i ⟨0, 0, 0, 0, 0, 0, 0⟩
      let u := if r.kind = 0 then (m.wr a).v.abs else (m.wr a).v
      let m := go.setW d (offset u pt)
      (((m.setW 5 c0).setW 6 c1).setW 7 c2).setK 2 (BitVec.ofNat 32 j)
  | 0x19 => if (m.wr a).v.abs.lt K.v.abs then br else go
  | 0x1A => if (m.kr a).getLsbD (imm % 32) then br else go
  | 0x1B => br
  | op => go.split op d

/-- Run a pattern from its step to OUT (fuel: steps; branches only go forward). -/
def PatM.run (p : Pattern) : Nat → PatM → SfuRes
  | 0, _ => { v := .nan }
  | fuel + 1, m =>
    let w := p.steps.getD m.pc 0
    if w / 2 ^ 26 % 64 = 0x20 then
      let x := m.wr (w / 2 ^ 20 % 8)
      X40.out { x with u := m.u }
    else (m.step p w).run p fuel

/-- A loaded pattern on an F32 value (R209, R219, Table 7.6). -/
def Pattern.eval (p : Pattern) (x : Num) : SfuRes :=
  let fixed := fun (n : Nat) => p.fixed.testBit n
  let value := fun (n : Nat) => ({ v := (Fmt.f32.decode (p.fix.getD n 0)).1 } : SfuRes)
  let go := PatM.run p (p.steps.length + 1) (({} : PatM).setW 0 (x40 x))
  match x with
  | .nan => { v := .nan }
  | .inf n => if fixed (if n then 3 else 2) then value (if n then 3 else 2) else go
  | .fin n 0 _ => if fixed (if n then 1 else 0) then value (if n then 1 else 0) else go
  | .fin n _ _ => if n && p.negDomain then { v := .nan, domain := true } else go

end Sys2Proof.Machine
end

