-- ==== Sys2Proof/Machine/VeWalk.lean ====
section
/-! DEFINITION. The tensor walk of the vector engine and the SFU: descriptors, checks, loads and stores (spec/06,
R171 to R183, R197 to R200; R215, R227). -/

namespace Sys2Proof.Machine

/-- A stream of a VE descriptor (Table 6.1). -/
structure Stream where
  addr : Nat
  aux : Nat
  fmt : Nat
  s1 : Int
  s2 : Int
  s3 : Int
  seam : Bool
  deriving DecidableEq, Repr

/-- A VE or SFU descriptor's fields (Table 6.1). -/
structure VeD where
  sfu : Bool
  op : Nat
  e0 : Nat
  tail : Nat
  e1 : Nat
  e2 : Nat
  e3 : Nat
  hemEn : Bool
  release : Bool
  bank : Nat
  opt : Bool
  red : Nat
  ranch : Nat
  hemLvl : Nat
  anchor : Int
  param : Nat
  limit : Nat
  cAddr : Nat
  cStr : Int
  hemAddr : Nat
  a : Stream
  b : Stream
  d : Stream
  deriving DecidableEq, Repr

def streamOf (r ad ax fm st : Nat) (seam : Bool) : Stream :=
  { addr := fld r ad 0 32, aux := fld r ax 0 32, fmt := fld r fm 0 64, s1 := toSigned 32 (fld r st 0 32),
    s2 := toSigned 32 (fld r (st + 4) 0 32), s3 := toSigned 32 (fld r (st + 8) 0 32), seam := seam }

def VeD.of (r : Nat) : VeD :=
  let f := fld r 16 0 8
  { sfu := fld r 0 0 4 = 2, op := fld r 1 0 8, e0 := fld r 8 0 8, tail := fld r 9 0 8, e1 := fld r 10 0 16,
    e2 := fld r 12 0 16, e3 := fld r 14 0 16, hemEn := tb f 3, release := tb f 4, bank := f / 32 % 2, opt := tb f 6,
    red := fld r 17 0 2, ranch := fld r 17 2 2, hemLvl := fld r 17 4 2, anchor := toSigned 16 (fld r 18 0 16),
    param := fld r 20 0 32, limit := fld r 24 0 32, cAddr := fld r 28 0 32, cStr := toSigned 32 (fld r 32 0 32),
    hemAddr := fld r 36 0 32, a := streamOf r 40 44 48 56 (tb f 0), b := streamOf r 68 72 76 84 (tb f 1),
    d := streamOf r 96 100 104 112 (tb f 2) }

/-- The fields that an operation uses (Table 6.2, R215): streams A, B, C, D; B as indices one per vector or one
per element; D_AUX as an index output; RED_LVL; RANCH and ANCHOR; PARAM; LIMIT; BANK and RELEASE; OPT; a hem
record. -/
structure VeUse where
  a : Bool := false
  b : Bool := false
  bVec : Bool := false
  bElem : Bool := false
  c : Bool := false
  d : Bool := false
  x : Bool := false
  r : Bool := false
  n : Bool := false
  p : Bool := false
  l : Bool := false
  k : Bool := false
  o : Bool := false
  h : Bool := false
  deriving DecidableEq, Repr

/-- Table 6.2. -/
def veUse : Nat → Option VeUse
  | 0x01 => some { a := true, d := true, h := true }
  | 0x02 | 0x03 | 0x04 | 0x06 | 0x07 => some { a := true, b := true, d := true, h := true }
  | 0x05 => some { a := true, b := true, c := true, d := true, h := true }
  | 0x08 => some { a := true, d := true, p := true, h := true }
  | 0x10 => some { a := true, d := true, r := true, n := true, o := true }
  | 0x11 | 0x12 => some { a := true, d := true, r := true }
  | 0x18 => some { a := true, b := true, c := true, d := true, r := true, n := true, p := true, h := true }
  | 0x19 => some { a := true, c := true, d := true, r := true, n := true, p := true, h := true }
  | 0x20 => some { a := true, bVec := true, c := true, d := true, o := true, h := true }
  | 0x28 => some { a := true, bVec := true, d := true, l := true, p := true, h := true }
  | 0x29 => some { a := true, c := true, d := true, p := true, h := true }
  | 0x30 => some { a := true, d := true, x := true, r := true, l := true, p := true }
  | 0x31 => some { a := true, d := true, x := true, r := true }
  | 0x32 => some { a := true, bElem := true, x := true, r := true, p := true, o := true }
  | 0x38 => some { d := true, k := true, h := true }
  | 0x39 => some { a := true, b := true, d := true }
  | 0x3A => some { a := true, d := true, h := true }
  | _ => none

/-- The fields of an SFU descriptor, whatever its OP (R215). -/
def sfuUse : VeUse := { a := true, d := true, o := true, p := true, h := true }

/-- The OP of an SFU descriptor names a function or a pattern slot (R215). -/
def sfuOpOk (op : Nat) : Bool := (1 ≤ op && op ≤ 12) || (0x40 ≤ op && op ≤ 0x7F)

/-- The fields that a descriptor uses; none for a VE OP that is not in Table 6.2. -/
def VeD.use (v : VeD) : Option VeUse := if v.sfu then some sfuUse else veUse v.op

/-- D is written once per row (R184). -/
def VeD.rowwise (v : VeD) : Bool := !v.sfu && [0x10, 0x11, 0x12, 0x30, 0x31, 0x32].contains v.op

/-- One vector of the walk with its present length (R171, R172). -/
structure Vec where
  l1 : Nat
  l2 : Nat
  l3 : Nat
  n : Nat
  deriving DecidableEq, Repr

/-- The walk: l1 fastest, then l2, then l3 (R171). -/
def VeD.walk (v : VeD) : List Vec :=
  (List.range v.e3).flatMap (fun l3 => (List.range v.e2).flatMap (fun l2 => (List.range v.e1).map (fun l1 =>
    { l1 := l1, l2 := l2, l3 := l3, n := if v.tail ≠ 0 ∧ l1 = v.e1 - 1 then v.tail else v.e0 })))

/-- The row of a vector over the levels above `lvl`, lowest level fastest (R176). -/
def VeD.rowOf (v : VeD) (lvl : Nat) (w : Vec) : Nat :=
  match lvl with
  | 0 => w.l1 + v.e1 * (w.l2 + v.e2 * w.l3)
  | 1 => w.l2 + v.e2 * w.l3
  | 2 => w.l3
  | _ => 0

/-- The rows of a reduction with their vectors, in walk order. -/
def VeD.rows (v : VeD) (lvl : Nat) : List (Nat × List Vec) :=
  (v.walk.splitBy (fun a b => v.rowOf lvl a = v.rowOf lvl b)).map (fun g => ((g.head?.map (v.rowOf lvl)).getD 0, g))

/-- The index of a vector over the reduced outer levels (R195). -/
def VeD.outer (v : VeD) (w : Vec) : Nat :=
  match v.red with
  | 0 => 0
  | 1 => w.l1
  | 2 => w.l1 + v.e1 * w.l2
  | _ => w.l1 + v.e1 * (w.l2 + v.e2 * w.l3)

/-- The strides' part of an address; levels at or below `above` contribute 0 (R173, R184). -/
def Stream.off (s : Stream) (above : Nat) (w : Vec) : Int :=
  (if above < 1 then w.l1 * s.s1 else 0) + (if above < 2 then w.l2 * s.s2 else 0) +
    (if above < 3 then w.l3 * s.s3 else 0)

/-- An address of the walk; a negative one lies in no memory of the tile. -/
def walkAddr (a : Int) : Nat := if a < 0 then 2 ^ 40 else a.toNat

/-- The bits of one element of a stream. -/
def Stream.bits (s : Stream) : Nat :=
  if s.seam then 128 else match Fmt.ofCode (s.fmt % 16) with
    | some f => f.bits
    | none => 32

/-- The address of a vector's first element. -/
def Stream.at (s : Stream) (above : Nat) (w : Vec) : Nat := walkAddr (s.addr + s.off above w)

/-- The address of a vector's first E8 byte (R174). -/
def Stream.e8At (s : Stream) (above : Nat) (w : Vec) : Nat :=
  walkAddr (s.aux + s.off above w / (4 * s.bits : Nat))

/-- A scaled stream: a scaled format with UNIT_SCALE 0 (R174). -/
def Stream.scaled (s : Stream) : Bool :=
  !s.seam && (match Fmt.ofCode (s.fmt % 16) with
    | some f => f.scaled && !tb s.fmt 7
    | none => false)

/-- Bytes of `n` elements of a stream. -/
def Stream.bytes (s : Stream) (n : Nat) : Nat := (n * s.bits + 7) / 8

/-- A format, seam or index specifier is malformed (R28 to R30, R179, R180). -/
def Stream.badFmt (s : Stream) (isA isD : Bool) : Bool :=
  if s.seam then s.fmt % 2 ^ 32 ≠ 0 || (if isA then !coarseOk (s.fmt / 2 ^ 32) else s.fmt / 2 ^ 32 ≠ 0)
  else (FSpec.parse s.fmt isD).isNone

/-- The seam flags that an operation allows (R179, R184, R186, R189). -/
def VeD.seamOk (v : VeD) : Bool :=
  if v.sfu then !v.a.seam && !v.b.seam && !v.d.seam
  else match v.op with
    | 0x39 => v.a.seam && v.b.seam && v.d.seam
    | 0x3A => v.a.seam && !v.b.seam && !v.d.seam
    | 0x10 | 0x38 => !v.a.seam && !v.b.seam
    | _ => !v.a.seam && !v.b.seam && !v.d.seam

/-- A stream whose fields are all 0. -/
def Stream.zero (s : Stream) : Bool := s.addr = 0 && s.aux = 0 && s.fmt = 0 && s.s1 = 0 && s.s2 = 0 && s.s3 = 0

/-- A format, a seam flag, an extent or TAIL is malformed (R171, R172, R179, R184). -/
def VeD.badShape (v : VeD) (u : VeUse) : Bool :=
  (u.a && v.a.badFmt true false) || (u.b && v.b.badFmt false false) ||
    (u.d && v.d.badFmt false true) || !v.seamOk || v.e0 < 1 || v.e0 > 128 || v.e1 = 0 || v.e2 = 0 || v.e3 = 0 ||
    v.tail ≥ v.e0

/-- The present lengths of the walk's vectors (R172). -/
def VeD.lens (v : VeD) : List Nat :=
  if v.tail = 0 then [v.e0] else if v.e1 = 1 then [v.tail] else [v.e0, v.tail]

/-- A D stride of 0 at a level whose extent exceeds 1 (R177), for a unit that reduces no level. -/
def VeD.flatD (v : VeD) : Bool :=
  (v.d.s1 = 0 && v.e1 > 1) || (v.d.s2 = 0 && v.e2 > 1) || (v.d.s3 = 0 && v.e3 > 1)

/-- The alignment rules of R174 for a scaled stream. -/
def VeD.badScaled (v : VeD) (s : Stream) : Bool :=
  let b := 4 * s.bits
  s.scaled && (s.addr % b ≠ 0 || s.s1 % b ≠ 0 || s.s2 % b ≠ 0 || s.s3 % b ≠ 0 || (v.e0 % 32 ≠ 0 && v.e1 > 1))

/-- The elements of a full row of a reduction. -/
def VeD.rowLen (v : VeD) : Nat :=
  let l1 := if v.red = 0 then v.e0 else (v.e1 - 1) * v.e0 + (if v.tail ≠ 0 then v.tail else v.e0)
  l1 * (if v.red ≥ 2 then v.e2 else 1) * (if v.red ≥ 3 then v.e3 else 1)

/-- The causes of MALFORMED in Table 6.5 and Table 7.12 (R171 to R180, R189, R191, R193, R195 to R197, R215). -/
def VeD.malformed (v : VeD) (u : VeUse) (raw : Nat) : Bool :=
  let bAny := u.b || u.bVec || u.bElem
  let scaledFmt := match Fmt.ofCode (v.a.fmt % 16) with
    | some f => f.scaled
    | none => false
  v.badShape u || fld raw 16 7 1 = 1 || fld raw 17 6 2 ≠ 0 || fld raw 124 0 32 ≠ 0 || v.ranch = 3 ||
    (!u.a && !v.a.zero) || (!bAny && !v.b.zero) || ((u.bVec || u.bElem) && (v.b.fmt ≠ 0 || v.b.aux ≠ 0)) ||
    (!u.c && (v.cAddr ≠ 0 || v.cStr ≠ 0)) || (u.c && v.cAddr % 4 ≠ 0) ||
    (!u.d && (v.d.addr ≠ 0 || v.d.fmt ≠ 0 || v.d.s1 ≠ 0 || v.d.s2 ≠ 0 || v.d.s3 ≠ 0)) ||
    (u.a && v.a.aux ≠ 0 && !(v.a.scaled || (u.n && v.ranch = 1))) ||
    (u.b && v.b.aux ≠ 0 && !v.b.scaled) || (v.d.aux ≠ 0 && !((u.d && v.d.scaled) || u.x)) ||
    (!u.r && v.red ≠ 0) || (!u.n && (v.ranch ≠ 0 || v.anchor ≠ 0)) || (u.n && v.ranch ≠ 0 && v.anchor ≠ 0) ||
    (u.n && v.ranch = 0 && (v.anchor < -160 || v.anchor > 160)) ||
    ((!u.p || (v.sfu && !v.opt)) && v.param ≠ 0) || (!u.l && v.limit ≠ 0) || (!u.k && (v.release || v.bank ≠ 0)) ||
    (!u.o && v.opt) || (v.hemEn && (!u.h || v.d.seam || v.hemAddr % 2 ≠ 0)) ||
    (!v.hemEn && (v.hemLvl ≠ 0 || v.hemAddr ≠ 0)) ||
    (u.a && v.badScaled v.a) || (u.b && v.badScaled v.b) || (u.d && v.badScaled v.d) ||
    (u.n && ((v.ranch = 1 && v.a.scaled) || (v.ranch = 2 && !scaledFmt) || v.rowLen > 2 ^ 24)) ||
    (!v.sfu && (match v.op with
      | 0x18 | 0x19 => v.hemEn && v.hemLvl < v.red
      | 0x20 => v.lens.any (fun n => n % 2 = 1) || (v.opt && (v.e0 % 2 = 1 || v.tail ≠ 0))
      | 0x28 => v.a.s2 ≠ 0 || v.a.s3 ≠ 0
      | 0x30 => v.limit < 1 || v.limit > 128
      | 0x32 => !v.opt && !coarseOk v.param
      | 0x38 => v.e1 > 64 || v.e2 ≠ 1 || v.e3 ≠ 1
      | _ => false)) ||
    (v.sfu && (!sfuOpOk v.op || v.flatD))

/-- Values that a row result holds in D (R184, R195). -/
def VeD.perRow (v : VeD) : Nat := if v.op = 0x30 then v.limit else 1

/-- The first vectors of the rows above a level. -/
def VeD.rowHeads (v : VeD) (lvl : Nat) : List Vec := (v.rows lvl).filterMap (fun r => r.2.head?)

/-- The stream's elements have a known width. -/
def Stream.known (s : Stream) : Bool := s.seam || (Fmt.ofCode (s.fmt % 16)).isSome

/-- The byte ranges of D's elements; none for a format code that Table 2.1 does not list. -/
def VeD.dSpans (v : VeD) (u : VeUse) : List (Nat × Nat) :=
  if !u.d || !v.d.known then []
  else if v.rowwise then (v.rowHeads v.red).map (fun w => (v.d.at v.red w, v.d.bytes v.perRow))
  else v.walk.map (fun w => (v.d.at 0 w, v.d.bytes w.n))

/-- The byte ranges of A's elements: the walk, or every row below LIMIT for GATHER (R193). -/
def VeD.aSpans (v : VeD) (u : VeUse) : List (Nat × Nat) :=
  if !u.a || !v.a.known then []
  else if !v.sfu && v.op = 0x28 then (List.range v.limit).map (fun (t : Nat) => (walkAddr (v.a.addr + t * v.a.s1), v.a.bytes v.e0))
  else v.walk.map (fun w => (v.a.at 0 w, v.a.bytes w.n))

def VeD.bSpans (v : VeD) (u : VeUse) : List (Nat × Nat) :=
  if u.b then (if v.b.known then v.walk.map (fun w => (v.b.at 0 w, v.b.bytes w.n)) else [])
  else if u.bVec then v.walk.map (fun w => (v.b.at 0 w, 4))
  else if u.bElem then v.walk.map (fun w => (v.b.at 0 w, 4 * w.n))
  else []

def VeD.cAt (v : VeD) (w : Vec) : Nat := walkAddr (v.cAddr + w.l1 * v.cStr)

/-- The lane pairs of ROPE, lower lane first (R191). -/
def VeD.pairs (v : VeD) (n : Nat) : List (Nat × Nat) :=
  if v.opt then (List.range (v.e0 / 2)).map (fun m => (m, m + v.e0 / 2))
  else (List.range (n / 2)).map (fun m => (2 * m, 2 * m + 1))

/-- The byte ranges of C's words: for ROPE only those of the lower lanes, the others being not read (R191). -/
def VeD.cSpans (v : VeD) (u : VeUse) : List (Nat × Nat) :=
  if !u.c then []
  else if !v.sfu && v.op = 0x20 then v.walk.flatMap (fun w => (v.pairs w.n).map (fun k => (v.cAt w + 4 * k.1, 4)))
  else v.walk.map (fun w => (v.cAt w, 4 * w.n))

/-- The other bytes read: E8 bytes of A and B, hem entries of RANCH HEM. -/
def VeD.sideReads (v : VeD) (u : VeUse) : List (Nat × Nat) :=
  let ea := if u.a && v.a.scaled then
      (if !v.sfu && v.op = 0x28 then (List.range v.limit).map (fun (t : Nat) =>
          (walkAddr (v.a.aux + t * v.a.s1 / (4 * v.a.bits : Nat)), (v.e0 + 31) / 32))
        else v.walk.map (fun w => (v.a.e8At 0 w, (w.n + 31) / 32)))
    else []
  let eb := if u.b && v.b.scaled then v.walk.map (fun w => (v.b.e8At 0 w, (w.n + 31) / 32)) else []
  let h := if u.n && v.ranch = 1 then (v.rows v.red).map (fun r => (v.a.aux + 2 * r.1, 2)) else []
  ea ++ eb ++ h

/-- The other bytes written: E8 bytes of D, the index output and the hem record. -/
def VeD.sideWrites (v : VeD) (u : VeUse) : List (Nat × Nat) :=
  let ed := if u.d && v.d.scaled then
      (if v.rowwise then (v.rowHeads v.red).map (fun w => (v.d.e8At v.red w, (v.perRow + 31) / 32))
        else v.walk.map (fun w => (v.d.e8At 0 w, (w.n + 31) / 32)))
    else []
  let x := if u.x then (v.rows v.red).map (fun r => (v.d.aux + 4 * r.1 * v.perRow, 4 * v.perRow)) else []
  let h := if v.hemEn then (v.rows v.hemLvl).map (fun r => (v.hemAddr + 2 * r.1, 2)) else []
  ed ++ x ++ h

/-- Two lists of ranges share a byte. -/
def meets (a b : List (Nat × Nat)) : Bool :=
  a.any (fun p => b.any (fun q => p.2 ≠ 0 && q.2 ≠ 0 && p.1 < q.1 + q.2 && q.1 < p.1 + p.2))

/-- A list of ranges touches a byte twice. -/
def meetsItself : List (Nat × Nat) → Bool
  | [] => false
  | p :: l => meets [p] l || meetsItself l

/-- D coincides with a source element for element (R177); a D that is written once per row does so where every row of the
source is one vector of as many elements as the row's result. -/
def VeD.inPlace (v : VeD) (s : Stream) : Bool :=
  (!v.rowwise || (v.lens.all (· = v.perRow) && (v.red < 1 || v.e1 = 1) && (v.red < 2 || v.e2 = 1) && (v.red < 3 || v.e3 = 1))) &&
    s.addr = v.d.addr && s.bits = v.d.bits && (v.e1 = 1 || s.s1 = v.d.s1) &&
    (v.e2 = 1 || s.s2 = v.d.s2) && (v.e3 = 1 || s.s3 = v.d.s3)

/-- D writes one element twice (R177): OVERLAP of the VE (Table 6.5), MALFORMED of the SFU, whose OVERLAP names A only
(Table 7.12). -/
def VeD.twice (v : VeD) (u : VeUse) : Bool := meetsItself (v.dSpans u)

/-- OVERLAP of Tables 6.5 and 7.12 (R177). -/
def VeD.overlap (v : VeD) (u : VeUse) : Bool :=
  let d := v.dSpans u
  let gather := !v.sfu && v.op = 0x28
  (!v.sfu && v.twice u) || meets d (v.cSpans u) || (meets d (v.aSpans u) && !(v.inPlace v.a && !gather)) ||
    (meets d (v.bSpans u) && !(u.b && v.inPlace v.b))

/-- RANGE of Table 6.5 (R200). -/
def VeD.outOfRange (v : VeD) (u : VeUse) : Bool :=
  let ok := fun (w : Bool) (l : List (Nat × Nat)) => l.all (fun p => tmOk .ve w p.1 p.2)
  !(ok false (v.aSpans u ++ v.bSpans u ++ v.cSpans u ++ v.sideReads u) && ok true (v.dSpans u ++ v.sideWrites u))

/-- An invalid hem entry for RANCH HEM, among those that can be read (R189). -/
def Tile.badHem (x : Tile) (v : VeD) (u : VeUse) : Bool :=
  u.n && v.ranch = 1 && (v.rows v.red).any (fun r =>
    let a := v.a.aux + 2 * r.1
    tmOk .ve false a 2 && (Hem.ofNat (x.rd a 2)).anchor.isNone)

/-- The check of a VE descriptor (R200): the bits of VE_ERR_STAT; of an SFU descriptor (R227): the bits of
SFU_ERR_STAT. Every applicable bit is set; a descriptor of one slot (LONG 0), or whose OP is not in Table 6.2, has no walk to
check. -/
def State.veCheck (s : State) (t raw : Nat) : Nat :=
  let x := s.tile t
  let v := VeD.of raw
  let noPat := bit (v.sfu && 0x40 ≤ v.op && v.op ≤ 0x7F && (s.fuses.part = 3 || (x.patterns.get none (v.op - 0x40)).isNone)) 3
  match v.use with
  | none => 1 + noPat
  | some u =>
    if fld raw 0 4 1 = 0 then 1 + noPat
    else bit (v.malformed u raw || x.badHem v u || (v.sfu && v.twice u)) 0 + bit (v.outOfRange u) 1 + bit (v.overlap u) 2 + noPat

/-- One element as read into F32 (R181), with its poison (R198) and its event. -/
structure In where
  v : Num
  p : Bool
  ev : Evc
  deriving DecidableEq, Repr

/-- An accumulator of a bank reads as poisoned: its parity, or POISON of one of its lines. -/
def Tile.accPoisoned (x : Tile) (bank i j : Nat) : Bool :=
  let b := x.bank bank
  (b.accs.get {} (i * 128 + j)).parityBad || (b.flagsCol.get 0 i).getLsbD 2 || (b.flagsRow.get 0 j).getLsbD 2

/-- Some line or accumulator that a range touches is poisoned. -/
def Tile.poisonedV (x : Tile) (a n : Nat) : Bool :=
  if 0xA00000 ≤ a ∧ a < 0xA28000 then
    (List.range n).any (fun i =>
      let k := (a + i - 0xA00000) / 10
      x.accPoisoned (k / 8192) (k % 8192 / 128) (k % 128))
  else x.poisoned a n

/-- The elements of a vector of a stream (R173, R174, R181). -/
def Tile.loadAt (x : Tile) (s : Stream) (f : FSpec) (base e8b n : Nat) : List In :=
  (List.range n).map (fun p =>
    let r := readElem .f32 f.fmt f.entryRne f.readCoarse (x.e8 f e8b (p / 32)) (x.elem f.fmt base p)
    { v := r.1, ev := r.2,
      p := x.poisonedV (base + p * s.bits / 8) (max 1 (s.bits / 8)) || (f.hasE8 && x.poisonedV (e8b + p / 32) 1) })

def Tile.loadVec (x : Tile) (s : Stream) (f : FSpec) (w : Vec) : List In :=
  x.loadAt s f (s.at 0 w) (s.e8At 0 w) w.n

/-- 32-bit words with their poison. -/
def Tile.words (x : Tile) (a n : Nat) : List (Nat × Bool) :=
  (List.range n).map (fun i => (x.rd (a + 4 * i) 4, x.poisonedV (a + 4 * i) 4))

/-- The F32 words of stream C (R175). -/
def Tile.cVec (x : Tile) (v : VeD) (w : Vec) : List In :=
  (x.words (v.cAt w) w.n).map (fun c =>
    let r := Fmt.f32.decode c.1
    { v := r.1, p := c.2, ev := { flush := if r.2 then 1 else 0 } })

/-- The seam words of a vector, checked by R83, with whether each failed. -/
def Tile.seamVec (x : Tile) (s : Stream) (w : Vec) : List (Seam × Bool) :=
  (List.range w.n).map (fun p =>
    let a := s.at 0 w + 16 * p
    let z := Seam.ofNat (x.rd a 16)
    let c := z.check
    ({ c with poison := c.poison || x.poisonedV a 16 }, !z.resOk))

/-- What a descriptor has done so far: the tile, its generators, the events counted, the bits of the unit's
status register, its hem rows with their poison, SEAM_RES errors, SFU results by function and kind, fills, token-less rows,
whether it used PARAM, and the array rows that it read with a parity error. -/
structure VeAcc where
  x : Tile
  g : Gens
  ev : Evc := {}
  dev : Evc := {}
  stat : Nat := 0
  hem : SMap (Option (Hem × Bool)) := []
  seamBad : Nat := 0
  sfu : SMap Nat := []
  fills : Nat := 0
  noNan : Nat := 0
  noInf : Nat := 0
  pUsed : Bool := false
  parity : Nat := 0
  deriving DecidableEq, Repr

def VeAcc.note (a : VeAcc) (n : Nat) (c : Bool) : VeAcc := if c then { a with stat := a.stat ||| 2 ^ n } else a
def VeAcc.addEv (a : VeAcc) (e : Evc) : VeAcc := { a with ev := a.ev.add e }
/-- Add the events of elements read. -/
def VeAcc.read (a : VeAcc) (l : List In) : VeAcc := { a with ev := l.foldl (fun e i => e.add i.ev) a.ev }

/-- Write bytes with their poison, line by line (R198). -/
def putPoisoned (x : Tile) : Nat → Nat → List (Byte × Bool) → Tile
  | 0, _, _ => x
  | k + 1, a, d =>
    if d.isEmpty then x
    else
      let n := 64 - a % 64
      putPoisoned (x.write a ((d.take n).map (·.1)) ((d.take n).any (·.2))) k (a + n) (d.drop n)

def Tile.putP (x : Tile) (a : Nat) (d : List (Byte × Bool)) : Tile := putPoisoned x (d.length / 64 + 2) a d

/-- The bytes of packed element codes with their poison (R40). -/
def packCodes (f : Fmt) : List (Nat × Bool) → List (Byte × Bool)
  | [] => []
  | (c, p) :: l =>
    if f.bits = 4 then
      match l with
      | [] => [(BitVec.ofNat 8 c, p)]
      | (c', p') :: l => (BitVec.ofNat 8 (c + 16 * c'), p || p') :: packCodes f l
    else (toLe (f.bits / 8) c).map (fun b => (b, p)) ++ packCodes f l

/-- Draw once for each lane of a list. -/
def Gens.drawAll (g : Gens) : List Nat → List Nat × Gens
  | [] => ([], g)
  | l :: ls =>
    let (u, g) := g.draw l
    let (us, g) := g.drawAll ls
    (u :: us, g)

/-- The codes of values in a format, with the E8 bytes of a scaled one (R182, R183, R45, R53). `exact` values
have not been rounded to F32 (R80): an F32 image of one draws under stochastic rounding, and a scaled one is
rounded to F32 first. -/
def encodeVals (g : Gens) (f : FSpec) (exact : Bool) (lanes : List Nat) (vals : List Num) :
    List Nat × List Nat × Evc × Gens :=
  let draws := f.rnd = .stoch && (exact || f.fmt ≠ .f32)
  let (us, g) := if draws then g.drawAll lanes else (lanes.map (fun _ => 0), g)
  if f.fmt.scaled then
    let rs := if exact then vals.map (roundTo .f32) else vals.map (fun v => (v, {}))
    let blocks := (chunks 32 ((rs.map (·.1)).zip us)).map (fun b =>
      quantBlock f.fmt f.rnd f.rb (coarseNum f.coarse) (b.map (·.1)) (b.map (·.2)))
    (blocks.flatMap (·.2.1), blocks.map (·.1),
      blocks.foldl (fun e b => e.add b.2.2) (rs.foldl (fun e r => e.add r.2) {}), g)
  else
    let cs := (vals.zip us).map (fun p =>
      convert f.fmt p.1 (if exact || f.fmt ≠ .f32 then f.rnd else .rne) f.rb p.2 false)
    (cs.map (·.1), [], cs.foldl (fun e c => e.add c.2) {}, g)

/-- The element values of R65 that stored codes stand for: coarse scale left out, an F32 code as its F19 image (R197). -/
def storedVals (f : FSpec) (codes e8s : List Nat) : List Num :=
  codes.zipIdx.map (fun c => (elemValue f.fmt f.entryRne false (e8s.getD (c.2 / 32) 0) c.1).1)

/-- The hem entry of two parts of one row. -/
def Hem.join (a b : Hem) : Hem :=
  { maxExp := if a.zero then b.maxExp else if b.zero then a.maxExp else max a.maxExp b.maxExp,
    zero := a.zero && b.zero, hasInf := a.hasInf || b.hasInf, hasNan := a.hasNan || b.hasNan, valid := true }

/-- Store values at an address through D's format, with their poison; `row` names the hem row they belong to. -/
def VeAcc.storeAt (a : VeAcc) (f : FSpec) (exact : Bool) (addr e8a : Nat) (lanes : List Nat)
    (vals : List (Num × Bool)) (row : Option Nat) : VeAcc :=
  let (codes, e8s, ev, g) := encodeVals a.g f exact lanes (vals.map (·.1))
  let ps := vals.map (·.2)
  let x := a.x.putP addr (packCodes f.fmt (codes.zip ps))
  let x := if e8s.isEmpty then x
    else x.putP e8a ((e8s.zip (chunks 32 ps)).map (fun p => (BitVec.ofNat 8 p.1, p.2.any id)))
  let hem := match row with
    | none => a.hem
    | some r =>
      let h := hemOf (storedVals f codes e8s)
      let p := ps.any id
      a.hem.set none r (some (match a.hem.get none r with
        | some k => (k.1.join h, k.2 || p)
        | none => (h, p)))
  ({ a with x := x, g := g, dev := a.dev.add ev, hem := hem }).note 10 (ps.any id)

/-- Store one vector of D; lane p holds element p. -/
def VeAcc.store (a : VeAcc) (v : VeD) (f : FSpec) (exact : Bool) (w : Vec) (vals : List (Num × Bool)) : VeAcc :=
  a.storeAt f exact (v.d.at 0 w) (v.d.e8At 0 w) (List.range vals.length) vals
    (if v.hemEn then some (v.rowOf v.hemLvl w) else none)

/-- Store seam words (R81, R198). -/
def VeAcc.storeSeam (a : VeAcc) (addr : Nat) (l : List Seam) : VeAcc :=
  ({ a with x := a.x.write addr (l.flatMap (fun z => toLe 16 (Seam.toNat z))) false }).note 10 (l.any (·.poison))

/-- Write the hem record (R197); an entry is poisoned where some element of its row is (R198). -/
def VeAcc.putHem (a : VeAcc) (v : VeD) : VeAcc :=
  { a with x := a.hem.foldl (fun x r => match r.2 with
      | some h => x.write (v.hemAddr + 2 * r.1) (toLe 2 h.1.toNat) h.2
      | none => x) a.x }

/-- The F32 value of PARAM; a subnormal one is flushed (R33). -/
def VeD.paramNum (v : VeD) : Num := (Fmt.f32.decode v.param).1

/-- The flush of PARAM, counted once for a descriptor that uses it (log 141). -/
def VeD.paramEv (v : VeD) (a : VeAcc) : Evc := if a.pUsed && (Fmt.f32.decode v.param).2 then { flush := 1 } else {}

/-- Round to F32 nearest even (R182), as a value and its event. -/
def r32 (x : Num) : Num × Evc := roundTo .f32 x

/-- A result of the SFU for the VE: its value, and the SFU's own counts (R209, R210, R216). -/
def VeAcc.special (a : VeAcc) (code : Nat) (x : Num) : VeAcc × Num :=
  let r := sfuBuiltin code x
  let m := a.sfu.modify 0 (code * 4) (· + 1)
  let m := if r.flush then m.modify 0 (code * 4 + 1) (· + 1) else m
  let m := if r.domain then m.modify 0 (code * 4 + 2) (· + 1) else m
  ({ a with sfu := m }, r.v)

/-- The counters and status of format events (Table 2.10, Table 6.4). -/
def State.fmtEvents (s : State) (b : Blk) (t ev : Nat) (e : Evc) : State :=
  let s := s.countT b t ev 1 e.qNan
  let s := s.countT b t ev 2 e.qInf
  let s := s.countT b t ev 3 e.sat
  let s := s.countT b t ev 4 e.readOvf
  s.countT b t ev 5 e.flush

/-- Raise a cause as many times as it occurred. -/
def State.raiseMany (s : State) (b : Blk) (t mask : Nat) : Nat → State
  | 0 => s
  | n + 1 => (s.raiseT b t mask).raiseMany b t mask n

/-- The SFU counts of work done for a unit, by function code (Table 18.1, Table 7.10). -/
def State.sfuCounts (s : State) (t : Nat) (m : SMap Nat) : State :=
  m.foldl (fun s p =>
    let s := s.countT .sfu t (p.1 % 4 + 1) (p.1 / 4) p.2
    if p.1 % 4 = 1 then s.orStat .sfu t 1 else if p.1 % 4 = 2 then s.orStat .sfu t 2 else s) s

/-- A VE descriptor ends: its tile, its hem record, its events and errors (R197, R198, Table 6.4). -/
def State.veFinish (s : State) (t : Nat) (v : VeD) (vectors : Nat) (a : VeAcc) : State :=
  let a := a.putHem v
  let s := s.setTile t a.x
  let s := s.countT .ve t 1 v.op vectors
  let e := (a.ev.add a.dev).add (v.paramEv a)
  let s := s.fmtEvents .ve t 2 e
  let s := s.countT .ve t 3 0 e.aovf
  let s := s.countT .ve t 3 1 e.vanish
  let s := s.countT .ve t 3 2 e.trunc
  let s := s.countT .ve t 3 3 e.seamOvf
  let s := s.countT .ve t 4 (if v.op = 0x29 then 0 else 1) a.fills
  let s := s.countT .ve t 5 0 a.noNan
  let s := s.countT .ve t 5 1 a.noInf
  let m := a.stat ||| (bit (e.flush ≠ 0) 4 + bit (e.sat ≠ 0) 5 + bit (e.readOvf ≠ 0) 6 +
    bit (e.trunc + e.vanish ≠ 0) 7 + bit (e.aovf ≠ 0) 8)
  let s := if m = 0 then s else s.orStat .ve t m
  let s := s.sfuCounts t a.sfu
  (s.raiseMany .ve t 8 a.seamBad).raiseMany .opa t 16 a.parity

/-- The byte ranges that a descriptor reads: those of its streams, but of GATHER only the rows that its indices name. -/
def VeD.reads (v : VeD) (x : Tile) : List (Nat × Nat) :=
  match v.use with
  | none => []
  | some u =>
    let a := if !v.sfu && v.op = 0x28 then v.walk.filterMap (fun w =>
        let i := x.rd (v.b.at 0 w) 4
        if i < v.limit then some (walkAddr (v.a.addr + i * v.a.s1), v.a.bytes w.n) else none)
      else v.aSpans u
    a ++ v.bSpans u ++ v.cSpans u ++ v.sideReads u

/-- The array rows, as bank × 64 + row, of the accumulators with a parity error among ranges of the mapped banks. -/
def Tile.parityRows (x : Tile) (l : List (Nat × Nat)) : List Nat :=
  (l.flatMap (fun p =>
    if 0xA00000 ≤ p.1 ∧ p.1 < 0xA28000 ∧ p.2 ≠ 0 then
      let k := (p.1 - 0xA00000) / 10
      ((List.range ((p.1 + p.2 - 1 - 0xA00000) / 10 - k + 1)).map (k + ·)).filter (fun n =>
        ((x.bank (n / 8192)).accs.get {} (n % 8192)).parityBad) |>.map (· / 128)
    else [])).eraseDups

/-- Mark the column line of an array row POISON (Table 5.9). -/
def Tile.poisonRow (x : Tile) (bank i : Nat) : Tile :=
  let b := x.bank bank
  x.setBank bank { b with flagsCol := b.flagsCol.modify 0 i (· ||| 4) }

/-- The state with which a descriptor starts on a tile: its generators seeded (R59), and the array rows that it reads through
the mapped banks with a parity error found (R188, Table 5.9). -/
def State.veStart (s : State) (t : Nat) (d : Desc) : VeAcc :=
  let x := s.tile t
  let bad := x.parityRows ((VeD.of d.raw).reads x)
  { x := bad.foldl (fun x k => x.poisonRow (k / 64) (k % 64)) x, parity := bad.length,
    g := { seed := (s.fn (s.ownerOr0 t)).seed, dseq := d.dseq, tile := t } }

end Sys2Proof.Machine
end

