-- ==== Sys2Proof/Machine/Ve.lean ====
section
/-! DEFINITION. The operations of the vector engine (spec/06, Table 6.2). -/

namespace Sys2Proof.Machine

/-- The format specifier of a checked stream. -/
def Stream.spec (s : Stream) (write : Bool) : FSpec :=
  (FSpec.parse s.fmt write).getD { fmt := .f32, rnd := .rne, entryRne := false, unitScale := false, rb := 12, coarse := 0 }

/-- A scaled stream's coarse scale is refused (R43). -/
def VeAcc.scale (a : VeAcc) (f : FSpec) : VeAcc := a.note 3 f.badScale

/-- Load a vector of a stream, counting its events. -/
def VeAcc.load (a : VeAcc) (s : Stream) (w : Vec) : VeAcc × List In :=
  let f := s.spec false
  let l := a.x.loadVec s f w
  ((a.read l).scale f, l)

/-- Round each result once to F32 and store the vector (R182). -/
def VeAcc.storeR (a : VeAcc) (v : VeD) (w : Vec) (rs : List (Num × Bool)) : VeAcc :=
  let l := rs.map (fun r => (r32 r.1, r.2))
  let a := a.addEv (l.foldl (fun e r => e.add r.1.2) {})
  a.store v (v.d.spec true) false w (l.map (fun r => (r.1.1, r.2)))

/-- One vector of an operation on A alone. -/
def VeAcc.map1 (a : VeAcc) (v : VeD) (g : Num → Num) (w : Vec) : VeAcc :=
  let (a, xs) := a.load v.a w
  a.storeR v w (xs.map (fun x => (g x.v, x.p)))

/-- One vector of an operation on A and B. -/
def VeAcc.map2 (a : VeAcc) (v : VeD) (g : Num → Num → Num) (w : Vec) : VeAcc :=
  let (a, xs) := a.load v.a w
  let (a, ys) := a.load v.b w
  a.storeR v w ((xs.zip ys).map (fun p => (g p.1.v p.2.v, p.1.p || p.2.p)))

/-- One vector of MULADD: A × B + C with one rounding (R185). -/
def VeAcc.mulAdd (a : VeAcc) (v : VeD) (w : Vec) : VeAcc :=
  let (a, xs) := a.load v.a w
  let (a, ys) := a.load v.b w
  let cs := a.x.cVec v w
  (a.read cs).storeR v w ((xs.zip (ys.zip cs)).map (fun p =>
    ((p.1.v.mul p.2.1.v).add p.2.2.v, p.1.p || p.2.1.p || p.2.2.p)))

/-- The descriptor uses PARAM. -/
def VeAcc.useParam (a : VeAcc) : VeAcc := { a with pUsed := true }

/-- One pair of ROPE: θ, its sine and cosine, and the two results in order. -/
def VeAcc.rotate (a : VeAcc) (q : Num) (c xu xv : In) : VeAcc × Num × Num :=
  let a := a.addEv c.ev
  let (th, e) := r32 (q.mul c.v)
  let a := a.addEv e
  let (a, sn) := a.special 0x0B th
  let (a, cs) := a.special 0x0C th
  (a, (xu.v.mul cs).sub (xv.v.mul sn), (xu.v.mul sn).add (xv.v.mul cs))

def inZero : In := { v := .zero, p := false, ev := {} }

/-- One vector of ROPE (R191). -/
def VeAcc.rope (a : VeAcc) (v : VeD) (w : Vec) : VeAcc :=
  let q := (a.x.words (v.b.at 0 w) 1).headD (0, false)
  let (a, xs) := a.load v.a w
  let cs := a.x.cVec v w
  let (a, rs) := (v.pairs w.n).foldl (fun (p : VeAcc × SMap (Num × Bool)) k =>
    let xu := xs.getD k.1 inZero
    let xv := xs.getD k.2 inZero
    let c := cs.getD k.1 inZero
    let (a, ru, rv) := p.1.rotate (.ofInt q.1) c xu xv
    let ps := q.2 || xu.p || xv.p || c.p
    (a, (p.2.insert k.1 (ru, ps)).insert k.2 (rv, ps))) (a, [])
  a.storeR v w (rs.map (·.2))

/-- One vector of GATHER (R193). -/
def VeAcc.gather (a : VeAcc) (v : VeD) (w : Vec) : VeAcc :=
  let t := (a.x.words (v.b.at 0 w) 1).headD (0, false)
  if t.1 < v.limit then
    let f := v.a.spec false
    let o : Int := t.1 * v.a.s1
    let xs := a.x.loadAt v.a f (walkAddr (v.a.addr + o)) (walkAddr (v.a.aux + o / (4 * v.a.bits : Nat))) w.n
    ((a.read xs).scale f).storeR v w (xs.map (fun x => (x.v, x.p || t.2)))
  else
    let a := { (a.note 2 true).useParam with fills := a.fills + w.n }
    a.storeR v w (List.replicate w.n (v.paramNum, t.2))

/-- One vector of PERMUTE (R194). -/
def VeAcc.permute (a : VeAcc) (v : VeD) (w : Vec) : VeAcc :=
  let (a, xs) := a.load v.a w
  let cs := a.x.words (v.cAt w) w.n
  let out := cs.countP (fun c => c.1 ≥ w.n)
  let a := { a.note 1 (out ≠ 0) with fills := a.fills + out, pUsed := a.pUsed || out ≠ 0 }
  a.storeR v w (cs.map (fun c =>
    if c.1 < w.n then let x := xs.getD c.1 inZero; (x.v, x.p || c.2) else (v.paramNum, c.2)))

/-- The exact value that R80 converts: INT × 2^g times the coarse scales, by its tag. -/
def exactNum (int g : Int) (tag : Tag) (scale : Num) : Num :=
  match tag with
  | .nan => .nan
  | .pinf => .inf false
  | .ninf => .inf true
  | .fin => if int = 0 then .zero else Num.mul (.fin (int < 0) int.natAbs g) scale

/-- One vector of SEAM_ADD (R82, R198). -/
def VeAcc.seamAdd (a : VeAcc) (v : VeD) (w : Vec) : VeAcc :=
  let xs := a.x.seamVec v.a w
  let ys := a.x.seamVec v.b w
  let rs : List ((Seam × Bool) × Nat) :=
    (xs.zip ys).map (fun p => (Machine.seamAdd p.1.1 p.2.1, bit p.1.2 0 + bit p.2.2 0))
  let bad : Nat := rs.foldl (fun n r => n + r.2 + bit r.1.2 0) 0
  VeAcc.storeSeam { a with seamBad := a.seamBad + bad } (v.d.at 0 w) (rs.map (·.1.1))

/-- One vector of SEAM_CVT (R86, R179). -/
def VeAcc.seamCvt (a : VeAcc) (v : VeD) (w : Vec) : VeAcc :=
  let xs : List (Seam × Bool) := a.x.seamVec v.a w
  let scale := coarseNum (v.a.fmt / 2 ^ 32)
  let a : VeAcc := { a with seamBad := a.seamBad + xs.foldl (fun n x => n + bit x.2 0) 0 }
  let ovf := fun (z : Seam) => decide (z.special = .fin) && z.ovf
  let a := a.addEv { seamOvf := xs.countP (fun x => ovf x.1) }
  a.store v (v.d.spec true) true w (xs.map (fun x =>
    (if ovf x.1 then .nan else exactNum x.1.int x.1.tag x.1.special scale, x.1.poison)))

/-- One row of a bank as exact values and seam words (R186). -/
def bankCells (b : Bank) (i n : Nat) : List (Num × Seam) :=
  let scale := ((Fmt.f32.decode b.coarseCol.toNat).1).mul (Fmt.f32.decode b.coarseRow.toNat).1
  (List.range n).map (fun j =>
    let c := b.accs.get {} (i * 128 + j)
    let g := accGrid (b.anchCol.get 0 i) (b.anchRow.get 0 j) b.cls.window
    let fl := b.flagsCol.get 0 i ||| b.flagsRow.get 0 j
    let z : Seam := { int := c.int.toInt, tag := g, res := res255 c.int.toInt, special := c.tag,
                      trunc := fl.getLsbD 0, aovf := fl.getLsbD 1, ovf := false, poison := fl.getLsbD 2 }
    (exactNum c.int.toInt g c.tag scale, z))

/-- Mark the column line of a row with a parity error (R188, Table 5.9); answers whether there was one. -/
def Tile.parityRow (x : Tile) (bank i n : Nat) : Tile × Bool :=
  if (List.range n).any (fun j => ((x.bank bank).accs.get {} (i * 128 + j)).parityBad) then (x.poisonRow bank i, true)
  else (x, false)

/-- One vector of ACC_READ (R186 to R188): array row l1. -/
def VeAcc.accRead (a : VeAcc) (v : VeD) (w : Vec) : VeAcc :=
  let i := w.l1
  if !(a.x.bank v.bank).rowValid.getLsbD i then a
  else
    let (x, par) := a.x.parityRow v.bank i w.n
    let cells := bankCells (x.bank v.bank) i w.n
    let a := { a with x := x, parity := a.parity + bit par 0 }
    if v.d.seam then a.storeSeam (v.d.at 0 w) (cells.map (·.2))
    else a.store v (v.d.spec true) true w (cells.map (fun c => (c.1, c.2.poison)))

/-- The elements of a row, in row order. -/
def VeAcc.rowVals (a : VeAcc) (v : VeD) (ws : List Vec) : VeAcc × List In :=
  ws.foldl (fun p w =>
    let (a, l) := p.1.load v.a w
    (a, p.2 ++ l)) (a, [])

/-- Element values of R65 of a row, for exact sums (R189). -/
def VeAcc.rowElems (a : VeAcc) (v : VeD) (ws : List Vec) : VeAcc × List In :=
  let f := v.a.spec false
  let l := ws.flatMap (fun w => (List.range w.n).map (fun p =>
    let r := elemValue f.fmt f.entryRne f.badScale (a.x.e8 f (v.a.e8At 0 w) (p / 32)) (a.x.elem f.fmt (v.a.at 0 w) p)
    ({ v := r.1, ev := r.2, p := a.x.poisonedV (v.a.at 0 w + p * v.a.bits / 8) (max 1 (v.a.bits / 8)) ||
        (f.hasE8 && a.x.poisonedV (v.a.e8At 0 w + p / 32) 1) } : In)))
  ((a.read l).scale f, l)

/-- The anchor of a row (R189). -/
def Tile.rowAnchor (x : Tile) (v : VeD) (row : Nat) (ws : List Vec) : Int :=
  let f := v.a.spec false
  match v.ranch with
  | 0 => v.anchor
  | 1 => ((Hem.ofNat (x.rd (v.a.aux + 2 * row) 2)).anchor).getD 0
  | _ =>
    if f.hasE8 then blockAnchor f.fmt (ws.flatMap (fun w =>
      (List.range ((w.n + 31) / 32)).map (fun b => (x.byte (v.a.e8At 0 w + b)).toNat)))
    else f.fmt.eTop

/-- The hem entry that gives a row its anchor is poisoned, and so is what depends on the anchor (R198). -/
def Tile.anchorPoison (x : Tile) (v : VeD) (row : Nat) : Bool := v.ranch = 1 && x.poisonedV (v.a.aux + 2 * row) 2

/-- The exact sums of a row (R189): Σn, Σn², the count of finite tags, the two tags, TRUNC and AOVF. -/
structure Sums where
  s1 : Int := 0
  s2 : Int := 0
  c : Nat := 0
  t1 : Tag := .fin
  t2 : Tag := .fin
  ev : Evc := {}
  deriving DecidableEq, Repr

def rowSums (a : Int) (xs : List In) : Sums :=
  xs.foldl (fun s x =>
    let n := align x.v a 24
    { s1 := s.s1 + n.n, s2 := s.s2 + n.n * n.n, c := s.c + (if n.tag = .fin then 1 else 0),
      t1 := s.t1.add n.tag, t2 := s.t2.add (prodTag x.v x.v), ev := s.ev.add n.ev.count }) {}

/-- Store a row's single result, or TOPK's values, in lane row mod 128 (R176, R183). -/
def VeAcc.storeRow (a : VeAcc) (v : VeD) (exact : Bool) (row : Nat) (w : Vec) (vals : List Num) (p : Bool) : VeAcc :=
  a.storeAt (v.d.spec true) exact (v.d.at v.red w) (v.d.e8At v.red w) (vals.map (fun _ => row % 128))
    (vals.map (fun n => (n, p))) none

/-- One row of RSUM (R189). -/
def VeAcc.rsum (a : VeAcc) (v : VeD) (row : Nat) (ws : List Vec) : VeAcc :=
  let w := ws.headD ⟨0, 0, 0, 0⟩
  let (a, xs) := a.rowElems v ws
  let g := a.x.rowAnchor v row ws
  let s := rowSums g xs
  let a := a.addEv s.ev
  let p := xs.any (·.p) || a.x.anchorPoison v row
  let (int, grid, tag) := if v.opt then (s.s2, 2 * g - 46, s.t2) else (s.s1, g - 23, s.t1)
  if v.d.seam then
    let c : Acc := { int := int, tag := tag, trunc := s.ev.trunc + s.ev.vanish ≠ 0, aovf := s.ev.aovf ≠ 0, poison := p }
    a.storeSeam (v.d.at v.red w) [c.toSeam grid]
  else a.storeRow v true row w [exactNum int grid tag .one] p

/-- One row of RMAX or RMIN (R57). -/
def VeAcc.rext (a : VeAcc) (v : VeD) (f : Num → Num → Num) (row : Nat) (ws : List Vec) : VeAcc :=
  let (a, xs) := a.rowVals v ws
  match xs with
  | [] => a
  | x :: l => a.storeRow v false row (ws.headD ⟨0, 0, 0, 0⟩) [l.foldl (fun m y => f m y.v) x.v] (xs.any (·.p))

/-- A quotient of exact integers rounded once to F32. -/
def quoF32 (num : Int) (den : Nat) (exp : Int) : Num × Evc :=
  let r := convertFin .f32 (num < 0) num.natAbs den exp .rne 12 0 false
  ((Fmt.f32.decode r.1).1, r.2)

/-- The coarse scale that the norms apply, as a mantissa and an exponent (R189). -/
def FSpec.normScale (f : FSpec) : Nat × Int :=
  match f.coarseFactor with
  | .fin _ m e => (m, e)
  | _ => (1, 0)

/-- The row statistics of a norm (R190): the mean (0 for RMSNORM), r, and the tag of the row. -/
def VeAcc.normStats (a : VeAcc) (v : VeD) (g : Int) (s : Sums) : VeAcc × Num × Num :=
  let (m, e) := (v.a.spec false).normScale
  if s.c = 0 || s.t1.add s.t2 ≠ .fin then (a, .zero, .zero)
  else
    let (mu, e1) := if v.op = 0x18 then quoF32 (m * s.s1) s.c (e + g - 23) else (.zero, {})
    let (va, e2) := if v.op = 0x18 then quoF32 (m * m * (s.c * s.s2 - s.s1 * s.s1)) (s.c * s.c) (2 * e + 2 * g - 46)
      else quoF32 (m * m * s.s2) s.c (2 * e + 2 * g - 46)
    let (sum, e3) := r32 (va.add v.paramNum)
    let (a, r) := (((a.useParam.addEv e1).addEv e2).addEv e3).special 0x04 sum
    (a, mu, r)

/-- One row of LNORM or RMSNORM (R190). The first sweep counts the flushes of unscaled elements; the second, which reads a
scaled A into F32, counts the events of R44: DEDUCED (log 144). -/
def VeAcc.norm (a : VeAcc) (v : VeD) (row : Nat) (ws : List Vec) : VeAcc :=
  let (a, es) := a.rowElems v ws
  let g := a.x.rowAnchor v row ws
  let s := rowSums g es
  let a := a.addEv s.ev
  let p := es.any (·.p) || a.x.anchorPoison v row
  let bad := s.t1.add s.t2 ≠ .fin
  let (a, mu, r) := a.normStats v g s
  let rows := ws.map (fun w => (w, a.x.loadVec v.a (v.a.spec false) w))
  let a := if v.a.scaled then a.read (rows.flatMap (·.2)) else a
  rows.foldl (fun a q =>
    let w := q.1
    let cs := a.x.cVec v w
    let a := a.read cs
    let (a, bs) := if v.op = 0x18 then a.load v.b w else (a, (List.range w.n).map (fun _ => inZero))
    let out := (q.2.zip (cs.zip bs)).map (fun t =>
      let x := t.1
      let c := t.2.1
      let b := t.2.2
      let ps := p || c.p || b.p
      if bad then (Num.nan, ps, ({} : Evc))
      else if s.c = 0 then (b.v, ps, {})
      else if v.op = 0x18 then
        let (d, e1) := r32 (x.v.sub mu)
        let (m, e2) := r32 (d.mul r)
        let (y, e3) := r32 ((m.mul c.v).add b.v)
        (y, ps, (e1.add e2).add e3)
      else
        let (m, e1) := r32 (x.v.mul r)
        let (y, e2) := r32 (m.mul c.v)
        (y, ps, e1.add e2))
    let a := a.addEv (out.foldl (fun e o => e.add o.2.2) {})
    a.store v (v.d.spec true) false w (out.map (fun o => (o.1, o.2.1)))) a

/-- TOPK order (R195): NaN above +inf, then R57; positions break ties by coming first. -/
def topGt (a b : Num) : Bool := if a.isNan then !b.isNan else if b.isNan then false else b.lt a

/-- Insert into a descending list of at most `k`, after equal values. -/
def topInsert (k : Nat) (x : Num × Nat) : List (Num × Nat) → List (Num × Nat)
  | [] => [x]
  | y :: l => (if topGt x.1 y.1 then x :: y :: l else y :: topInsert k x l).take k

/-- One row of TOPK or ARGMAX (R195). -/
def VeAcc.topk (a : VeAcc) (v : VeD) (row : Nat) (ws : List Vec) : VeAcc :=
  let k := v.perRow
  let w := ws.headD ⟨0, 0, 0, 0⟩
  let (a, xs) := a.rowVals v ws
  let pos := ws.flatMap (fun w => (List.range w.n).map (fun p => p + v.e0 * v.outer w))
  let top := ((xs.map (·.v)).zip pos).foldl (fun l x => topInsert k x l) []
  let pad := k - top.length
  let a := if pad ≠ 0 then a.useParam else a
  let p := xs.any (·.p)
  let a := a.storeRow v false row w (top.map (·.1) ++ List.replicate pad v.paramNum) p
  let idx := top.map (·.2) ++ List.replicate pad 0xFFFFFFFF
  { a with x := a.x.putP (v.d.aux + 4 * row * k) ((idx.flatMap (toLe 4)).map (fun b => (b, p))) }

/-- ⌊w × 2³²⌋ of a weight. -/
def weightInt (w : Num) : Nat :=
  match w with
  | .fin false m e => let (a, b) := pow2 (e + 32); m * a / b
  | _ => 0

/-- The first place whose running total exceeds T. -/
def pick (t : Nat) : Nat → Nat → List Nat → Option Nat
  | _, _, [] => none
  | i, run, q :: l => if run + q > t then some i else pick t (i + 1) (run + q) l

/-- Equal numerically, −0 and +0 alike (R196). -/
def sameNum (x y : Num) : Bool := (x.isZero && y.isZero) || (!x.lt y && !y.lt x && !x.isNan && !y.isNan)

/-- One row of SAMPLE (R196). -/
def VeAcc.sample (a : VeAcc) (v : VeD) (row : Nat) (ws : List Vec) : VeAcc :=
  let (a, xs) := a.rowVals v ws
  let ids := ws.flatMap (fun w => a.x.words (v.b.at 0 w) w.n)
  let p := xs.any (·.p) || ids.any (·.2)
  let z : Num := match xs with
    | [] => .inf true
    | x :: l => l.foldl (fun (m : Num) (y : In) => m.max y.v) x.v
  let put := fun (a : VeAcc) (i : Nat) =>
    ({ a with x := a.x.putP (v.d.aux + 4 * row) ((toLe 4 i).map (fun b => (b, p))) } : VeAcc).note 10 p
  let (u, g) := a.g.draw (row % 128)
  let a := { a with g := g }
  if z.isNan then put { a.note 9 true with noNan := a.noNan + 1 } 0xFFFFFFFF
  else if z = .inf true then put { a.note 11 true with noInf := a.noInf + 1 } 0xFFFFFFFF
  else
    let (a, qs) := if z.isInf then (a, xs.map (fun x => if x.v = .inf false then 2 ^ 32 else 0))
      else xs.foldl (fun (r : VeAcc × List Nat) x =>
        let (d, e1) := r32 (x.v.sub z)
        let (sv, e2) := r32 (d.mul v.paramNum)
        let (a, wv) := ((r.1.addEv e1).addEv e2).special 0x01 sv
        (a, r.2 ++ [weightInt wv])) (a, [])
    let i := if v.opt then (xs.findIdx? (fun x => sameNum x.v z)).getD 0
      else (pick (u * qs.foldl (· + ·) 0 / 2 ^ 64) 0 0 qs).getD 0
    put a ((ids.getD i (0xFFFFFFFF, false)).1)

/-- Run a VE operation over the vectors of its walk. -/
def State.veVectors (s : State) (t : Nat) (r : Run) (f : VeAcc → VeD → Vec → VeAcc) : State :=
  let v := VeD.of r.desc.raw
  let a := v.walk.foldl (fun a w => f a v w) (s.veStart t r.desc)
  (s.veFinish t v v.walk.length a).engDone t .ve

/-- Run a VE operation over the rows of its walk. -/
def State.veRows (s : State) (t : Nat) (r : Run) (f : VeAcc → VeD → Nat → List Vec → VeAcc) : State :=
  let v := VeD.of r.desc.raw
  let a := (v.rows v.red).foldl (fun a p => f a v p.1 p.2) (s.veStart t r.desc)
  (s.veFinish t v v.walk.length a).engDone t .ve

/-- The running VE descriptor has an operation. -/
def isVe (op : Nat) (d : Desc) : Bool := d.engine = 1 && d.op = op

def execVeCvt (t : TileId) (s : State) : Host.Outcome State Fault Refusal :=
  .next (s.engStep t .ve (isVe 0x01) (fun s r => s.veVectors t r (fun a v w => a.map1 v id w)))
def execVeAdd (t : TileId) (s : State) : Host.Outcome State Fault Refusal :=
  .next (s.engStep t .ve (isVe 0x02) (fun s r => s.veVectors t r (fun a v w => a.map2 v Num.add w)))
def execVeSub (t : TileId) (s : State) : Host.Outcome State Fault Refusal :=
  .next (s.engStep t .ve (isVe 0x03) (fun s r => s.veVectors t r (fun a v w => a.map2 v Num.sub w)))
def execVeMul (t : TileId) (s : State) : Host.Outcome State Fault Refusal :=
  .next (s.engStep t .ve (isVe 0x04) (fun s r => s.veVectors t r (fun a v w => a.map2 v Num.mul w)))
def execVeMuladd (t : TileId) (s : State) : Host.Outcome State Fault Refusal :=
  .next (s.engStep t .ve (isVe 0x05) (fun s r => s.veVectors t r (fun a v w => a.mulAdd v w)))
def execVeMax (t : TileId) (s : State) : Host.Outcome State Fault Refusal :=
  .next (s.engStep t .ve (isVe 0x06) (fun s r => s.veVectors t r (fun a v w => a.map2 v Num.max w)))
def execVeMin (t : TileId) (s : State) : Host.Outcome State Fault Refusal :=
  .next (s.engStep t .ve (isVe 0x07) (fun s r => s.veVectors t r (fun a v w => a.map2 v Num.min w)))
def execVeMuls (t : TileId) (s : State) : Host.Outcome State Fault Refusal :=
  .next (s.engStep t .ve (isVe 0x08) (fun s r => s.veVectors t r (fun a v w => a.useParam.map1 v (fun x => x.mul v.paramNum) w)))
def execVeRsum (t : TileId) (s : State) : Host.Outcome State Fault Refusal :=
  .next (s.engStep t .ve (isVe 0x10) (fun s r => s.veRows t r (fun a v n ws => a.rsum v n ws)))
def execVeRmax (t : TileId) (s : State) : Host.Outcome State Fault Refusal :=
  .next (s.engStep t .ve (isVe 0x11) (fun s r => s.veRows t r (fun a v n ws => a.rext v Num.max n ws)))
def execVeRmin (t : TileId) (s : State) : Host.Outcome State Fault Refusal :=
  .next (s.engStep t .ve (isVe 0x12) (fun s r => s.veRows t r (fun a v n ws => a.rext v Num.min n ws)))
def execVeLnorm (t : TileId) (s : State) : Host.Outcome State Fault Refusal :=
  .next (s.engStep t .ve (isVe 0x18) (fun s r => s.veRows t r (fun a v n ws => a.norm v n ws)))
def execVeRmsnorm (t : TileId) (s : State) : Host.Outcome State Fault Refusal :=
  .next (s.engStep t .ve (isVe 0x19) (fun s r => s.veRows t r (fun a v n ws => a.norm v n ws)))
def execVeRope (t : TileId) (s : State) : Host.Outcome State Fault Refusal :=
  .next (s.engStep t .ve (isVe 0x20) (fun s r => s.veVectors t r (fun a v w => a.rope v w)))
def execVeGather (t : TileId) (s : State) : Host.Outcome State Fault Refusal :=
  .next (s.engStep t .ve (isVe 0x28) (fun s r => s.veVectors t r (fun a v w => a.gather v w)))
def execVePermute (t : TileId) (s : State) : Host.Outcome State Fault Refusal :=
  .next (s.engStep t .ve (isVe 0x29) (fun s r => s.veVectors t r (fun a v w => a.permute v w)))
def execVeTopk (t : TileId) (s : State) : Host.Outcome State Fault Refusal :=
  .next (s.engStep t .ve (isVe 0x30) (fun s r => s.veRows t r (fun a v n ws => a.topk v n ws)))
def execVeArgmax (t : TileId) (s : State) : Host.Outcome State Fault Refusal :=
  .next (s.engStep t .ve (isVe 0x31) (fun s r => s.veRows t r (fun a v n ws => a.topk v n ws)))
def execVeSample (t : TileId) (s : State) : Host.Outcome State Fault Refusal :=
  .next (s.engStep t .ve (isVe 0x32) (fun s r => s.veRows t r (fun a v n ws => a.sample v n ws)))
def execVeSeamAdd (t : TileId) (s : State) : Host.Outcome State Fault Refusal :=
  .next (s.engStep t .ve (isVe 0x39) (fun s r => s.veVectors t r (fun a v w => a.seamAdd v w)))
def execVeSeamCvt (t : TileId) (s : State) : Host.Outcome State Fault Refusal :=
  .next (s.engStep t .ve (isVe 0x3A) (fun s r => s.veVectors t r (fun a v w => a.seamCvt v w)))

/-- The bits of the rows below `n`. -/
def rowMask (n : Nat) : W64 := BitVec.ofNat 64 (2 ^ n - 1)

/-- ACC_READ: bank rows are read, converted and stored, and with RELEASE the drain tokens of the rows below E1
return (R186 to R188). -/
def execVeAccRead (t : TileId) (s : State) : Host.Outcome State Fault Refusal :=
  .next (s.engStep t .ve (isVe 0x38) (fun s r =>
    let v := VeD.of r.desc.raw
    let valid := v.walk.filter (fun w => ((s.tile t).bank v.bank).rowValid.getLsbD w.l1)
    let a := v.walk.foldl (fun a w => a.accRead v w) (s.veStart t r.desc)
    let s := s.veFinish t v valid.length a
    let s := if v.release then s.onTile t (fun x =>
        let b := x.bank v.bank
        x.setBank v.bank { b with held := b.held &&& ~~~(rowMask v.e1) })
      else s
    s.engDone t .ve))

end Sys2Proof.Machine
end

