-- ==== Sys2Proof/Machine/Sfu.lean ====
section
/-! DEFINITION. SFU descriptors, pattern images and the pattern checker (spec/07, R215 to R227). -/

namespace Sys2Proof.Machine

/-- A field of a step that must be 0 where its step does not use it: D, A, B, C and parts of IMM (R220). -/
def stepOk (w consts tables left : Nat) : Bool :=
  let op := w / 2 ^ 26 % 64
  let d := w / 2 ^ 23 % 8
  let a := w / 2 ^ 20 % 8
  let b := w / 2 ^ 17 % 8
  let c := w / 2 ^ 14 % 8
  let imm := w % 2 ^ 14
  let k := imm % 32 < consts
  let off := imm / 256
  let br := 0 < off && off < left
  match op with
  | 0x01 | 0x02 => imm = 0
  | 0x03 | 0x04 => c = 0 && imm < 32 && k
  | 0x05 => b = 0 && c = 0 && imm < 32 && k
  | 0x06 => a = 0 && b = 0 && c = 0 && imm < 32 && k
  | 0x07 | 0x09 => c = 0 && imm = 0
  | 0x08 => c = 0 && imm < 2
  | 0x0A => b = 0 && c = 0 && imm < 256
  | 0x10 | 0x11 | 0x12 | 0x13 | 0x14 => a = 0 && b = 0 && c = 0 && imm = 0
  | 0x18 => b = 0 && c = 0 && imm % 16 < tables && imm / 16 % 16 < tables && br
  | 0x19 => d = 0 && b = 0 && c = 0 && imm % 256 < 32 && k && br
  | 0x1A => d = 0 && b = 0 && c = 0 && imm % 256 < 32 && br
  | 0x1B => d = 0 && a = 0 && b = 0 && c = 0 && imm % 256 = 0 && br
  | 0x20 => d = 0 && b = 0 && c = 0 && imm = 0
  | _ => false

/-- A table record (Table 7.7), `none` where a field is malformed. -/
def PRec.parse (v : Nat) : Option PRec :=
  let kind := v % 4
  let map := v / 4 % 4
  let b := toSigned 8 (v / 2 ^ 8)
  let pos := v / 2 ^ 16 % 4
  let neg := v / 2 ^ 18 % 4
  let lo := toSigned 16 (v / 2 ^ 32)
  let hi := toSigned 16 (v / 2 ^ 48)
  if kind > 1 ∨ map = 3 ∨ v / 16 % 16 ≠ 0 ∨ pos = 3 ∨ neg = 3 ∨ v / 2 ^ 20 % 2 ^ 12 ≠ 0 ∨ (kind = 1 ∧ b ≠ 0) ∨
      b < -126 ∨ (map = 1 ∧ hi < lo) then none
  else some { kind := kind, map := map, binade := b, monoPos := pos, monoNeg := neg, fracLo := lo, fracHi := hi }

/-- A pattern image read by R218; `none` where R220 refuses it. -/
def Pattern.parse (img : List Byte) : Option Pattern :=
  let rd := fun (o n : Nat) => leVal ((img.drop o).take n)
  let steps := rd 8 2
  let consts := rd 10 1
  let tables := rd 11 1
  let o1 := 64 + 8 * tables
  let o2 := o1 + 4 * steps
  let o3 := o2 + 8 * consts
  let flags := rd 12 4
  if rd 0 4 ≠ 0x53464E50 ∨ rd 4 2 ≠ 1 ∨ rd 6 2 ≠ 0 ∨ steps < 1 ∨ steps > 256 ∨ consts > 32 ∨ tables > 16 ∨
      flags / 32 ≠ 0 ∨ rd 32 32 ≠ 0 ∨ img.length ≠ o3 + 4096 * tables then none
  else
    let ws := (List.range steps).map (fun i => rd (o1 + 4 * i) 4)
    match (List.range tables).mapM (fun i => PRec.parse (rd (64 + 8 * i) 8)) with
    | none => none
    | some recs =>
      if ws.zipIdx.all (fun p => stepOk p.1 consts tables (steps - p.2)) && ws.getLastD 0 / 2 ^ 26 % 64 = 0x20 then
        some { fixed := flags % 16, negDomain := tb flags 4, fix := (List.range 4).map (fun i => rd (16 + 4 * i) 4),
               records := recs, steps := ws, consts := (List.range consts).map (fun i => rd (o2 + 8 * i) 8 % 2 ^ 40),
               tables := (List.range tables).map (fun i => rd (o3 + 4096 * i) 4096) }
      else none

/-- The longest path from each step on, in basic steps (R217): the list for step i starts with its own. -/
def pathLens : List Nat → List Nat
  | [] => []
  | w :: l =>
    let r := pathLens l
    let op := w / 2 ^ 26 % 64
    let far := r.getD (w % 2 ^ 14 / 256 - 1) 0
    let next := r.headD 0
    (if op = 0x20 then 1 else if op = 0x1B then 1 + far
      else if op = 0x18 ∨ op = 0x19 ∨ op = 0x1A then 1 + max next far else 1 + next) :: r

def Pattern.pathMax (p : Pattern) : Nat := (pathLens p.steps).headD 0

/-- The order number of a non-negative F32 value among the zeros, normals and infinity. -/
def ordOf (code : Nat) : Int := if code < 0x800000 then 0 else (code : Int) - 0x7FFFFF

/-- The F32 value of an order number. -/
def ofOrd (o : Int) : Num := (Fmt.f32.decode (if o < 0 then 2 ^ 31 + (0x7FFFFF + (-o).toNat) else
  if o = 0 then 0 else 0x7FFFFF + o.toNat)).1

/-- The order number of infinity. -/
def ordInf : Int := ordOf 0x7F800000

/-- The smallest F32 input at or above a located seam. -/
def seamOrd (v : Rat') : Int :=
  let r := (convertFin .f32 false v.num.natAbs v.den 0 .trunc 12 0 false).1
  let o := ordOf r
  if v.num ≤ 0 then -o
  else
    let x := ((Fmt.f32.decode r).1)
    match x with
    | .fin _ m e => let (a, b) := pow2 e; if m * a * v.den = v.num.toNat * b then o else o + 1
    | _ => o

/-- The results around a seam follow a direction (R214, R222). -/
def Pattern.follows (p : Pattern) (dir : Nat) (o : Int) : Bool :=
  let ins := ((List.range 16).map (fun (i : Nat) => o - 8 + (i : Int))).filter (fun k => -ordInf ≤ k && k ≤ ordInf)
  let ys := ins.map (fun k => (p.eval (ofOrd k)).v)
  let le := fun (x y : Num) => x.lt y || sameNum x y
  (ys.zip ys.tail).all (fun q => if dir = 1 then le q.1 q.2 else le q.2 q.1)

/-- The located seams of a table record with their segments and directions (R222 orders 1 and 2). -/
def PRec.seams (r : PRec) : List (Nat × Rat' × Nat) :=
  let at' := fun (j : Nat) => if r.kind = 0 then Rat'.dyadic ((256 + j : Nat) : Int) (r.binade - 8) else Rat'.dyadic (j : Int) (-8)
  (List.range 257).flatMap (fun j =>
    let v := at' j
    match r.map with
    | 0 => (if r.monoPos ≠ 0 then [(j, v, r.monoPos)] else []) ++
        (if r.monoNeg ≠ 0 then [(j, { v with num := -v.num }, r.monoNeg)] else [])
    | 1 => (List.range (r.fracHi - r.fracLo + 1).toNat).filterMap (fun (i : Nat) =>
        let w : Rat' := { v with num := v.num + (r.fracLo + (i : Int)) * (v.den : Int) }
        let d := if w.num < 0 then r.monoNeg else r.monoPos
        if d = 0 then none else some (j, w, d))
    | _ => [])

/-- The check report of a pattern that passed R220 (R222, R223, Table 7.9); as part of a reply its fields are in network
order. -/
def Pattern.report (p : Pattern) (img : List Byte) : List Byte × Bool :=
  let res := p.records.zipIdx.flatMap (fun r => r.1.seams.map (fun q =>
    let o := seamOrd q.2.1
    (r.2, q.1, o, p.follows q.2.2 o)))
  let failed := res.filter (fun q => !q.2.2.2)
  let unmapped := p.records.any (fun r => r.map = 2 && (r.monoPos ≠ 0 || r.monoNeg ≠ 0))
  let pass := !res.isEmpty && failed.isEmpty
  let n := p.pathMax
  let (ft, fs, fi) := match failed with
    | [] => (0xFF, 0, 0)
    | q :: _ => (q.1, min 255 q.2.1, (ofOrd (q.2.2.1 - 1)).toCode .f32)
  (beBytes 1 (bit pass 0 + bit unmapped 1) ++ beBytes 1 ((n + 23) / 24) ++ beBytes 2 (min 0xFFFF res.length) ++
    beBytes 2 (min 0xFFFF failed.length) ++ beBytes 1 ft ++ beBytes 1 fs ++ beBytes 4 fi ++ beBytes 2 n ++ beBytes 2 0 ++
    sha256 img, pass)

/-- One vector of an SFU descriptor (R207, R215): each element, after PARAM where OPT is 1, through `f`. -/
def VeAcc.sfuVec (a : VeAcc) (v : VeD) (f : Num → SfuRes) (w : Vec) : VeAcc :=
  let (a, xs) := a.load v.a w
  let rs := xs.map (fun x => (f (if v.opt then (r32 (x.v.mul v.paramNum)).1 else x.v), x.p))
  let cnt := fun (m : SMap Nat) (k n : Nat) => m.modify 0 (v.op * 4 + k) (· + n)
  let m := cnt (cnt (cnt a.sfu 0 rs.length) 1 (rs.countP (·.1.flush))) 2 (rs.countP (·.1.domain))
  VeAcc.store { a with sfu := m } v (v.d.spec true) false w (rs.map (fun r => (r.1.v, r.2)))

/-- An SFU descriptor runs (R215, Table 7.10): `unchecked` where it runs a pattern without MONO_PASS (R224). DEDUCED (log
143): of the events of R33 and R44 that elements read or PARAM give, Table 18.1 has no SFU counter, so they are counted nowhere;
READ_OVF is shown in SFU_STAT. -/
def State.sfuRun (s : State) (t : Nat) (r : Run) (f : Num → SfuRes) (unchecked : Bool) : State :=
  let v := VeD.of r.desc.raw
  let a := (v.walk.foldl (fun a w => a.sfuVec v f w) (s.veStart t r.desc)).putHem v
  let s := (s.setTile t a.x).sfuCounts t a.sfu
  let s := s.fmtEvents .sfu t 4 a.dev
  let m := bit (a.dev.sat ≠ 0) 2 + bit (tb a.stat 3) 3 + bit (a.ev.readOvf ≠ 0) 4 + bit (tb a.stat 10) 5 + bit unchecked 6
  let s := if m = 0 then s else s.orStat .sfu t m
  (s.raiseMany .opa t 16 a.parity).engDone t .ve

def isSfu (op : Nat) (d : Desc) : Bool := d.engine = 2 && d.op = op

/-- Run a built-in function's descriptor. -/
def State.sfuFn (s : State) (t op : Nat) : State :=
  s.engStep t .ve (isSfu op) (fun s r => s.sfuRun t r (sfuBuiltin op) false)

def execSfuExp2 (t : TileId) (s : State) : Host.Outcome State Fault Refusal := .next (s.sfuFn t 0x01)
def execSfuLog2 (t : TileId) (s : State) : Host.Outcome State Fault Refusal := .next (s.sfuFn t 0x02)
def execSfuReciprocal (t : TileId) (s : State) : Host.Outcome State Fault Refusal := .next (s.sfuFn t 0x03)
def execSfuRsqrt (t : TileId) (s : State) : Host.Outcome State Fault Refusal := .next (s.sfuFn t 0x04)
def execSfuSqrt (t : TileId) (s : State) : Host.Outcome State Fault Refusal := .next (s.sfuFn t 0x05)
def execSfuTanh (t : TileId) (s : State) : Host.Outcome State Fault Refusal := .next (s.sfuFn t 0x06)
def execSfuSigmoid (t : TileId) (s : State) : Host.Outcome State Fault Refusal := .next (s.sfuFn t 0x07)
def execSfuErf (t : TileId) (s : State) : Host.Outcome State Fault Refusal := .next (s.sfuFn t 0x08)
def execSfuGelu (t : TileId) (s : State) : Host.Outcome State Fault Refusal := .next (s.sfuFn t 0x09)
def execSfuSilu (t : TileId) (s : State) : Host.Outcome State Fault Refusal := .next (s.sfuFn t 0x0A)
def execSfuSin (t : TileId) (s : State) : Host.Outcome State Fault Refusal := .next (s.sfuFn t 0x0B)
def execSfuCos (t : TileId) (s : State) : Host.Outcome State Fault Refusal := .next (s.sfuFn t 0x0C)

/-- A descriptor that names a pattern slot runs the slot's pattern (R219, R224). -/
def execSfuPattern (t : TileId) (s : State) : Host.Outcome State Fault Refusal :=
  .next (s.engStep t .ve (fun d => d.engine = 2 && 0x40 ≤ d.op && d.op ≤ 0x7F) (fun s r =>
    match (s.tile t).patterns.get none (r.desc.op - 0x40) with
    | none => s
    | some p =>
      match Pattern.parse p.image with
      | none => s
      | some q => s.sfuRun t r q.eval (!p.monotone)))

end Sys2Proof.Machine
end

