-- ==== Sys2Proof/Machine/PageWalk.lean ====
section
/-! DEFINITION. The page walker (spec/09): page tables, resolution, the look-aside buffer, appends. -/

namespace Sys2Proof.Machine

/-- The result codes of Table 9.3 are numbers: 0 OK, 1 NOT_MAPPED, 2 BAD_ENTRY, 3 FENCE, 4 FOREIGN, 5 POISONED,
6 ENTRY_UNCORR, 7 CLASS, 8 PRECISION, 9 ORDER, 10 LIMIT, 11 SRC_POISON. This is the page format of a code (R256). -/
def pageFmt (c : Nat) : Option Fmt :=
  match Fmt.ofCode c with
  | some .bf16 => some .bf16
  | some .f8m => some .f8m
  | some .f8e => some .f8e
  | some .f4 => some .f4
  | some .int8 => some .int8
  | some .int4 => some .int4
  | _ => none

/-- Table 9.1: the V payload, the K scales, the V scales and the page size. -/
def pageLayout (f : Fmt) : Nat × Nat × Nat × Nat :=
  match f.bits with
  | 16 => (16384, 0, 0, 32768)
  | 8 => (8192, 16384, 16640, 16896)
  | _ => (4096, 8192, 8448, 8704)

/-- An entry read from its 16 bytes (Table 9.2). -/
def PtEntry.of (v : Nat) : PtEntry :=
  { addr := fld v 0 0 64, fmt := fld v 8 0 4, count := fld v 8 4 7, valid := tb (v / 2 ^ 64) 11, poison := tb (v / 2 ^ 64) 12,
    dir := tb (v / 2 ^ 64) 13, rsvd := fld v 8 14 18 ≠ 0 || fld v 15 0 8 ≠ 0, tag := fld v 12 0 24 }

/-- The 16 bytes of an entry whose reserved fields are 0. -/
def PtEntry.bytes (e : PtEntry) : List Byte :=
  toLe 8 e.addr ++ toLe 4 (e.fmt + e.count * 16 + bit e.valid 11 + bit e.poison 12 + bit e.dir 13) ++ toLe 4 e.tag

/-- A range lies wholly in a function's slab on pages not RETIRED (R261); window flags are not asked. -/
def State.inSlab (s : State) (f t a n : Nat) : Bool :=
  match s.slabCheck f (some t) a n false false with
  | .ok _ | .flag _ => true
  | _ => false

/-- The walker may read or write a range (R261): in the slab and allowed to the device side. -/
def State.walkOk (s : State) (f t a n : Nat) (write : Bool) : Bool := (s.slabCheck f (some t) a n write false).isOk

/-- check of R261; `bad` says that the read failed correction or was poisoned. -/
def State.checkEntry (s : State) (f t tag : Nat) (dir bad : Bool) (x : PtEntry) : Nat :=
  if bad then 6
  else if !x.valid then 1
  else if x.dir ≠ dir || x.rsvd || (!dir && ((pageFmt x.fmt).isNone || x.count > 64 || x.addr % 512 ≠ 0)) ||
      (dir && x.addr % 64 ≠ 0) then 2
  else if x.tag ≠ tag then 3
  else if !s.inSlab f t x.addr (if dir then 16384 else ((pageFmt x.fmt).map (fun g => (pageLayout g).2.2.2)).getD 0) then 4
  else if x.poison then 5
  else 0

/-- Read bytes of the slab for the walker: the state, their value, and poison or a failed correction. -/
def State.walkRead (s : State) (f t a n : Nat) : State × Nat × Bool :=
  let (s, bs, p, u) := s.readPieces ((s.pieces f (some t) (n / 65536 + 2) a n).getD [])
  (s, leVal bs, p || u)

/-- A look-aside buffer entry answers a look-up: function, tag, page and root all match (R265). -/
def Plb.hits (p : Plb) (f tag page root : Nat) : Bool := p.fn = f && p.tag = tag && p.page = page && p.root = root

/-- Put an entry into the look-aside buffer as the most recently used of 128 (R265, R266). -/
def Tile.fillPlb (x : Tile) (e : Plb) : Tile :=
  let l := x.plb.filter (fun p => !p.hits e.fn e.tag e.page e.root) ++ [e]
  { x with plb := l.drop (l.length - 128) }

/-- Walk the directory and the leaf table (R261, R266): the state with the four entries of the codeword that pass
filled in, the result code, the refused or resolved entry and the leaf entry's address. -/
def State.walkTable (s : State) (f t tag root n : Nat) : State × Nat × Option (PtEntry × Nat) :=
  if root % 64 ≠ 0 then (s, 2, none)
  else if !s.inSlab f t root 1024 || !s.walkOk f t (root + 16 * (n / 1024)) 16 false then (s, 4, none)
  else
    let (s, v, bad) := s.walkRead f t (root + 16 * (n / 1024)) 16
    let d := PtEntry.of v
    let c := s.checkEntry f t tag true bad d
    if c ≠ 0 then (s, c, some (d, 0))
    else
      let cw := d.addr + 64 * (n % 1024 / 4)
      if !s.walkOk f t cw 64 false then (s, 4, some (d, 0))
      else
        let (s, v, bad) := s.walkRead f t cw 64
        let es := (List.range 4).map (fun i => PtEntry.of (v / 2 ^ (128 * i) % 2 ^ 128))
        let s := es.zipIdx.foldl (fun s p =>
          if s.checkEntry f t tag false bad p.1 = 0 then
            s.onTile t (fun x => x.fillPlb
              { fn := f, tag := tag, page := n / 4 * 4 + p.2, root := root, leaf := cw + 16 * p.2, entry := p.1 })
          else s) s
        let e := es.getD (n % 4) (PtEntry.of 0)
        (s, s.checkEntry f t tag false bad e, some (e, cw + 16 * (n % 4)))

/-- Significand bits of a page format (R275). -/
def pageBits : Fmt → Nat
  | .f4 => 2 | .int4 | .f8e => 3 | .f8m => 4 | .int8 => 7 | _ => 8

/-- The width-class code of Table 5.1. -/
def WClass.code : WClass → Nat
  | .wide => 0 | .c8 => 1 | .c4 => 2

/-- resolve of R261, before the use is checked. -/
def State.lookUp (s : State) (f t tag root tok : Nat) : State × Nat × Option (PtEntry × Nat) :=
  if tok ≥ 4194304 then (s, 10, none)
  else
    let n := tok / 64
    let s := s.countT .pw t 1 0 1
    match (s.tile t).plb.find? (fun p => p.hits f tag n root) with
    | none => (s.countT .pw t 3 0 1).walkTable f t tag root n
    | some p =>
      let hit := fun (s : State) => ((s.countT .pw t 2 0 1).onTile t (fun x => x.fillPlb p), 0, some (p.entry, p.leaf))
      let (s', c, e) := s.walkTable f t tag root n
      if c = 0 ∧ e = some (p.entry, p.leaf) then hit s
      else
        let (k, s) := s.fresh
        if Config.plbFresh k then ({ s' with freeCtr := s.freeCtr }, c, e) else hit s

/-- A READ resolution (R261): CLASS, PRECISION, and the page's bytes against the window flags. -/
def State.resolveRead (s : State) (f t tag root tok kvClass minK : Nat) : State × Nat × Option PtEntry :=
  match s.lookUp f t tag root tok with
  | (s, 0, some (e, _)) =>
    match pageFmt e.fmt with
    | none => (s, 2, some e)
    | some g =>
      let c := if g.wclass.code < kvClass then 7 else if pageBits g < minK then 8
        else if !s.walkOk f t e.addr (pageLayout g).2.2.2 false then 4 else 0
      (s, c, some e)
  | (s, c, e) => (s, c, e.map (·.1))

/-- The ranges that an append of a token writes (R270, R271). -/
def appendSpans (e : PtEntry) (leaf tok : Nat) : List (Nat × Nat) :=
  match pageFmt e.fmt with
  | none => []
  | some g =>
    let (v, ks, vs, _) := pageLayout g
    let rb := 16 * g.bits
    let pos := tok % 64
    [(leaf, 16), (e.addr + pos * rb, rb), (e.addr + v + pos * rb, rb)] ++
      (if g.scaled then [(e.addr + ks + 4 * pos, 4), (e.addr + vs + 4 * pos, 4)] else [])

/-- An APPEND resolution (R261): ORDER, and every byte the row would write. -/
def State.resolveAppend (s : State) (f t tag root tok : Nat) : State × Nat × Option (PtEntry × Nat) :=
  match s.lookUp f t tag root tok with
  | (s, 0, some (e, leaf)) =>
    let c := if tok % 64 ≠ e.count then 9
      else if !(appendSpans e leaf tok).all (fun p => s.walkOk f t p.1 p.2 true) then 4 else 0
    (s, c, some (e, leaf))
  | r => r

/-- The status bit of a result code (Table 9.8). -/
def pwStatBit : Nat → Option Nat
  | 1 => some 2 | 2 => some 3 | 5 => some 4 | 7 => some 5 | 8 => some 6 | 9 => some 7 | 10 => some 8 | 11 => some 9
  | _ => none

/-- The error bit of a result code (Table 9.9). -/
def pwErrBit : Nat → Option Nat
  | 3 => some 2 | 4 => some 3 | 6 => some 4 | _ => none

/-- Report a resolution (R263, Tables 9.3, 12.4, 18.1): its count, and for a refusal its status bit or its error
in row or slot scope with its event record and the ROW_FAULT event. -/
def State.pwReport (s : State) (t code row tag etag tok scope : Nat) : State :=
  let s := s.countT .pw t 4 code 1
  let s := match pwStatBit code with
    | some b => s.orStat .pw t (2 ^ b)
    | none => s
  match pwErrBit code, (s.tile t).owner with
  | some b, some f =>
    let s := s.raise .pw t (2 ^ b) { fn := some f, code := scope, row := row }
    let s := s.event .pw t 3 (some f) (row % 256 + tag * 2 ^ 8 + etag * 2 ^ 32 + tok % 2 ^ 24 * 2 ^ 56) false
    s.notify f 4 (beBytes 1 (s.vtOf f t) ++ beBytes 1 row ++ beBytes 1 code ++ beBytes 8 s.timeNs)
  | _, _ => s

/-- An APPEND descriptor's fields (Table 9.4). -/
structure AppD where
  valid : Nat
  recs : Nat
  k : Nat
  v : Nat
  pitch : Nat
  fmt : Nat
  status : Nat
  hd : Nat
  deriving DecidableEq, Repr

def AppD.of (r : Nat) : AppD :=
  { valid := fld r 8 0 64, recs := fld r 16 0 32, k := fld r 20 0 32, v := fld r 24 0 32, pitch := fld r 28 0 32,
    fmt := fld r 32 0 64, status := fld r 40 0 32, hd := fld r 44 0 8 }

def AppD.rows (d : AppD) : List Nat := (List.range 64).filter (fun r => d.valid.testBit r)

/-- The format of an append's source where it is one that Table 9.4 allows. -/
def AppD.src (d : AppD) : Option FSpec :=
  match FSpec.parse d.fmt false with
  | some f => if f.fmt.scaled || f.unitScale then none else some f
  | none => none

/-- The check of a page-walker descriptor (R279): the bits of PW_ERR_STAT. -/
def pwCheck (raw : Nat) : Nat :=
  let long := fld raw 0 4 1 = 1
  match fld raw 1 0 8 with
  | 1 =>
    let d := AppD.of raw
    let f := d.src
    let mal := long || f.isNone || d.hd < 1 || d.hd > 128 || fld raw 45 0 152 ≠ 0 ||
      [d.recs, d.k, d.v, d.pitch, d.status].any (fun a => a % 64 ≠ 0)
    let n := match f with
      | some f => f.fmt.bytes d.hd
      | none => 0
    let rng := !tmOk .gus true d.status 64 || d.rows.any (fun r => !tmOk .gus false (d.recs + 16 * r) 16 ||
      !tmOk .gus false (d.k + r * d.pitch) n || !tmOk .gus false (d.v + r * d.pitch) n)
    bit mal 0 + bit rng 1
  | 2 =>
    let sc := fld raw 8 0 2
    let lo := fld raw 16 0 32
    let hi := fld raw 20 0 32
    bit (long || sc = 3 || fld raw 8 2 30 ≠ 0 || fld raw 15 0 8 ≠ 0 || fld raw 24 0 320 ≠ 0 ||
      (sc = 2 && !(lo < 65536 && lo < hi && hi ≤ 65536))) 0
  | _ => 1

/-- One K or V row in a page's format (R271): payload codes of 128 elements, E8 bytes and events. -/
def pageRow (g : Fmt) (f : FSpec) (xs : List Num) (us : List Nat) : List Nat × List Nat × Evc :=
  if g.scaled then
    let bs : List (Nat × List Nat × Evc) := (chunks 32 (xs.zip us)).map (fun b => quantBlock g f.rnd f.rb .one (b.map (·.1)) (b.map (·.2)))
    let cs := bs.flatMap (·.2.1)
    let es : List Nat := bs.map Prod.fst
    (cs ++ List.replicate (128 - cs.length) 0, (es ++ List.replicate 4 0).take 4,
      bs.foldl (fun (e : Evc) b => e.add b.2.2) {})
  else
    let cs : List (Nat × Evc) := (xs.zip us).map (fun p => convert g p.1 f.rnd f.rb p.2 false)
    (cs.map (·.1) ++ List.replicate (128 - cs.length) 0, [], cs.foldl (fun e c => e.add c.2) {})

/-- Write bytes at a slab address of the function. -/
def State.walkWrite (s : State) (f t a : Nat) (bs : List Byte) : State :=
  s.writePieces ((s.pieces f (some t) (bs.length / 65536 + 2) a bs.length).getD []) bs false

/-- Events of an append (Tables 9.8, 18.1). -/
def State.pwEvents (s : State) (t : Nat) (e : Evc) : State :=
  let s := s.fmtEvents .pw t 6 e
  let m := bit (e.flush ≠ 0) 11 + bit (e.sat ≠ 0) 12 + bit (e.qNan + e.qInf ≠ 0) 13
  if m = 0 then s else s.orStat .pw t m

/-- Draw once for each of K's elements and then of V's, lane by lane (R272). -/
def appendDraws (g : Gens) (stoch : Bool) (hd : Nat) : List Nat × List Nat × Gens :=
  if stoch then
    let (us, g) := g.drawAll ((List.range hd).flatMap (fun e => [e, e]))
    ((List.range hd).map (fun e => us.getD (2 * e) 0), (List.range hd).map (fun e => us.getD (2 * e + 1) 0), g)
  else (List.replicate hd 0, List.replicate hd 0, g)

/-- Write the leaf entry that resolved a token, and this walker's own copy of it, or drop that copy (R267). A copy that another
look-up filled is left as it is. -/
def State.putLeaf (s : State) (f t tag page root leaf : Nat) (e : PtEntry) (dropIt : Bool) : State :=
  let s := s.walkWrite f t leaf e.bytes
  let upd := fun (l : List Plb) =>
    if dropIt then l.filter (fun p => !p.hits f tag page root)
    else l.map (fun p => if p.hits f tag page root then { p with entry := e } else p)
  s.onTile t (fun x => { x with plb := upd x.plb })

/-- Another tile of the function appends to the table with this root at the same time: the tokens that reach the pages they
share are not defined (R273). -/
def State.appendClash (s : State) (f t root : Nat) : Bool :=
  (s.tilesOf f).any (fun u => u ≠ t && (match (s.tile u).pw.run with
    | some r =>
      let d := AppD.of r.desc.raw
      r.desc.op = 1 && d.rows.any (fun i => (s.tile u).rd (d.recs + 16 * i + 8) 8 = root)
    | none => false))

/-- Write bytes of a token into its page: free values where a clash leaves them undefined. -/
def State.pageWrite (s : State) (f t a : Nat) (bs : List Byte) (clash : Bool) : State :=
  if clash then
    ({ s with freeCtr := s.freeCtr + bs.length }).walkWrite f t a
      ((List.range bs.length).map (fun i => Config.appendByte (s.freeCtr + i)))
  else s.walkWrite f t a bs

/-- The generators of an APPEND as row `r` finds them: every valid row before it has drawn (R272). -/
def AppD.gens (d : AppD) (sp : FSpec) (g : Gens) (r : Nat) : Gens :=
  (d.rows.filter (· < r)).foldl (fun g _ => (appendDraws g (sp.rnd = .stoch) d.hd).2.2) g

/-- One row of an APPEND (R270 to R272). -/
def State.appendRow (s : State) (t f : Nat) (d : AppD) (sp : FSpec) (g : Gens) (r : Nat) : State :=
  let x := s.tile t
  let rec0 := x.rd (d.recs + 16 * r) 16
  let tag := rec0 % 2 ^ 24
  let tok := rec0 / 2 ^ 32 % 2 ^ 32
  let root := rec0 / 2 ^ 64
  let (uk, uv, _) := appendDraws (d.gens sp g r) (sp.rnd = .stoch) d.hd
  let clash := s.appendClash f t root
  let n := sp.fmt.bytes d.hd
  let row : Nat → List (Num × Evc) := fun a => (List.range d.hd).map (fun e => readElem .f32 sp.fmt sp.entryRne none 0x7F (x.elem sp.fmt a e))
  let ka := d.k + r * d.pitch
  let va := d.v + r * d.pitch
  let (s, c, e) := s.resolveAppend f t tag root tok
  let etag := (e.map (·.1.tag)).getD 0
  let s := s.pwReport t c r tag etag tok 1
  let poison := x.poisoned ka n || x.poisoned va n
  let (s, c) := match c, e with
    | 0, some (e, leaf) =>
      match pageFmt e.fmt with
      | none => (s, 2)
      | some pf =>
        if poison then (s.putLeaf f t tag (tok / 64) root leaf { e with poison := true } true, 11)
        else
          let (vo, ks, vs, _) := pageLayout pf
          let pos := tok % 64
          let put := fun (s : State) (xs : List (Num × Evc)) (us : List Nat) (po so : Nat) =>
            let (cs, es, ev) := pageRow pf sp (xs.map Prod.fst) us
            let s := s.pageWrite f t (e.addr + po + pos * (16 * pf.bits))
              ((packCodes pf (cs.map (fun c => (c, false)))).map Prod.fst) clash
            let s := if es.isEmpty then s else s.pageWrite f t (e.addr + so + 4 * pos) (es.map (BitVec.ofNat 8)) clash
            s.pwEvents t (xs.foldl (fun (e : Evc) (x : Num × Evc) => e.add x.2) ev)
          let s := put s (row ka) uk 0 ks
          let s := put s (row va) uv vo vs
          (s.putLeaf f t tag (tok / 64) root leaf { e with count := e.count + 1 } false, 0)
    | c, _ => (s, if poison then 11 else c)
  let s := if c = 11 then s.pwReport t 11 r tag etag tok 1 else s
  s.onTile t (fun x => x.write (d.status + r) [BitVec.ofNat 8 c] false)

/-- Write 0xFF as the status bytes of rows. -/
def Tile.noStatus (x : Tile) (d : AppD) (rows : List Nat) : Tile :=
  rows.foldl (fun (x : Tile) i => x.write (d.status + i) [0xFF] false) x

/-- The rows of an APPEND that it has not handled, ascending. -/
def Run.appendRows (r : Run) : List Nat :=
  let rows := (AppD.of r.desc.raw).rows
  if r.begun then rows.filter (fun i => r.rows.getLsbD i) else rows

/-- An APPEND handles its next row (R270), between which a stop may cut it and a tack may hold it (R274). As it starts it
writes the status bytes of the rows that are not valid; with its last row it ends. -/
def execPwAppend (t : TileId) (s : State) : Host.Outcome State Fault Refusal :=
  .next (s.engStep t .pw (fun d => d.op = 1) (fun s r =>
    let d := AppD.of r.desc.raw
    let f := s.ownerOr0 t
    match d.src with
    | none => s
    | some sp =>
      let g : Gens := { seed := (s.fn f).seed, dseq := r.desc.dseq, tile := t }
      let s := if r.begun then s
        else s.onTile t (fun x => x.noStatus d ((List.range 64).filter (fun i => !d.rows.contains i)))
      let left := r.appendRows
      let s := match left.head? with
        | some i => s.appendRow t f d sp g i
        | none => s
      s.onTile t (fun x => { x with pw := { x.pw with run := some { r with
        begun := true, done := left.tail.isEmpty, rows := BitVec.ofNat 64 (left.tail.foldl (fun m i => m + 2 ^ i) 0) } } })))

/-- INVALIDATE drops the entries that its scope names (Table 9.6, R276). -/
def State.pwInvalidate (s : State) (t : Nat) : State :=
  s.engStep t .pw (fun d => d.op = 2) (fun s r =>
    let raw := r.desc.raw
    let f := s.ownerOr0 t
    let tag := fld raw 12 0 24
    let hits := fun (p : Plb) => p.fn = f && (match fld raw 8 0 2 with
      | 0 => true
      | 1 => p.tag = tag
      | _ => p.tag = tag && fld raw 16 0 32 ≤ p.page && p.page < fld raw 20 0 32)
    (s.onTile t (fun x => { x with plb := x.plb.filter (fun p => !hits p) })).engDone t .pw)

def execPwInvalidate (t : TileId) (s : State) : Host.Outcome State Fault Refusal := .next (s.pwInvalidate t)

end Sys2Proof.Machine
end

