-- ==== Sys2Proof/Machine/Gusset.lean ====
section
/-! DEFINITION. The Gusset (spec/08): ATTEND, REBASE, FINALISE and RECOMPUTE over paged keys and values. -/

namespace Sys2Proof.Machine

/-- A Gusset descriptor's fields (Table 8.4). -/
structure GusD where
  op : Nat
  slotTab : Nat
  stateAddr : Nat
  q : Operand
  kanch : Int
  vanch : Int
  hd : Nat
  nslotLog2 : Nat
  mode : Nat
  cont : Bool
  fin : Bool
  hemEn : Bool
  blk : Nat
  pfmt : Nat
  kvClass : Nat
  minK : Nat
  rowValid : Nat
  outAddr : Nat
  outPitch : Nat
  outFmt : Nat
  hemAddr : Nat
  mIn : Nat
  stage : Nat
  deriving DecidableEq, Repr

def GusD.of (r : Nat) : GusD :=
  { op := fld r 1 0 8, slotTab := fld r 8 0 32, stateAddr := fld r 12 0 32,
    q := { addr := fld r 32 0 32, pitch := fld r 36 0 32, fmt := fld r 16 0 64, anch := fld r 24 0 64,
           e8 := fld r 84 0 32, e8Pitch := (fld r 44 0 8 + 31) / 32 },
    kanch := toSigned 16 (fld r 40 0 16), vanch := toSigned 16 (fld r 42 0 16), hd := fld r 44 0 8,
    nslotLog2 := fld r 45 0 2, mode := fld r 45 2 2, cont := fld r 45 4 1 = 1, fin := fld r 45 5 1 = 1,
    hemEn := fld r 45 6 1 = 1, blk := fld r 46 0 2, pfmt := fld r 46 2 2, kvClass := fld r 46 4 2,
    minK := fld r 47 0 4, rowValid := fld r 48 0 64, outAddr := fld r 56 0 32, outPitch := fld r 60 0 32,
    outFmt := fld r 64 0 64, hemAddr := fld r 72 0 32, mIn := fld r 76 0 32, stage := fld r 80 0 32 }

def GusD.rows (d : GusD) : List Nat := (List.range 64).filter (fun r => d.rowValid.testBit r)
def GusD.nslot (d : GusD) : Nat := 2 ^ d.nslotLog2
/-- The slot of a row (R230). -/
def GusD.slotOf (d : GusD) (r : Nat) : Nat := r / 8 * d.nslot / 8
/-- Tokens of a block. -/
def GusD.bt (d : GusD) : Nat := 64 * 2 ^ d.blk
def GusD.pF (d : GusD) : Fmt := if d.pfmt = 0 then .f19 else if d.pfmt = 1 then .bf16 else .f8e
def classOf (c : Nat) : WClass := if c = 0 then .wide else if c = 1 then .c8 else .c4
/-- The queries' format where its specifier is well formed. -/
def GusD.qSpec (d : GusD) : Option FSpec := FSpec.parse d.q.fmt false
def GusD.qF (d : GusD) : FSpec :=
  d.qSpec.getD { fmt := .f32, rnd := .rne, entryRne := false, unitScale := false, rb := 12, coarse := 0 }
/-- The class of QK passes and of PV passes (R233). -/
def GusD.qkClass (d : GusD) : WClass := (classOf d.kvClass).wider d.qF.fmt.wclass
def GusD.pvClass (d : GusD) : WClass := (classOf d.kvClass).wider d.pF.wclass
def GusD.outSpec (d : GusD) : Option FSpec :=
  match FSpec.parse d.outFmt true with
  | some f => if f.fmt.scaled || f.rnd = .stoch then none else some f
  | none => none
def GusD.outF (d : GusD) : FSpec :=
  d.outSpec.getD { fmt := .f32, rnd := .rne, entryRne := false, unitScale := false, rb := 12, coarse := 0 }
def GusD.recAt (d : GusD) (r : Nat) : Nat := d.stateAddr + 2112 * r

/-- A slot table entry (Table 8.5). -/
structure Slot8 where
  tag : Nat
  valid : Bool
  lo : Nat
  hi : Nat
  root : Nat
  bad : Bool
  deriving DecidableEq, Repr

def Tile.slot8 (x : Tile) (d : GusD) (i : Nat) : Slot8 :=
  let v := x.rd (d.slotTab + 32 * i) 32
  { tag := fld v 0 0 24, valid := fld v 3 0 1 = 1, lo := fld v 4 0 32, hi := fld v 8 0 32, root := fld v 16 0 64,
    bad := fld v 3 1 7 ≠ 0 || fld v 12 0 32 ≠ 0 || fld v 24 0 64 ≠ 0 || fld v 8 0 32 > 4194304 }

/-- Bytes of the descriptor that an operation does not use are 0 (R247): the used byte ranges of each. -/
def gusUnused (raw : Nat) (used : List (Nat × Nat)) : Bool :=
  (List.range 120).any (fun i =>
    let b := i + 8
    !used.any (fun u => u.1 ≤ b && b < u.1 + u.2) && fld raw b 0 8 ≠ 0)

/-- The output format is malformed (Table 8.4). -/
def GusD.badOut (d : GusD) : Bool := d.outSpec.isNone || d.outPitch % 64 ≠ 0 || (d.hemEn && d.hemAddr % 2 ≠ 0)

/-- The fields of a sweep are malformed (Tables 8.4 and 8.8). -/
def GusD.badSweep (d : GusD) (raw : Nat) : Bool :=
  d.pfmt = 3 || d.kvClass = 3 || d.kanch < -160 || d.kanch > 160 || d.vanch < -160 || d.vanch > 160 ||
    d.qSpec.isNone || (AnchorSrc.parse d.q.anch d.qF.fmt).isNone || (!d.qF.hasE8 && d.q.e8 ≠ 0) ||
    fld raw 46 6 2 ≠ 0 || fld raw 47 4 4 ≠ 0 ||
    [d.slotTab, d.q.addr, d.q.pitch, d.stage].any (fun a => a % 64 ≠ 0)

/-- The check of the queries of the valid rows: a byte out of range, and a refused anchor (R254). -/
def Tile.queryCheck (x : Tile) (d : GusD) (f : FSpec) : Bool × Bool :=
  let data := d.rows.any (fun r => (d.q.ranges f d.hd r).any (fun p => !tmOk .gus false p.1 p.2))
  match AnchorSrc.parse d.q.anch f.fmt with
  | none => (data, false)
  | some a =>
    let found := d.rows.map (fun r => x.anchorCheck .gus a d.q (some f) d.hd r)
    (data || found.any (·.1), found.any (fun c => c.2 ≠ 0))

/-- The anchors of the queries of the valid rows, resolved as a descriptor that sweeps starts (R254). -/
def Tile.queryAnchors (x : Tile) (raw : Nat) : SMap Int :=
  let d := GusD.of raw
  if d.op = 1 ∨ d.op = 4 then x.anchors d.q d.qF d.hd d.rows else []

/-- The output ranges of FIN, FINALISE and their hem entries. -/
def GusD.outBad (d : GusD) : Bool :=
  d.rows.any (fun r => !tmOk .gus true (d.outAddr + r * d.outPitch) (d.outF.fmt.bytes d.hd) ||
    (d.hemEn && !tmOk .gus true (d.hemAddr + 2 * r) 2))

/-- The check of a Gusset descriptor (R247, R254, Table 8.8): the bits of GUS_ERR_STAT. -/
def State.gusCheck (s : State) (t raw : Nat) : Nat :=
  let x := s.tile t
  let d := GusD.of raw
  let base := fld raw 0 4 1 = 0 || d.hd < 1 || d.hd > 128 || d.stateAddr % 64 ≠ 0 || fld raw 45 7 1 = 1
  let recs := d.rows.any (fun r => !tmOk .gus true (d.recAt r) 2112)
  let mIn := d.rows.any (fun r => !tmOk .gus false (d.mIn + 2 * r) 2)
  let tabOk := tmOk .gus false d.slotTab (32 * d.nslot)
  let slots := (List.range d.nslot).map (x.slot8 d)
  let slotBad := tabOk && slots.any (·.bad)
  let stage := !tmOk .gus true d.stage (1024 * d.nslot * d.bt)
  let (qr, qa) := match FSpec.loose d.q.fmt with
    | some f => x.queryCheck d f
    | none => (false, false)
  match d.op with
  | 1 =>
    bit (base || d.badSweep raw || d.badOut || d.mode = 3 || slotBad || qa || fld raw 88 0 320 ≠ 0) 0 +
      bit (recs || !tabOk || stage || qr || (d.mode = 2 && mIn) || (d.fin && d.outBad)) 1
  | 2 => bit (base || gusUnused raw [(12, 4), (44, 1), (48, 8), (76, 4)]) 0 + bit (recs || mIn) 1
  | 3 =>
    bit (base || d.badOut || fld raw 45 0 6 ≠ 0 || gusUnused raw [(12, 4), (44, 2), (48, 28)]) 0 + bit (recs || d.outBad) 1
  | 4 =>
    let outs := tabOk && d.rows.any (fun r =>
      let sl := x.slot8 d (d.slotOf r)
      sl.valid && !tmOk .gus true (d.outAddr + r * d.outPitch) (4 * (sl.hi - sl.lo)))
    bit (base || d.badSweep raw || d.outPitch % 64 ≠ 0 || slotBad || qa || fld raw 45 2 5 ≠ 0 ||
        gusUnused raw [(8, 34), (44, 20), (80, 8)]) 0 +
      bit (recs || !tabOk || stage || qr || outs) 1
  | _ => 1

/-- A row's running state (R237, R238, Table 8.3). `b` is none where no base is set; `dead` rows take nothing
more in this sweep. -/
structure GRow where
  l : Seam
  o : List Seam
  m : Int
  b : Option Int
  empty : Bool := true
  inf : Bool := false
  nan : Bool := false
  fence : Bool := false
  trunc : Bool := false
  clamp : Bool := false
  rebases : Nat := 0
  slot : Nat := 0
  deriving DecidableEq, Repr

def seamOf (int tag : Int) (special : Tag) (trunc aovf poison : Bool) : Seam :=
  { int := int, tag := tag, res := res255 int, special := special, trunc := trunc, aovf := aovf, ovf := false, poison := poison }

/-- The zero word of a row record (Table 8.3). -/
def seamZero : Seam := seamOf 0 0 .fin false false false

/-- An EMPTY row: zero words on their grids (R237, R243). -/
def GusD.freshRow (d : GusD) : GRow :=
  let w := d.pvClass.window
  { l := seamOf 0 (1 - w) .fin false false false,
    o := List.replicate 128 (seamOf 0 (d.vanch + 2 - 2 * w) .fin false false false), m := -32768, b := none }

/-- A row record read: its words below HD, each poisoned where its line is; a word that fails R83 poisons the row (Table 8.8),
and so does a poisoned header, on which every word depends. Answers a failed residue. -/
def Tile.loadRow (x : Tile) (hd a : Nat) : GRow × Bool :=
  let wd := fun (o : Nat) => Seam.ofNat (x.rd (a + o) 16)
  let offs := 0 :: (List.range hd).map (fun c => 64 + 16 * c)
  let bad := offs.any (fun o => !(wd o).resOk)
  let all := bad || x.poisoned a 64
  let fix := fun (o : Nat) => let w := wd o; { w with poison := w.poison || all || x.poisoned (a + o) 16 }
  let f := x.rd (a + 20) 2
  ({ l := fix 0, o := (List.range 128).map (fun c => if c < hd then fix (64 + 16 * c) else seamZero), m := toSigned 16 (x.rd (a + 16) 2),
     b := if tb f 0 then none else some (toSigned 16 (x.rd (a + 18) 2)), empty := tb f 0, inf := tb f 1, nan := tb f 2,
     fence := tb f 3, trunc := tb f 4, clamp := tb f 5, rebases := x.rd (a + 22) 2, slot := x.rd (a + 24) 1 }, bad)

/-- A row record as bytes; dimensions at or beyond HD hold zero (Table 8.3). -/
def GRow.bytes (r : GRow) (hd : Nat) : List Byte :=
  let w := fun (v : Int) => toLe 2 (ofSigned 16 v)
  let tr := r.trunc || r.l.trunc || (r.o.take hd).any (·.trunc)
  toLe 16 r.l.toNat ++ w r.m ++ w (r.b.getD r.m) ++
    toLe 2 (bit r.empty 0 + bit r.inf 1 + bit r.nan 2 + bit r.fence 3 + bit tr 4 + bit r.clamp 5) ++
    toLe 2 r.rebases ++ toLe 1 r.slot ++ List.replicate 39 0 ++
    ((r.o.take hd) ++ List.replicate (128 - hd) seamZero).flatMap (fun z => toLe 16 (Seam.toNat z))

/-- Change every word of a row. -/
def GRow.words (r : GRow) (f : Seam → Seam) : GRow := { r with l := f r.l, o := r.o.map f }

/-- One word truncated by 2^k with its sign kept (R238). -/
def Seam.trunc2 (k : Nat) (z : Seam) : Seam :=
  let m := z.int.natAbs
  let q : Int := if z.int < 0 then -((m / 2 ^ k : Nat) : Int) else ((m / 2 ^ k : Nat) : Int)
  { z with int := q, res := res255 q, trunc := z.trunc || m % 2 ^ k ≠ 0 }

/-- A rebase by R (R238): the base, the words, TRUNC and REBASES. -/
def GRow.rebase (r : GRow) (k : Nat) : GRow :=
  if k = 0 then r
  else
    let lost := fun (z : Seam) => decide (z.int.natAbs % 2 ^ k ≠ 0)
    let t := r.trunc || lost r.l || r.o.any lost
    let r := r.words (Seam.trunc2 k)
    { r with trunc := t, b := r.b.map (· + (k : Int)), rebases := min 0xFFFF (r.rebases + 1) }

/-- Move a row's words to base `g` (R244 steps 3 and 4). -/
def GRow.moveTo (r : GRow) (g : Int) : GRow :=
  let b := r.b.getD r.m
  let k := (g - 24 - b).toNat
  let r := r.rebase k
  let r := r.words (fun z => { z with tag := z.tag - (g - (b + k)) })
  { r with m := g, b := some g }

/-- A visible token's key and value as read and aligned (R233, R234): key integers and values with their events, and for each
value dimension its integer, value, event and poison; `vFlush` counts the values flushed (R33). -/
structure TokKV where
  tok : Nat
  k : List (Int × Num)
  kPoison : Bool
  kEv : Evc
  v : List ((Int × Num) × AlEv × Bool)
  vFlush : Nat
  deriving DecidableEq, Repr

/-- An element among bytes read from a page. -/
def elemOf (f : Fmt) (bs : List (Byte × Bool)) (i : Nat) : Nat × Bool :=
  let at' := fun (k : Nat) => bs.getD k (0, false)
  match f.bits with
  | 4 => ((at' (i / 2)).1.toNat / (if i % 2 = 0 then 1 else 16) % 16, (at' (i / 2)).2)
  | 8 => ((at' i).1.toNat, (at' i).2)
  | _ => ((at' (2 * i)).1.toNat + 256 * (at' (2 * i + 1)).1.toNat, (at' (2 * i)).2)

/-- One K or V row of a token in a page: each element's value, event (R33) and poison (R234, R277). -/
def State.pageRowVals (s : State) (f t : Nat) (g : Fmt) (base pay sc hd pos : Nat) : State × List (Num × Evc × Bool) :=
  let (s, bs, _, _) := s.getLines f t 1 (base + pay + pos * (16 * g.bits)) (g.bytes hd)
  let (s, es, _, _) := if g.scaled then s.getLines f t 1 (base + sc + 4 * pos) 4 else (s, [], [], false)
  (s, (List.range hd).map (fun i =>
    let e := es.getD (i / 32) (0x7F, false)
    let c := elemOf g bs i
    let r := elemValue g false false e.1.toNat c.1
    (r.1, r.2, c.2 || e.2)))

/-- Read one token of a resolved page. -/
def State.readToken (s : State) (f t : Nat) (d : GusD) (g : Fmt) (e : PtEntry) (tok : Nat) : State × TokKV :=
  let (vo, ks, vs, _) := pageLayout g
  let (s, kv) := s.pageRowVals f t g e.addr 0 ks d.hd (tok % 64)
  let (s, vv) := s.pageRowVals f t g e.addr vo vs d.hd (tok % 64)
  let ka := kv.map (fun p => (align p.1 d.kanch d.qkClass.window, p))
  (s, { tok := tok, k := ka.map (fun p => (p.1.n, p.2.1)), kPoison := kv.any (·.2.2),
        kEv := ka.foldl (fun (ev : Evc) p => (ev.add p.1.ev.count).add p.2.2.1) {},
        v := vv.map (fun p => let al := align p.1 d.vanch d.pvClass.window; ((al.n, p.1), al.ev, p.2.2)),
        vFlush := vv.foldl (fun n p => n + p.2.1.flush) 0 })

/-- Tokens `a` to `b` − 1. -/
def tokRange (a b : Nat) : List Nat := (List.range (b - a)).map (· + a)

/-- Resolve and read the visible tokens of a slot, page by page, block by block (R235, R251, R261, R262): the
blocks, each a list of tokens with their data (none where masked by COUNT), and whether the slot faulted. The
fuel counts pages. -/
def State.readPages (s : State) (f t : Nat) (d : GusD) (sl : Slot8) (slot : Nat) :
    Nat → Nat → State × List (Nat × Option TokKV) × Bool
  | 0, _ => (s, [], false)
  | k + 1, tok =>
    if tok ≥ sl.hi then (s, [], false)
    else
      let (s, c, e) := s.resolveRead f t sl.tag sl.root tok d.kvClass d.minK
      let s := s.pwReport t c slot sl.tag ((e.map (·.tag)).getD 0) tok 2
      match c, e with
      | 0, some e =>
        match pageFmt e.fmt with
        | none => (s, [], true)
        | some g =>
          let last := min sl.hi (tok / 64 * 64 + 64)
          let (s, l, short) := (tokRange tok last).foldl
            (fun (p : State × List (Nat × Option TokKV) × Nat) k =>
              if k % 64 ≥ e.count then (p.1, p.2.1 ++ [(k, none)], p.2.2 + 1)
              else
                let (s, x) := p.1.readToken f t d g e k
                (s, p.2.1 ++ [(k, some x)], p.2.2)) (s, [], 0)
          let s := if short = 0 then s else (s.orStat .pw t (2 ^ 10)).countT .pw t 5 0 short
          let (s, l', fault) := s.readPages f t d sl slot k last
          (s, l ++ l', fault)
      | _, _ => (s, [], true)

/-- Cut a slot's tokens into blocks of BT aligned in token index. A block cut short by a slot fault is skipped
with the blocks after it (R251). -/
def blocksOf (bt : Nat) (l : List (Nat × Option TokKV)) (fault : Bool) : List (List (Nat × Option TokKV)) :=
  let g := l.splitBy (fun a b => a.1 / bt = b.1 / bt)
  if fault && l.length ≠ 0 && ((l.getLastD (0, none)).1 + 1) % bt ≠ 0 then g.dropLast else g

/-- A query row as read and aligned. -/
structure QRow where
  n : List (Int × Num)
  a : Int
  ev : Evc
  poison : Bool
  deriving DecidableEq, Repr

/-- The query of a row, aligned on the anchor resolved when the descriptor started (R254). -/
def Tile.queryRow (x : Tile) (d : GusD) (anch : SMap Int) (r : Nat) : QRow :=
  let a := anch.get 0 r
  let l := x.alignLine d.q d.qF a r d.hd d.qkClass.window
  { n := l.elems, a := a, ev := l.ev, poison := l.poison }

/-- ⌈x⌉ of a finite score. -/
def Num.ceil (x : Num) : Int := -(x.neg.floor)

def Num.isFin : Num → Bool
  | .fin _ _ _ => true
  | _ => false

/-- A block's score of one row and token (R228, R235): the value, whether it was clamped, and poison. -/
def GusD.score (d : GusD) (q : QRow) (k : Option TokKV) : Num × Bool × Bool :=
  match k with
  | none => (.inf true, false, false)
  | some k =>
    if q.poison || k.kPoison then (.nan, false, true)
    else
      let (i, tag) := cellSum (0, .fin) q.n k.k
      let g := accGrid q.a d.kanch d.qkClass.window
      let c := (outConvert .f32 i g tag (match d.qF.coarseFactor with
        | .nan => .one
        | c => c) .rne 12 0).1
      let v := (Fmt.f32.decode c).1
      if v.isFin && (v.floor < -32767 || v.ceil > 32766) then (Num.ofInt (if v.isNeg then -32767 else 32766), true, false)
      else (v, false, false)

/-- The largest ⌈s⌉ of a list's finite scores. -/
def maxCeil (ss : List Num) : Option Int :=
  ss.foldl (fun m s => if s.isFin then some (match m with
    | none => s.ceil
    | some k => max k s.ceil) else m) none

/-- What a sweep counts: SFU work, events of PV passes and rows' rebases and clamps, and the state of the row. -/
structure GAcc where
  r : GRow
  sfu : SMap Nat := []
  ev : Evc := {}
  vanish : Nat := 0
  clamps : Nat := 0
  rebases : Nat := 0
  poison : Bool := false
  seamBad : Nat := 0
  deriving DecidableEq, Repr

/-- exp2 of the SFU with its counts. -/
def GAcc.exp2 (a : GAcc) (x : Num) : GAcc × Num :=
  let r := sfuBuiltin 1 x
  let m := a.sfu.modify 0 4 (· + 1)
  ({ a with sfu := if r.flush then m.modify 0 5 (· + 1) else m }, r.v)

/-- The probabilities of a block on a maximum (R236). -/
def GAcc.probs (a : GAcc) (d : GusD) (toks : List Nat) (ss : List Num) (m : Int) : GAcc × List Num :=
  let (a, ps) := ss.foldl (fun (p : GAcc × List Num) s =>
    let (a, y) := p.1.exp2 (r32 (s.sub (Num.ofInt m))).1
    (a, p.2 ++ [y])) (a, [])
  if d.pF = .f8e then
    let groups := (toks.zip ps).splitBy (fun x y => x.1 / 32 = y.1 / 32)
    (a, groups.flatMap (fun g =>
      let (e, cs, _) := quantBlock .f8e .rne 12 .one (g.map Prod.snd) (g.map (fun _ => 0))
      cs.map (fun c => scaledElem .f8e false e c)))
  else (a, ps.map (fun p => (roundTo d.pF p).1))

/-- The flags of a block's value lines (R78): every row reads the accumulators on them (R252), whether or not a score of the
row makes a product. -/
def GAcc.lines (a : GAcc) (d : GusD) (b : List (Nat × Option TokKV)) : GAcc :=
  let toks := b.filterMap (·.2)
  let fl := (List.range d.hd).map (fun c =>
    let l := toks.map (fun k => k.v.getD c ((0, .zero), .none, false))
    (l.any (fun v => v.2.1 = .trunc || v.2.1 = .vanish), l.any (fun v => v.2.1 = .aovf), l.any (fun v => v.2.2)))
  { a with poison := a.poison || fl.any (·.2.2),
           r := { a.r with o := (a.r.o.zip fl).map (fun p =>
             { p.1 with trunc := p.1.trunc || p.2.1, aovf := p.1.aovf || p.2.2.1, poison := p.1.poison || p.2.2.2 }) ++ a.r.o.drop d.hd } }

/-- Add a block's products to a row, lifted by D (R237, R238 step 2); a failed residue poisons the row (Table 8.8). -/
def GAcc.lift (a : GAcc) (d : GusD) (b : List (Nat × Option TokKV)) (ss ps : List Num) (lift : Int) : GAcc :=
  let w := d.pvClass.window
  let use := ((b.map (·.2)).zip (ss.zip ps)).filterMap (fun p => match p.1 with
    | some k => if p.2.2.isZero || p.2.1 = .inf true then none else some (k, p.2.2, align p.2.2 0 w)
    | none => none)
  let pEv := use.foldl (fun (e : Evc) u => e.add u.2.2.ev.count) {}
  let tr := pEv.trunc + pEv.vanish ≠ 0
  let lw := seamOf (use.foldl (fun n u => n + u.2.2.n) 0) (1 - w + lift) .fin tr false false
  let ow := (List.range d.hd).map (fun c =>
    let s := use.foldl (fun (p : Int × Tag) u =>
      let v := u.1.v.getD c ((0, .zero), .none, false)
      (p.1 + u.2.2.n * v.1.1, p.2.add (prodTag u.2.1 v.1.2))) (0, .fin)
    seamOf s.1 (d.vanch + 2 - 2 * w + lift) s.2 tr false false)
  let rl := seamAdd a.r.l lw
  let ro := (a.r.o.zip ow).map (fun p => seamAdd p.1 p.2)
  let bad := bit rl.2 0 + ro.foldl (fun n r => n + bit r.2 0) 0
  let r := { a.r with l := rl.1, o := ro.map Prod.fst ++ a.r.o.drop d.hd }
  { a with r := if bad = 0 then r else r.words (fun z => { z with poison := true }),
           ev := a.ev.add pEv, vanish := a.vanish + pEv.vanish, seamBad := a.seamBad + bad }

/-- A row takes the first +inf score (Table 8.1 order 2). -/
def GRow.toInf (r : GRow) : GRow :=
  let r := r.words (fun z => { z with int := 0, res := 0, special := .fin })
  { r with inf := true, empty := false, m := 32767, b := some 32767 }

/-- A row takes a NaN score (Table 8.1 order 1). -/
def GRow.toNan (r : GRow) : GRow :=
  let r := r.words (fun z => { z with special := .nan })
  { r with nan := true, empty := false }

/-- One block of one row (R236 to R241); `force` is the final M of TWO mode. -/
def GAcc.block (a : GAcc) (d : GusD) (force : Option Int) (b : List (Nat × Option TokKV)) (ss : List Num) : GAcc :=
  let a := a.lines d b
  if a.r.nan then a
  else if ss.any Num.isNan then { a with r := a.r.toNan }
  else
    let infs := ss.map (fun s => decide (s = .inf false))
    let a := if infs.any id && !a.r.inf then { a with r := a.r.toInf } else a
    if a.r.inf then
      if infs.any id then a.lift d b ss (infs.map (fun i => if i then .one else .zero)) 0 else a
    else match maxCeil ss with
      | none => a
      | some c =>
        let mb := force.getD (max a.r.m c)
        let r := { a.r with b := some (a.r.b.getD mb) }
        let k := (mb - 24 - r.b.getD mb).toNat
        let a := { a with r := r.rebase k, rebases := a.rebases + (if k = 0 then 0 else 1) }
        let (a, ps) := a.probs d (b.map (·.1)) ss mb
        let a := { a with r := { a.r with m := mb, empty := false } }
        a.lift d b ss ps (mb - a.r.b.getD mb)

/-- The first sweep of TWO mode (R241): the final M, which is the record's where no score is finite, and the words of a
continued row moved to it; a NAN or INF row is one before the second sweep. -/
def GAcc.twoStart (a : GAcc) (sss : List (List Num)) : GAcc × Option Int :=
  let all := sss.flatten
  if a.r.nan || a.r.inf then (a, none)
  else if all.any Num.isNan then ({ a with r := a.r.toNan }, none)
  else if all.any (fun s => decide (s = .inf false)) then ({ a with r := a.r.toInf }, none)
  else
    let m := (maxCeil all).map (max a.r.m)
    match a.r.b with
    | none => (a, m)
    | some _ =>
      let r := a.r.moveTo (m.getD a.r.m)
      ({ a with r := r, rebases := a.rebases + (r.rebases - a.r.rebases) }, m)

/-- Sweep one row over the blocks of its slot. -/
def GAcc.sweep (a : GAcc) (d : GusD) (q : QRow) (bs : List (List (Nat × Option TokKV))) : GAcc :=
  let scs := bs.map (fun b => b.map (fun t => d.score q t.2))
  let flat := scs.flatten
  let n := flat.countP (·.2.1)
  let p := flat.any (·.2.2)
  let r := if p then a.r.words (fun z => { z with poison := true }) else a.r
  let a := { a with clamps := a.clamps + n, poison := a.poison || p, r := { r with clamp := r.clamp || n ≠ 0 } }
  let sss := scs.map (fun l => l.map Prod.fst)
  let (a, force) := if d.mode = 1 then a.twoStart sss else (a, none)
  (bs.zip sss).foldl (fun a p => a.block d force p.1 p.2) a

/-- The row at the start of ATTEND (R241, R243); answers a failed residue. -/
def Tile.startRow (x : Tile) (d : GusD) (r : Nat) : GRow × Bool :=
  let (g, bad) := if d.cont then x.loadRow d.hd (d.recAt r) else (d.freshRow, false)
  let g := if g.empty then { g with m := -32768, b := none } else g
  let v := toSigned 16 (x.rd (d.mIn + 2 * r) 2)
  let g := if d.mode = 2 && g.empty && v ≠ -32768 then { g with m := v, b := some v } else g
  ({ g with slot := d.slotOf r }, bad)

/-- A row as it is written at the end (Table 8.1): the first condition that applies. -/
def GRow.close (r : GRow) : GRow :=
  let inf := r.inf && !r.nan
  let empty := r.empty && !r.nan && !inf
  { r with inf := inf, empty := empty, m := if empty then -32768 else r.m, b := if empty then some (-32768) else r.b }

/-- The output codes of a row with the poison of each (R243). -/
def GRow.out (r : GRow) (d : GusD) : List (Nat × Bool) :=
  let f := d.outF
  (r.o.take d.hd).map (fun z =>
    let c := match z.special with
      | .nan => f.fmt.nanCode
      | .pinf => f.fmt.infCode false
      | .ninf => f.fmt.infCode true
      | .fin =>
        if z.ovf || r.l.ovf || r.l.special ≠ .fin then f.fmt.nanCode
        else if r.l.int = 0 then f.fmt.zeroCode false
        else (convertFin f.fmt ((z.int < 0) != (r.l.int < 0)) z.int.natAbs r.l.int.natAbs (z.tag - r.l.tag) f.rnd f.rb 0 false).1
    (c, z.poison || r.l.poison))

/-- Write a row's output and its hem entry (R243, R197). -/
def Tile.finalise (x : Tile) (d : GusD) (r : Nat) (g : GRow) : Tile :=
  let f := d.outF.fmt
  let o := g.out d
  let x := x.putP (d.outAddr + r * d.outPitch) (packCodes f o)
  if d.hemEn then x.write (d.hemAddr + 2 * r) (toLe 2 (hemOf (storedVals d.outF (o.map (·.1)) [])).toNat) (o.any (·.2)) else x

/-- The flag number of a finished row for GUS counter 1 (Table 18.1) and its GUS_STAT bit. -/
def GRow.kind (r : GRow) : Nat × Nat :=
  if r.fence then (4, 0) else if r.nan then (1, 2 ^ 8) else if r.inf then (2, 2 ^ 9) else if r.empty then (3, 2 ^ 10) else (0, 0)

/-- A row ends: its record, its output where FIN asks for it, its counts, status bits and errors. -/
def State.endRow (s : State) (t : Nat) (d : GusD) (r : Nat) (a : GAcc) (fin : Bool) : State :=
  let g := a.r.close
  let s := s.onTile t (fun x =>
    let x := x.write (d.recAt r) (g.bytes d.hd) false
    if fin then x.finalise d r g else x)
  let (k, b) := g.kind
  let s := s.countT .gus t 1 k 1
  let s := s.countT .gus t 2 0 a.clamps
  let s := s.countT .gus t 3 0 a.rebases
  let s := s.countT .gus t 4 0 a.vanish
  let m := b ||| (bit (a.rebases ≠ 0) 5 + bit (a.clamps ≠ 0) 6 + bit a.poison 11)
  let s := if m = 0 then s else s.orStat .gus t m
  (s.sfuCounts t a.sfu).raiseMany .gus t 8 a.seamBad

/-- Alignment events of the passes of one row and of a slot's tokens (R91, R231): queries once for each QK pass,
probabilities once for each PV pass. -/
def State.gusAlign (s : State) (t : Nat) (d : GusD) (q : QRow) (blocks : Nat) (pEv : Evc) : State :=
  let c := 128 / d.nslot
  let times := fun (n : Nat) (e : Evc) => ({ aovf := n * e.aovf, vanish := n * e.vanish, trunc := n * e.trunc,
                                             flush := n * e.flush } : Evc)
  let qk := blocks * ((d.bt + c - 1) / c) * (if d.mode = 1 ∧ d.op = 1 then 2 else 1)
  s.selEvents t false ((times qk q.ev).add (times ((d.hd + c - 1) / c) pEv)) (q.poison && blocks ≠ 0) (d.qF.badScale && blocks ≠ 0)

/-- Events of the row operand of a slot's passes: keys of the QK passes and values of the PV passes. -/
def State.kvAlign (s : State) (t : Nat) (d : GusD) (l : List (Nat × Option TokKV)) : State :=
  let ks := l.filterMap (·.2)
  let k := ks.foldl (fun (e : Evc) x => e.add x.kEv) {}
  let v := ks.foldl (fun (e : Evc) x => (x.v.foldl (fun e y => e.add y.2.1.count) e).add { flush := x.vFlush }) {}
  let e := if d.op = 4 then k else if d.mode = 1 then (k.add k).add v else k.add v
  s.selEvents t true e (ks.any (fun x => x.kPoison || x.v.any (fun y => y.2.2))) false

/-- Array steps and passes of a sweep (R249). -/
def State.gusSteps (s : State) (t : Nat) (d : GusD) (blocks : Nat) : State :=
  let c := 128 / d.nslot
  let up := fun (a b : Nat) => (a + b - 1) / b
  let qkP := up d.bt c * (if d.mode = 1 ∧ d.op = 1 then 2 else 1)
  let pvP := if d.op = 4 then 0 else up d.hd c
  let s := s.countT .opa t 1 0 (blocks * (qkP * up d.hd d.qkClass.perStep + pvP * up d.bt d.pvClass.perStep))
  s.countT .opa t 6 0 (blocks * (qkP + pvP))

/-- Read one slot of a sweep (R248, R251): its blocks and whether it faulted. -/
def State.readSlot (s : State) (f t : Nat) (d : GusD) (i : Nat) : State × List (List (Nat × Option TokKV)) × Bool :=
  let sl := (s.tile t).slot8 d i
  if !sl.valid || sl.hi ≤ sl.lo then (s, [], false)
  else
    let (s, l, fault) := s.readPages f t d sl i ((sl.hi - sl.lo) / 64 + 2) sl.lo
    let s := if fault then s.orStat .gus t (2 ^ 7) else s
    let bs := blocksOf d.bt l fault
    ((s.kvAlign t d bs.flatten), bs, fault)

/-- A slot fault on a row (R251): FENCE, and POISON in every word. -/
def GRow.faulted (r : GRow) : GRow := { r.words (fun z => { z with poison := true }) with fence := true }

/-- One row of ATTEND. -/
def State.attendRow (s : State) (t : Nat) (d : GusD) (anch : SMap Int) (bs : List (List (Nat × Option TokKV))) (fault : Bool)
    (r : Nat) : State :=
  let x := s.tile t
  let q := x.queryRow d anch r
  let (g, bad) := x.startRow d r
  let a := GAcc.sweep { r := g, seamBad := bit bad 0 } d q bs
  let a := if fault then { a with r := a.r.faulted } else a
  (s.endRow t d r a d.fin).gusAlign t d q bs.length a.ev

/-- The Gusset's running descriptor holds its units and has an operation, which takes the anchors resolved at its start. -/
def State.gusStep (s : State) (t op : Nat) (f : State → GusD → SMap Int → State) : State :=
  s.engStep t .gus (fun d => d.op = op) (fun s r =>
    if r.acquired then
      let s := (f s (GusD.of r.desc.raw) r.anchCol).onTile t (fun x =>
        { x with bank0 := { x.bank0 with rowValid := 0 }, bank1 := { x.bank1 with rowValid := 0 } })
      s.engDone t .gus
    else s)

/-- The array is empty and every row of both banks is FREE (R232 step 2). -/
def Tile.arrayFree (x : Tile) : Bool := x.opa.run.isNone && x.bank0.held = 0 && x.bank1.held = 0

def execGusAcquire (t : TileId) (s : State) : Host.Outcome State Fault Refusal :=
  .next (if s.tileLive t then
      let x := s.tile t
      match x.gus.run with
      | some r =>
        if !r.acquired && !r.done && x.arrayFree && x.ve.run.isNone then
          s.setTile t { x with gus := { x.gus with run := some { r with acquired := true } } }
        else s
      | none => s
    else s)

def execGusAttend (t : TileId) (s : State) : Host.Outcome State Fault Refusal :=
  .next (s.gusStep t 1 (fun s d anch =>
    let f := s.ownerOr0 t
    let (s, most) := (List.range d.nslot).foldl (fun (p : State × Nat) i =>
      let rows := d.rows.filter (fun r => d.slotOf r = i)
      if rows.isEmpty then p
      else
        let (s, bs, fault) := p.1.readSlot f t d i
        let s := rows.foldl (fun s r => s.attendRow t d anch bs fault r) s
        (s.countT .gus t 5 0 bs.length, max p.2 bs.length)) (s, 0)
    s.gusSteps t d most))

/-- One row of REBASE (R244); an EMPTY row's words and a row left unchanged are not read. -/
def State.rebaseRow (s : State) (t : Nat) (d : GusD) (r : Nat) : State :=
  let x := s.tile t
  let g := toSigned 16 (x.rd (d.mIn + 2 * r) 2)
  let (row, bad) := x.loadRow d.hd (d.recAt r)
  let put := fun (s : State) (n : GRow) =>
    (s.onTile t (fun x => x.write (d.recAt r) (n.bytes d.hd) false)).raiseMany .gus t 8 (bit bad 0)
  let mb := toLe 2 (ofSigned 16 g)
  if row.empty then s.onTile t (fun x => x.write (d.recAt r + 16) (mb ++ mb) false)
  else if row.m > g then s.raiseT .gus t 4
  else if g = 32767 ∧ !row.inf then
    put s { row.words (fun z => { seamZero with tag := z.tag, special := if z.special = .nan then .nan else .fin,
                                                poison := z.poison }) with m := g, b := some g }
  else
    let n := row.moveTo g
    let k := n.rebases - row.rebases
    let s := put s n
    if k = 0 then s else (s.countT .gus t 3 0 1).orStat .gus t (2 ^ 5)

def execGusRebase (t : TileId) (s : State) : Host.Outcome State Fault Refusal :=
  .next (s.gusStep t 2 (fun s d _ => d.rows.foldl (fun s r => s.rebaseRow t d r) s))

/-- One row of FINALISE (R245 step 5). -/
def State.finaliseRow (s : State) (t : Nat) (d : GusD) (r : Nat) : State :=
  let x := s.tile t
  let (row, bad) := x.loadRow d.hd (d.recAt r)
  let row := { row with empty := row.l.int = 0 && decide (row.l.special = .fin), nan := decide (row.l.special = .nan) }
  let s := s.setTile t ((x.write (d.recAt r) (row.bytes d.hd) false).finalise d r row)
  let s := if row.l.poison || row.o.any (·.poison) then s.orStat .gus t (2 ^ 11) else s
  s.raiseMany .gus t 8 (bit bad 0)

def execGusFinalise (t : TileId) (s : State) : Host.Outcome State Fault Refusal :=
  .next (s.gusStep t 3 (fun s d _ => d.rows.foldl (fun s r => s.finaliseRow t d r) s))

/-- The probability of a token of a row (Table 8.1, R236): in an INF row 1 for a +inf score and 0 for any other. -/
def GRow.weight (row : GRow) (s p : Num) : Num := if row.inf then (if s = .inf false then .one else .zero) else p

/-- One probability of RECOMPUTE (R246): the quotient rounded once; where ℓ gives no quotient or the score is NaN, or +inf in a
row that is not INF, a free value (log 46). -/
def recomputeOne (w : Nat) (row : GRow) (s p : Num) (free : BitVec 32) : Nat :=
  if s = .inf true then 0
  else if s.isNan || (!s.isFin && !row.inf) || row.nan || row.l.int = 0 || row.l.special ≠ .fin || row.l.ovf then free.toNat
  else
    let n := align (row.weight s p) 0 w
    let e : Int := 1 - w + (row.m - row.b.getD row.m) - row.l.tag
    (convertFin .f32 ((n.n < 0) != (row.l.int < 0)) n.n.natAbs row.l.int.natAbs e .rne 12 0 false).1

/-- One row of RECOMPUTE. -/
def State.recomputeRow (s : State) (t : Nat) (d : GusD) (anch : SMap Int) (sl : Slot8) (bs : List (List (Nat × Option TokKV)))
    (fault : Bool) (r : Nat) : State :=
  let x := s.tile t
  let q := x.queryRow d anch r
  let (row, bad) := x.loadRow d.hd (d.recAt r)
  let a : GAcc := { r := row, seamBad := bit bad 0 }
  let (a, out) := bs.foldl (fun (p : GAcc × List (Nat × Bool)) b =>
    let sc := b.map (fun k => d.score q k.2)
    let ss := sc.map Prod.fst
    let (a, ps) := if row.nan || row.inf then (p.1, ss) else p.1.probs d (b.map (·.1)) ss row.m
    let base := s.freeCtr + p.2.length
    (a, p.2 ++ ((ss.zip ps).zip sc).zipIdx.map (fun y =>
      (recomputeOne d.pvClass.window row y.1.1.1 y.1.1.2 (Config.probFree (base + y.2)), y.1.2.2.2 || row.l.poison)))) (a, [])
  let all := out ++ List.replicate (sl.hi - sl.lo - out.length) (0, true)
  let s := { s with freeCtr := s.freeCtr + out.length }
  let s := s.onTile t (fun x =>
    let x := x.putP (d.outAddr + r * d.outPitch) (packCodes .f32 all)
    if fault then x.write (d.recAt r) (row.faulted.bytes d.hd) false else x)
  let n := (bs.flatten.map (fun k => d.score q k.2)).countP (·.2.1)
  let m := bit (n ≠ 0) 6 + bit (all.any (·.2)) 11
  let s := if m = 0 then s else s.orStat .gus t m
  let s := s.countT .gus t 2 0 n
  ((s.sfuCounts t a.sfu).raiseMany .gus t 8 a.seamBad).gusAlign t d q bs.length {}

def execGusRecompute (t : TileId) (s : State) : Host.Outcome State Fault Refusal :=
  .next (s.gusStep t 4 (fun s d anch =>
    let f := s.ownerOr0 t
    let (s, most) := (List.range d.nslot).foldl (fun (p : State × Nat) i =>
      let rows := d.rows.filter (fun r => d.slotOf r = i)
      if rows.isEmpty then p
      else
        let sl := (p.1.tile t).slot8 d i
        let (s, bs, fault) := p.1.readSlot f t d i
        if !sl.valid then (s, p.2)
        else
          let s := rows.foldl (fun s r => s.recomputeRow t d anch sl bs fault r) s
          (s.countT .gus t 5 0 bs.length, max p.2 bs.length)) (s, 0)
    s.gusSteps t d most))

end Sys2Proof.Machine
end

