-- ==== Sys2Proof/Machine/CollOps.lean ====
section
/-! DEFINITION. Collectives: element arithmetic, groups and leaders, the stages of a chunk, grants, and what a stop does
to a collective (spec/15, R414 to R433). -/

namespace Sys2Proof.Machine

/-- Bytes of an element (Table 15.4); 0 for a malformed DTYPE. -/
def dtBytes : Nat → Nat
  | 0 => 16 | 1 | 2 | 4 => 4 | 3 => 2 | 5 => 8 | _ => 0

/-- ⊕ of a floating-point format on codes (R57, R88): SUM, MAX or MIN. -/
def floatComb (f : Fmt) (op a b : Nat) : Nat :=
  let x := (f.decode a).1
  let y := (f.decode b).1
  match op with
  | 0 => (convert f (x.add y) .rne 12 0 false).1
  | 1 => (x.max y).toCode f
  | _ => (x.min y).toCode f

/-- ⊕ of signed integers of w bits (R89, Table 15.4). -/
def intComb (w op a b : Nat) : Nat :=
  match op with
  | 0 => (a + b) % 2 ^ w
  | 1 => if toSigned w a < toSigned w b then b else a
  | _ => if toSigned w b < toSigned w a then b else a

/-- ⊕ of two elements as codes, and whether the residue check failed (R428). -/
def elemComb (dt op a b : Nat) : Nat × Bool :=
  match dt with
  | 0 => let r := seamAdd (Seam.ofNat a) (Seam.ofNat b); (r.1.toNat, r.2)
  | 1 => (floatComb .f32 op a b, false)
  | 2 => (floatComb .f19 op (a % 2 ^ 19) (b % 2 ^ 19), false)
  | 3 => (floatComb .bf16 op a b, false)
  | 4 => (intComb 32 op a b, false)
  | _ => (intComb 64 op a b, false)

/-- ⊕ of two chunks element by element. -/
def chunkComb (dt op : Nat) (x y : ChunkVal) : ChunkVal × Bool :=
  let n := dtBytes dt
  let rs : List (Nat × Bool) := ((chunks n x.bytes).zip (chunks n y.bytes)).map (fun p => elemComb dt op (leVal p.1) (leVal p.2))
  ({ bytes := rs.flatMap (fun r => toLe n (Prod.fst r)), poison := x.poison || y.poison, resFail := x.resFail || y.resFail },
    rs.any Prod.snd)

/-- An ARRIVE record as bytes and back (Table 15.9). -/
def Arrive.bytes (a : Arrive) : List Byte :=
  toLe 8 a.sig.toNat ++ toLe 8 a.latest ++ toLe 8 a.earliest ++ toLe 2 a.rank ++ toLe 6 (bit a.mismatch 0)

def Arrive.ofBytes (b : List Byte) : Arrive :=
  let v := leVal b
  { sig := BitVec.ofNat 64 (fld v 0 0 64), latest := fld v 8 0 64, earliest := fld v 16 0 64, rank := fld v 24 0 16,
    mismatch := fld v 26 0 1 = 1 }

/-- Two ARRIVE records combine (R429). -/
def Arrive.comb (a b : Arrive) : Arrive :=
  let late := if a.latest > b.latest ∨ (a.latest = b.latest ∧ a.rank ≤ b.rank) then a else b
  { sig := a.sig, latest := late.latest, earliest := min a.earliest b.earliest, rank := late.rank,
    mismatch := a.mismatch || b.mismatch || decide (a.sig ≠ b.sig) }

/-- The fields of a COLLECTIVE body (Table 15.3). -/
def Coll.opc (c : Coll) : Nat := if c.barrier then 0 else fld c.raw 8 0 8
def Coll.dtype (c : Coll) : Nat := fld c.raw 9 0 4
def Coll.redop (c : Coll) : Nat := fld c.raw 9 4 4
def Coll.parts (c : Coll) : Nat := fld c.raw 10 0 8
def Coll.count (c : Coll) : Nat := fld c.raw 12 0 32
def Coll.src (c : Coll) : Nat := fld c.raw 24 0 64
def Coll.dst (c : Coll) : Nat := fld c.raw 32 0 64
def Coll.pitch (c : Coll) : Nat := fld c.raw 40 0 64
def Coll.root (c : Coll) : Nat := fld c.raw 48 0 16
/-- Bytes of one block of COUNT elements. -/
def Coll.block (c : Coll) : Nat := c.count * dtBytes c.dtype
/-- Bytes of the contribution of one part (Table 15.5). -/
def Coll.total (c : Coll) : Nat :=
  match c.opc with
  | 1 | 3 | 4 => c.block
  | 2 | 5 => c.group.size * c.block
  | _ => 0
def Coll.nChunks (c : Coll) : Nat := (c.total + 2047) / 2048
def Coll.lenOf (c : Coll) (ch : Nat) : Nat := min 2048 (c.total - 2048 * ch)
/-- ARRIVE, and the chunks of ALL_REDUCE and REDUCE_SCATTER, are reduced (R423, R429). -/
def Coll.reduced (c : Coll) (ch : Nat) : Bool := ch = arriveChunk || c.opc = 1 || c.opc = 2
/-- ⊕ of two values of a chunk. -/
def Coll.comb (c : Coll) (ch : Nat) (x y : ChunkVal) : ChunkVal × Bool :=
  if ch = arriveChunk then ({ bytes := ((Arrive.ofBytes x.bytes).comb (Arrive.ofBytes y.bytes)).bytes }, false)
  else chunkComb c.dtype c.redop x y

/-- *F* of R420: values combined from the left, with whether some residue check failed. -/
def Coll.fold (c : Coll) (ch : Nat) : List ChunkVal → Option ChunkVal × Bool
  | [] => (none, false)
  | v :: vs =>
    let r := vs.foldl (fun (p : ChunkVal × Bool) x => let q := c.comb ch p.1 x; (q.1, p.2 || q.2)) (v, false)
    (some r.1, r.2)

/-- Ranks of a group. -/
def Group.ranks (g : Group) : List Nat := List.range g.size
def Group.addrOf (g : Group) (r : Nat) : Nat := g.addrs.getD r 0
/-- The tray of a rank, and its rack, as numbers of the fabric address (R414). -/
def Group.trayOf (g : Group) (r : Nat) : Nat := g.addrOf r / 4
def Group.rackOf (g : Group) (r : Nat) : Nat := g.addrOf r / 64
def Group.trayRanks (g : Group) (t : Nat) : List Nat := g.ranks.filter (fun r => g.trayOf r = t)
/-- The trays of a rack, and the racks, by the lowest rank they hold (R420). -/
def Group.trays (g : Group) (k : Nat) : List Nat := ((g.ranks.filter (fun r => g.rackOf r = k)).map g.trayOf).eraseDups
def Group.racks (g : Group) : List Nat := (g.ranks.map g.rackOf).eraseDups
/-- The leaders of a chunk (R423). -/
def Group.trayLeader (g : Group) (ch t : Nat) : Nat :=
  let m := g.trayRanks t
  m.getD (leadIdx ch % m.length) 0
def Group.rackLeader (g : Group) (ch k : Nat) : Nat := g.trayLeader ch ((g.trays k).headD 0)
def Group.globalLeader (g : Group) (ch : Nat) : Nat :=
  let ks := g.racks
  g.rackLeader ch (ks.getD (leadIdx ch % ks.length) 0)
/-- The position of a rank's tray in its rack (R423). -/
def Group.pos (g : Group) (r : Nat) : Nat := (g.trays (g.rackOf r)).idxOf (g.trayOf r)
def Group.multiRack (g : Group) : Bool := g.racks.length > 1

/-- The part of a chunk that lies in one block of the contribution: its first byte and its bytes. -/
def Coll.cut (c : Coll) (ch blk : Nat) : Nat × Nat :=
  let lo := max (2048 * ch) (blk * c.block)
  let hi := min (2048 * ch + c.lenOf ch) ((blk + 1) * c.block)
  (lo, hi - lo)
/-- A rank takes something of a reduced chunk: all of it, or its block of REDUCE_SCATTER. -/
def Coll.needs (c : Coll) (ch r : Nat) : Bool := ch = arriveChunk || c.opc ≠ 2 || decide ((c.cut ch r).2 ≠ 0)

/-- The senders of a chunk to this member, by rank (0x10000 for the rack switch) and stage (R423, R425). -/
def Coll.sendersOf (c : Coll) (ch : Nat) : List (Nat × Nat) :=
  let g := c.group
  let m := g.rank
  let lead := g.trayLeader ch (g.trayOf m)
  if c.reduced ch then
    if m ≠ lead then (if c.needs ch m then [(lead, 0)] else [])
    else
      let tray := ((g.trayRanks (g.trayOf m)).filter (· ≠ m)).map (fun r => (r, 0))
      let sw := if (g.trays (g.rackOf m)).length > 1 then [(0x10000, 1)] else []
      let top := if !g.multiRack then []
        else if g.pos m ≠ 0 then [(g.rackLeader ch (g.rackOf m), 1)]
        else if m = g.globalLeader ch then ((g.racks.map (g.rackLeader ch)).filter (· ≠ m)).map (fun r => (r, 3))
        else [(g.globalLeader ch, 3)]
      tray ++ sw ++ top
  else if c.opc = 4 then
    if m = c.root then [] else if m = lead then [(c.root, 0)] else [(lead, 0)]
  else (g.ranks.filter (· ≠ m)).map (fun r => (r, 0))

/-- The chunks of a collective with ARRIVE. -/
def Coll.all (c : Coll) : List Nat := List.range c.nChunks ++ [arriveChunk]

/-- The senders of a collective by engine: each sender and stage with the engine that takes its chunks; the data
operations are granted by the engine of the quadrant that started them (R425). -/
def Coll.senders (c : Coll) : List (Nat × Nat × Nat) :=
  (c.all.flatMap (fun ch => (c.sendersOf ch).map (fun p =>
    (p.1, p.2, if c.opc ≤ 2 then chunkQuad ch else c.quad)))).eraseDups

/-- The key of a sender or receiver and stage, and of one with an engine. -/
def gKey (peer stage : Nat) : Nat := peer * 4 + stage
def gKeyQ (peer stage q : Nat) : Nat := gKey peer stage * 4 + q

/-- Chunk spaces of an engine that reductions hold (R425). -/
def State.collUsed (s : State) (q : Nat) : Nat :=
  ((s.colls.filter (fun c => c.running && c.opc ≤ 2)).map (fun c =>
    (c.given.filter (fun e => e.1 % 4 = q)).foldl (fun n e => n + (e.2 - c.consumed.get 0 e.1)) 0)).foldl (· + ·) 0

def State.collFree (s : State) (q : Nat) : Nat := 512 - s.collUsed q

/-- AUX of PART, RESULT and DECLINE (Table 15.7). -/
def Coll.aux (c : Coll) (ch stage pos npos : Nat) (v : ChunkVal) : Nat :=
  c.group.id + c.opseq * 2 ^ 16 + ch * 2 ^ 32 + stage * 2 ^ 49 + pos * 2 ^ 51 + npos * 2 ^ 55 + bit v.resFail 59 +
    bit v.poison 60

/-- A PART (8) or RESULT (9) to a rank (R424). -/
def Coll.pkt (c : Coll) (kind dest ch stage : Nat) (v : ChunkVal) : CollSend :=
  let g := c.group
  let ring := stage = 1 || stage = 2
  { dest := if kind = 8 && stage = 1 then 0x10000 else dest, stage := stage,
    pkt := { dst := g.addrOf dest, dstFn := g.fns.getD dest 0, kind := kind, flow := leadIdx ch % 8,
             length := v.bytes.length, payload := v.bytes,
             aux := c.aux ch stage (if ring then g.pos g.rank else 0)
               (if ring then (g.trays (g.rackOf g.rank)).length - 1 else 0) v } }

/-- What advancing a chunk gives: the chunk, the packets to send, the chunk spaces freed (sender and stage), whether
a residue check failed, and the stages at which it was combined. -/
structure ChunkStep where
  k : ChunkSt
  posts : List CollSend := []
  eat : List (Nat × Nat) := []
  bad : Bool := false
  combined : List Nat := []
  deriving DecidableEq, Repr

/-- The value of a part that has arrived. -/
def ChunkSt.part (k : ChunkSt) (stage from' : Nat) : Option ChunkVal :=
  (k.parts.find? (fun p => p.1 = stage && p.2.1 = from')).map (fun p => p.2.2)

/-- Stage 2 of Table 15.6 at this member: the part goes to the tray leader, or the leader forms the tray value. -/
def Coll.trayStep (c : Coll) (ch : Nat) (x : ChunkStep) : ChunkStep :=
  let g := c.group
  let m := g.rank
  let lead := g.trayLeader ch (g.trayOf m)
  if m ≠ lead then
    if x.k.sentTray then x
    else match x.k.part 0 m with
      | none => x
      | some v => { x with k := { x.k with sentTray := true }, posts := x.posts ++ [c.pkt 8 lead ch 0 v] }
  else if x.k.trayVal.isSome then x
  else
    let rs := g.trayRanks (g.trayOf m)
    let vs := rs.map (x.k.part 0)
    if vs.any Option.isNone then x
    else
      let r := c.fold ch (vs.filterMap id)
      { x with k := { x.k with trayVal := r.1 }, eat := x.eat ++ (rs.filter (· ≠ m)).map (fun p => (p, 0)),
               bad := x.bad || r.2, combined := x.combined ++ (if rs.length > 1 then [0] else []) }

/-- Stage 3 at a tray leader: the rack switch, or the rack ring after DECLINE (R426, R427). -/
def Coll.rackStep (c : Coll) (ch : Nat) (x : ChunkStep) : ChunkStep :=
  let g := c.group
  let m := g.rank
  let rack := g.rackOf m
  let ts := g.trays rack
  let n := ts.length
  let pos := g.pos m
  let at' := fun i => g.trayLeader ch (ts.getD i 0)
  match x.k.trayVal with
  | none => x
  | some t =>
    if x.k.rackVal.isSome then x
    else if n ≤ 1 then { x with k := { x.k with rackVal := some t } }
    else if !x.k.sentRack then
      { x with k := { x.k with sentRack := true }, posts := x.posts ++ [c.pkt 8 (g.rackLeader ch rack) ch 1 t] }
    else if !x.k.declined || x.k.ringSent then x
    else if pos = 0 then
      { x with k := { x.k with ringSent := true }, posts := x.posts ++ [c.pkt 8 (at' 1) ch 2 t] }
    else match x.k.part 2 (at' (pos - 1)) with
      | none => x
      | some p =>
        let r := c.comb ch p t
        let x := { x with eat := x.eat ++ [(at' (pos - 1), 2)], bad := x.bad || r.2, combined := x.combined ++ [2] }
        if pos + 1 = n then
          { x with k := { x.k with ringSent := true, rackVal := some r.1 },
                   posts := x.posts ++ (List.range pos).map (fun i => c.pkt 9 (at' i) ch 2 r.1) }
        else { x with k := { x.k with ringSent := true }, posts := x.posts ++ [c.pkt 8 (at' (pos + 1)) ch 2 r.1] }

/-- Stage 4 at a rack leader (R423). -/
def Coll.globalStep (c : Coll) (ch : Nat) (x : ChunkStep) : ChunkStep :=
  let g := c.group
  let m := g.rank
  match x.k.rackVal with
  | none => x
  | some r =>
    if x.k.result.isSome then x
    else if !g.multiRack then { x with k := { x.k with result := some r } }
    else if g.pos m ≠ 0 then x
    else
      let gl := g.globalLeader ch
      if m ≠ gl then
        if x.k.sentGlobal then x
        else { x with k := { x.k with sentGlobal := true }, posts := x.posts ++ [c.pkt 8 gl ch 3 r] }
      else
        let ls := g.racks.map (g.rackLeader ch)
        let vs := ls.map (fun l => if l = m then some r else x.k.part 3 l)
        if vs.any Option.isNone then x
        else
          let v := c.fold ch (vs.filterMap id)
          let back := ls.filter (fun l => l ≠ m && (g.ranks.any (fun q => g.rackOf q = g.rackOf l && c.needs ch q)))
          { x with k := { x.k with result := v.1 }, bad := x.bad || v.2, combined := x.combined ++ [3],
                   eat := x.eat ++ (ls.filter (· ≠ m)).map (fun l => (l, 3)),
                   posts := x.posts ++ (v.1.toList.flatMap (fun w => back.map (fun l => c.pkt 9 l ch 3 w))) }

/-- Stage 5: a leader passes the result down (Table 15.6). -/
def Coll.returnStep (c : Coll) (ch : Nat) (x : ChunkStep) : ChunkStep :=
  let g := c.group
  let m := g.rank
  match x.k.result with
  | none => x
  | some v =>
    if x.k.passed then x
    else
      let x := { x with k := { x.k with passed := true } }
      if m ≠ g.trayLeader ch (g.trayOf m) then x
      else
        let ts := (g.trays (g.rackOf m)).filter (· ≠ g.trayOf m)
        let others := if g.multiRack && g.pos m = 0 then
            (ts.filter (fun t => (g.trayRanks t).any (c.needs ch))).map (fun t => c.pkt 9 (g.trayLeader ch t) ch 1 v)
          else []
        let own := ((g.trayRanks (g.trayOf m)).filter (fun r => r ≠ m && c.needs ch r)).map (fun r => c.pkt 9 r ch 0 v)
        { x with posts := x.posts ++ others ++ own }

/-- Everything a member can do now for a reduced chunk. -/
def Coll.advance (c : Coll) (ch : Nat) (k : ChunkSt) : ChunkStep :=
  let x := c.trayStep ch { k := k }
  if c.group.rank ≠ c.group.trayLeader ch (c.group.trayOf c.group.rank) then c.returnStep ch x
  else c.returnStep ch (c.globalStep ch (c.rackStep ch (c.rackStep ch x)))

/-- A result that arrives (R423): at a member, at a tray leader from the switch, the ring or its rack leader, or at a
rack leader from the global leader. -/
def Coll.takeResult (c : Coll) (stage : Nat) (k : ChunkSt) (v : ChunkVal) : ChunkSt :=
  let g := c.group
  match stage with
  | 1 =>
    if k.rackVal.isNone && !k.declined then { k with rackVal := some v }
    else if g.multiRack && g.pos g.rank ≠ 0 then { k with result := some v } else k
  | 2 => { k with rackVal := some v }
  | _ => { k with result := some v }

/-- This member has done all it owes to a reduced chunk. -/
def Coll.chunkDone (c : Coll) (ch : Nat) (k : ChunkSt) : Bool :=
  let g := c.group
  let m := g.rank
  if m ≠ g.trayLeader ch (g.trayOf m) then k.sentTray && (!c.needs ch m || k.result.isSome)
  else
    let expects := if !g.multiRack then true
      else if g.pos m ≠ 0 then (g.trayRanks (g.trayOf m)).any (c.needs ch)
      else if m = g.globalLeader ch then true
      else g.ranks.any (fun q => g.rackOf q = g.rackOf m && c.needs ch q)
    k.rackVal.isSome && (!expects || k.passed) && (!g.multiRack || g.pos m ≠ 0 || m = g.globalLeader ch || k.sentGlobal)

/-- A collective of this package by function and group; at most one of a group runs at a time (R419). -/
def State.collOf (s : State) (f gid : Nat) : Option Coll := s.colls.find? (fun c => c.fn = f && c.group.id = gid && c.running)

def State.putColl (s : State) (c : Coll) : State :=
  { s with colls := s.colls.map (fun d => if d.fn = c.fn && d.group.id = c.group.id && d.opseq = c.opseq then c else d) }

/-- A collective error (R433, R437): raised by an engine and charged to the member's function. -/
def State.raiseColl (s : State) (q f n : Nat) : State := s.raise .coll q (2 ^ n) (fnScope f)

/-- A collective aborts at this member (R433): its cause is set and counted; the function's stop cuts it. -/
def State.collAbort (s : State) (c : Coll) (n : Nat) : State :=
  if c.abort ≠ 0 then s
  else ((s.putColl { c with abort := n }).raiseColl c.quad c.fn n).count .coll c.quad 3 n c.fn 1

/-- Send a packet of stage 1 or 2 through the rack switch port of its chunk, whatever its destination (R423, R427). -/
def State.rackSend (s : State) (f : Nat) (p : FPkt) : State × Bool :=
  let slice := (s.fn f).slice
  match s.fab.addr, s.routeOf slice with
  | some me, some r =>
    let q := { s.routed r me { p with slice := slice } with final := 2, finalPort := p.flow }
    match s.pickPort q (6 + p.flow) false (routeMask r) with
    | some port => (s.enqueue port q false, slice ≠ 0)
    | none => (s, false)
  | _, _ => (s, false)

/-- Send one collective packet (R396, R424); answers whether it was sent. -/
def State.collSend1 (s : State) (f : Nat) (e : CollSend) : State × Bool :=
  if e.stage = 1 ∨ e.stage = 2 then s.rackSend f e.pkt
  else
    let r := s.fabSend f e.pkt
    (r.1, r.2.2)

/-- Send what grants allow, in order (R425); a packet that cannot be sent loses the collective. -/
def State.collFlushList (s : State) (c : Coll) : List CollSend → State × Coll
  | [] => (s, c)
  | e :: es =>
    let k := gKey e.dest e.stage
    let free := e.dest = 0x10000
    if free || c.held.get 0 k > 0 then
      let c := if free then c else { c with held := c.held.modify 0 k (· - 1) }
      match s.collSend1 c.fn e with
      | (s, true) => s.collFlushList c es
      | (s, false) => (s, { c with abort := if c.abort = 0 then 7 else c.abort, sends := c.sends ++ [e] ++ es })
    else s.collFlushList { c with sends := c.sends ++ [e] } es

/-- Send the packets of a collective that its grants allow and keep the rest waiting. -/
def State.collFlush (s : State) (c : Coll) : State :=
  let was := c.abort
  let (s, c') := s.collFlushList { c with sends := [] } c.sends
  if c'.abort ≠ was then (s.putColl { c' with abort := was }).collAbort { c' with abort := was } 7 else s.putColl c'

/-- A NOTICE packet to a rank (R424, Table 15.8). -/
def Coll.notice (c : Coll) (dest code arg : Nat) : FPkt :=
  { dst := c.group.addrOf dest, dstFn := c.group.fns.getD dest 0, kind := 0xB, flow := 0,
    aux := c.group.id + c.opseq * 2 ^ 16 + code * 2 ^ 32 + arg * 2 ^ 40 }

/-- Grant chunks to a sender for a stage (R425); nothing is sent to the rack switch. -/
def State.collGrant (s : State) (c : Coll) (peer stage q n : Nat) : State × Coll :=
  let c := { c with given := c.given.modify 0 (gKeyQ peer stage q) (· + n) }
  if n = 0 ∨ peer = 0x10000 then (s, c)
  else ((s.fabSend c.fn (c.notice peer 1 (n + stage * 2 ^ 16))).1, c)

/-- The engine that grants the chunks of a collective: the owner of a chunk of a reduction, the engine of the quadrant
that started it otherwise (R425). -/
def Coll.grantQuad (c : Coll) (ch : Nat) : Nat := if c.opc ≤ 2 then chunkQuad ch else c.quad

/-- RESIDUE, where the failure was found (R428, R437); it ends the collective with its function's stop. -/
def State.collResidue (s : State) (c : Coll) (q : Nat) : State × Coll :=
  let s := s.raiseColl q c.fn 4
  if c.abort = 0 then (s.count .coll q 3 4 c.fn 1, { c with abort := 4 }) else (s, c)

/-- A granted chunk has been consumed: up to 8 more are granted each time 8 have been (R425). A rack ring's chunks are
granted one for each decline. -/
def State.collConsume (s : State) (c : Coll) (peer stage q : Nat) : State × Coll :=
  let k := gKeyQ peer stage q
  let c := { c with consumed := c.consumed.modify 0 k (· + 1) }
  if stage ≠ 2 ∧ c.consumed.get 0 k % 8 = 0 then
    let s' := s.putColl c
    s.collGrant c peer stage q (if c.opc ≤ 2 then min 8 (s'.collFree q) else 8)
  else (s, c)

def State.collConsumeAll (s : State) (c : Coll) (q : Nat) : List (Nat × Nat) → State × Coll
  | [] => (s, c)
  | p :: ps =>
    let r := s.collConsume c p.1 p.2 q
    r.1.collConsumeAll r.2 q ps

/-- What keeps engine q from a slab range of a collective that has started: RANGE (bit 1), refused because a page became
RETIRED (R286), or LOST (bit 7), behind a mesh link that is down (R480). -/
def State.collReach (s : State) (c : Coll) (q a n : Nat) (write : Bool) : Option (Nat × SlabRes) :=
  let r := s.slabCheck c.fn none a n write false
  if !r.stillOk then some (1, r)
  else if ((s.pieces c.fn none (n / 65536 + 2) a n).getD []).any (fun p => !s.quadReaches q p.1) then some (7, .outside)
  else none

/-- A collective that cannot read or write its bytes ends with its function's stop. -/
def State.collFail (s : State) (c : Coll) (n : Nat) (r : SlabRes) : State × Coll :=
  if c.abort ≠ 0 then (s, c)
  else
    let s := (s.reportRefused c.fn r).raiseColl c.quad c.fn n
    (if n = 1 then s else s.count .coll c.quad 3 n c.fn 1, { c with abort := n })

/-- Engine q writes bytes of a result into DST (R422, R431): every codeword they touch is poisoned where they are. -/
def State.collWrite (s : State) (c : Coll) (q a : Nat) (bs : List Byte) (poison : Bool) : State × Coll :=
  match s.collReach c q a bs.length true with
  | some (n, r) => s.collFail c n r
  | none =>
    let s := s.putLines c.fn (s.spreadTile c.fn none) 1 a (bs.map (fun b => (b, poison))) []
    (s.statIf poison .coll q 9, c)

/-- Where the reduced chunk goes in this member's DST, and which of its bytes. -/
def Coll.resultAt (c : Coll) (ch : Nat) : Nat × Nat × Nat :=
  if c.opc = 2 then
    let p := c.cut ch c.group.rank
    (c.dst + (p.1 - c.group.rank * c.block), p.1 - 2048 * ch, p.2)
  else (c.dst + 2048 * ch, 0, c.lenOf ch)

/-- Advance a reduced chunk: send, free spaces, report residues, and write the result once. -/
def State.collAdvance (s : State) (c : Coll) (ch : Nat) : State :=
  let q := chunkQuad ch
  let x := c.advance ch (c.chunks.get {} ch)
  let (s, c) := s.collConsumeAll c (c.grantQuad ch) x.eat
  let (s, c) := if x.bad then s.collResidue c q else (s, c)
  let s := x.combined.foldl (fun s st => s.count .coll q 1 st c.fn 1) s
  let write := x.k.result.isSome && !x.k.written && c.needs ch c.group.rank
  let k := if write then { x.k with written := true } else x.k
  let c := { c with chunks := c.chunks.set {} ch k, sends := c.sends ++ x.posts }
  let (s, c) :=
    match write, x.k.result with
    | true, some v =>
      if ch = arriveChunk then (s, { c with final := some (Arrive.ofBytes v.bytes) })
      else
        let w := c.resultAt ch
        s.collWrite c q w.1 ((v.bytes.drop w.2.1).take w.2.2) v.poison
    | _, _ => (s, c)
  let s := (s.putColl c).collFlush c
  match c.final, s.collOf c.fn c.group.id with
  | some a, some c => if a.mismatch then s.collAbort c 3 else s
  | _, _ => s

/-- Where a data chunk of a sender goes in this member's DST, and which of its bytes (R423). -/
def Coll.dataAt (c : Coll) (ch from' : Nat) : Nat × Nat × Nat :=
  match c.opc with
  | 3 => (c.dst + from' * c.block + 2048 * ch, 0, c.lenOf ch)
  | 5 =>
    let p := c.cut ch c.group.rank
    (c.dst + from' * c.block + (p.1 - c.group.rank * c.block), p.1 - 2048 * ch, p.2)
  | _ => (c.dst + 2048 * ch, 0, c.lenOf ch)

/-- The senders from which this member waits for a data chunk. -/
def Coll.dataFrom (c : Coll) (ch : Nat) : List Nat :=
  let m := c.group.rank
  match c.opc with
  | 3 => c.group.ranks.filter (· ≠ m)
  | 5 => if (c.cut ch m).2 ≠ 0 then c.group.ranks.filter (· ≠ m) else []
  | 4 => if m = c.root then [] else [c.root]
  | _ => []

/-- Every chunk that this member takes part in is done. -/
def Coll.finished (c : Coll) : Bool :=
  c.running && c.abort = 0 && c.final.isSome && c.sends.isEmpty && c.all.all (fun ch =>
    let k := c.chunks.get {} ch
    if c.reduced ch then c.chunkDone ch k else (c.dataFrom ch).all (fun r => k.gotBlocks.contains r))

/-- The destination ranges that are not written (R311). -/
def Coll.unwritten (c : Coll) : List (Nat × Nat) :=
  if c.barrier then []
  else if c.opc ≤ 2 then
    (List.range c.nChunks).filterMap (fun ch =>
      let w := c.resultAt ch
      if (c.chunks.get {} ch).written || w.2.2 = 0 then none else some (w.1, w.2.2))
  else if !c.running then
    [(c.dst, (if c.opc = 4 then 1 else c.group.size) * c.block)]
  else (List.range c.nChunks).flatMap (fun ch =>
    ((c.dataFrom ch).filter (fun r => !(c.chunks.get {} ch).gotBlocks.contains r)).map (fun r =>
      let w := c.dataAt ch r
      (w.1, w.2.2)))

/-- The notice code that a stopping member sends for a collective (R433); none for one that a notice or a mismatch
aborted. -/
def Coll.stopCode (c : Coll) : Option Nat :=
  match c.abort with
  | 0 | 1 | 4 => some 2
  | 5 => some 3
  | 7 => some 4
  | _ => none

/-- Order 3 of a stop for one collective: notices to every other member where it has started, and its destination
poisoned (Table 11.5). -/
def State.collCut (s : State) (c : Coll) : State :=
  let s := match c.stopCode with
    | some code =>
      if c.admitted then (c.group.ranks.filter (· ≠ c.group.rank)).foldl (fun s r => (s.fabSend c.fn (c.notice r code 0)).1) s
      else s
    | none => s
  c.unwritten.foldl (fun s p => s.putLines c.fn (s.spreadTile c.fn none) 1 p.1 (List.replicate p.2 (0, true)) []) s

/-- Order 3 of a stop (Table 11.4): every collective of the function is cut and leaves the engines; answers how many
were aborted. -/
def State.collStop (s : State) (f : Nat) : State × Nat :=
  let cs := s.colls.filter (fun c => c.fn = f)
  let s := cs.foldl (fun s c => s.collCut c) s
  ({ s with colls := s.colls.filter (fun c => c.fn ≠ f), groups := s.groups.filter (fun g => g.1 ≠ f),
            opseqs := s.opseqs.filter (fun e => e.1 / 65536 ≠ f),
            collIn := s.collIn.filter (fun p => p.dstFn ≠ f) }, cs.length)

end Sys2Proof.Machine
end

