-- ==== Sys2Proof/Machine/Descriptors.lean ====
section
/-! DEFINITION. Starting a queued descriptor and signalling its end (R107 to R111, R232). -/

namespace Sys2Proof.Machine

/-- A Gusset descriptor keeps OPA, VE and SFU descriptors from starting (R232 steps 2 and 3): it holds the units, or
the array is empty and it waits for the VE queue's running descriptor. -/
def Tile.gussetHolds (x : Tile) : Bool :=
  match x.gus.run with
  | some r => r.acquired || x.arrayFree
  | none => false

/-- The head of a queue that may start: no descriptor of the queue runs and its header wait is satisfied (R110). -/
def Tile.startable (x : Tile) (q : EngQ) : Option Desc :=
  let e := x.eng q
  match e.run, e.queue with
  | none, d :: _ =>
    if d.waitEn && !tallyOk (x.tally d.waitTally) d.waitValue then none
    else if (q = .opa || q = .ve) && x.gussetHolds then none else some d
  | _, _ => none

/-- What the check of an engine finds in a descriptor (R113, R139, R171, R200, R254, R263): the state with its
errors raised, and whether the descriptor is rejected. -/
def State.checkDesc (s : State) (t : Nat) (q : EngQ) (d : Desc) : State × Bool :=
  match q with
  | .dma =>
    let c := s.dmaCheck t d.raw
    let vt := s.dmaVtile t d.raw
    let s := c.2.foldl (fun s r => s.reportRefused (s.ownerOr0 t) r) s
    let s := s.raiseT .dma t c.1
    (if vt then s.chanErr t 4 else s, c.1 ≠ 0)
  | .opa =>
    let c := s.opaCheck t d.raw
    let sc := s.tileScope t
    let s := ((s.raise .opa t c.1 sc).raise .sel t c.2.1 sc).raise .sel (t + 256) c.2.2 sc
    (s, c.1 ≠ 0 || c.2.1 ≠ 0 || c.2.2 ≠ 0)
  | .ve =>
    let m := s.veCheck t d.raw
    (s.raiseT (if d.engine = 2 then .sfu else .ve) t m, m ≠ 0)
  | .gus =>
    let m := s.gusCheck t d.raw
    (s.raiseT .gus t m, m ≠ 0)
  | .pw =>
    let m := pwCheck d.raw
    (s.raiseT .pw t m, m ≠ 0)

/-- The anchors that a descriptor resolves as it starts: a pass's for its column and row lines (R70), a sweep's for its queries
(R254). -/
def Tile.anchorsFor (x : Tile) (q : EngQ) (raw : Nat) : SMap Int × SMap Int :=
  match q with
  | .opa => x.passAnchors raw
  | .gus => (x.queryAnchors raw, [])
  | _ => ([], [])

/-- A queued descriptor starts and frees its queue entry; one that its engine rejects is dropped without a signal
(R110, R111). -/
def State.startDesc (s : State) (t : Nat) (q : EngQ) (d : Desc) : State :=
  let s := s.onTile t (fun x => x.setEng q { x.eng q with queue := (x.eng q).queue.tail })
  let c := s.checkDesc t q d
  if c.2 then c.1
  else c.1.onTile t (fun x =>
    let a := x.anchorsFor q d.raw
    x.setEng q { x.eng q with run := some { desc := d, anchCol := a.1, anchRow := a.2 } })

def execDescStart (t : TileId) (q : EngQ) (s : State) : Host.Outcome State Fault Refusal :=
  .next (if s.tileLive t then
      match (s.tile t).startable q with
      | some d => s.startDesc t q d
      | none => s
    else s)

/-- A descriptor whose writes are visible signals (R111); the last row of a pass has landed then (R162). -/
def execDescSignal (t : TileId) (q : EngQ) (s : State) : Host.Outcome State Fault Refusal :=
  .next (if s.tileLive t && ((((s.tile t).eng q).run.map (·.done)).getD false) then
      (if q = .opa then s.countT .opa t 6 0 1 else s).signalEng t q
    else s)

end Sys2Proof.Machine
end

