-- ==== Sys2Proof/Machine/Stop.lean ====
section
/-! DEFINITION. Stopping, starting and destroying a function (R305 to R315, R351, R96). -/

namespace Sys2Proof.Machine

/-- Poison byte ranges of tile memory, their bytes written 0 (R311). -/
def Tile.cutSpans (x : Tile) (l : List (Nat × Nat)) : Tile :=
  l.foldl (fun (x : Tile) p => if p.2 = 0 then x else x.write p.1 (List.replicate p.2 0) true) x

/-- The destinations of a VE or SFU descriptor (Table 11.5): its elements and its hem record. -/
def veCutSpans (raw : Nat) : List (Nat × Nat) :=
  let v := VeD.of raw
  match v.use with
  | some u => v.dSpans u ++ v.sideWrites u
  | none => []

/-- The destinations of a Gusset descriptor (Table 11.5): row records, output rows and hem entries of its valid rows. -/
def Tile.gusCutSpans (x : Tile) (raw : Nat) : List (Nat × Nat) :=
  let d := GusD.of raw
  let recs := d.rows.map (fun r => (d.recAt r, 2112))
  let outs := match d.op with
    | 1 | 3 => if d.op = 3 || d.fin then
        d.rows.map (fun r => (d.outAddr + r * d.outPitch, d.outF.fmt.bytes d.hd)) ++
          (if d.hemEn then d.rows.map (fun r => (d.hemAddr + 2 * r, 2)) else [])
      else []
    | 4 => d.rows.filterMap (fun r =>
        let sl := x.slot8 d (d.slotOf r)
        if sl.valid then some (d.outAddr + r * d.outPitch, 4 * (sl.hi - sl.lo)) else none)
    | _ => []
  recs ++ outs

/-- A bulk range that never arrives is poisoned in the receiver's window. -/
def State.cutWindow (s : State) (r : Nat) (e : Endpoint) (off n : Nat) : State :=
  if off + n ≤ e.window then s.writeWindow r e off (List.replicate n (0, true)) else s

/-- A started descriptor is cut before its writes are visible (R311, Table 11.5). -/
def State.cutRun (s : State) (t : Nat) (q : EngQ) (r : Run) : State :=
  let raw := r.desc.raw
  match q with
  | .opa => s.onTile t (fun x => x.cutPass r)
  | .ve => s.onTile t (fun x => x.cutSpans (veCutSpans raw))
  | .gus => s.onTile t (fun x => x.cutSpans (x.gusCutSpans raw))
  | .pw => s.onTile t (fun x => x.noStatus (AppD.of raw) (if r.begun then r.appendRows else List.range 64))
  | .dma =>
    let d := DmaD.of raw
    let f := s.ownerOr0 t
    if d.op = 2 then
      match s.bulkPeer t d with
      | none => s
      | some (rt, e) =>
        if r.ack then s else (rowStarts d.dst d.dstPitch d.rows).foldl (fun s o => s.cutWindow rt e o d.rowBytes) s
    else (rowStarts d.dst d.dstPitch d.rows).foldl
      (fun s a => s.putLines f t d.dstSpace a (List.replicate d.rowBytes (0, true)) []) s

/-- A packet carries bulk data or the acknowledgement of it. -/
def ChBody.isBulk : ChBody → Bool
  | .bulk _ _ _ _ | .bulkAck => true
  | _ => false

/-- Bulk data of a function that is in flight within the package is lost where its descriptors are cut: its bytes are
poisoned in the receiver's window (Table 11.5). Inline messages travel on until order 6. -/
def State.cutFlight (s : State) (f : Nat) : State :=
  let s := (s.noc.filter (fun p => p.fn = f)).foldl (fun (s : State) p =>
    match p.body with
    | .bulk off d _ _ => s.cutWindow p.dst ((s.tile p.dst).ep p.ep) off d.length
    | _ => s) s
  { s with noc := s.noc.filter (fun p => p.fn ≠ f || !p.body.isBulk) }

/-- A channel packet from another package that has not reached its tile when its function stops is discarded and answered
with a stop notice (R312); notices are not. -/
def State.cutRemote (s : State) (f : Nat) : State :=
  let gone := fun (p : ChPkt) => p.fn = f && p.srcPkg ≠ 0xFFFF && p.body ≠ .stopNotice && p.body ≠ .unreachable
  let ps := s.noc.filter gone
  let s := { s with noc := s.noc.filter (fun p => !gone p) }
  ps.foldl (fun (s : State) p =>
    let q : FPkt := { dst := s.fab.addr.getD 0, dstFn := f, src := p.srcPkg - 0x10000, slice := (s.fn f).slice, srcVt := p.srcVt }
    (s.sendNotice 5 (s.peerFn f q.src) q).1) s

/-- The five engine queues. -/
def engQs : List EngQ := [.opa, .ve, .gus, .pw, .dma]

/-- A running descriptor that a stop does not cut: one whose writes are visible, which signals, and an INVALIDATE, which runs
to its end (Table 11.5). -/
def Run.uncut (r : Run) (q : EngQ) : Bool := r.done || (q = .pw && r.desc.op = 2)

/-- Order 4a on one engine of a tile: its running descriptor is cut and counted. -/
def State.cutEng (s : State) (f t : Nat) (q : EngQ) : State :=
  match (((s.tile t).eng q).run).filter (fun r => !r.uncut q) with
  | none => s
  | some r =>
    let s := (s.cutRun t q r).onTile t (fun x => x.setEng q { x.eng q with run := none })
    s.onFn f (fun x => { x with stop := { x.stop with cut := x.stop.cut + 1,
                                                      tiles := x.stop.tiles.modify {} t (fun c => { c with cut := c.cut + 1 }) } })

/-- The rings of a function, ascending. -/
def State.ringsOf (s : State) (f : Nat) : List Nat :=
  (s.rings.filter (fun e => e.2.valid && e.2.fn = f)).map (·.1)

/-- A started ring command is cut (Table 11.5): a COPY that has not moved its bytes leaves its destination poisoned.
Answers whether it counts as cut: WAIT, SIGNAL and NOP just end, and one whose work is visible completes. -/
def State.cutCmd (s : State) (f : Nat) (c : RCmd) : State × Bool :=
  let op := fld c.raw 0 0 8
  if c.complete || c.cut then (s, false)
  else if op = 2 then
    (s.putLines f (s.spreadTile f none) 1 (fld c.raw 16 0 64) (List.replicate (fld c.raw 24 0 64) (0, true)) [], true)
  else (s, op = 1)

/-- The commands of a ring whose work is not visible are cut: none of them completes any more, and no LAUNCH delivers. -/
def State.cutRing (s : State) (f r : Nat) : State :=
  let (s, n) := (s.ring r).cmds.foldl (fun (p : State × Nat) c => let q := p.1.cutCmd f c; (q.1, p.2 + bit q.2 0)) (s, 0)
  (s.onRing r (fun g =>
    { g with cmds := g.cmds.map (fun c => if c.complete then c else { c with cut := true, deliver := [] }),
             waiting := false, serialHold := false })).onFn f
    (fun x => { x with stop := { x.stop with cut := x.stop.cut + n } })

/-- Orders 4a and 5 of Table 11.4: everything started is cut and its destinations are poisoned. -/
def State.cutAll (s : State) (f : Nat) : State :=
  let s := (s.tilesOf f).foldl (fun s t => engQs.foldl (fun s q => s.cutEng f t q) s) s
  let s := (s.ringsOf f).foldl (fun s r => s.cutRing f r) s
  s.cutFlight f

/-- Order 2 on one tile: queued descriptors are discarded and counted, and the sequencer retires no more. -/
def State.discardTile (s : State) (f t : Nat) : State :=
  let x := s.tile t
  let n := (engQs.map (fun q => (x.eng q).queue.length)).foldl (· + ·) 0
  let y := engQs.foldl (fun (x : Tile) q => x.setEng q { x.eng q with queue := [] }) x
  (s.setTile t { y with seqFault := true }).onFn f (fun z =>
    { z with stop := { z.stop with discarded := z.stop.discarded + n,
                                   tiles := z.stop.tiles.modify {} t (fun c => { c with discarded := c.discarded + n }) } })

/-- The cores of a function. -/
def State.coresOf (s : State) (f : Nat) : List Nat := (List.range 32).filter (fun c => (s.core c).fn = some f)

/-- HEAD and DONE of every ring of a function (R315). -/
def State.ringCounts (s : State) (f : Nat) : SMap (W32 × W32) :=
  (s.rings.filter (fun e => e.2.valid && e.2.fn = f)).map (fun e => (e.1, e.2.head, e.2.done))

/-- Orders 1 to 3 of Table 11.4, and order 4a in ABORT mode. `c` is the error that caused the stop. -/
def State.beginStop (s : State) (f : Nat) (abort : Bool) (c : Option Charge) : State :=
  let rings := s.ringCounts f
  let record : StopRec :=
    match c with
    | some e => { abort := abort, faulted := true, block := e.block, inst := e.inst, first := e.first, rings := rings }
    | none => { abort := abort, rings := rings }
  let s := s.onFn f (fun x => { x with st := .stopping, abort := abort, faulted := c.isSome, charge := none, stop := record,
                                       stopTime := s.timeNs })
  let s := (s.coresOf f).foldl (fun s k => s.onCore k (fun x =>
    { x with st := if x.st = .running then .halted else x.st })) s
  let s := (s.tilesOf f).foldl (fun s t => s.discardTile f t) s
  let unstarted := (s.ringsOf f).foldl (fun n r => n + ((s.ring r).tail - (s.ring r).head).toNat) 0
  let (s, n) := s.collStop f
  let s := s.onFn f (fun x => { x with stop := { x.stop with discarded := x.stop.discarded + unstarted, collAborted := n } })
  let s := (s.ringsOf f).foldl (fun s r => s.onRing r (fun g =>
    { g with cmds := g.cmds.map (fun c => { c with cut := c.cut || (!c.complete && (fld c.raw 0 0 8 = 5 || fld c.raw 0 0 8 = 6)) }) })) s
  let s := s.cutRemote f
  if abort then s.cutAll f else s

/-- A tile goes to LOADED, or stays EMPTY (Table 4.1, order 6 of Table 11.4): its registers, tallies, endpoints, launch
arguments and drain tokens are as new; its memories, bank records, patterns and look-aside buffer stay. -/
def Tile.unload (x : Tile) : Tile :=
  { owner := x.owner, image := x.image, mem := x.mem, poison := x.poison, slots := x.slots, plb := x.plb,
    patterns := x.patterns, retired := x.retired, gated := x.gated, resync := x.resync, tally24 := x.tally24,
    retireReq := x.retireReq, forceQueued := x.forceQueued, faultPc := x.faultPc,
    seq := if x.image.isSome then .loaded else .empty,
    bank0 := { x.bank0 with held := 0 }, bank1 := { x.bank1 with held := 0 } }

/-- The tile store of a tile that starts (R96, R104): the image's data, every other byte 0, every line clean. -/
def Tile.fillStore (x : Tile) : Tile :=
  let y := { x with mem := x.mem.filter (fun e => e.1 ≥ 0x600000), poison := x.poison.filter (fun e => e.1 ≥ 0x18000) }
  match x.image with
  | some i => { y with mem := putBytes y.mem i.dataAddr i.data }
  | none => y

/-- Order 6 for one tile, with its state change recorded. -/
def State.loadTile (s : State) (t : Nat) : State :=
  let new := if (s.tile t).image.isSome then SeqState.loaded else .empty
  (s.seqGoto t new).onTile t Tile.unload

/-- The stop record as Table 12.5 lays it out, from offset 1 (FUNCTION) where `kind` replaces offset 0. -/
def StopRec.bytes (r : StopRec) (f : Nat) : List Byte :=
  beBytes 1 (bit r.abort 0 + bit r.faulted 1) ++ beBytes 2 f ++ beBytes 1 r.block ++ beBytes 2 r.inst ++ [0, 0] ++
    beBytes 4 r.first.toNat ++ beBytes 4 r.discarded ++ beBytes 4 r.cut ++ beBytes 4 r.drained ++
    beBytes 4 r.collAborted ++ [0, 0, 0, 0] ++ beBytes 8 r.time

/-- Every started unit of work of a function has ended (order 4b of Table 11.4): no engine runs, and every command has
completed and signalled, or was cut. -/
def State.quiet (s : State) (f : Nat) : Bool :=
  (s.tilesOf f).all (fun t => engQs.all (fun q => (((s.tile t).eng q).run).isNone)) &&
    (s.ringsOf f).all (fun r => (s.ring r).cmds.all (fun c => c.signalled || c.cut))

/-- The dirty bytes of a core's caches are written back, each checked as a device-side access, and every copy they hold is
invalidated (R351). -/
def State.cacheFlush (s : State) (f c : Nat) : State :=
  let d := (s.core c).dirty
  (d.foldl (fun (s : State) e => match s.slabCheck f none e.1 1 true false with
    | .ok ps => s.writePieces ps [e.2] false
    | r => s.reportRefused f r) s).onCore c (fun x => { x with dirty := [], clean := [] })

/-- Orders 6 and 7 of Table 11.4. What still travels to the function's tiles is discarded with their state. -/
def State.endStop (s : State) (f : Nat) : State :=
  let s := (s.coresOf f).foldl (fun s c => s.cacheFlush f c) (s.cutFlight f)
  let s := { s with noc := s.noc.filter (fun p => p.fn ≠ f) }
  let s := (s.tilesOf f).foldl (fun s t => s.loadTile t) (s.dropPlb f)
  let s := (s.ringsOf f).foldl (fun s r => s.onRing r (fun g => { g with cmds := [] })) s
  let s := s.onFn f (fun x =>
    let r := { x.stop with abort := x.abort, time := s.timeNs }
    { x with st := .stopped, stop := r, lastStop := some r })
  s.notify f 1 ((s.fn f).stop.bytes f)

/-- The banks of a tile whose function starts (R158): every row FREE, the images zero, no row valid. -/
def Tile.freshBanks (x : Tile) : Tile :=
  { x with bank0 := { x.bank0 with accs := [], rowValid := 0, held := 0 }, bank1 := { x.bank1 with accs := [], rowValid := 0, held := 0 },
           firstPass := true }

/-- A core begins (R345): in machine mode at ENTRY, with reset register state, its watches, its frame queues and MB_CTL but
for a request outstanding. -/
def HCore.begin' (x : HCore) : HCore :=
  { fn := x.fn, entry := x.entry, digest := x.digest, request := x.request, reply := x.reply, go := x.go, fqMem := x.fqMem,
    st := if x.entry.isSome then .running else x.st, pc := x.entry.getD 0, machine := x.entry.isSome }

/-- Start of a STOPPED function (R306). -/
def State.startFn (s : State) (f : Nat) : State :=
  let s := (s.tilesOf f).foldl (fun s t =>
    (if (s.tile t).image.isSome then (s.loadTile t).onTile t Tile.fillStore else s).onTile t Tile.freshBanks) s
  let s := (s.ringsOf f).foldl (fun s r => s.onRing r (fun g =>
    { g with tail := 0, head := 0, done := 0, cmds := [], waiting := false, serialHold := false })) s
  let fn := s.fn f
  let s := (List.range fn.fences).foldl (fun s i => s.setFence (fn.fenceBase + i) 0) s
  let s := (s.coresOf f).foldl (fun s k => s.onCore k HCore.begin') s
  let s := (s.tilesOf f).foldl (fun s t =>
    match (s.tile t).image with
    | some i => (s.seqGoto t .running).onTile t (fun x => { x with pc := i.entry, regs := [], seqFault := false })
    | none => s) s
  s.onFn f (fun x => { x with st := .running, charge := none })

/-- A core is reset when it is assigned or withdrawn (R345): it waits for its function's next start. -/
def State.resetCore (s : State) (c : Nat) (f : Option Nat) : State :=
  s.setCore c { fn := f, st := if f.isSome then .waiting else .reset }

/-- A RETIRING page of an extent that changes or goes becomes RETIRED (Table 10.4). -/
def Slab.retireAll (b : Slab) : Slab :=
  { b with retire := (List.range 32).foldl (fun (m : SMap Retire) i =>
      let r := m.get {} i
      if r.valid then m.set {} i { r with retired := true } else m) b.retire }

/-- Clear WIN_PFLAG.INWIN of the window pages on one slab (R326). -/
def Slab.leaveWindow (b : Slab) : Slab := { b with pflag := [] }

/-- A slab leaves its function (R307, R326): no extent, no window page, no spread set. -/
def Slab.leaveFn (b : Slab) : Slab := { b.retireAll.leaveWindow with ext := {}, spread := [] }

/-- Withdraw a tile from its function (R343): its extent, its pattern slots and its program go with it, and its entry
in the virtual tile map becomes a hole. -/
def State.withdrawTile (s : State) (t : Nat) : State :=
  match (s.tile t).owner with
  | none => s
  | some f =>
    let x := s.tile t
    let s := s.onFn f (fun g => { g with vtmap := g.vtmap.map (fun v => if v = some t then none else v) })
    let s := s.setTile t { mem := x.mem, poison := x.poison, retired := x.retired, gated := x.gated, resync := x.resync,
                           tally24 := x.tally24, retireReq := x.retireReq, forceQueued := x.forceQueued }
    s.onSlab t Slab.leaveFn

/-- Connections of a function end (R368). -/
def State.closeConns (s : State) (f : Nat) : State :=
  { s with eth := { s.eth with conns := s.eth.conns.filter (fun e => (e.2.map (·.fn)) ≠ some f) } }

/-- Destroy a STOPPED function (R307); the extents of its retired tiles go too, and its events of this epoch stay counted
(R338). -/
def State.destroyFn (s : State) (f : Nat) : State :=
  let fn := s.fn f
  let s := (s.tilesOf f).foldl (fun s t => s.withdrawTile t) s
  let s := (List.range 80).foldl (fun (s : State) t =>
    if (s.slab t).ext.valid && (s.slab t).ext.fn = f then s.onSlab t Slab.leaveFn else s) s
  let s := (s.ringsOf f).foldl (fun s r => s.setRing r {}) s
  let s := (List.range fn.fences).foldl (fun s i => s.setFence (fn.fenceBase + i) 0) s
  let s := (s.coresOf f).foldl (fun s c => s.resetCore c none) s
  (s.closeConns f).setFn f { evSeq := fn.evSeq }

end Sys2Proof.Machine
end

