-- ==== Sys2Proof/Machine/SkelistOps.lean ====
section
/-! DEFINITION. Skelist messages: acceptance, replies, payload fields, and Thimble's access to a window (spec/12). -/

namespace Sys2Proof.Machine

/-- A field of a payload or of a reply in network byte order (R331). -/
def beAt (bs : List Byte) (o n : Nat) : Nat := beNat ((bs.drop o).take n)

/-- Every byte of a payload that no field names is 0 (R340). -/
def restZero (bs : List Byte) (named : List (Nat × Nat)) : Bool :=
  bs.zipIdx.all (fun b => b.1 = 0 || named.any (fun p => p.1 ≤ b.2 && b.2 < p.1 + p.2))

/-- A payload holds every named field and every other byte of it is 0 (R340). -/
def payOk (bs : List Byte) (named : List (Nat × Nat)) : Bool :=
  named.all (fun p => p.1 + p.2 ≤ bs.length) && restZero bs named

/-- Status codes of Table 12.2. -/
def stOk : Nat := 0
def stBusy : Nat := 1
def stDenied : Nat := 2
def stBadArg : Nat := 3
def stNoResource : Nat := 4
def stStopped : Nat := 5
def stFaulted : Nat := 6
def stUnsupported : Nat := 7

/-- CRC-16 of a chain frame (R379). -/
def chainCrc (bs : List Byte) : List Byte := beBytes 2 (crc16 0x1021 0xFFFF bs).toNat

/-- A chain frame from TYPE to its CRC (Table 13.5). -/
def chainFrame (type dest src hops : Nat) (payload : List Byte) : List Byte :=
  let b := beBytes 1 type ++ beBytes 1 dest ++ beBytes 1 src ++ beBytes 1 hops ++ beBytes 2 payload.length ++ payload
  b ++ chainCrc b

/-- A frame of the package itself waits to be sent; the oldest beyond four is dropped and counted (R380). -/
def State.chainOwn (s : State) (type dest : Nat) (payload : List Byte) : State :=
  let own := s.stch.own ++ [chainFrame type dest s.stch.index 0 payload]
  let s' := { s with stch := { s.stch with own := own.drop (own.length - 4) } }
  if own.length > 4 then (s'.raise .stch 0 4 {}).count .stch 0 2 2 0 1 else s'

/-- The package's BOARD_EVENT to the controller (Table 13.7). -/
def State.boardEvent (s : State) (kind : Nat) : State := s.chainOwn 5 0xFE (beBytes 1 kind)

def MsgDest.isMailbox : MsgDest → Bool
  | .mailbox _ => true
  | _ => false

/-- A signed or unsigned reply (R332, R336). -/
def replyBytes (epoch : W32) (r : Req) (status : Nat) (payload : List Byte) : List Byte :=
  let m := skelistHeader r.cmd status 1 r.fn payload.length r.seq ++ payload
  m ++ (match r.key with
    | some k => mac16 k (beBytes 4 epoch.toNat ++ m)
    | none => List.replicate 16 0)

/-- Hand a message to its destination: a datagram, a core's reply slot (R350), or a SKELIST frame on the chain. -/
def State.sendMsg (s : State) (d : MsgDest) (m : List Byte) : State :=
  match d with
  | .udp a => s.sendUdp [a] m
  | .mailbox c => s.onCore c (fun x => { x with reply := m, go := false, done := true })
  | .chain => s.chainOwn 0x86 0xFE m

/-- Reply to a request (R330, R334, R336): the reply is kept with the accepted request and counted by its status. -/
def State.reply (s : State) (r : Req) (status : Nat) (payload : List Byte) : State :=
  let m := replyBytes s.thm.bootEpoch r status payload
  let s := if r.key.isSome && !r.src.isMailbox then
      s.onFn r.fn (fun x => { x with accepted := x.accepted.map (fun a => if a.seq = r.seq then { a with reply := some m } else a) })
    else s
  (s.sendMsg r.src m).count .thm 0 2 status 0 1

/-- The function that signed a request has become FREE since the request was accepted. -/
def State.gone (s : State) (r : Req) : Bool := r.fn ≠ 0 && r.fn < 1024 && (s.fn r.fn).st = .free

/-- The conditions of a command in the order of Table 12.2, with the one that holds for every command after DENIED and
UNSUPPORTED: its own function is FREE (STOPPED). -/
def State.conditions (s : State) (r : Req) (conds : List (Bool × Nat)) : List (Bool × Nat) :=
  let early := fun (c : Bool × Nat) => c.2 = stDenied || c.2 = stUnsupported
  conds.takeWhile early ++ (s.gone r, stStopped) :: conds.dropWhile early

/-- The first condition that holds decides the status; otherwise the command takes effect (R336). -/
def State.judge (s : State) (r : Req) (conds : List (Bool × Nat)) (ok : State → State) : State :=
  match (s.conditions r conds).find? (fun c => c.1) with
  | some c => s.reply r c.2 []
  | none => ok s

/-- Thimble runs and serves a command: not halted in boot, and in the safe state only what R484 lets it answer. -/
def State.thmServes (s : State) (code : Nat) : Bool :=
  s.boot.pgood &&
    (if s.fatal.cause ≠ 0 then s.fatal.cause ≠ 1 && (code = 0x0101 || code = 0x0B01 || code = 0x0802)
     else if s.boot.fail ≠ 0 then s.boot.fail ≠ 2 && (code = 0x0101 || code = 0x0B01)
     else s.boot.order ≥ 5)

/-- A long command is in progress on a function (R337). -/
def State.longOn (s : State) (f : Nat) : Bool := s.thm.long.any (fun l => l.fn = f)

/-- A tack stops or holds the package (R506). -/
def State.tacked (s : State) : Bool := s.trc.tack ≠ .none

/-- An accepted request may start now: Thimble serves its command; an FN_STOP accepted under a tack takes effect once the tack
is resumed (R314). -/
def State.mayStart (s : State) (r : Req) : Bool := s.thmServes r.cmd && !(r.cmd = 0x0304 && s.tacked)

/-- Accepted requests start in order of acceptance (R337): where the next that may start is of this command, it leaves the
queue and is carried out. -/
def State.commandIf (s : State) (code : Nat) (want : Req → Bool) (f : State → Req → State) : State :=
  match takeFirst s.mayStart s.thm.queue with
  | some (r, q) => if r.cmd = code && want r then f { s with thm := { s.thm with queue := q } } r else s
  | none => s

def State.command (s : State) (code : Nat) (f : State → Req → State) : State := s.commandIf code (fun _ => true) f

/-- The commands that the package implements (Table 12.3). -/
def skelistCodes : List Nat :=
  [0x0101, 0x0102, 0x0103, 0x0104, 0x0201, 0x0301, 0x0302, 0x0303, 0x0304, 0x0305, 0x0306, 0x0307, 0x0308, 0x0309,
   0x0401, 0x0402, 0x0403, 0x0404, 0x0501, 0x0502, 0x0503, 0x0504, 0x0601, 0x0602, 0x0603, 0x0604, 0x0605,
   0x0701, 0x0702, 0x0703, 0x0704, 0x0801, 0x0802, 0x0901, 0x0902, 0x0903, 0x0904, 0x0A01, 0x0A02, 0x0A03,
   0x0B01, 0x0B02, 0x0B03, 0x0C01, 0x0C02, 0x0C03, 0x0D01, 0x0D02, 0x0D03]

/-- Commands that may travel on the stitch chain (R340). -/
def chainCodes : List Nat := [0x0101, 0x0801, 0x0802, 0x0A01, 0x0A02, 0x0B01]

/-- Queue an accepted request, or answer at once: BUSY beyond 64 in progress, UNSUPPORTED for an unknown command,
BAD_ARG for an FN_ASSIGN that names no kind of Table 12.7 (R336, R337, R340, R343). -/
def State.accept (s : State) (r : Req) : State :=
  let kind := beAt r.payload 2 1
  if s.thm.queue.length + s.thm.long.length ≥ 64 then s.reply r stBusy []
  else if !skelistCodes.contains r.cmd then s.reply r stUnsupported []
  else if r.cmd = 0x0305 ∧ (r.payload.length < 3 ∨ kind = 0 ∨ kind > 8) then
    let f := beAt r.payload 0 2
    s.reply r (if r.fn ≠ 0 then stDenied else if r.payload.length ≥ 2 ∧ f < 1024 ∧ (s.fn f).st = .free then stStopped else stBadArg) []
  else { s with thm := { s.thm with queue := s.thm.queue ++ [r] } }

/-- Drop a message with no reply (R335). -/
def State.dropMsg (s : State) : State := s.count .thm 0 1 0 0 1

/-- A message received (R331 to R336): dropped by R335, or accepted, repeated or denied by R334. The claim key signs for
function 0 until it is claimed (R332, R339), and a later CLAIM, which is denied. -/
def State.receiveMsg (s : State) (m : List Byte) (src : MsgDest) : State :=
  let cmd := beAt m 0 2
  let fn := beAt m 4 2
  let len := beAt m 6 2
  let seq := beAt m 8 8
  let payload := (m.drop 16).take len
  let head := m.take (16 + len)
  let mac := (m.drop (16 + len)).take 16
  if m.length < 32 ∨ m.length ≠ 32 + len ∨ len > 224 ∨ beAt m 3 1 % 4 ≠ 0 then s.dropMsg
  else if fn = 0xFFFF then
    let recent := s.thm.unsignedTimes.filter (fun t => s.timeNs - t < 1000000000)
    if cmd ≠ 0x0101 ∨ mac ≠ List.replicate 16 0 ∨ recent.length ≥ 1000 then s.dropMsg
    else ({ s with thm := { s.thm with unsignedTimes := recent ++ [s.timeNs] } }).accept
      { cmd := cmd, fn := fn, seq := seq, payload := payload, src := src }
  else if fn ≥ 1024 ∨ (s.fn fn).st = .free then s.dropMsg
  else
    let good := fun (k : BitVec 256) => mac = mac16 k (beBytes 4 s.thm.bootEpoch.toNat ++ head)
    let key := match s.keyOf fn with
      | some k => if good k then some k else none
      | none => none
    let claims := cmd = 0x0102 || (cmd = 0x0101 && s.thm.opKey.isNone)
    let key := key.or (if fn = 0 && claims && good s.fuses.claimKey then some s.fuses.claimKey else none)
    match key with
    | none => s.dropMsg
    | some k =>
      let x := s.fn fn
      let r : Req := { cmd := cmd, fn := fn, seq := seq, payload := payload, src := src, key := some k }
      if seq > x.lastSeq then
        let acc := x.accepted ++ [{ seq := seq, bytes := m, reply := none }]
        (s.setFn fn { x with lastSeq := seq, accepted := acc.drop (acc.length - 16) }).accept r
      else match x.accepted.find? (fun a => a.seq = seq && a.bytes = m) with
        | some a => match a.reply with
          | some b => s.sendMsg src b
          | none => s
        | none =>
          (s.sendMsg src (replyBytes s.thm.bootEpoch r stDenied [])).count .thm 0 2 stDenied 0 1

/-- The physical page of a window page of a function (R322): tile and slab page. -/
def State.winPage (s : State) (f i : Nat) : Option (Nat × Nat) :=
  let w := s.fn f
  if w.winValid && i < w.winPages then
    (s.resolve f none (2 ^ 61 + w.winSet * 2 ^ 40 + i * 65536)).map (fun p => (p.1, p.2 / 65536))
  else none

def State.pflagOf (s : State) (p : Nat × Nat) : PFlag := (s.slab p.1).pflag.get {} p.2

/-- Thimble may read, or write, a window page (R341). -/
def PFlag.thimble (p : PFlag) (write : Bool) : Bool :=
  let ok := fun (n : Nat) => if write then decide (n = 0) else n = 0 || n = 2
  p.inWin && ok p.flag && (!p.pending || ok p.newFlag)

/-- The window pages of a byte range. -/
def winPagesOf (off n : Nat) : List Nat := if n = 0 then [] else (List.range ((off + n - 1) / 65536 - off / 65536 + 1)).map (· + off / 65536)

/-- A byte range of a window that Thimble may access. -/
def State.winOk (s : State) (f off n : Nat) (write : Bool) : Bool :=
  (winPagesOf off n).all (fun i => match s.winPage f i with
    | some p => (s.pflagOf p).thimble write && s.slabOwns f p.1 (p.2 * 65536)
    | none => false)

/-- The slab address of a window offset. -/
def State.winAddr (s : State) (f off : Nat) : Nat := 2 ^ 61 + (s.fn f).winSet * 2 ^ 40 + off

/-- Read an image through a window (R341): none where a page fails the rule or a codeword is poisoned or
uncorrectable. -/
def State.winRead (s : State) (f off n : Nat) : State × Option (List Byte) :=
  if s.winOk f off n false then
    let (s, bs, p, u) := s.readPieces ((s.pieces f none (n / 65536 + 2) (s.winAddr f off) n).getD [])
    (s, if p || u then none else some bs)
  else (s, none)

/-- Write bytes through a window (R341). -/
def State.winWrite (s : State) (f off : Nat) (bs : List Byte) : State :=
  s.writePieces ((s.pieces f none (bs.length / 65536 + 2) (s.winAddr f off) bs.length).getD []) bs false

/-- Read an image and compare its digest (R341). -/
def State.readImage (s : State) (f off n : Nat) (digest : List Byte) : State × Option (List Byte) :=
  match s.winRead f off n with
  | (s, some bs) => (s, if sha256 bs = digest then some bs else none)
  | (s, none) => (s, none)

/-- A long command whose work is done waits for its completion to be sent (R337). -/
def State.holdLong (s : State) (r : Req) (f status : Nat) (payload : List Byte) : State :=
  { s with thm := { s.thm with long := s.thm.long ++ [{ req := r, fn := f, result := some (status, payload) }] } }

/-- KEY_WRAP of a command unwrapped (R333). -/
def State.unwrap (s : State) (r : Req) (wrapKey : BitVec 256) (label : List Byte) (fn : Nat) (w : List Byte) : BitVec 256 :=
  let pad := hmac wrapKey (label ++ beBytes 4 s.thm.bootEpoch.toNat ++ beBytes 8 r.seq ++ beBytes 2 fn)
  BitVec.ofNat 256 (beNat ((w.zip pad).map (fun p => p.1 ^^^ p.2)))

/-- ASCII labels of R333. -/
def labelClaim : List Byte := [0x43, 0x4C, 0x41, 0x49, 0x4D]
def labelFnkey : List Byte := [0x46, 0x4E, 0x4B, 0x45, 0x59]

/-- CAP0 (Table 0.2). -/
def Fuses.cap0 (x : Fuses) : Nat :=
  x.stepDigit + x.stepLetter * 16 + x.grade * 2 ^ 8 + x.stackDies * 2 ^ 16 + x.part * 2 ^ 20 +
    (x.stepLetter * 10 + x.stepDigit) % 16 * 2 ^ 24

/-- The JTAG device identification register (R543). -/
def Fuses.idcode (x : Fuses) : Nat :=
  1 + Config.manufacturer.toNat * 2 + (0x4B40 + x.part) * 2 ^ 12 + x.cap0 / 2 ^ 24 * 2 ^ 28

/-- CAP1 (Table 0.3): a TVX-LK4E has no cores, torus ports or pattern RAM. -/
def State.cap1 (s : State) : Nat :=
  let e := s.fuses.part ≠ 3
  bit e 0 + bit e 1 + bit e 2 + ((List.range 80).filter (fun t => !(s.tile t).retired)).length * 2 ^ 16

/-- FN_STATE and FN_CFG as register images (Tables 11.11, 11.12). -/
def FnSt.code : FnSt → Nat
  | .free => 0 | .stopped => 1 | .running => 2 | .stopping => 3

def Fn.stateReg (x : Fn) : Nat := x.st.code + bit x.abort 2 + bit x.faulted 3
def Fn.cfgReg (x : Fn) : Nat := x.drainLimit + x.fenceBase * 2 ^ 14 + x.fences * 2 ^ 28
/-- WIN_CFG as a register image (Table 11.18). -/
def Fn.winReg (x : Fn) : Nat := x.winSet + x.winPages * 2 ^ 5 + bit x.winValid 26

/-- The voltage domain of a tile (R17): two by two tiles, numbered row by row. -/
def domainOf (t : Nat) : Nat := t / 8 / 2 * 4 + t % 8 / 2

end Sys2Proof.Machine
end

