-- ==== Sys2Proof/Machine/PowerOps.lean ====
section
/-! DEFINITION. Operating points, ceilings, throttle reasons and their durations, and the controlled value of the power
governor (spec/16). -/

namespace Sys2Proof.Machine

/-- Setpoint of an operating point of a domain: the fused VNOM, whose typical values Table 16.1 gives. -/
def vnomTypical : Nat → Nat
  | 1 => 560 | 2 => 600 | 3 => 640 | 4 => 680 | 5 => 720 | 6 => 760 | 7 => 805 | _ => 850

def Fuses.vnom (x : Fuses) (d op : Nat) : Nat := x.vtab.get (vnomTypical op) (d * 16 + op)
def Fuses.age (x : Fuses) (d : Nat) : Nat := x.ageMax.get 30 d
def Fuses.limit (x : Fuses) (d : Nat) : Nat := x.ilim.get 100 d

/-- Target step rate of an operating point in Mstep/s (Table 16.1). -/
def targetRate : Nat → Nat
  | 1 => 600 | 2 => 800 | 3 => 1000 | 4 => 1200 | 5 => 1350 | 6 => 1500 | 7 => 1650 | 8 => 1800 | _ => 0

def State.dom (s : State) (d : Nat) : Dom := s.pwr.doms.get {} d
/-- The voltage domain of the collective engine of a quadrant (Table 15.10). -/
def collDomain (q : Nat) : Nat := [0, 3, 16, 19].getD q 0
/-- The step rate of a collective engine in Mstep/s (R436, R448): its domain's, and 1,200 while the domain is gated, where the
engine works on. No collective command asks for the tiles of the domain. -/
def State.collRate (s : State) (q : Nat) : Nat :=
  let x := s.dom (collDomain q)
  if x.gated then 1200 else targetRate x.op
def State.setDom (s : State) (d : Nat) (x : Dom) : State := { s with pwr := { s.pwr with doms := s.pwr.doms.set {} d x } }
/-- SLB_STAT as it reads (Table 10.8): the w1c bits, and HOT (bit 2) while the stack's refresh rate is doubled (R297). -/
def State.slbStat (s : State) (t : Nat) : W32 := s.stat .slb t ||| BitVec.ofNat 32 (bit (s.dom (domainOf t)).doubled 2)
/-- COLL_STAT as it reads (Table 15.12): the w1c bits, BUSY, and the collectives running on the package. -/
def State.collStat (s : State) (q : Nat) : W32 :=
  s.stat .coll q ||| BitVec.ofNat 32 (bit (s.colls.any (fun c => c.running)) 0 + (s.colls.filter (·.admitted)).length % 128 * 2)
def State.onDom (s : State) (d : Nat) (f : Dom → Dom) : State := s.setDom d (f (s.dom d))

/-- HOST (R458). -/
def Pwr.host (x : Pwr) : Nat := if x.hostWarn then 1 else 8

/-- OP[d] of R455: the least of the desired point and the ceilings; 0 for a gated domain. -/
def Dom.held (x : Dom) (host : Nat) : Nat :=
  if x.gated then 0 else min x.want (min x.grant (min x.therm (min x.curr (min host x.pace))))

def State.opOf (s : State) (d : Nat) : Nat := (s.dom d).held s.pwr.host

/-- The temperature of a domain: the highest reading of its tiles' sensors (R456), in 1/16 °C. -/
def Dom.temp (x : Dom) : Int := x.tileTemp.foldl (fun m e => max m e.2.toInt) (if x.tileTemp.length = 4 then -32768 else 0)

/-- A ceiling binds: it equals OP[d] below want[d] (R463). -/
def Dom.binds (x : Dom) (host c : Nat) : Bool := !x.gated && c = x.held host && decide (c < x.want)

/-- The reasons of Table 16.5 active on a domain, as a mask. -/
def Pwr.reasons (p : Pwr) (x : Dom) : Nat :=
  let h := p.host
  let g := x.binds h x.grant || (!x.gated && decide (p.duty < 8))
  bit (g && p.mode = 0) 0 + bit (x.binds h x.therm || x.thermGate || x.stackSlow) 1 + bit (x.binds h x.curr) 2 +
    bit x.droop 3 + bit (g && p.mode ≠ 0) 4 + bit (x.binds h x.pace) 5 + bit (x.binds h h) 6

def doms20 : List Nat := List.range 20

/-- ACTIVE of Table 16.6. -/
def Pwr.active (p : Pwr) : Nat := doms20.foldl (fun m d => m ||| p.reasons (p.doms.get {} d)) 0

/-- The durations brought up to date (R463, Table 18.1): by reason, and by domain and reason (key d × 32 + reason) or
operating point (key d × 32 + 16 + point). -/
def Pwr.accrue (p : Pwr) (now : Nat) : Pwr :=
  let dt := now - p.since
  if dt = 0 then { p with since := now }
  else
    let act := p.active
    let dur := (List.range 7).foldl (fun (m : SMap Nat) n => if act.testBit n then m.modify 0 n (· + dt) else m) p.dur
    let dd := doms20.foldl (fun (m : SMap Nat) d =>
      let x := p.doms.get {} d
      let r := p.reasons x
      let m := (List.range 7).foldl (fun (m : SMap Nat) n => if r.testBit n then m.modify 0 (d * 32 + n) (· + dt) else m) m
      m.modify 0 (d * 32 + 16 + x.op) (· + dt)) p.domDur
    { p with since := now, dur := dur, domDur := dd }

def State.accrue (s : State) : State := { s with pwr := s.pwr.accrue s.timeNs }

/-- A change of the governor's state: durations are brought up to date first; then each domain whose reasons changed
records a throttle change (Table 18.3), and thermal throttling that begins after 1 s without it is reported on the stitch
chain (R456). -/
def State.pwrStep (s : State) (f : State → State) : State :=
  let s := s.accrue
  let was := s.pwr.active
  let n := f s
  let n := doms20.foldl (fun (n : State) d =>
    if n.pwr.reasons (n.dom d) = s.pwr.reasons (s.dom d) then n
    else n.event .pwr d 7 (some 0) (n.pwr.active + n.opOf d * 256) false) n
  if n.pwr.active.testBit 1 then
    if !was.testBit 1 && n.timeNs - n.pwr.thermEnd ≥ 1000000000 then n.boardEvent 4 else n
  else if was.testBit 1 then { n with pwr := { n.pwr with thermEnd := n.timeNs } }
  else n

/-- The governor runs: Thimble's firmware is up, in no safe state. A tack does not stop it (R506). -/
def State.govRuns (s : State) : Bool := s.boot.pgood && s.fatal.cause = 0 && s.boot.order ≥ 5 && s.boot.fail = 0

/-- The controlled value C of Table 16.3 as a fraction in mW. -/
def Pwr.controlled (p : Pwr) : Nat × Nat :=
  match p.mode with
  | 0 => (p.estMw, 1)
  | 1 => (p.estMw * p.ratioM * 110, p.ratioE * 100)
  | _ => (p.estMw * 120, 100)

/-- A domain is idle while no tile of it holds a loaded program of a RUNNING function (R459). -/
def State.domIdle (s : State) (d : Nat) : Bool :=
  !(s.dom d).gated && (List.range 80).all (fun t => domainOf t ≠ d || (s.tile t).image.isNone ||
    (match (s.tile t).owner with
      | some f => (s.fn f).st ≠ .running
      | none => true))

/-- a ÷ b < c ÷ d, with a zero denominator counting as 0. -/
def fracLt (a b c d : Nat) : Bool := if d = 0 then false else if b = 0 then 0 < c else a * d < c * b

/-- Does domain `a` come before `b` when GRANT is lowered (R455): highest OP, then highest w, then highest index? -/
def State.lowerFirst (s : State) (a b : Nat) : Bool :=
  let x := s.dom a
  let y := s.dom b
  let oa := s.opOf a
  let ob := s.opOf b
  decide (ob < oa) || (oa = ob && (fracLt y.wWait y.periods x.wWait x.periods ||
    (!fracLt x.wWait x.periods y.wWait y.periods && decide (b < a))))

/-- Lower GRANT on up to `k` domains, none twice (R455). -/
def State.lowerGrants (s0 : State) : Nat → List Nat → State → State
  | 0, _, s => s
  | k + 1, cand, s =>
    match cand with
    | [] => s
    | c :: cs =>
      let best := cs.foldl (fun b d => if s0.lowerFirst d b then d else b) c
      s0.lowerGrants k (cand.filter (· ≠ best)) (s.onDom best (fun x => { x with grant := x.grant - 1 }))

/-- Command the operating point of R455 wherever it differs from the one commanded (R444, order 1 of Table 16.2). -/
def State.commandOps (s : State) : State :=
  doms20.foldl (fun (s : State) d =>
    let op := s.opOf d
    let x := s.dom d
    if x.gated || x.op = op then s
    else s.setDom d { x with op := op, target := s.fuses.vnom d op, acked := false, slewing := true }) s

/-- A temperature of the POWER_QUERY reply: the highest of a list, 16 bits. -/
def maxTemp (l : List Int) : Nat := ((l.foldl max (l.headD 0)) % 65536).toNat

/-- The POWER_QUERY reply (Table 16.6). -/
def State.powerReply (s0 : State) : List Byte :=
  let s := s0.accrue
  let p := s.pwr
  beBytes 2 p.capW ++ beBytes 2 p.grantW ++ beBytes 4 (if p.grantW = 0 then 0 else (p.leaseEnd - s.timeNs) / 1000000) ++
    beBytes 2 (if p.lastEst.2 = 0 then 0 else p.lastEst.1 / p.lastEst.2 / 1000) ++
    beBytes 2 (match p.lastM with | some m => m / 1000 | none => 0xFFFF) ++
    beBytes 1 p.mode ++ beBytes 1 p.active ++
    beBytes 2 (maxTemp (doms20.map (fun d => (s.dom d).temp))) ++
    beBytes 2 (maxTemp (doms20.map (fun d => (s.dom d).stackTemp.toInt))) ++
    beBytes 1 p.slowTile ++ beBytes 1 p.duty ++
    beBytes 10 (doms20.foldl (fun n d => n + (s.dom d).op * 16 ^ d) 0) ++ [0, 0] ++
    (List.range 7).flatMap (fun n => beBytes 8 (p.dur.get 0 n))

end Sys2Proof.Machine
end

