-- ==== Sys2Proof/Machine/FnOps.lean ====
section
/-! DEFINITION. Assigning and withdrawing the resources of a function, the default memory service, and paths of the mesh
(R281, R282, R285, R322, R343, R345, R353, R480). -/

namespace Sys2Proof.Machine

/-- The edge tiles where the cores of a quadrant enter the mesh (R19). -/
def coreTiles (c : Nat) : List Nat :=
  let q := c / 8
  (List.range 4).map (fun i => (if q < 2 then 0 else 72) + q % 2 * 4 + i)

/-- Every path that a set of tiles and cores needs is up (R480). -/
def State.pathsOk (s : State) (tiles cores : List Nat) : Bool :=
  tiles.all (fun a => tiles.all (fun b => s.pathOk a b)) &&
    cores.all (fun c => tiles.all (fun b => (coreTiles c).any (fun a => s.pathOk a b && s.pathOk b a)))

/-- Write every codeword of a page range with data 0 and metadata 0 (R282). -/
def Slab.zeroPages (b : Slab) (first n : Nat) : Slab :=
  let lo := first * 1024
  let hi := (first + n) * 1024
  { b with data := b.data.filter (fun e => e.1 / 64 < lo || hi ≤ e.1 / 64), mdata := b.mdata.filter (fun e => e.1 < lo || hi ≤ e.1),
           chk := b.chk.filter (fun e => e.1 < lo || hi ≤ e.1) }

/-- Set an extent (R281, R282): pages that were not in it are zeroed first, RETIRING pages of the old one leave
service (Table 10.4). -/
def Slab.setExtent (b : Slab) (f first n : Nat) : Slab :=
  let keep := b.ext.valid && b.ext.fn = f
  let old := b.ext
  let b := if keep && old.basePage = first && old.pages = n then b else b.retireAll
  let b := if keep then
      let lo := max first old.basePage
      let hi := min (first + n) (old.basePage + old.pages)
      if lo < hi then (b.zeroPages first (lo - first)).zeroPages hi (first + n - hi) else b.zeroPages first n
    else b.zeroPages first n
  { b with ext := { basePage := first, pages := n, fn := f, valid := true } }

/-- A tile becomes a function's (R343, R285, R221, R492, R496): EMPTY, with the function's spread table and patterns,
its counters and event ring cleared. -/
def State.giveTile (s : State) (f t first n : Nat) : State :=
  let s := s.onSlab t (fun b => b.setExtent f first n)
  if (s.tile t).owner = some f then s
  else
    let peer := (s.tilesOf f).head?
    let x := s.tile t
    let s := s.setTile t { owner := some f, mem := x.mem, poison := x.poison, retired := x.retired, gated := x.gated,
                           resync := x.resync, tally24 := x.tally24, retireReq := x.retireReq, forceQueued := x.forceQueued,
                           patterns := (s.fn f).patterns }
    let s := s.onSlab t (fun b => { b with spread := (peer.map (fun p => (s.slab p).spread)).getD [] })
    { s with evrings := s.evrings.erase t,
             ctrs := s.ctrs.filter (fun e =>
               let i := e.1 / 2 ^ 26
               !(i % 1024 = t && (match Blk.ofCode (i / 1024) with
                 | some b => b.perTile
                 | none => false))) }

/-- The window of a function over its spread set (R322): every page HOST and in the window, the old window's pages out
of it. -/
def State.setWindow (s : State) (f set pages : Nat) (valid : Bool) : State :=
  let s := (s.tilesOf f).foldl (fun s t => s.onSlab t Slab.leaveWindow) s
  let s := s.onFn f (fun x => { x with winSet := set, winPages := pages, winValid := valid })
  if !valid then s
  else
    let sp := (s.slab (s.spreadTile f none)).spread.get {} set
    let n := popcount sp.members
    (List.range n).foldl (fun (s : State) k =>
      match kthBit sp.members k with
      | none => s
      | some v => match s.vtile f v with
        | none => s
        | some t => s.onSlab t (fun b =>
            let cnt := (pages + n - 1 - k) / n
            let upd := (List.range cnt).map (fun i => (b.ext.basePage + sp.basePage + i, ({ inWin := true } : PFlag)))
            { b with pflag := upd })) s

/-- The capacity of a spread set in 64 KiB pages. -/
def State.setCapacity (s : State) (f set : Nat) : Nat :=
  let sp := (s.slab (s.spreadTile f none)).spread.get {} set
  if sp.valid then popcount sp.members * sp.granules else 0

/-- A spread set that R285 refuses. -/
def State.badSpread (s : State) (f : Nat) (members : BitVec 80) (base gran : Nat) : Bool :=
  members = 0 || (List.range 80).any (fun v => members.getLsbD v &&
    (match s.vtile f v with
      | none => true
      | some t => !(s.slab t).ext.valid || (s.slab t).ext.pages < base + gran))

def State.setSpread (s : State) (f set : Nat) (x : Spread) : State :=
  (s.tilesOf f).foldl (fun s t => s.onSlab t (fun b => { b with spread := b.spread.set {} set x })) s

/-- The bits of a mask in network byte order, as a number whose bit v is bit v of the field. -/
def beMask (bs : List Byte) (o n : Nat) : Nat := beAt bs o n

/-- Default memory service (R353): function f owns row f − 1. Its gated domains are ungated (R448). -/
def State.startService (s : State) (f : Nat) : State :=
  let ts := (List.range 8).map (fun x => (f - 1) * 8 + x) |>.filter (fun t => !(s.tile t).retired)
  if ts.isEmpty || (s.fn f).st ≠ .free then s
  else
    let n := s.slabPages
    let s := s.setFn f { st := .stopped, key := s.thm.opKey.getD 0, service := true, evSeq := (s.fn f).evSeq }
    let s := ts.foldl (fun s t => s.giveTile f t 0 n) s
    let s := (ts.map domainOf).eraseDups.foldl (fun (s : State) d =>
      if (s.dom d).gated then s.onDom d (fun x => { x with ungating := true }) else s) s
    let s := s.onFn f (fun x => { x with vtmap := ts.map some })
    let s := s.setSpread f 0 { members := BitVec.ofNat 80 (2 ^ ts.length - 1), basePage := 0, granules := n, valid := true }
    (s.setWindow f 0 (ts.length * n) true).startFn f

/-- Functions 1 to 10 belong to the default memory service while it runs (R354), but for one whose row holds no tile in
service, which was not created (R353). -/
def State.inService (s : State) (f : Nat) : Bool :=
  1 ≤ f && f ≤ 10 && (List.range 10).any (fun i => (s.fn (i + 1)).service) &&
    (List.range 8).any (fun x => !(s.tile ((f - 1) * 8 + x)).retired)

/-- Set up the default memory service where the setting and the claim ask for it (R353). -/
def State.startServices (s : State) : State :=
  if s.thm.defaultMem && s.thm.opKey.isSome then (List.range 10).foldl (fun s i => s.startService (i + 1)) s else s

/-- A package-wide reservation: no function but those of the default memory service is RUNNING (R382). -/
def State.noneRunning (s : State) : Bool := s.fns.all (fun e => e.2.st ≠ .running || e.2.service)

end Sys2Proof.Machine
end

