-- ==== Sys2Proof/Machine/FnCommands.lean ====
section
/-! DEFINITION. The Skelist commands on functions and their resources, and the stop of a function (spec/11, spec/12). -/

namespace Sys2Proof.Machine

/-- A command under the operator key (O): the target function is named in the payload. -/
def Req.notOperator (r : Req) : Bool := r.fn ≠ 0 || r.key.isNone

/-- A stopped-only setting may not change now (R308, R337, R506). -/
def State.busyFor (s : State) (f : Nat) : Bool := (s.fn f).st ≠ .stopped || s.longOn f || s.tacked

def execFnCreate (s : State) : Host.Outcome State Fault Refusal :=
  .next (s.command 0x0301 (fun s r =>
    let f := beAt r.payload 0 2
    s.judge r [(r.notOperator, stDenied), (!payOk r.payload [(0, 2), (2, 32)] || f = 0 || f ≥ 1024, stBadArg), (s.tacked, stBusy),
        ((s.fn f).st ≠ .free || s.inService f, stNoResource)] (fun s =>
      (s.setFn f { st := .stopped, evSeq := (s.fn f).evSeq,
                   key := s.unwrap r (s.thm.opKey.getD 0) labelFnkey f ((r.payload.drop 2).take 32) }).reply r stOk [])))

def execFnDestroy (s : State) : Host.Outcome State Fault Refusal :=
  .next (s.command 0x0302 (fun s r =>
    let f := beAt r.payload 0 2
    let st := (s.fn f).st
    s.judge r [(r.notOperator || (f = 0 && r.payload.length ≥ 2), stDenied), (f < 1024 && st = .free, stStopped),
        (!payOk r.payload [(0, 2)] || f ≥ 1024, stBadArg), (s.busyFor f, stBusy)] (fun s =>
      (s.destroyFn f).reply r stOk [])))

/-- A virtual tile map with a hole, and one that names a retired tile (R343, R490). -/
def Fn.hasHole (x : Fn) : Bool := x.vtmap.any Option.isNone

def execFnStart (s : State) : Host.Outcome State Fault Refusal :=
  .next (s.command 0x0303 (fun s r =>
    let f := r.fn
    let x := s.fn f
    let ts := s.tilesOf f
    s.judge r [(!payOk r.payload [] || (x.st ≠ .running && x.hasHole), stBadArg),
        (x.st ≠ .running && (x.vtmap.any (fun v => match v with
          | some t => (s.tile t).retired
          | none => false) || !s.pathsOk ts (s.coresOf f)), stFaulted),
        (x.st = .stopping || s.longOn f || s.tacked, stBusy)] (fun s =>
      (if x.st = .running then s else s.startFn f).reply r stOk [])))

/-- The fault history of the Thimble log takes the error that stops a function (R512). DESIGN CHOICE (log 66): the spec does
not say which faults are recorded. `unit` is block × 2^16 + instance, `value` the ERR_FIRST image. -/
def State.recordFault (s : State) (c : Charge) : State :=
  { s with flash := { s.flash with history := s.flash.history ++
      [HistRec.mk .fault s.timeNs (c.block * 2 ^ 16 + c.inst) c.first.toNat] } }

/-- FN_STOP (R309, R313). Where an error charged to the function has not begun its stop yet, that stop begins in ABORT mode
with the error, and the command finds the function STOPPING. -/
def execFnStop (s : State) : Host.Outcome State Fault Refusal :=
  .next (s.command 0x0304 (fun s r =>
    let f := r.fn
    let abort := beAt r.payload 0 1 = 1
    let st := (s.fn f).st
    s.judge r [(st = .stopped, stStopped), (!payOk r.payload [(0, 1)] || beAt r.payload 0 1 > 1, stBadArg)] (fun s =>
      match st, (s.fn f).charge with
      | .running, some c => ((s.recordFault c).beginStop f true (some c)).reply r stOk []
      | .running, none =>
        let s := s.beginStop f abort none
        { s with thm := { s.thm with long := s.thm.long ++ [{ req := r, fn := f }] } }
      | _, _ =>
        let s := if abort && !(s.fn f).abort then (s.onFn f (fun x => { x with abort := true })).cutAll f else s
        s.reply r stOk [])))

/-- A class U error charged to a RUNNING function stops it in ABORT mode (R309, R472), and the fault history takes it. -/
def execFnFaultStop (f : FnId) (s : State) : Host.Outcome State Fault Refusal :=
  .next (match (s.fn f).charge with
    | some c => if s.live && (s.fn f).st = .running then (s.recordFault c).beginStop f true (some c) else s
    | none => s)

/-- DRAIN_LIMIT expires (order 4b of Table 11.4). -/
def execDrainLimitExpire (f : FnId) (s : State) : Host.Outcome State Fault Refusal :=
  .next (if s.live && (s.fn f).st = .stopping && !(s.fn f).abort then s.cutAll f else s)

/-- The long commands of a kind on a function answer with a status and leave. -/
def State.finishLong (s : State) (code f status : Nat) (payload : List Byte) : State :=
  let done := s.thm.long.filter (fun l => l.req.cmd = code && l.fn = f)
  let s := { s with thm := { s.thm with long := s.thm.long.filter (fun l => !(l.req.cmd = code && l.fn = f)) } }
  done.foldl (fun s l => s.reply l.req status payload) s

/-- A SERVICE_CFG that clears the setting waits for its functions to stop (R355): each is destroyed, and the command
replies after the last. The pseudo-function 1,024 marks the command. -/
def State.serviceStopped (s : State) (f : Nat) : State :=
  if s.thm.long.any (fun l => l.req.cmd = 0x0104) && (s.fn f).service then
    let s := s.destroyFn f
    if s.fns.any (fun e => e.2.service) then s else s.finishLong 0x0104 1024 stOk []
  else s

/-- Orders 6 and 7 of a stop, once everything started has ended (Table 11.4). An ABORT asked for since the stop began
cuts what still runs. -/
def execStopComplete (f : FnId) (s : State) : Host.Outcome State Fault Refusal :=
  .next (if s.live && (s.fn f).st = .stopping then
      let s := if (s.fn f).abort then s.cutAll f else s
      if s.quiet f then ((s.endStop f).finishLong 0x0304 f stOk []).serviceStopped f else s
    else s)

/-- The oldest FN_ASSIGN of a kind of Table 12.7, with the checks that every kind shares (R308, R336, R343): the
payload's fields beyond FN and KIND, further argument checks, absent units, faults and resources. -/
def State.assign (s : State) (kind : Nat) (fields : List (Nat × Nat)) (unsup bad faulted taken : State → Req → Nat → Bool)
    (ok : State → Req → Nat → State) : State :=
  s.commandIf 0x0305 (fun r => beAt r.payload 2 1 = kind) (fun s r =>
    let f := beAt r.payload 0 2
    s.judge r [(r.notOperator, stDenied), (unsup s r f, stUnsupported), (f < 1024 && (s.fn f).st = .free, stStopped),
        (!payOk r.payload ([(0, 2), (2, 1)] ++ fields) || f ≥ 1024 || bad s r f, stBadArg), (faulted s r f, stFaulted),
        (s.busyFor f, stBusy), (taken s r f, stNoResource)] (fun s => ok s r f))

def never (_ : State) (_ : Req) (_ : Nat) : Bool := false

/-- The physical tiles of a mask. -/
def maskTiles (m : Nat) : List Nat := (List.range 80).filter (fun t => m.testBit t)

/-- FN_ASSIGN KIND 0x01: the reply waits until every domain of the tiles is powered (R448). -/
def execFnAssignTiles (s : State) : Host.Outcome State Fault Refusal :=
  .next (s.assign 1 [(4, 10), (16, 4), (20, 4)] never
    (fun s r _ => beAt r.payload 16 4 + beAt r.payload 20 4 > s.slabPages)
    (fun s r f =>
      let ts := maskTiles (beMask r.payload 4 10)
      ts.any (fun t => (s.tile t).retired) || !s.pathsOk (ts ++ s.tilesOf f) (s.coresOf f))
    (fun s r f => (maskTiles (beMask r.payload 4 10)).any (fun t => (s.tile t).owner.isSome && (s.tile t).owner ≠ some f))
    (fun s r f =>
      let ts := maskTiles (beMask r.payload 4 10)
      let s := ts.foldl (fun s t => s.giveTile f t (beAt r.payload 16 4) (beAt r.payload 20 4)) s
      let ds := ((ts.map domainOf).eraseDups).filter (fun d => (s.pwr.doms.get {} d).gated)
      if ds.isEmpty then s.reply r stOk []
      else
        let doms := ds.foldl (fun (m : SMap Dom) d => m.modify {} d (fun x => { x with ungating := true })) s.pwr.doms
        { s with pwr := { s.pwr with doms := doms },
                 thm := { s.thm with long := s.thm.long ++ [{ req := r, fn := f }] } }))

/-- FN_ASSIGN KIND 0x02 (R285). -/
def execFnAssignSpread (s : State) : Host.Outcome State Fault Refusal :=
  .next (s.assign 2 [(4, 1), (6, 10), (16, 4), (20, 4)] never
    (fun s r f => beAt r.payload 4 1 ≥ 32 ||
      s.badSpread f (BitVec.ofNat 80 (beMask r.payload 6 10)) (beAt r.payload 16 4) (beAt r.payload 20 4))
    (fun s _ f => !s.pathsOk (s.tilesOf f) []) never
    (fun s r f =>
      (s.setSpread f (beAt r.payload 4 1)
        { members := BitVec.ofNat 80 (beMask r.payload 6 10), basePage := beAt r.payload 16 4,
          granules := beAt r.payload 20 4, valid := true }).reply r stOk []))

/-- FN_ASSIGN KIND 0x03: at most 512 group rings on the package (Table 11.1). -/
def execFnAssignRings (s : State) : Host.Outcome State Fault Refusal :=
  .next (s.assign 3 [(4, 2), (6, 2), (8, 1)] never
    (fun _ r _ => beAt r.payload 4 2 + beAt r.payload 6 2 > 8192 || beAt r.payload 8 1 > 1) never
    (fun s r f =>
      let a := beAt r.payload 4 2
      let n := beAt r.payload 6 2
      let inr := fun (k : Nat) => a ≤ k && k < a + n
      s.rings.any (fun e => inr e.1 && e.2.valid && e.2.fn ≠ f) ||
        (beAt r.payload 8 1 = 1 && (s.rings.filter (fun e => e.2.valid && e.2.group && !inr e.1)).length + n > 512))
    (fun s r f =>
      let a := beAt r.payload 4 2
      let n := beAt r.payload 6 2
      let s := (List.range n).foldl (fun (s : State) i =>
        s.setRing (a + i) { fn := f, valid := true, group := beAt r.payload 8 1 = 1 }) s
      (s.onFn f (fun x => { x with ringRanges := x.ringRanges.filter (· ≠ (a, n)) ++ [(a, n)] })).reply r stOk []))

/-- FN_ASSIGN KIND 0x04. -/
def execFnAssignFences (s : State) : Host.Outcome State Fault Refusal :=
  .next (s.assign 4 [(4, 2), (6, 2)] never
    (fun _ r _ => beAt r.payload 4 2 + beAt r.payload 6 2 > 16384) never
    (fun s r f =>
      let a := beAt r.payload 4 2
      let n := beAt r.payload 6 2
      s.fns.any (fun e => e.1 ≠ f && e.2.st ≠ .free && e.2.fenceBase < a + n && a < e.2.fenceBase + e.2.fences && n ≠ 0))
    (fun s r f =>
      (s.onFn f (fun x => { x with fenceBase := beAt r.payload 4 2, fences := beAt r.payload 6 2 })).reply r stOk []))

/-- FN_ASSIGN KIND 0x05 (R345): a withheld core gives FAULTED (Table 19.4). -/
def execFnAssignCores (s : State) : Host.Outcome State Fault Refusal :=
  .next (s.assign 5 [(4, 4)] (fun s _ _ => s.fuses.part = 3) never
    (fun s r f =>
      let cs := (List.range 32).filter (fun c => (beMask r.payload 4 4).testBit c)
      cs.any (fun c => s.flash.withheldCores.contains c) || !s.pathsOk (s.tilesOf f) (cs ++ s.coresOf f))
    (fun s r f => (List.range 32).any (fun c => (beMask r.payload 4 4).testBit c && (s.core c).fn.isSome && (s.core c).fn ≠ some f))
    (fun s r f =>
      ((List.range 32).foldl (fun s c => if (beMask r.payload 4 4).testBit c then s.resetCore c (some f) else s) s).reply r stOk []))

/-- FN_ASSIGN KIND 0x06 (R322). -/
def execFnAssignWindow (s : State) : Host.Outcome State Fault Refusal :=
  .next (s.assign 6 [(4, 1), (8, 4)] never
    (fun s r f => beAt r.payload 4 1 ≥ 32 || beAt r.payload 8 4 > 1048576 || beAt r.payload 8 4 > s.setCapacity f (beAt r.payload 4 1))
    never never
    (fun s r f => (s.setWindow f (beAt r.payload 4 1) (beAt r.payload 8 4) true).reply r stOk []))

/-- FN_ASSIGN KIND 0x07 (R119): distinct tiles that the function owns and that are not retired. -/
def execFnAssignVtileMap (s : State) : Host.Outcome State Fault Refusal :=
  .next (s.commandIf 0x0305 (fun r => beAt r.payload 2 1 = 7) (fun s r =>
    let f := beAt r.payload 0 2
    let n := beAt r.payload 4 1
    let ts := ((r.payload.drop 8).take n).map (fun b => b.toNat)
    s.judge r [(r.notOperator, stDenied), (f < 1024 && (s.fn f).st = .free, stStopped),
        (!payOk r.payload [(0, 2), (2, 1), (4, 1), (8, n)] || f ≥ 1024 || n < 1 || n > 80 || !ts.Nodup ||
          ts.any (fun t => t ≥ 80 || (s.tile t).owner.isNone && !(s.tile t).retired), stBadArg),
        (ts.any (fun t => (s.tile t).retired), stFaulted), (s.busyFor f, stBusy),
        (ts.any (fun t => (s.tile t).owner ≠ some f), stNoResource)] (fun s =>
      (s.onFn f (fun x => { x with vtmap := ts.map some })).reply r stOk [])))

/-- FN_ASSIGN KIND 0x08. -/
def execFnAssignSettings (s : State) : Host.Outcome State Fault Refusal :=
  .next (s.assign 8 [(8, 8), (16, 2)] never (fun _ r _ => beAt r.payload 16 2 < 1 || beAt r.payload 16 2 > 10000) never never
    (fun s r f =>
      (s.onFn f (fun x => { x with seed := BitVec.ofNat 64 (beAt r.payload 8 8), drainLimit := beAt r.payload 16 2 })).reply r stOk []))

/-- An ungated domain has reached OP1 (R448, R449): its tiles run, and an FN_ASSIGN whose tiles all run replies. -/
def execDomainUngateDone (d : DomId) (s : State) : Host.Outcome State Fault Refusal :=
  .next (
    let x := s.dom d
    if x.ungating then s.pwrStep (fun s =>
      let v := s.fuses.vnom d 1
      let y := { x with gated := false, ungating := false, op := 1, vset := v, target := v, slewing := false }
      let s := s.setDom d y
      let s := ((List.range 80).filter (fun t => domainOf t = d && !(s.tile t).retired)).foldl
        (fun s t => s.onTile t (fun y => { y with gated := false, resync := true })) s
      let ready := s.thm.long.filter (fun l => l.req.cmd = 0x0305 &&
        (maskTiles (beMask l.req.payload 4 10)).all (fun t => !(s.pwr.doms.get {} (domainOf t)).ungating))
      let s := { s with thm := { s.thm with long := s.thm.long.filter (fun l => !ready.contains l) } }
      ready.foldl (fun (s : State) l => s.reply l.req stOk []) s)
    else s)

/-- FN_WITHDRAW (R343): the selecting fields of Table 12.7 name resources held exactly as assigned. -/
def execFnWithdraw (s : State) : Host.Outcome State Fault Refusal :=
  .next (s.command 0x0306 (fun s r =>
    let p := r.payload
    let f := beAt p 0 2
    let kind := beAt p 2 1
    let x := s.fn f
    let ts := maskTiles (beMask p 4 10)
    let cs := (List.range 32).filter (fun c => (beMask p 4 4).testBit c)
    let len := match kind with
      | 1 => 14 | 2 => 5 | 3 => 8 | 4 => 8 | 5 => 8 | 6 => 5 | _ => 0
    let named : List (Nat × Nat) := match kind with
      | 1 => [(4, 10), (16, 4), (20, 4)] | 2 => [(4, 1), (6, 10), (16, 4), (20, 4)] | 3 => [(4, 2), (6, 2), (8, 1)]
      | 4 => [(4, 2), (6, 2)] | 5 => [(4, 4)] | _ => [(4, 1), (8, 4)]
    let held := match kind with
      | 1 => ts.all (fun t => (s.tile t).owner = some f || ((s.tile t).retired && x.vtmap.contains (some t)))
      | 2 => beAt p 4 1 < 32 && ((s.slab (s.spreadTile f none)).spread.get {} (beAt p 4 1)).valid
      | 3 => x.ringRanges.contains (beAt p 4 2, beAt p 6 2)
      | 4 => x.fences ≠ 0 && x.fenceBase = beAt p 4 2 && x.fences = beAt p 6 2
      | 5 => cs.all (fun c => (s.core c).fn = some f)
      | 6 => x.winValid && x.winSet = beAt p 4 1
      | _ => false
    s.judge r [(r.notOperator, stDenied), (kind = 5 && s.fuses.part = 3, stUnsupported), (f < 1024 && x.st = .free, stStopped),
        (f ≥ 1024 || p.length < len || !restZero p ([(0, 2), (2, 1)] ++ named) || !held, stBadArg), (s.busyFor f, stBusy)] (fun s =>
      let s := match kind with
        | 1 => ts.foldl (fun (s : State) t => if (s.tile t).owner = some f then s.withdrawTile t
            else (s.onFn f (fun g => { g with vtmap := g.vtmap.map (fun v => if v = some t then none else v) })).onSlab t
              Slab.leaveFn) s
        | 2 => s.setSpread f (beAt p 4 1) {}
        | 3 =>
          let s := (List.range (beAt p 6 2)).foldl (fun (s : State) i => s.setRing (beAt p 4 2 + i) {}) s
          s.onFn f (fun g => { g with ringRanges := g.ringRanges.filter (· ≠ (beAt p 4 2, beAt p 6 2)) })
        | 4 => s.onFn f (fun g => { g with fenceBase := 0, fences := 0 })
        | 5 => cs.foldl (fun (s : State) c => s.resetCore c none) s
        | _ => s.setWindow f 0 0 false
      s.reply r stOk [])))

/-- FN_QUERY: the reply of Table 12.3. -/
def execFnQuery (s : State) : Host.Outcome State Fault Refusal :=
  .next (s.command 0x0307 (fun s r =>
    let x := s.fn r.fn
    s.judge r [(!payOk r.payload [], stBadArg)] (fun s =>
      s.reply r stOk (beBytes 4 x.stateReg ++ beBytes 1 (s.tilesOf r.fn).length ++ beBytes 1 (s.coresOf r.fn).length ++
        beBytes 2 (s.ringsOf r.fn).length ++ beBytes 2 x.fences ++ [0, 0] ++ beBytes 4 x.winPages ++
        (match x.lastStop with
          | some t => t.bytes r.fn
          | none => List.replicate 40 0)))))

/-- A named tile is retired (R490). -/
def State.tileRetired (s : State) : Option Nat → Bool
  | some t => (s.tile t).retired
  | none => false

/-- PAGE_RELEASE (R300): a RETIRING page of the function's extent becomes RETIRED. -/
def execPageRelease (s : State) : Host.Outcome State Fault Refusal :=
  .next (s.command 0x0308 (fun s r =>
    let vt := beAt r.payload 0 1
    let page := beAt r.payload 4 4
    let t := s.vtile r.fn vt
    let retiring := match t with
      | some t =>
        let b := s.slab t
        b.ext.valid && b.ext.fn = r.fn && b.ext.basePage ≤ page && page < b.ext.basePage + b.ext.pages &&
          (match b.retireOf page with
            | some e => !e.retired
            | none => false)
      | none => false
    s.judge r [(!payOk r.payload [(0, 1), (4, 4)] || t.isNone || (!retiring && !s.tileRetired t), stBadArg),
        (s.tileRetired t, stFaulted), (s.longOn r.fn || s.tacked, stBusy)] (fun s =>
      (s.onSlab (t.getD 0) (fun b => { b with retire := (List.range 32).foldl (fun (m : SMap Retire) i =>
        let e := m.get {} i
        if e.valid && e.page = page then m.set {} i { e with retired := true } else m) b.retire })).reply r stOk [])))

/-- One codeword's software tag is written (R296, R290): the codeword is read first, its POISON kept. -/
def State.tagCw (s : State) (t cw tag : Nat) : State :=
  let s := (s.readCw t cw false).1
  s.onSlab t (fun b => { b with mdata := b.mdata.modify 0 cw (fun m => (m &&& 0x80) ||| BitVec.ofNat 8 tag), chk := b.chk.set 0 cw 0 })

def execSlabTag (s : State) : Host.Outcome State Fault Refusal :=
  .next (s.command 0x0309 (fun s r =>
    let a := beAt r.payload 0 8
    let n := beAt r.payload 8 4
    let tag := beAt r.payload 12 1
    let ps := s.pieces r.fn none (n * 64 / 65536 + 2) a (n * 64)
    s.judge r [(!payOk r.payload [(0, 8), (8, 4), (12, 1)] || a % 64 ≠ 0 || n < 1 || n > 2 ^ 20 || tag ≥ 128 || ps.isNone, stBadArg),
        ((ps.getD []).any (fun p => (s.tile p.1).retired || (s.slab p.1).isRetired (p.2.1 / 65536)), stFaulted),
        (s.tacked, stBusy)] (fun s =>
      ((ps.getD []).foldl (fun s p => (List.range (p.2.2 / 64)).foldl (fun s i => s.tagCw p.1 (p.2.1 / 64 + i) tag) s) s).reply r stOk [])))

/-- The physical ring of a local index (R316). -/
def State.localRing (s : State) (f n : Nat) : Option Nat := (s.ringsOf f)[n]?

def execRingConfig (s : State) : Host.Outcome State Fault Refusal :=
  .next (s.command 0x0401 (fun s r =>
    let p := r.payload
    let base := beAt p 8 8
    let done := beAt p 16 8
    let sz := beAt p 24 1
    let k := s.localRing r.fn (beAt p 0 2)
    s.judge r [(!payOk p [(0, 2), (8, 8), (16, 8), (24, 1)] || k.isNone || base % 64 ≠ 0 || base ≥ 2 ^ 62 || done % 8 ≠ 0 ||
          done ≥ 2 ^ 62 || sz < 6 || sz > 16, stBadArg), (s.busyFor r.fn, stBusy)] (fun s =>
      (s.onRing (k.getD 0) (fun g =>
        { g with base := BitVec.ofNat 64 base, doneAddr := BitVec.ofNat 64 done, sizeLog2 := sz })).reply r stOk [])))

/-- DONE and HEAD of a ring as RING_READ returns them: of a STOPPED function as they stood when fetching stopped (R315, R344),
where the ring was its then. -/
def State.ringCount (s : State) (k : Nat) : W32 × W32 :=
  let g := s.ring k
  match (s.fn g.fn).st, (s.fn g.fn).lastStop with
  | .stopped, some r => match r.rings.find? (fun e => e.1 = k) with
    | some e => (e.2.2, e.2.1)
    | none => (g.done, g.head)
  | _, _ => (g.done, g.head)

def execRingRead (s : State) : Host.Outcome State Fault Refusal :=
  .next (s.command 0x0402 (fun s r =>
    let a := beAt r.payload 0 2
    let n := beAt r.payload 2 1
    let rs := s.ringsOf r.fn
    s.judge r [(!payOk r.payload [(0, 2), (2, 1)] || n < 1 || n > 28 || a + n > rs.length, stBadArg)] (fun s =>
      s.reply r stOk (((rs.drop a).take n).flatMap (fun k => beBytes 4 (s.ringCount k).1.toNat ++ beBytes 4 (s.ringCount k).2.toNat)))))

def execFenceRead (s : State) : Host.Outcome State Fault Refusal :=
  .next (s.command 0x0403 (fun s r =>
    let a := beAt r.payload 0 2
    let n := beAt r.payload 2 1
    let x := s.fn r.fn
    s.judge r [(!payOk r.payload [(0, 2), (2, 1)] || n < 1 || n > 28 || a + n > x.fences, stBadArg)] (fun s =>
      s.reply r stOk ((List.range n).flatMap (fun i => beBytes 8 (s.fence (x.fenceBase + a + i)).toNat)))))

/-- A fence watch holds (R349); a counter beyond FENCES never does. -/
def State.watchHit (s : State) (f : Nat) (w : Watch) : Bool :=
  w.en && w.index < (s.fn f).fences && w.value.toNat ≤ (s.fence ((s.fn f).fenceBase + w.index)).toNat

/-- The counter of a WAIT has reached its VALUE (Table 11.8). -/
def State.waitDone (s : State) (f : Nat) (c : RCmd) : Bool :=
  fld c.raw 16 0 64 ≤ (s.fence ((s.fn f).fenceBase + fld c.raw 8 0 16)).toNat

/-- A command that is a WAIT whose condition holds is released (R321). -/
def State.waitLatch (s : State) (f : Nat) (c : RCmd) : RCmd :=
  { c with released := c.released || (fld c.raw 0 0 8 = 3 && s.waitDone f c) }

/-- What a change of a function's counters sets off: the interrupts of the watches whose condition holds (R349), and the
release of the started WAITs whose condition holds (R321). -/
def State.fenceLatch (s : State) (f : Nat) : State :=
  let s := (s.coresOf f).foldl (fun (s : State) c => s.onCore c (fun x =>
    { x with watches := x.watches.map (fun e => (e.1, { e.2 with pending := e.2.pending || s.watchHit f e.2 })) })) s
  (s.ringsOf f).foldl (fun (s : State) r => s.onRing r (fun g => { g with cmds := g.cmds.map (s.waitLatch f) })) s

/-- Add to a fence counter modulo 2⁶⁴, or set it (R321). -/
def State.signalFence (s : State) (f i : Nat) (set : Bool) (v : W64) : State :=
  let k := (s.fn f).fenceBase + i
  (s.setFence k (if set then v else s.fence k + v)).fenceLatch f

def execFenceWrite (s : State) : Host.Outcome State Fault Refusal :=
  .next (s.command 0x0404 (fun s r =>
    let i := beAt r.payload 0 2
    let set := beAt r.payload 2 1
    s.judge r [(!payOk r.payload [(0, 2), (2, 1), (8, 8)] || set > 1 || i ≥ (s.fn r.fn).fences, stBadArg), (s.tacked, stBusy)] (fun s =>
      (s.signalFence r.fn i (set = 1) (BitVec.ofNat 64 (beAt r.payload 8 8))).reply r stOk [])))

def execStopRecord (s : State) : Host.Outcome State Fault Refusal :=
  .next (s.command 0x0B02 (fun s r =>
    let a := beAt r.payload 0 1
    let n := beAt r.payload 1 1
    let x := s.fn r.fn
    s.judge r [(!payOk r.payload [(0, 1), (1, 1)] || n < 1 || n > 37 || a + n > s.vtiles r.fn, stBadArg),
        ((List.range n).any (fun i => s.tileRetired (s.vtile r.fn (a + i))), stFaulted)] (fun s =>
      s.reply r stOk ((List.range n).flatMap (fun i =>
        let c := ((s.vtile r.fn (a + i)).map (fun t => x.stop.tiles.get {} t)).getD {}
        beBytes 2 (min c.discarded 65535) ++ beBytes 2 (min c.cut 65535) ++ beBytes 2 (min c.drained 65535))))))

/-- CLAIM (R333, R339): accepted only while no operator key is set and only under the claim key. -/
def execClaim (s : State) : Host.Outcome State Fault Refusal :=
  .next (s.command 0x0102 (fun s r =>
    s.judge r [(r.fn ≠ 0 || s.thm.opKey.isSome || r.key ≠ some s.fuses.claimKey, stDenied),
        (!payOk r.payload [(0, 32)], stBadArg), (s.tacked, stBusy)] (fun s =>
      let k := s.unwrap r s.fuses.claimKey labelClaim 0 (r.payload.take 32)
      let s := s.reply r stOk []
      let s := (s.onFn 0 (fun x => { x with lastSeq := 0, accepted := [] }))
      ({ s with thm := { s.thm with opKey := some k } }).startServices)))

/-- REKEY (R333, R368): the key changes after the reply, and the function's connections end. -/
def execRekey (s : State) : Host.Outcome State Fault Refusal :=
  .next (s.command 0x0103 (fun s r =>
    let f := beAt r.payload 0 2
    s.judge r [(r.notOperator, stDenied), (f < 1024 && (s.fn f).st = .free, stStopped),
        (!payOk r.payload [(0, 2), (2, 32)] || f ≥ 1024, stBadArg), (s.busyFor f, stBusy)] (fun s =>
      let k := s.unwrap r (s.thm.opKey.getD 0) labelFnkey f ((r.payload.drop 2).take 32)
      let s := (s.reply r stOk []).closeConns f
      let s := s.onFn f (fun x => { x with key := k, lastSeq := 0, accepted := [] })
      if f = 0 then { s with thm := { s.thm with opKey := some k } } else s)))

/-- SERVICE_CFG (R355). -/
def execServiceCfg (s : State) : Host.Outcome State Fault Refusal :=
  .next (s.command 0x0104 (fun s r =>
    let v := beAt r.payload 0 1
    s.judge r [(r.notOperator, stDenied), (!payOk r.payload [(0, 1)] || v > 1, stBadArg), (s.tacked || s.longOn 1024, stBusy)] (fun s =>
      let s := { s with thm := { s.thm with defaultMem := v = 1 } }
      if v = 1 then s.reply r stOk []
      else
        let fs := (List.range 10).map (· + 1) |>.filter (fun f => (s.fn f).service)
        let s := fs.foldl (fun s f => if (s.fn f).st = .running then s.beginStop f false none
          else if (s.fn f).st = .stopped then s.destroyFn f else s) s
        if s.fns.any (fun e => e.2.service) then
          { s with thm := { s.thm with long := s.thm.long ++ [{ req := r, fn := 1024 }] } }
        else s.reply r stOk [])))

end Sys2Proof.Machine
end

