-- ==== Sys2Proof/Machine/Power.lean ====
section
/-! DEFINITION. The power governor, the regulators, thermal and current limits, and the time base (spec/16). -/

namespace Sys2Proof.Machine

/-- One iteration of the governor (R455, R459), after which the operating points it decided are commanded. -/
def execGovCapIteration (estimateMw : Nat) (s : State) : Host.Outcome State Fault Refusal :=
  .next (if !s.govRuns then s else s.pwrStep (fun s =>
    let p := s.pwr
    let s := { s with pwr := { p with estMw := estimateMw, estSum := p.estSum + estimateMw, estN := p.estN + 1 } }
    let s := doms20.foldl (fun (s : State) d =>
      let x := s.dom d
      if x.gated then s
      else if s.domIdle d then s.setDom d { x with want := 1, idle := true }
      else if x.idle then s.setDom d { x with want := 6, idle := false } else s) s
    let c := s.pwr.controlled
    let live := doms20.filter (fun d => !(s.dom d).gated)
    let s :=
      if c.1 > s.pwr.capW * 1000 * c.2 then
        let s := s.lowerGrants 4 (live.filter (fun d => (s.dom d).grant > 1)) s
        if live.all (fun d => s.opOf d = 1) then { s with pwr := { s.pwr with duty := max (s.pwr.duty - 1) 1 } } else s
      else if c.1 * 100 < s.pwr.capW * 1000 * c.2 * 95 then
        if s.pwr.duty < 8 then { s with pwr := { s.pwr with duty := s.pwr.duty + 1 } }
        else
          let cand := live.filter (fun d => (s.dom d).grant = s.opOf d && (s.dom d).grant < (s.dom d).want)
          match cand with
          | [] => s
          | c :: cs =>
            let best := cs.foldl (fun b d => if s.opOf d < s.opOf b then d else b) c
            s.onDom best (fun x => { x with grant := x.grant + 1 })
      else s
    s.commandOps))

/-- The rate loop (R442). -/
def execRateLoopTick (d : DomId) (pacerMsteps : Nat) (s : State) : Host.Outcome State Fault Refusal :=
  .next (
    let x := s.dom d
    if !s.govRuns || x.gated || x.slewing then s
    else
      let v := s.fuses.vnom d x.op
      let t := targetRate x.op
      let n := if pacerMsteps < t then x.vset + 5 else if pacerMsteps * 100 > t * 102 then x.vset - 5 else x.vset
      s.setDom d { x with vset := max (v - 60) (min n (v + s.fuses.age d)) })

/-- A change of governor mode (R454): logged, reported, and every run of windows starts again. -/
def State.govMode (s : State) (m : Nat) : State :=
  let was := s.pwr.mode
  let s := { s with pwr := { s.pwr with mode := m, divergent := 0, agreeing := 0, invalid := 0, valid := 0 },
                    flash := { s.flash with history := s.flash.history ++ [HistRec.mk .govMode s.timeNs 0 (m : Int)] } }
  s.event .pwr 0 4 (some 0) (m + was * 256) false

/-- The 1 ms measurement (R453, R454, Table 16.3). A window in which no estimate was formed neither diverges nor
agrees. -/
def execGovMeasureWindow (frameOk : Bool) (readingMw : List Int) (s : State) : Host.Outcome State Fault Refusal :=
  .next (if !s.govRuns then s else s.pwrStep (fun s =>
    let total := readingMw.foldl (· + ·) 0
    let bad := !frameOk || readingMw.isEmpty || readingMw.any (fun v => decide (v < 0)) || decide (total > 4000000)
    let p := s.pwr
    let sum := p.estSum
    let n := p.estN
    let p := { p with estSum := 0, estN := 0, lastEst := (sum, n) }
    if bad then
      let p := { p with lastM := none, divergent := 0, agreeing := 0, valid := 0, invalid := p.invalid + 1 }
      let s := ({ s with pwr := p }).raise .pwr 0 1 {}
      if p.invalid ≥ 3 && p.mode ≠ 2 then s.govMode 2 else s
    else
      let m := total.toNat
      let diff := max (sum - m * n) (m * n - sum)
      let div := n ≠ 0 && diff * 100 > m * n * 15
      let agr := n ≠ 0 && diff * 100 ≤ m * n * 10
      let p := { p with lastM := some m, invalid := 0, valid := p.valid + 1,
                        divergent := if div then p.divergent + 1 else 0, agreeing := if agr then p.agreeing + 1 else 0,
                        ratioM := if sum = 0 then p.ratioM else m * n, ratioE := if sum = 0 then p.ratioE else sum }
      let s := { s with pwr := p }
      if p.mode = 0 && p.divergent ≥ 10 then s.govMode 1
      else if p.mode = 1 && p.agreeing ≥ 1000 then s.govMode 0
      else if p.mode = 2 && p.valid ≥ 100 then s.govMode 0 else s))

/-- The sums of waiting counts that satisfy a condition. -/
def sumWaits (ws : List PaceWait) (f : PaceWait → Bool) : Nat := (ws.filter f).foldl (fun n w => n + w.periods) 0

/-- The first index of a list with the greatest value. -/
def firstMax (l : List Nat) (f : Nat → Nat) : Nat := l.foldl (fun b i => if f b < f i then i else b) (l.headD 0)

/-- The pace rules of one domain (R461). -/
def State.paceRule (s : State) (ws : List PaceWait) (d : Nat) : State :=
  let x := s.dom d
  if x.gated then s
  else
    let h := s.pwr.host
    let op := s.opOf d
    let b8 := !fracLt (x.bWait * 100) x.periods 8 1
    let w8 := !fracLt (x.wWait * 100) x.periods 8 1
    let src := firstMax doms20 (fun c => sumWaits ws (fun w => w.waiter.val = d && w.charged.val = c && c ≠ d))
    if b8 && !w8 then
      if x.pace < x.want then s.setDom d { x with pace := x.pace + 1 }
      else
        let others := x.binds h x.grant || x.binds h x.therm || x.binds h x.curr || x.binds h h
        let (k, s) := s.fresh
        if !x.idle && x.want < 8 && !others && Config.predictedMw k * 100 < s.pwr.capW * 1000 * 95 then
          s.setDom d { x with want := x.want + 1 }
        else s
    else if w8 && !b8 && op > s.opOf src then s.setDom d { x with pace := op - 1 }
    else if x.quiet ≥ 100 && x.want > 6 then s.setDom d { x with want := x.want - 1 }
    else s

/-- The end of a pace window (R460 to R462); a window in which a tack held the package is not used. -/
def execPaceWindow (periods : List (DomId × Nat)) (waits : List PaceWait) (s : State) : Host.Outcome State Fault Refusal :=
  .next (if !s.govRuns then s
    else if s.pwr.tackInWindow || s.tacked then { s with pwr := { s.pwr with tackInWindow := s.tacked } }
    else s.pwrStep (fun s =>
      let other := waits.filter (fun w => w.waiter ≠ w.charged)
      let s := doms20.foldl (fun (s : State) d =>
        let n := ((periods.filter (fun p => p.1.val = d)).map Prod.snd).foldl (· + ·) 0
        let w := sumWaits other (fun w => w.waiter.val = d)
        let b := sumWaits other (fun w => w.charged.val = d)
        s.onDom d (fun x => { x with periods := n, wWait := w, bWait := b,
                                     quiet := if fracLt (b * 100) n 2 1 then x.quiet + 1 else 0 })) s
      let slow := doms20.foldl (fun c d => if fracLt (s.dom c).bWait (s.dom c).periods (s.dom d).bWait (s.dom d).periods then d else c) 0
      let tile := firstMax ((List.range 80).filter (fun t => domainOf t = slow))
        (fun t => sumWaits other (fun w => w.charged.val = slow && w.tile.val = t))
      let s := { s with pwr := { s.pwr with slowDom := slow, slowTile := tile } }
      doms20.foldl (fun s d => s.paceRule other d) s))

/-- The regulator acknowledges the setpoint commanded last, and the slew towards it begins (Table 16.2). -/
def execRegSetpointAck (d : DomId) (s : State) : Host.Outcome State Fault Refusal :=
  .next (if s.boot.pgood && (s.dom d).slewing then s.onDom d (fun x => { x with acked := true }) else s)

/-- A slew reaches its target; it cannot while a droop pauses it (R446). -/
def execRegSlewEnd (d : DomId) (s : State) : Host.Outcome State Fault Refusal :=
  .next (
    let x := s.dom d
    if s.boot.pgood && x.slewing && x.acked && !x.droop then s.setDom d { x with slewing := false, vset := x.target } else s)

/-- The droop gate engages (R445). -/
def execDroopEngage (d : DomId) (s : State) : Host.Outcome State Fault Refusal :=
  .next (if s.boot.pgood then s.pwrStep (fun s => s.onDom d (fun x => { x with droop := true })) else s)

/-- The droop gate releases (R445). -/
def execDroopRelease (d : DomId) (s : State) : Host.Outcome State Fault Refusal :=
  .next (if s.boot.pgood then s.pwrStep (fun s => s.onDom d (fun x => { x with droop := false })) else s)

/-- A SHORTFALL event to function 0, and the record in the Thimble log of one that begins (R443). -/
def State.shortfallReport (s : State) (d : Nat) (st : Nat) : State :=
  let x := s.dom d
  let s := if st = 1 then { s with flash := { s.flash with history := s.flash.history ++ [HistRec.mk .shortfall s.timeNs d 1] } } else s
  s.notify 0 6 (beBytes 1 d ++ beBytes 1 x.op ++ beBytes 1 st ++ beBytes 2 x.vset)

/-- A domain at its highest setpoint stays below 0.98 of its target rate (R443). -/
def execShortfallEnter (d : DomId) (pacerMsteps : Nat) (s : State) : Host.Outcome State Fault Refusal :=
  .next (
    let x := s.dom d
    if s.govRuns && !x.gated && !x.slewing && !x.shortfall && x.vset = s.fuses.vnom d x.op + s.fuses.age d &&
        pacerMsteps * 100 < targetRate x.op * 98 then
      (s.setDom d { x with shortfall := true }).shortfallReport d 1
    else s)

/-- The pacer of a domain in shortfall reaches its target (R443). -/
def execShortfallClear (d : DomId) (pacerMsteps : Nat) (s : State) : Host.Outcome State Fault Refusal :=
  .next (
    let x := s.dom d
    if s.govRuns && x.shortfall && pacerMsteps ≥ targetRate x.op then
      (s.setDom d { x with shortfall := false }).shortfallReport d 0
    else s)

/-- The daily ageing record: the mean of VSET − VNOM by domain and operating point (R443). -/
def execAgeingRecord (meanMv : List (DomId × Fin 8 × Int)) (s : State) : Host.Outcome State Fault Refusal :=
  .next (if s.govRuns then
      { s with flash := { s.flash with history := s.flash.history ++ meanMv.map (fun m =>
          ⟨.ageing, s.timeNs, m.1.val * 16 + m.2.1.val + 1, m.2.2⟩) } }
    else s)

/-- A domain below the completion floor (R447): fatal cause 2. R447 does not apply in power-down (R516). -/
def execBrownout (d : DomId) (s : State) : Host.Outcome State Fault Refusal :=
  .next (if s.boot.pgood then (s.raise .pwr 0 2 {}).latchFatal 2 d 0x7F else s)

/-- A regulator loses control (R447): fatal cause 3. -/
def execRegControlLoss (d : DomId) (s : State) : Host.Outcome State Fault Refusal :=
  .next (if s.boot.pgood then (s.raise .pwr 0 4 {}).latchFatal 3 d 0x7F else s)

/-- A temperature reading that crosses a limit of Table 16.4. -/
def execThermalThreshold (sn : Sensor) (temp : BitVec 16) (s : State) : Host.Outcome State Fault Refusal :=
  .next (if !s.govRuns then s else s.pwrStep (fun s =>
    match sn with
    | .tile t => s.onDom (domainOf t) (fun x =>
        let y := { x with tileTemp := x.tileTemp.set 0 t temp }
        { y with thermGate := if y.temp ≥ 105 * 16 then true else if y.temp ≤ 104 * 16 then false else x.thermGate })
    | .stack d => s.onDom d (fun x =>
        let v := temp.toInt
        { x with stackTemp := temp, doubled := decide (v > 85 * 16),
                 stackSlow := if v ≥ 95 * 16 then true else if v ≤ 93 * 16 then false else x.stackSlow })))

/-- THERM falls by one while the domain is at or above 103 °C or its stack at or above 93 °C, and rises by one while both
have released it (Table 16.4). -/
def execThermCeilingStep (d : DomId) (s : State) : Host.Outcome State Fault Refusal :=
  .next (if !s.govRuns then s else s.pwrStep (fun s => s.onDom d (fun x =>
    let v := x.stackTemp.toInt
    if x.temp ≥ 103 * 16 ∨ v ≥ 93 * 16 then { x with therm := max 1 (x.therm - 1) }
    else if x.temp ≤ 100 * 16 ∧ v ≤ 90 * 16 then { x with therm := min 8 (x.therm + 1) }
    else x)))

/-- The independent comparator asserts THERMTRIP_N (Table 16.4): fatal cause 4. -/
def execThermtrip (sn : Sensor) (s : State) : Host.Outcome State Fault Refusal :=
  .next (if s.boot.v3p3 then
      let n := match sn with
        | .tile t => t.val
        | .stack d => 80 + d.val
      let s := { s with fatal := { s.fatal with thermtripN := false } }
      (s.raise .pwr 0 8 {}).latchFatal 4 0x1F n
    else s)

/-- A current reading of R457. -/
def execCurrentLimit (src : CurrentSrc) (deciAmps : Nat) (s : State) : Host.Outcome State Fault Refusal :=
  .next (if !s.govRuns then s else s.pwrStep (fun s =>
    let down := fun (s : State) (d : Nat) => s.onDom d (fun x => { x with curr := max 1 (x.curr - 1) })
    let up := fun (s : State) (d : Nat) => s.onDom d (fun x => { x with curr := min 8 (x.curr + 1) })
    match src with
    | .regulator d =>
      let lim := s.fuses.limit d
      if deciAmps * 2 > lim * 19 then down s d else if deciAmps < lim * 8 then up s d else s
    | .vin12 => if deciAmps > 2400 then doms20.foldl down s else if deciAmps < 2000 then doms20.foldl up s else s))

/-- A lease runs out (R451). -/
def execGrantLeaseExpire (s : State) : Host.Outcome State Fault Refusal :=
  .next (if s.govRuns && s.pwr.grantW ≠ 0 then
      let s := { s with pwr := { s.pwr with grantW := 0, capW := 1200, leaseEnd := 0 } }
      s.notify 0 5 (beBytes 2 1200)
    else s)

/-- A domain whose tiles are all unassigned or retired is gated (R448). -/
def execDomainGate (d : DomId) (s : State) : Host.Outcome State Fault Refusal :=
  .next (
    let ts := (List.range 80).filter (fun t => domainOf t = d.val)
    if s.govRuns && !(s.dom d).gated && ts.all (fun t => (s.tile t).owner.isNone || (s.tile t).retired) then
      s.pwrStep (fun s =>
        let s := ts.foldl (fun (s : State) t => s.onTile t (fun x => { x with gated := true })) s
        s.onDom d (fun x => { x with gated := true, ungating := false, op := 0, vset := 0, target := 0, slewing := false,
                                     acked := false, shortfall := false }))
    else s)

/-- POWER_GRANT (R451). -/
def execPowerGrant (s : State) : Host.Outcome State Fault Refusal :=
  .next (s.command 0x0801 (fun s r =>
    let w := beAt r.payload 0 2
    let lease := beAt r.payload 4 4
    s.judge r [(r.notOperator, stDenied),
        (!payOk r.payload [(0, 2), (4, 4)] || (1 ≤ w && w ≤ 599) || lease < 100 || lease > 3600000, stBadArg)] (fun s =>
      let g := min w 2800
      let s := { s with pwr := { s.pwr with grantW := g, capW := if g = 0 then 1200 else g,
                                            leaseEnd := if g = 0 then 0 else s.timeNs + lease * 1000000 } }
      s.reply r stOk (beBytes 2 g))))

/-- POWER_QUERY (R464, Table 16.6). -/
def execPowerQuery (s : State) : Host.Outcome State Fault Refusal :=
  .next (s.command 0x0802 (fun s r =>
    s.judge r [(r.notOperator, stDenied), (!payOk r.payload [], stBadArg)] (fun s => s.reply r stOk s.powerReply)))

/-- The state that the time sources present call for (Table 16.7). -/
def TimeB.next (x : TimeB) : Nat :=
  if !x.timeref then 0 else if x.pps && x.ptp then 2 else if x.state = 2 ∨ x.state = 3 then 3 else 1

/-- A step of package time moves the times kept for intervals with it. -/
def State.stepTime (s0 : State) (d : Int) : State :=
  let s := s0.accrue
  let mv := fun (t : Nat) => ((t : Int) + d).toNat
  let p := s.pwr
  { s with timeNs := mv s.timeNs,
           pwr := { p with since := mv p.since, leaseEnd := if p.grantW = 0 then 0 else mv p.leaseEnd, thermEnd := mv p.thermEnd },
           thm := { s.thm with unsignedTimes := s.thm.unsignedTimes.map mv } }

/-- The time base takes the state its sources call for (R466); at the first lock package time is stepped once, and the
step is recorded (R465). -/
def State.timeGo (s : State) : State :=
  let was := s.timeBase.state
  let now := s.timeBase.next
  if was = now then s
  else
    let s := { s with timeBase := { s.timeBase with state := now } }
    let s := s.event .time 0 4 (some 0) (now + was * 256) false
    if now = 2 && !s.timeBase.stepped then
      let d := s.timeBase.ptpDelta
      let s := (s.stepTime d).event .time 0 5 (some 0) ((d % 2 ^ 64).toNat) false
      { s with timeBase := { s.timeBase with stepped := true } }
    else s

/-- Loss of TIMEREF (R466). -/
def execTimerefLoss (s : State) : Host.Outcome State Fault Refusal :=
  .next (if s.boot.pgood && s.timeBase.timeref then
      (({ s with timeBase := { s.timeBase with timeref := false } }).raise .time 0 1 {}).timeGo
    else s)

/-- TIMEREF returns (R466). -/
def execTimerefRestore (s : State) : Host.Outcome State Fault Refusal :=
  .next (if s.boot.pgood && !s.timeBase.timeref then
      ({ s with timeBase := { s.timeBase with timeref := true } }).timeGo
    else s)

/-- A PPS edge (R466). -/
def execPpsEdge (s : State) : Host.Outcome State Fault Refusal :=
  .next (if s.boot.pgood then ({ s with timeBase := { s.timeBase with pps := true } }).timeGo else s)

/-- No PPS edge for 1.1 s in LOCKED (Table 16.15). -/
def execPpsLoss (s : State) : Host.Outcome State Fault Refusal :=
  .next (if s.boot.pgood && s.timeBase.state = 2 then
      (({ s with timeBase := { s.timeBase with pps := false } }).raise .time 0 2 {}).timeGo
    else s)

/-- No valid PTP sync for 3 s in LOCKED (Table 16.15). -/
def execPtpLoss (s : State) : Host.Outcome State Fault Refusal :=
  .next (if s.boot.pgood && s.timeBase.state = 2 then
      (({ s with timeBase := { s.timeBase with ptp := false } }).raise .time 0 4 {}).timeGo
    else s)

/-- A PTP message of the package's domain (R376, R465): its offset is reported, and the time base may lock. -/
def execPtpMessageReceive (domain : Byte) (masterTime offset : W64) (s : State) : Host.Outcome State Fault Refusal :=
  .next (if s.boot.pgood && s.eth.link && s.fatal.cause = 0 && domain.toNat = s.eth.netrec.ptpDomain then
      let delta : Int := masterTime.toNat - s.timeNs
      ({ s with timeBase := { s.timeBase with ptp := true, ptpOffset := offset.toInt, ptpDelta := delta } }).timeGo
    else s)

/-- A tray or torus link measures its partner's time offset (R467); a LOCKED package steers to the mean of its PTP offset
and those of its LOCKED partners. -/
def execLinkTimeOffset (p : PortId) (partnerLocked : Bool) (offset : W64) (s : State) : Host.Outcome State Fault Refusal :=
  .next (if s.boot.pgood && (p.val < 6 || p.val ≥ 14) && !s.portAbsent p && (s.port p).st.active then
      let s := s.onPort p (fun x => { x with timeOffset := offset, partnerLocked := partnerLocked })
      if s.timeBase.state = 2 then
        let ls := (List.range 20).filter (fun q => (q < 6 || q ≥ 14) && (s.port q).st.active && (s.port q).partnerLocked)
        let sum := ls.foldl (fun (n : Int) q => n + (s.port q).timeOffset.toInt) s.timeBase.ptpOffset
        { s with timeBase := { s.timeBase with steerSum := sum, steerN := ls.length + 1 } }
      else s
    else s)

end Sys2Proof.Machine
end

