-- ==== Sys2Proof/Machine/Faults.lean ====
section
/-! DEFINITION. Injection, error clearing, the safe state, mesh faults, the patrol scrub and the retirement of a tile
(spec/10, spec/17). -/

namespace Sys2Proof.Machine

/-- A block has an error-register instance (R344, R473); SEL has a second one for each tile's row-edge aligner. -/
def Blk.hasInst (b : Blk) (inst : Nat) : Bool :=
  match b with
  | .fn | .ring => false
  | .sel => decide (inst < 80) || (256 ≤ inst && inst < 336)
  | .mesh => decide (inst < 80)
  | .lnk => decide (inst < 20)
  | .dsp | .coll => decide (inst < 4)
  | _ => if b.perTile then decide (inst < 80) else inst = 0

/-- The scope of an injected cause (R478). -/
def State.injScope (s : State) (b : Blk) (inst n : Nat) : Scope :=
  if b.cls n ≠ some .u then {}
  else if b = .pw ∧ 2 ≤ n ∧ n ≤ 4 then { fn := (s.tile inst).owner, code := 1 }
  else if b.perTile then s.tileScope (inst % 256)
  else if b = .eth then {}
  else fnScope 0

/-- The fatal cause of a class F cause bit (Table 17.10). -/
def fatalCause (b : Blk) (n : Nat) : Nat :=
  match b with
  | .thm => 1
  | _ => n + 1

/-- Inject a cause (R478): it has every effect of a real one. -/
def State.inject (s : State) (b : Blk) (inst n : Nat) : State :=
  match b.cls n with
  | none => s
  | some k =>
    let s := s.raise b inst (2 ^ n) (s.injScope b inst n) true
    if k = .f then
      let s := if b = .pwr ∧ n = 3 then { s with fatal := { s.fatal with thermtripN := false } } else s
      s.latchFatal (fatalCause b n) 0x1F 0x7F
    else s

/-- Register writes are blocked in the safe state (R484). -/
def State.regWrites (s : State) : Bool := s.boot.pgood && s.fatal.cause = 0

/-- Write ERR_CTL (Table 17.4). -/
def State.writeErrCtl (s : State) (b : Blk) (inst value : Nat) : State :=
  if !b.hasInst inst then s
  else
    let s := s.setErr b inst { s.err b inst with ctl := BitVec.ofNat 32 (value % 2 ^ 21) }
    if value.testBit 29 then s.inject b inst (value / 2 ^ 24 % 32) else s

/-- A write of ERR_CTL by firmware or JTAG (R478). -/
def execErrInject (block inst : Nat) (value : W32) (s : State) : Host.Outcome State Fault Refusal :=
  .next (match Blk.ofCode block with
    | some b => if s.regWrites then s.writeErrCtl b inst value.toNat else s
    | none => s)

/-- Thimble reads ERR_COUNT (R477). -/
def execErrCountRead (block inst : Nat) (s : State) : Host.Outcome State Fault Refusal :=
  .next (match Blk.ofCode block with
    | some b => if b.hasInst inst then s.setErr b inst { s.err b inst with crossing := false } else s
    | none => s)

/-- A w1c write of ERR_STAT, which sets ERR_FIRST to 0 where it leaves none set (R476). -/
def State.clearErr (s : State) (b : Blk) (inst : Nat) (mask : W32) : State :=
  let r := s.err b inst
  let st := r.stat &&& ~~~mask
  s.setErr b inst { r with stat := st, first := if st = 0 then 0 else r.first }

/-- THM_FATAL and THM_BOOT as register images (Tables 17.12 and 19.5). -/
def Fatal.reg (x : Fatal) : Nat := x.cause + bit x.multi 3 + x.domain * 16 + x.sensor * 512
def Boot.reg (x : Boot) : Nat :=
  x.mode + x.slot * 4 + bit x.fallback 3 + bit x.trial 4 + bit x.modeBad 5 + x.order * 64 + x.fail * 1024 +
    x.failBlock * 2 ^ 13 + bit x.trialReverted 21

/-- The four fields of a FAULT_STATUS reply (R485, R518). -/
def State.faultFields (s : State) (b : Blk) (inst : Nat) : Nat × Nat × Nat × Nat :=
  if b = .thm ∧ inst = 1 then (s.fatal.reg, 0, s.fatal.time, 0)
  else if b = .thm ∧ inst = 2 then (s.boot.reg, 0, 0, 0)
  else
    let r := s.err b inst
    (r.stat.toNat, r.first.toNat, r.corr, r.uncorr)

/-- FAULT_STATUS (R473): under a tenant's key only the per-tile blocks of its own tiles. -/
def execFaultStatus (s : State) : Host.Outcome State Fault Refusal :=
  .next (s.command 0x0B01 (fun s r =>
    let inst := beAt r.payload 2 2
    let blk := Blk.ofCode (beAt r.payload 0 1)
    let ok := match blk with
      | some b => b.hasInst inst || (b = .thm && inst < 3)
      | none => false
    let foreign := match blk with
      | some b => ok && (!b.perTile || (s.tile (inst % 256)).owner ≠ some r.fn)
      | none => false
    let absent := match blk with
      | some b => b = .lnk && inst < 20 && s.portAbsent inst
      | none => false
    s.judge r [(r.key.isNone || (r.fn ≠ 0 && foreign), stDenied), (absent, stUnsupported),
        (!payOk r.payload [(0, 1), (2, 2)] || !ok, stBadArg)] (fun s =>
      let x := s.faultFields (blk.getD .thm) inst
      s.reply r stOk (beBytes 4 x.1 ++ beBytes 4 x.2.1 ++ beBytes 8 x.2.2.1 ++ beBytes 8 x.2.2.2))))

/-- ERR_CLEAR (R476). -/
def execErrClear (s : State) : Host.Outcome State Fault Refusal :=
  .next (s.command 0x0B03 (fun s r =>
    let inst := beAt r.payload 2 2
    let blk := Blk.ofCode (beAt r.payload 0 1)
    let ok := match blk with
      | some b => b.hasInst inst
      | none => false
    s.judge r [(r.notOperator, stDenied), (blk = some .lnk && inst < 20 && s.portAbsent inst, stUnsupported),
        (!payOk r.payload [(0, 1), (2, 2), (4, 4)] || !ok, stBadArg),
        ((match blk with | some b => b.perTile && (s.tile (inst % 256)).retired | none => false), stFaulted)] (fun s =>
      (s.clearErr (blk.getD .thm) inst (BitVec.ofNat 32 (beAt r.payload 4 4))).reply r stOk [])))

/-- The cause that waits is latched with its time, and FAULT_N is driven low (orders 1 to 3 of Table 17.11). -/
def State.latchCause (s : State) : State :=
  { s.accrue with fatal := { s.fatal with cause := s.fatal.pendingCause, pendingCause := 0, time := s.timeNs, faultN := false,
                                          boardEventSent := true } }

/-- Every port is fenced, a state change of Table 18.3, and drops what it holds (Table 17.11 order 5). -/
def State.fenceAll (s : State) : State :=
  (List.range 20).foldl (fun (s : State) p => if s.portAbsent p then s
    else (s.portGo p .fenced).onPort p (fun y => { y with queue := [], sent := [], lanes := 0, upper := false })) s

/-- A latched cause is recorded in flash, but for cause 1, the mismatch of Thimble itself (Table 17.11 order 8). -/
def State.recordFatal (s : State) : State :=
  if s.fatal.cause ≠ 1 then
    { s with flash := { s.flash with history := s.flash.history ++ [HistRec.mk .fatal s.timeNs s.fatal.reg s.fatal.cause] } }
  else s

/-- Entry into the safe state (R483, Table 17.11). -/
def execFatalEntry (s : State) : Host.Outcome State Fault Refusal :=
  .next (if s.fatal.pendingCause ≠ 0 && s.fatal.cause = 0 then ((s.latchCause.fenceAll).boardEvent 2).recordFatal else s)

/-- 100 ms after the entry the Ethernet port goes electrically idle (order 6 of Table 17.11). -/
def execSafeStateEthernetIdle (s : State) : Host.Outcome State Fault Refusal :=
  .next (if s.fatal.cause ≠ 0 then
      { s with fatal := { s.fatal with ethIdle := true }, eth := { s.eth with link := false, training := false } }
    else s)

/-- The direction code of a mesh link at its receiving tile (Table 18.7). -/
def dirCode : Dir → Nat
  | .north => 0 | .south => 1 | .west => 2 | .east => 3

/-- The tile on the other end of a link; none at the grid edge. -/
def neighbour (t : Nat) : Dir → Option Nat
  | .north => if t < 8 then none else some (t - 8)
  | .south => if t ≥ 72 then none else some (t + 8)
  | .west => if t % 8 = 0 then none else some (t - 1)
  | .east => if t % 8 = 7 then none else some (t + 1)

/-- The halves that an incoming link has lost. -/
def State.lostHalves (s : State) (t : Nat) (d : Dir) : Nat := s.mesh.halves.get 0 (t * 4 + dirCode d)

def State.setHalves (s : State) (t : Nat) (d : Dir) (n : Nat) : State :=
  { s with mesh := { s.mesh with halves := s.mesh.halves.set 0 (t * 4 + dirCode d) n } }

/-- A flit received fails its CRC and is retried (R302). -/
def execMeshCrcRetry (t : TileId) (d : Dir) (s : State) : Host.Outcome State Fault Refusal :=
  .next (if s.live && (neighbour t d).isSome && s.lostHalves t d < 2 then (s.raise .mesh t 1 {}).count .mesh t 2 0 0 1 else s)

/-- The first half of an incoming link leaves service (R480). -/
def execMeshHalfDown (t : TileId) (d : Dir) (s : State) : Host.Outcome State Fault Refusal :=
  .next (if s.live && (neighbour t d).isSome && s.lostHalves t d = 0 then (s.setHalves t d 1).raise .mesh t 2 {} else s)

/-- The source tile of a channel packet within the package. -/
def State.nocSrc (s : State) (p : ChPkt) : Option Nat := if p.srcPkg = 0xFFFF then s.vtile p.fn p.srcVt else none

/-- A packet in flight within the package crosses a link. -/
def State.crosses (s : State) (p : ChPkt) (l : Nat × Nat) : Bool :=
  match s.nocSrc p with
  | some a => (meshPath a p.dst).contains l
  | none => false

/-- The second half of an incoming link fails (R480): its packets are lost, and each function that lost one is charged
(Table 17.2 row 7). -/
def execMeshLinkDown (t : TileId) (d : Dir) (s : State) : Host.Outcome State Fault Refusal :=
  .next (match neighbour t d with
    | none => s
    | some n =>
      if s.live && s.lostHalves t d = 1 then
        let s := s.setHalves t d 2
        let s := { s with flash := { s.flash with downLinks := s.flash.downLinks ++ [(t.val, d)] } }
        let lost := s.noc.filter (fun p => s.crosses p (t.val, dirCode d))
        let s := { s with noc := s.noc.filter (fun p => !s.crosses p (t.val, dirCode d)) }
        let fs := (lost.map (·.fn)).eraseDups
        let sc : Scope := match fs with
          | f :: _ => fnScope f
          | [] => {}
        let s := (s.raise .mesh t 4 sc).raise .mesh n 4 sc
        let first := (s.err .mesh t).first
        let s := (fs.drop 1).foldl (fun s f => s.charge f ⟨Blk.mesh.code, t.val, first⟩) s
        lost.foldl (fun (s : State) p => match s.nocSrc p with
          | some a => s.chanErr a 7
          | none => s) s
      else s)

/-- The codeword the patrol scrub takes: the first from a position on that lies in no RETIRED page (R298). -/
def Slab.scrubFrom (b : Slab) : Nat → Nat → Nat
  | 0, cw => cw
  | k + 1, cw => if b.isRetired (cw / 1024) then b.scrubFrom k ((cw / 1024 + 1) * 1024) else cw

/-- One read of the patrol scrub (R298, SLB_SCRUB). -/
def execPatrolScrubRead (t : TileId) (s : State) : Host.Outcome State Fault Refusal :=
  .next (
    let b := s.slab t
    let total := s.slabPages * 1024
    if s.boot.pgood && s.fatal.cause = 0 && b.scrubEnable && !(s.tile t).retired then
      let cw := b.scrubFrom 33 b.scrubPos
      let s := if cw < total then (s.readCw t cw true).1 else s
      let next := cw + 1
      if next ≥ total then
        ((s.onSlab t (fun b => { b with scrubPos := 0 })).orStat .slb t 8).count .slb t 3 0 ((s.tile t).owner.getD 0) 1
      else s.onSlab t (fun b => { b with scrubPos := next })
    else s)

/-- A retired tile leaves service (orders 2 to 4 of Table 17.13): its function's map keeps naming it, and the pages of
its slab are refused (R489, R490). -/
def State.retireTile (s : State) (t : Nat) : State :=
  let owner := (s.tile t).owner
  let s := s.setTile t { retired := true, gated := true }
  let s := { s with flash := { s.flash with retiredTiles := s.flash.retiredTiles ++ [t] } }
  let s := match owner with
    | some f => if f ≠ 0 then s.notify f 3 (beBytes 1 t) else s
    | none => s
  s.notify 0 3 (beBytes 1 t)

/-- Retirement in service (R488, R489): order 1 stops the owner where it runs, and the rest follows once it has
stopped. -/
def execTileRetire (t : TileId) (s : State) : Host.Outcome State Fault Refusal :=
  .next (
    let x := s.tile t
    if s.live && x.retireReq && !x.retired then
      match x.owner with
      | some f =>
        match (s.fn f).st with
        | .running => s.beginStop f true (s.fn f).charge
        | .stopping => s
        | _ => s.retireTile t
      | none => s.retireTile t
    else s)

end Sys2Proof.Machine
end

