-- ==== Sys2Proof/Machine/Lms.lean ====
section
/-! DEFINITION. HSS signatures of RFC 8554 with LMS_SHA256_M32_H20 and LMOTS_SHA256_N32_W8, firmware images, and what a
slot holds (spec/19, R520, R521). -/

namespace Sys2Proof.Machine

/-- A piece of a byte string. -/
def cutB (bs : List Byte) (o n : Nat) : List Byte := (bs.drop o).take n

/-- Apply the hash chain of one LM-OTS digit from a step to 255. -/
def otsChain (pre : List Byte) : Nat → Nat → List Byte → List Byte
  | 0, _, t => t
  | k + 1, j, t => otsChain pre k (j + 1) (sha256 (pre ++ beBytes 1 j ++ t))

/-- The candidate LM-OTS public key of a signature, of 4 + 32 + 34 × 32 bytes, over a message. -/
def otsKey (id : List Byte) (q : Nat) (sig msg : List Byte) : List Byte :=
  let pre := id ++ beBytes 4 q
  let d := sha256 (pre ++ [0x81, 0x81] ++ cutB sig 4 32 ++ msg)
  let sum := d.foldl (fun n b => n + (255 - b.toNat)) 0
  let digits := d ++ beBytes 2 sum
  let z := (List.range 34).flatMap (fun i =>
    let a := (digits.getD i 0).toNat
    otsChain (pre ++ beBytes 2 i) (255 - a) a (cutB sig (36 + 32 * i) 32))
  sha256 (pre ++ [0x80, 0x80] ++ z)

/-- Climb the tree from a node along the path that is left. -/
def lmsClimb (id : List Byte) : Nat → Nat → List Byte → List Byte → List Byte
  | 0, _, _, t => t
  | k + 1, node, path, t =>
    let pair := if node % 2 = 1 then path.take 32 ++ t else t ++ path.take 32
    lmsClimb id k (node / 2) (path.drop 32) (sha256 (id ++ beBytes 4 (node / 2) ++ [0x83, 0x83] ++ pair))

/-- An LMS signature of 1,772 bytes verifies under a public key of 56 bytes. -/
def lmsOk (pub sig msg : List Byte) : Bool :=
  let id := cutB pub 8 16
  let q := beNat (cutB sig 0 4)
  let leaf := 2 ^ 20 + q
  pub.length = 56 && sig.length = 1772 && beNat (cutB pub 0 4) = 8 && beNat (cutB pub 4 4) = 4 &&
    beNat (cutB sig 4 4) = 4 && beNat (cutB sig 1128 4) = 8 && q < 2 ^ 20 &&
    decide (lmsClimb id 20 leaf (cutB sig 1132 640)
      (sha256 (id ++ beBytes 4 leaf ++ [0x82, 0x82] ++ otsKey id q (cutB sig 4 1124) msg)) = cutB pub 24 32)

/-- An HSS signature with two levels verifies (R521). -/
def hssOk (pub sig msg : List Byte) : Bool :=
  let key := cutB sig 1776 56
  pub.length = 60 && sig.length = 3604 && beNat (cutB pub 0 4) = 2 && beNat (cutB sig 0 4) = 1 &&
    lmsOk (cutB pub 4 56) (cutB sig 4 1772) key && lmsOk key (cutB sig 1832 1772) msg

/-- A slot's image begins with these bytes; reading a region byte that nothing has written gives 0. -/
def Slot.bytes (x : Slot) (o n : Nat) : List Byte := (List.range n).map (fun i => x.region.get 0 (o + i))
def Slot.le (x : Slot) (o n : Nat) : Nat := leVal (x.bytes o n)

/-- Bytes of the image that a slot's header declares (R520). -/
def Slot.total (x : Slot) : Nat := 128 + x.le 16 4 + 3604

/-- Fields of the factory image, which the spec does not state. -/
def factoryDigest : List Byte := (List.range 32).map Config.fuseByte
def factoryVersion : Nat := leVal ((List.range 4).map (fun i => Config.fuseByte (32 + i)))
def factoryRollback : Nat := (Config.fuseByte 36).toNat

/-- FW_VERSION, ROLLBACK and the measurement of a slot's image (R520). -/
def Slot.version (x : Slot) : Nat := if x.factory then factoryVersion else x.le 8 4
def Slot.rollback (x : Slot) : Nat := if x.factory then factoryRollback else x.le 12 1
def Slot.digest (x : Slot) : List Byte := if x.factory then factoryDigest else sha256 (x.bytes 0 x.total)

/-- An image passes R521. The image that the part was shipped with passes it, unless fuses have been blown beyond its
ROLLBACK. -/
def State.bootable (s : State) (x : Slot) : Bool :=
  if x.factory then decide (s.fuses.floor ≤ factoryRollback) || s.fuses.floor = 0
  else
    x.le 0 4 = 0x57465654 && x.le 4 2 = 1 && x.le 6 2 = 0 && x.le 13 3 = 0 && x.le 20 12 = 0 && x.le 92 36 = 0 &&
      x.total ≤ 100659200 && sha256v (x.bytes 32 60) = s.fuses.vendorHash && s.fuses.floor ≤ x.le 12 1 &&
      hssOk (x.bytes 32 60) (x.bytes (x.total - 3604) 3604) (x.bytes 0 (x.total - 3604))

/-- Slot A or B of the flash. -/
def State.slot (s : State) (n : Nat) : Slot := if n = 0 then s.flash.slotA else s.flash.slotB
def State.setSlot (s : State) (n : Nat) (x : Slot) : State :=
  { s with flash := if n = 0 then { s.flash with slotA := x } else { s.flash with slotB := x } }
def State.onSlot (s : State) (n : Nat) (f : Slot → Slot) : State := s.setSlot n (f (s.slot n))

/-- Raise FLOOR to a ROLLBACK (R523). -/
def State.raiseFloor (s : State) (n : Nat) : State := { s with fuses := { s.fuses with floor := max s.fuses.floor (min n 255) } }

/-- Make a slot ACTIVE with SEQ one above the other's, and the other VALID (R526, R527). -/
def State.commitSlot (s : State) (n : Nat) : State :=
  let o := s.slot (1 - n)
  let s := s.onSlot n (fun x => { x with state := .active, tried := false, seq := (o.seq + 1) % 2 ^ 32 })
  let s := s.onSlot (1 - n) (fun x => { x with state := .valid })
  s.raiseFloor (s.slot n).rollback

end Sys2Proof.Machine
end

