-- ==== Sys2Proof/Machine/BootOps.lean ====
section
/-! DEFINITION. Reset, the choice of an image, the tag area, self-test and the orders of power-up (spec/19). -/

namespace Sys2Proof.Machine

/-- What a reset leaves (R515): flash, fuses, the persistent values of the Thimble log, the pins, the chain's index and
its frames, and what has been sent. Everything else is as after power-up. -/
def State.resetPackage (s : State) : State :=
  { pending := s.pending, freeCtr := s.freeCtr, fns := [(0, { st := .stopped })], fuses := s.fuses, flash := s.flash,
    trc := { pinArmed := s.trc.pinArmed },
    thm := { opKey := s.thm.opKey, bootEpoch := s.thm.bootEpoch, defaultMem := s.thm.defaultMem, outbox := s.thm.outbox },
    boot := { v3p3 := s.boot.v3p3, vin12 := s.boot.vin12, pgood := s.boot.pgood, nextSig := s.boot.nextSig },
    fatal := s.fatal,
    eth := { frames := s.eth.frames, answers := s.eth.answers, cnps := s.eth.cnps, datagrams := s.eth.datagrams },
    stch := s.stch, timeBase := { timeref := s.timeBase.timeref } }

/-- A reset that RESET_N, RESET_REQ, FW_ACTIVATE or the watchdog asks for: none in the fatal safe state (R486) or without
power. -/
def State.doReset (s : State) : State := if s.boot.pgood && s.fatal.cause = 0 then s.resetPackage else s

/-- The tag area's header is right (R537). -/
def Flash.tagOk (x : Flash) : Bool :=
  leVal ((List.range 4).map (fun i => x.tag.get 0 i)) = 0x54414741 && leVal ((List.range 2).map (fun i => x.tag.get 0 (4 + i))) = 1

/-- A byte of the tag area; with a wrong header every field after byte 15 reads 0 (R537). -/
def Flash.tagByte (x : Flash) (o : Nat) : Byte := if o ≥ 16 ∧ !x.tagOk then 0 else x.tag.get 0 o
def Flash.tagBytes (x : Flash) (o n : Nat) : List Byte := (List.range n).map (fun i => x.tagByte (o + i))
def Flash.tagLe (x : Flash) (o n : Nat) : Nat := leVal (x.tagBytes o n)

/-- The tag area is locked (Table 19.9). -/
def Flash.locked (x : Flash) : Bool := x.tagOk && (x.tag.get 0 6).getLsbD 0

/-- WRITE_COUNT: the larger of the two copies (R535). -/
def Flash.count (x : Flash) : Nat := if x.tagOk then max x.writeCount (x.tagLe 8 4) else x.writeCount

/-- One accepted write of the tag area (R536, R537): the header is written afresh where it was wrong, and WRITE_COUNT
advances in both copies. -/
def Flash.tagWrite (x : Flash) (o : Nat) (bs : List Byte) : Flash :=
  let n := x.count + 1
  let base : SMap Byte := if x.tagOk then x.tag else putBytes [] 0 (toLe 4 0x54414741 ++ toLe 2 1)
  { x with tag := putBytes (putBytes base o bs) 8 (toLe 4 n), writeCount := n }

/-- The network record that is in force after power-up (R362, Table 13.2), and whether it is the default. -/
def Flash.netrec (x : Flash) : NetRec × Bool :=
  let g := fun (o n : Nat) => x.tagLe (128 + o) n
  let mode := g 10 1
  let bad := g 0 4 ≠ 0x4E455452 || g 4 2 > 4094 || g 6 1 ≥ 64 || g 8 1 ≥ 64 || g 9 1 ≥ 64 || mode ≥ 3 ||
    (mode = 2 && (g 16 1 < 1 || g 16 1 > 30)) || g 17 3 ≠ 0 || (x.tagBytes 152 40).any (· ≠ 0)
  if bad then ({}, true)
  else ({ vlan := g 4 2, rocePcp := g 6 1 % 8, mgmtPcp := g 6 1 / 8, pfcMask := g 7 1, roceDscp := g 8 1, cnpDscp := g 9 1,
          ipv4Mode := mode, ptpDomain := g 11 1, ipv4Addr := g 12 4, ipv4Prefix := g 16 1, ipv4Gw := g 20 4 }, false)

/-- The MAC in use (R359). -/
def State.macInUse (s : State) : BitVec 48 :=
  let m := beNat (s.flash.tagBytes 16 6)
  if m ≠ 0 && !((s.flash.tagByte 16).getLsbD 0) then BitVec.ofNat 48 m else s.fuses.mac

/-- R522: the slot that boots, with the slot records and THM_BOOT fields it leaves; no slot ACTIVE makes slot A first. -/
def State.pickSlot (s : State) (alternate : Bool) : State × Option Nat :=
  let trial := [0, 1].find? (fun n => (s.slot n).state = .trial)
  let act := if (s.slot 1).state = .active then 1 else 0
  let std := if alternate then 1 - act else act
  let (s, first) := match trial with
    | some n =>
      if !(s.slot n).tried then
        (({ s with boot := { s.boot with trial := true } }).onSlot n (fun x => { x with tried := true }), n)
      else
        (({ s with boot := { s.boot with trialReverted := true } }).onSlot n (fun x => { x with state := .valid }), std)
    | none => (s, std)
  let other := 1 - first
  let passes := fun (s : State) (n : Nat) => (s.slot n).state ≠ .empty && s.bootable (s.slot n)
  if passes s first then (s, some first)
  else
    let s := if s.boot.trial then
        ({ s with boot := { s.boot with trial := false, trialReverted := true } }).onSlot first (fun x => { x with state := .valid })
      else s
    let ok := ((s.slot other).state = .valid || (s.slot other).state = .active) && passes s other
    if ok then ({ s with boot := { s.boot with fallback := true } }, some other) else (s, none)

/-- A tile that self-test or its slab retires before any function owns it (R488, R491). -/
def State.failTile (s : State) (t : Nat) : State :=
  if (s.tile t).retired then s
  else ({ s with flash := { s.flash with retiredTiles := s.flash.retiredTiles ++ [t] } }).setTile t { retired := true, gated := true }

/-- A boot halts at an order (R517). -/
def State.haltBoot (s : State) (order fail block : Nat) : State :=
  { s with boot := { s.boot with order := order, fail := fail, failBlock := block } }

/-- Orders 5: firmware starts, and what flash holds takes effect. -/
def State.bootFirmware (s : State) : State :=
  let x := s.flash
  let nr := x.netrec
  let s := { s with thm := { s.thm with bootEpoch := s.thm.bootEpoch + 1 },
                    eth := { s.eth with mac := s.macInUse, netrec := nr.1, netrecBad := nr.2 },
                    fab := { s.fab with addr := if tb (x.tagLe 24 2) 15 then some (x.tagLe 24 2 % 2 ^ 14) else none,
                                        use := if s.fuses.part = 3 then 0x03FFF else 0xFFFFF },
                    boot := { s.boot with order := 5, nextSig := x.sigBlock * 4096 } }
  let s := x.retiredTiles.foldl (fun (s : State) t => s.setTile t { retired := true, gated := true }) s
  let s := x.retiredPages.foldl (fun (s : State) p =>
    let t := p / 2 ^ 20
    let b := s.slab t
    match (List.range 32).find? (fun i => !(b.retire.get {} i).valid) with
    | some i => s.setSlab t { b with retire := b.retire.set {} i { page := p % 2 ^ 20, valid := true, retired := true } }
    | none => s) s
  x.downLinks.foldl (fun (s : State) l => s.setHalves l.1 l.2 2) s

/-- What self-test finds (Table 19.4), but for the halts; it ends with every slab zeroed. -/
def State.selfTest (s : State) (x : SelfTest) : State :=
  let s := if x.flashCorrected then s.raise .thm 0 4 {} else s
  let s := (x.failedTiles.map (·.val) ++ x.failedDomains.flatMap (fun d => (List.range 80).filter (fun t => domainOf t = d.val))).foldl
    (fun (s : State) t => s.failTile t) s
  let s := x.badPages.foldl (fun (s : State) p => if p.2 < s.slabPages then s.retirePage p.1 p.2 else s) s
  let s := (List.range 80).foldl (fun (s : State) t => if (s.tile t).retireReq then s.failTile t else s) s
  let s := { s with flash := { s.flash with
    withheldCores := (s.flash.withheldCores ++ x.failedCores.map (·.val)).eraseDups,
    failedLanes := (s.flash.failedLanes ++ x.failedLanes.map (fun l => (l.1.val, l.2.val))).eraseDups,
    downLinks := (s.flash.downLinks ++ x.downLinks.map (fun l => (l.1.val, l.2))).eraseDups } }
  let s := x.downLinks.foldl (fun (s : State) l => s.setHalves l.1.val l.2 2) s
  let s := if x.noOscillator then
      let k := s.fresh
      k.2.raise .time 0 (2 ^ (Config.measured k.1 % 3)) {}
    else s
  (List.range 80).foldl (fun (s : State) t => s.onSlab t (fun b => { b with data := [], mdata := [], chk := [] })) s

/-- Orders 8 to 10: ports and Ethernet train, and the time base starts. -/
def State.trainAll (s : State) (osc : Bool) : State :=
  let s := (List.range 20).foldl (fun (s : State) p => if s.portAbsent p then s else s.portGo p .training) s
  { s with boot := { s.boot with order := 10 }, eth := { s.eth with training := true },
           timeBase := { s.timeBase with state := if osc && s.timeBase.timeref then 1 else 0 } }

/-- Orders 7 to 10: a trial commits, ports and Ethernet train, services start. -/
def State.bootFinish (s : State) (osc : Bool) : State :=
  (((if s.boot.trial then s.commitSlot s.boot.slot else s).trainAll osc).startServices).boardEvent 1

/-- RECOVERY (Table 19.3): before it boots as NORMAL, the ROM erases the operator key, clears the lock of the tag area and
sets DEFAULT_MEM. -/
def State.recover (s : State) (mode : Nat) : State :=
  if mode = 2 then
    { s with thm := { s.thm with opKey := none, defaultMem := true },
             flash := { s.flash with tag := s.flash.tag.modify 0 6 (· &&& 0xFE) } }
  else s

/-- Orders 3 to 10 of Table 19.2. -/
def State.bootRun (s : State) (mode : Nat) (x : SelfTest) : State :=
  let s := { s with boot := { s.boot with order := 3, mode := mode, modeBad := mode = 3 } }
  if x.comparatorFail then s.haltBoot 3 2 0
  else if x.flashFail || s.flash.failed then s.haltBoot 4 4 0
  else
    match (s.recover mode).pickSlot (mode = 1) with
    | (s, none) => s.haltBoot 4 1 0
    | (s, some n) =>
      let s := { s with boot := { s.boot with slot := n } }.bootFirmware
      match x.unitFail with
      | some b => s.haltBoot 6 3 b.toNat
      | none => (s.selfTest x).bootFinish (!x.noOscillator)

end Sys2Proof.Machine
end

