-- ==== Sys2Proof/Machine/Boot.lean ====
section
/-! DEFINITION. Supplies, power-up, resets, the fatal latch and JTAG (spec/19_boot_identity_security.md, R486). -/

namespace Sys2Proof.Machine

/-- V3P3 in range: order 1 of Table 19.2. -/
def execV3p3Rise (s : State) : Host.Outcome State Fault Refusal :=
  .next (if s.boot.v3p3 then s else { s with boot := { s.boot with v3p3 := true, order := 1 } })

/-- Both supplies in range: the regulators sequence and PGOOD is asserted, order 2. A latched fatal cause keeps the
package in the safe state (R486). -/
def execSuppliesInRange (s : State) : Host.Outcome State Fault Refusal :=
  .next (if s.boot.v3p3 && !s.boot.pgood then
      { s with boot := { s.boot with vin12 := true, pgood := true } }.resetPackage
    else s)

/-- Orders 3 to 10 of Table 19.2, once PGOOD is asserted and RESET_N is high (R513). -/
def execBootSequence (bootMode : BitVec 2) (found : SelfTest) (s : State) : Host.Outcome State Fault Refusal :=
  .next (if s.boot.pgood && s.boot.order = 2 && s.boot.fail = 0 && s.fatal.cause = 0 then s.bootRun bootMode.toNat found
    else s)

/-- The trial watchdog (R527): a trial that has not reached order 7. -/
def execTrialWatchdog (s : State) : Host.Outcome State Fault Refusal :=
  .next (if s.boot.trial && 3 ≤ s.boot.order && s.boot.order < 7 then s.doReset else s)

/-- A low level on RESET_N of 2 µs or more (R515). -/
def execResetNAssert (heldNs : Nat) (s : State) : Host.Outcome State Fault Refusal :=
  .next (if heldNs ≥ 2000 then s.doReset else s)

/-- The package without a supply (R516): PGOOD deasserted and every port idle. -/
def State.powerOff (s : State) (vin12 v3p3 : Bool) : State :=
  let s := (List.range 20).foldl (fun (s : State) p =>
    if s.portAbsent p then s else s.onPort p (fun y => { y with st := .down, queue := [], sent := [], lanes := 0, upper := false })) s
  { s with boot := { s.boot with vin12 := vin12, v3p3 := v3p3, pgood := false, order := if v3p3 then 1 else 0 },
           eth := { s.eth with link := false, training := false },
           stch := if v3p3 then s.stch else { s.stch with index := 0xFF, inbox := [], own := [] } }

/-- VIN12 below 10.5 V or V3P3 below 3.0 V for 5 µs (R516). -/
def execPowerDown (vin12Mv v3p3Mv : Nat) (s : State) : Host.Outcome State Fault Refusal :=
  .next (if vin12Mv < 10500 || v3p3Mv < 3000 then s.powerOff (decide (vin12Mv ≥ 10500)) (decide (v3p3Mv ≥ 3000)) else s)

/-- Both supplies removed, VIN12 below 1.0 V and V3P3 below 0.5 V (R486): the fatal latch is cleared, and FAULT_N and
THERMTRIP_N are released. -/
def execFatalLatchClear (vin12Mv v3p3Mv : Nat) (s : State) : Host.Outcome State Fault Refusal :=
  .next (if vin12Mv < 1000 && v3p3Mv < 500 then { s.powerOff false false with fatal := {} } else s)

/-- JTAG writes an image region (R517): bytes within the 100,659,200 of R510. -/
def execJtagImageWrite (slot : Fin 2) (offset : Nat) (data : List Byte) (s : State) : Host.Outcome State Fault Refusal :=
  .next (if s.boot.v3p3 && s.fatal.cause = 0 && offset + data.length ≤ 100659200 then
      s.onSlot slot (fun x => { x with factory := false, region := putBytes x.region offset data })
    else s)

end Sys2Proof.Machine
end

