-- ==== Sys2Proof/Machine/CollCheck.lean ====
section
/-! DEFINITION. The slab ranges that a collective reads and writes (R417, R430), and the pages that an operation in
progress holds (R325). -/

namespace Sys2Proof.Machine

/-- The ranges of the parts of a contribution (Table 15.5): none at a member of BROADCAST that is not ROOT. A SRC with bits
63:62 is no slab address (R283), and neither are its parts. -/
def Coll.srcRanges (c : Coll) : List (Nat × Nat) :=
  if c.barrier || (c.opc = 4 && c.group.rank ≠ c.root) then []
  else (List.range c.parts).map (fun p => (if c.src < 2 ^ 62 then (c.src + p * c.pitch) % 2 ^ 62 else c.src, c.total))

/-- Bytes of DST at this member (Table 15.5). -/
def Coll.dstBytes (c : Coll) : Nat :=
  if c.barrier then 0 else if c.opc = 3 ∨ c.opc = 5 then c.group.size * c.block else c.block

/-- The ranges that a collective writes: DST and the group record. -/
def Coll.dstRanges (c : Coll) : List (Nat × Nat) :=
  (if c.dstBytes = 0 then [] else [(c.dst, c.dstBytes)]) ++ [(c.group.addr, 64 + 16 * c.group.size)]

/-- The pages (tile and slab page) that a range of slab addresses touches. -/
def State.rangePages (s : State) (f : Nat) (req : Option Nat) (a n : Nat) : List (Nat × Nat) :=
  ((s.pieces f req (n / 65536 + 2) a n).getD []).map (fun p => (p.1, p.2.1 / 65536))

/-- The slab ranges of a DMA descriptor that has started (Table 4.8). -/
def dmaRanges (raw : Nat) : List (Nat × Nat) :=
  let g := fun (b n : Nat) => raw / 2 ^ b % 2 ^ n
  let rows := List.range (g 224 32)
  let op := g 8 8
  (if op ≠ 3 && g 126 2 = 1 then rows.map (fun i => (g 64 62 + i * g 256 32, g 192 32)) else []) ++
    (if op ≠ 2 && g 190 2 = 1 then rows.map (fun i => (g 128 62 + i * g 288 32, g 192 32)) else [])

/-- The pages of a function that an operation accepted and not ended holds: a collective's ranges, those of a ring COPY,
and those of a DMA descriptor, the rows of a BULK_SEND where they land within the package among them. -/
def State.heldPages (s : State) (f : Nat) : List (Nat × Nat) :=
  ((s.colls.filter (fun c => c.fn = f)).flatMap (fun c =>
    (c.srcRanges ++ c.dstRanges).flatMap (fun p => s.rangePages f none p.1 p.2))) ++
  ((s.rings.filter (fun e => e.2.valid && e.2.fn = f)).flatMap (fun e =>
    (e.2.cmds.filter (fun c => fld c.raw 0 0 8 = 2 && !c.complete)).flatMap (fun c =>
      s.rangePages f none (fld c.raw 8 0 64) (fld c.raw 24 0 64) ++ s.rangePages f none (fld c.raw 16 0 64) (fld c.raw 24 0 64)))) ++
  (s.tilesOf f).flatMap (fun t =>
    match (s.tile t).dma.run with
    | some r =>
      let d := DmaD.of r.desc.raw
      if r.done then []
      else (dmaRanges r.desc.raw ++ (if d.op = 2 then (s.bulkRows t d).map (fun a => (a, d.rowBytes)) else [])).flatMap
        (fun p => s.rangePages f (some t) p.1 p.2)
    | none => [])

end Sys2Proof.Machine
end

