-- ==== Sys2Proof/Machine/Rings.lean ====
section
/-! DEFINITION. Doorbells, dispatchers, ring commands and fence counters (R316 to R321, R327). -/

namespace Sys2Proof.Machine

/-- A dispatcher error (R327): it stops the function that owns the ring. -/
def State.raiseDsp (s : State) (r mask : Nat) : State := s.raise .dsp (r / 2048) mask (fnScope (s.ring r).fn)

/-- A ring whose SIZE_LOG2 gives it entries (R317). -/
def Ring.sized (g : Ring) : Bool := 6 ≤ g.sizeLog2 && g.sizeLog2 ≤ 16

/-- What a doorbell write comes to. -/
inductive Doorbell where
  | accepted | refused | bad
  deriving DecidableEq, Repr

/-- A doorbell write of TAIL to a physical ring (R317). -/
def State.doorbell (s : State) (r : Nat) (tail : W32) : State × Doorbell :=
  let g := s.ring r
  if (s.fn g.fn).st ≠ .running then
    ((s.setRing r { g with refused := true }).count .dsp (r / 2048) 2 0 g.fn 1, .refused)
  else if (if g.sized then (tail - g.done).toNat > 2 ^ g.sizeLog2 else tail ≠ g.done) then (s.raiseDsp r 4, .bad)
  else if g.sized then (s.setRing r { g with tail := tail }, .accepted)
  else (s, .accepted)

/-- The answer to a core's access (R347). -/
def State.coreAns (s : State) (c : Nat) (a : CoreAns) : State := s.onCore c (fun x => { x with answer := a })

/-- A core's function, where the core runs. -/
def State.coreFn (s : State) (c : Nat) : Option Nat := if s.live && (s.core c).st = .running then (s.core c).fn else none

/-- The connection of a QPN. -/
def State.conn (s : State) (q : Nat) : Option Conn := s.eth.conns.get none q

/-- What a connection sends, at ROCE_PCP and with ECT(0) (R363, R365). -/
def State.roceOut (s : State) (q dscp : Nat) (a : RdmaAns) : RoceOut :=
  let n := s.eth.netrec
  let k := s.conn q
  { qpn := q, gid := (k.map (·.gid)).getD 0, peerQpn := (k.map (·.peerQpn)).getD 0, vlan := n.vlan, pcp := n.rocePcp, dscp := dscp,
    held := !s.ethGo n.rocePcp, ans := a }

/-- The frames that carry what a connection sends: a read response goes in packets of the path MTU (R368). -/
def State.rocePackets (s : State) (o : RoceOut) : Nat :=
  match o.ans, s.conn o.qpn with
  | .data bs, some k => max 1 ((bs.length + k.mtu - 1) / max 1 k.mtu)
  | _, _ => 1

/-- Answer a request of a connection. -/
def State.answer (s : State) (q : Nat) (a : RdmaAns) : State :=
  let o := s.roceOut q s.eth.netrec.roceDscp a
  ({ s with eth := { s.eth with answers := s.eth.answers ++ [o] } }).count .eth 0 1 0 0 (if o.held then 0 else s.rocePackets o)

/-- A doorbell by RDMA (R318): a ring the function does not hold is answered with NAK 0x61, a refused write with
NAK 0x63, and under a tack every doorbell with RNR (R506). -/
def State.rdmaDoorbell (s : State) (q : Nat) (f n : Nat) (tail : W32) : State :=
  if s.tacked then s.answer q .rnr
  else match s.localRing f n with
    | none => (s.count .win 0 1 0x61 f 1).answer q (.nak 0x61)
    | some r =>
      match s.doorbell r tail with
      | (s, .refused) => (s.count .win 0 1 0x63 f 1).answer q (.nak 0x63)
      | (s, _) => s.answer q .ack

def execRingDoorbell (src : DoorSrc) (ring : Nat) (tail : W32) (s : State) : Host.Outcome State Fault Refusal :=
  .next (match src with
    | .core c => match s.coreFn c with
      | some f => match s.localRing f ring with
        | some r => ((s.doorbell r tail).1).coreAns c (.data 0)
        | none => s.coreAns c .fault
      | none => s
    | .rdma q =>
      if s.boot.pgood && s.fatal.cause = 0 && s.eth.link then
        match s.conn q.toNat with
        | some k => s.rdmaDoorbell q.toNat k.fn ring tail
        | none => s
      else s)

/-- Header fields of a ring command (Table 11.6). -/
def ringOp (raw : Nat) : Nat := fld raw 0 0 8
def ringSerial (raw : Nat) : Bool := fld raw 1 0 1 = 1
def ringSigEn (raw : Nat) : Bool := fld raw 1 1 1 = 1
def ringComplete (raw : Nat) : Nat := fld raw 1 2 2
def ringSigFence (raw : Nat) : Nat := fld raw 2 0 16

/-- The physical tiles that a LAUNCH names; none for a bit at or beyond VTILES, a hole, or a tile without a program
(R320). -/
def State.launchTiles (s : State) (f raw : Nat) : List (Option Nat) :=
  ((List.range 80).filter (fun v => raw.testBit (64 + v))).map (fun v => (s.vtile f v).bind (fun t =>
    if (s.tile t).image.isSome then some t else none))

/-- MALFORMED of a command (Table 11.19, R320, R321, R418). -/
def State.ringMalformed (s : State) (f : Nat) (group : Bool) (raw : Nat) : Bool :=
  let op := ringOp raw
  let x := s.fn f
  let zero := fun (b n : Nat) => fld raw b 0 (8 * n) = 0
  let head := op > 6 || fld raw 1 4 4 ≠ 0 || !zero 4 4 || (if op = 1 then ringComplete raw = 3 else ringComplete raw ≠ 0) ||
    (ringSigEn raw && ringSigFence raw ≥ x.fences) || (group && (op = 1 || op = 2))
  head || (match op with
    | 0 => !zero 8 56
    | 1 => !zero 18 6 || !zero 56 8 || (s.launchTiles f raw).any Option.isNone
    | 2 => fld raw 24 0 64 < 1 || fld raw 24 0 64 > 2 ^ 32 || !zero 32 32
    | 3 => fld raw 8 0 16 ≥ x.fences || !zero 10 6 || !zero 24 40
    | 4 => fld raw 8 0 16 ≥ x.fences || fld raw 10 1 7 ≠ 0 || !zero 11 5 || !zero 24 40
    | _ => false)

/-- The refusals of a COPY's ranges (R324). -/
def State.copyCheck (s : State) (f raw : Nat) : List SlabRes :=
  if ringOp raw ≠ 2 then []
  else [s.slabCheck f none (fld raw 8 0 64) (fld raw 24 0 64) false false,
        s.slabCheck f none (fld raw 16 0 64) (fld raw 24 0 64) true false].filter (fun c => !c.isOk)

/-- The position of a ring in its dispatcher's turn (R319, R418): a function's group rings come before its others. -/
def turnKey (e : Nat × Ring) : Nat := e.2.fn * 16384 + (if e.2.group then 0 else 8192) + e.1

/-- A ring that its dispatcher may serve. -/
def State.ringReady (s : State) (q : Nat) (e : Nat × Ring) : Bool :=
  let g := e.2
  e.1 / 2048 = q && g.valid && g.sized && g.head ≠ g.tail && !g.waiting && (s.fn g.fn).st = .running && (s.fn g.fn).charge.isNone &&
    !(g.serialHold && g.cmds.any (fun c => !c.signalled))

/-- The ring of a dispatcher's next turn. -/
def State.nextRing (s : State) (q : Nat) : Option Nat :=
  let at' := s.dspNext.get 0 q
  let l := s.rings.filter (s.ringReady q)
  let best := fun (l : List (Nat × Ring)) => match l with
    | [] => none
    | e :: es => some (es.foldl (fun a b => if turnKey b < turnKey a then b else a) e)
  ((best (l.filter (fun e => at' ≤ turnKey e))).or (best l)).map (·.1)

/-- Fetch the command at HEAD of a ring and start it (R319): a SERIAL one waits until every earlier command has completed and
signalled, and is checked as it starts (R324). One that raises a cause is not started, and every cause that applies is set
(R327). -/
def State.fetchRing (s : State) (r : Nat) : State :=
  let g := s.ring r
  let f := g.fn
  let entry := s.slabCheck f none (g.base.toNat + 64 * (g.head.toNat % 2 ^ g.sizeLog2)) 64 false false
  let done := s.slabCheck f none g.doneAddr.toNat 8 true false
  let fail := fun (s : State) (bad : List SlabRes) (m : Nat) => (bad.foldl (fun (s : State) c => s.reportRefused f c) s).raiseDsp r m
  let badDone := [done].filter (fun c => !c.isOk)
  if !entry.isOk then fail s (entry :: badDone) 2
  else
    let (s, bs, p, u) := s.readPieces entry.pieces
    let raw := leVal bs
    if p || u then fail s badDone (8 + bit (!badDone.isEmpty) 1)
    else if (ringSerial raw || g.group) && g.cmds.any (fun c => !c.signalled) then s.onRing r (fun g => { g with serialHold := true })
    else
      let refs := badDone ++ s.copyCheck f raw
      let m := bit (s.ringMalformed f g.group raw) 0 + bit (!refs.isEmpty) 1
      if m ≠ 0 then fail s refs m
      else s.onRing r (fun g =>
        { g with head := g.head + 1, serialHold := false, waiting := decide (ringOp raw = 3),
                 cmds := g.cmds ++ [s.waitLatch f { idx := g.head, raw := raw }] })

/-- One turn of a dispatcher (R319). -/
def execRingFetch (q : QuadId) (s : State) : Host.Outcome State Fault Refusal :=
  .next (if s.live then
      match s.nextRing q with
      | some r => { s with dspNext := s.dspNext.set 0 q (turnKey (r, s.ring r) + 1) }.fetchRing r
      | none => s
    else s)

/-- The function of a ring works on what it has started. -/
def State.ringLive (s : State) (r : Nat) : Bool :=
  s.live && (s.ring r).valid && ((s.fn (s.ring r).fn).st = .running || (s.fn (s.ring r).fn).st = .stopping)

def State.onCmd (s : State) (r : Nat) (idx : W32) (f : RCmd → RCmd) : State :=
  s.onRing r (fun g => { g with cmds := g.cmds.map (fun c => if c.idx = idx then f c else c) })

/-- Carry out the first started command of an operation that its row has not run. -/
def State.runCmd (s : State) (r op : Nat) (f : State → RCmd → State) : State :=
  if s.ringLive r then
    match (s.ring r).cmds.find? (fun c => ringOp c.raw = op && !c.run && !c.cut) with
    | some c => f (s.onCmd r c.idx (fun c => { c with run := true })) c
    | none => s
  else s

def State.completeCmd (s : State) (r : Nat) (idx : W32) : State := s.onCmd r idx (fun c => { c with complete := true })

/-- NOP completes when it starts. -/
def execRingNop (r : RingId) (s : State) : Host.Outcome State Fault Refusal :=
  .next (s.runCmd r 0 (fun s c => s.completeCmd r c.idx))

/-- LAUNCH (R320): each named tile takes its arguments, now or when it releases those it holds. -/
def execRingLaunch (r : RingId) (s : State) : Host.Outcome State Fault Refusal :=
  .next (s.runCmd r 1 (fun s c =>
    let ts := (s.launchTiles (s.ring r).fn c.raw).filterMap id
    if ts.isEmpty then s.completeCmd r c.idx
    else
      let s := s.onCmd r c.idx (fun c => { c with deliver := ts })
      ts.foldl (fun (s : State) t => s.deliverOne r c.idx t) s))

/-- Every tile that a LAUNCH reached has released its arguments, or halted, as COMPLETE asks. -/
def State.launchDone (s : State) (c : RCmd) : Bool :=
  c.run && c.deliver.isEmpty && (match ringComplete c.raw with
    | 0 => true
    | 1 => c.need.all (fun p => p.2 ≤ (s.tile p.1).lacks)
    | _ => c.need.all (fun p => p.2 ≤ (s.tile p.1).halts))

def execRingLaunchComplete (r : RingId) (s : State) : Host.Outcome State Fault Refusal :=
  .next (if s.ringLive r then
      match (s.ring r).cmds.find? (fun c => ringOp c.raw = 1 && !c.complete && !c.cut && s.launchDone c) with
      | some c => s.completeCmd r c.idx
      | none => s
    else s)

/-- The ranges of a started COPY that a slab controller refuses now (R286). -/
def State.copyLost (s : State) (f raw : Nat) : List SlabRes :=
  [s.slabCheck f none (fld raw 8 0 64) (fld raw 24 0 64) false false,
   s.slabCheck f none (fld raw 16 0 64) (fld raw 24 0 64) true false].filter (fun c => !c.stillOk)

/-- COPY (R320): the copy engine moves bytes in ascending order with their poison (R114, R115); the destination keeps its tags
(R296). Where a page has become RETIRED since its check it is refused with RANGE and does not complete (R286). -/
def execRingCopy (r : RingId) (s : State) : Host.Outcome State Fault Refusal :=
  .next (s.runCmd r 2 (fun s c =>
    let f := (s.ring r).fn
    let t := s.spreadTile f none
    let d : DmaD := { op := 1, src := fld c.raw 8 0 64, srcSpace := 1, dst := fld c.raw 16 0 64, dstSpace := 1,
                      rowBytes := fld c.raw 24 0 64, rows := 1, srcPitch := 0, dstPitch := 0, ep := 0, pattern := 0 }
    match s.copyLost f c.raw with
    | [] => ((s.copyRows f t d (s.copyOpen f t d) false [(d.src, d.dst)]).1).completeCmd r c.idx
    | l => (l.foldl (fun (s : State) x => s.reportRefused f x) s).raiseDsp r 2))

/-- WAIT: its work is done at once where its condition has held since it started. -/
def execRingWait (r : RingId) (s : State) : Host.Outcome State Fault Refusal :=
  .next (s.runCmd r 3 (fun s c => if (s.waitLatch (s.ring r).fn c).released then s.completeCmd r c.idx else s))

def execRingWaitRelease (r : RingId) (s : State) : Host.Outcome State Fault Refusal :=
  .next (if s.ringLive r then
      match (s.ring r).cmds.find? (fun c => ringOp c.raw = 3 && c.run && !c.complete && !c.cut) with
      | some c => if (s.waitLatch (s.ring r).fn c).released then s.completeCmd r c.idx else s
      | none => s
    else s)

/-- SIGNAL (Table 11.8). -/
def execRingSignal (r : RingId) (s : State) : Host.Outcome State Fault Refusal :=
  .next (s.runCmd r 4 (fun s c =>
    (s.signalFence (s.ring r).fn (fld c.raw 8 0 16) (fld c.raw 10 0 1 = 1) (BitVec.ofNat 64 (fld c.raw 16 0 64))).completeCmd r c.idx))

/-- A command completes: its signal, its count, its share in a stop's record (R319, R315), and the end of a WAIT's hold. -/
def State.signalCmd (s : State) (r : Nat) (c : RCmd) : State :=
  let f := (s.ring r).fn
  let s := if ringSigEn c.raw then s.signalFence f (ringSigFence c.raw) false 1 else s
  let s := (s.onCmd r c.idx (fun c => { c with signalled := true })).count .dsp (r / 2048) 1 (ringOp c.raw) f 1
  let s := if ringOp c.raw = 3 then s.onRing r (fun g => { g with waiting := false }) else s
  if (s.fn f).st = .stopping then s.onFn f (fun x => { x with stop := { x.stop with drained := x.stop.drained + 1 } }) else s

/-- DONE advances past the leading commands that have completed, and is written at DONE_ADDR (R317). -/
def State.advanceDone (s : State) (r : Nat) (ps : List (Nat × Nat × Nat)) : State :=
  let g := s.ring r
  let k := (g.cmds.takeWhile (·.signalled)).length
  if k = 0 then s
  else
    let g' := { g with done := g.done + BitVec.ofNat 32 k, cmds := g.cmds.drop k }
    (s.setRing r g').writePieces ps (toLe 8 g'.done.toNat) false

/-- A command whose work is visible completes: it signals, and DONE advances and is written. One that would advance DONE to a
DONE_ADDR that is refused now raises RANGE, does not signal, and leaves DONE below it (R327). -/
def State.finishCmd (s : State) (r : Nat) (c : RCmd) : State :=
  let g := s.ring r
  let leads := (g.cmds.find? (fun d => !d.signalled)).map (·.idx) = some c.idx
  match s.slabCheck g.fn none g.doneAddr.toNat 8 true false with
  | .ok ps => (s.signalCmd r c).advanceDone r ps
  | x => if leads then ((s.onCmd r c.idx (fun c => { c with cut := true })).reportRefused g.fn x).raiseDsp r 2 else s.signalCmd r c

def execRingCommandComplete (r : RingId) (s : State) : Host.Outcome State Fault Refusal :=
  .next (if s.ringLive r then
      match (s.ring r).cmds.find? (fun c => c.complete && !c.signalled && !c.cut) with
      | some c => s.finishCmd r c
      | none => s
    else s)

/-- A core's write to a fence aperture (R347): an index at or beyond FENCES is an access fault of the core and has no
effect. -/
def State.coreFence (s : State) (c i : Nat) (set : Bool) (v : W64) : State :=
  match s.coreFn c with
  | some f => if i < (s.fn f).fences then (s.signalFence f i set v).coreAns c (.data 0) else s.coreAns c .fault
  | none => s

def execCoreFenceAdd (c : CoreId) (idx : Nat) (value : W64) (s : State) : Host.Outcome State Fault Refusal :=
  .next (s.coreFence c idx false value)

def execCoreFenceSet (c : CoreId) (idx : Nat) (value : W64) (s : State) : Host.Outcome State Fault Refusal :=
  .next (s.coreFence c idx true value)

end Sys2Proof.Machine
end

