-- ==== Sys2Proof/Machine/Collectives.lean ====
section
/-! DEFINITION. The collective commands: start, admission, the packets of a collective, its timeout and its completion
(spec/15, R414 to R437). -/

namespace Sys2Proof.Machine

/-- A body that R416 and R417 refuse without the group record. -/
def Coll.badBody (c : Coll) : Bool :=
  let zero := fun (b n : Nat) => fld c.raw b 0 (8 * n) ≠ 0
  let gaddr := fld c.raw 16 0 64
  gaddr % 64 ≠ 0 || (if c.barrier then zero 8 8 || zero 24 40
    else c.opc < 1 || c.opc > 5 || c.dtype > 5 || c.redop > 2 || (c.dtype = 0 && c.redop ≠ 0) || (c.opc > 2 && c.redop ≠ 0) ||
      c.parts < 1 || c.parts > 80 || (c.parts > 1 && c.opc > 2) || zero 11 1 || c.count < 1 || (c.opc ≠ 4 && c.root ≠ 0) ||
      zero 50 14 || c.src % 64 ≠ 0 || c.dst % 64 ≠ 0)

/-- What R417 asks of a body against its group's size. -/
def Coll.badSize (c : Coll) : Bool := !c.barrier && (c.total > 268433408 || (c.opc = 4 && c.root ≥ c.group.size))

/-- Two lists of pieces share a byte of slab memory. -/
def overlap (a b : List (Nat × Nat × Nat)) : Bool :=
  a.any (fun x => b.any (fun y => x.1 = y.1 && x.2.1 < y.2.1 + y.2.2 && y.2.1 < x.2.1 + x.2.2))

/-- DST overlaps a source, but where R417 lets them coincide. -/
def State.collOverlap (s : State) (c : Coll) : Bool :=
  let ps := fun (a n : Nat) => (s.pieces c.fn none (n / 65536 + 2) a n).getD []
  !c.barrier && !(c.dst = c.src && ((c.opc = 1 && c.parts = 1) || c.opc = 4)) &&
    c.srcRanges.any (fun p => overlap (ps p.1 p.2) (ps c.dst c.dstBytes))

/-- A header of a group record that R415 refuses. -/
def badHead (h : Nat) : Bool :=
  let size := fld h 2 0 15
  size = 0 || fld h 4 0 16 ≥ size || fld h 8 0 32 > 10000000 || fld h 2 15 1 ≠ 0 || fld h 6 0 16 ≠ 0 || fld h 12 0 32 ≠ 0 ||
    fld h 26 0 16 ≠ 0 || fld h 40 0 192 ≠ 0

/-- A group description read from its record (Tables 15.1 and 15.2), or `none` where R415 or R435 refuses it. -/
def State.parseGroup (s : State) (f addr : Nat) (head members : List Byte) : Option Group :=
  let h := leVal head
  let size := fld h 2 0 15
  let rank := fld h 4 0 16
  let us := fld h 8 0 32
  let es := (List.range size).map (fun i => leVal ((members.drop (16 * i)).take 4))
  let peers := es.map (fun e => (s.fn f).peers.get {} (e % 65536))
  let addrs := peers.map (·.addr)
  let own := s.fab.addr.getD 0x4000
  let g : Group := { id := fld h 0 0 16, addr := addr, size := size, rank := rank, timeoutUs := if us = 0 then 100000 else us,
                     vpkgs := es.map (· % 65536), addrs := addrs, fns := peers.map (·.fn) }
  let bad := badHead h || es.any (fun e => e / 65536 ≠ 0) || peers.any (fun p => !p.valid) ||
    g.addrOf rank ≠ own || g.fns.getD rank 0 ≠ f || ((List.range size).any (fun i => i ≠ rank && g.addrOf i = own)) ||
    !decide addrs.Nodup || (s.fuses.part = 3 && addrs.any (fun a => a / 64 ≠ own / 64))
  if bad then none else some g

/-- The description of the group whose record is at an address (R415): one of the 256 kept, or read again. A record that
cannot be read clean, and a list that differs from the one read before, are refused. -/
def State.loadGroup (s : State) (f addr : Nat) (head : List (Nat × Nat × Nat)) : State × Option Group :=
  let known := s.groups.find? (fun g => g.1 = f && g.2.addr = addr)
  let front := fun (s : State) (g : Group) =>
    { s with groups := (f, g) :: s.groups.filter (fun e => !(e.1 = f && e.2.addr = addr)) }
  match known, (s.groups.take 256).any (fun g => g.1 = f && g.2.addr = addr) with
  | some (_, g), true => (front s g, some g)
  | _, _ =>
    let (s, hb, hp, _) := s.readPieces head
    let n := 16 * fld (leVal hb) 2 0 15
    let mem := s.slabCheck f none (addr + 64) n false false
    let (s, mb, mp, _) := s.readPieces mem.pieces
    match s.parseGroup f addr hb mb with
    | some g =>
      if hp || mp || !mem.isOk || (match known with
        | some k => decide (k.2.vpkgs ≠ g.vpkgs)
        | none => false) then (s, none) else (front s g, some g)
    | none => (s, none)

/-- The member list of the record whose header is given, checked for access (R417). -/
def State.membersCheck (s : State) (f addr : Nat) (hb : List Byte) : SlabRes :=
  s.slabCheck f none (addr + 64) (16 * fld (leVal hb) 2 0 15) true false

/-- A COLLECTIVE or BARRIER starts, or reports every cause that applies (R415 to R418, R437). -/
def State.collStart (s : State) (r : Nat) (barrier : Bool) (k : RCmd) : State :=
  let f := (s.ring r).fn
  let q := r / 2048
  let gaddr := fld k.raw 16 0 64
  let c0 : Coll := { fn := f, ring := r, idx := k.idx, raw := k.raw, quad := q, barrier := barrier, opseq := 0,
                     group := { id := 0, addr := gaddr, size := 0, rank := 0, timeoutUs := 0, vpkgs := [], addrs := [], fns := [] } }
  let fail := fun (s : State) (mask : Nat) (bad : List SlabRes) =>
    (bad.foldl (fun (s : State) x => s.reportRefused f x) s).raise .coll q mask (fnScope f)
  let head := s.slabCheck f none gaddr 64 true false
  if !head.isOk then fail s (bit c0.badBody 0 + 2) [head]
  else if c0.badBody then fail s 1 []
  else match s.loadGroup f gaddr head.pieces with
    | (s, none) =>
      let hb := (s.readPieces head.pieces).2.1
      let mem := s.membersCheck f gaddr hb
      if mem.isOk then fail s 1 [] else fail s (bit (badHead (leVal hb)) 0 + 2) [mem]
    | (s, some g) =>
      let c := { c0 with group := g }
      let bad := if c.badSize then [] else
        ((c.srcRanges.map (fun p => s.slabCheck f none p.1 p.2 false false)) ++
          (c.dstRanges.map (fun p => s.slabCheck f none p.1 p.2 true false))).filter (fun x => !x.isOk)
      let m := bit (c.badSize || s.collOverlap c) 0 + bit (!bad.isEmpty) 1 + bit (g.multiRack && !(s.ring r).group) 2
      if m ≠ 0 then fail s m bad
      else
        let n := (s.opseqs.get 0 (f * 65536 + g.id) + 1) % 65536
        { s with opseqs := s.opseqs.set 0 (f * 65536 + g.id) n, colls := s.colls ++ [{ c with opseq := n }] }

def execRingCollective (r : RingId) (s : State) : Host.Outcome State Fault Refusal :=
  .next (s.runCmd r 5 (fun s c => s.collStart r false c))

def execRingBarrier (r : RingId) (s : State) : Host.Outcome State Fault Refusal :=
  .next (s.runCmd r 6 (fun s c => s.collStart r true c))

/-- A value that a chunk has from a rank at a stage. -/
def Coll.addPart (c : Coll) (ch stage rank : Nat) (v : ChunkVal) : Coll :=
  { c with chunks := c.chunks.modify {} ch (fun k => { k with parts := k.parts ++ [(stage, rank, v)] }) }

/-- The bytes of a chunk as an engine takes them: seam words that fail R83 become poisoned. Answers the bytes, whether a word
carries POISON, and whether one failed. -/
def Coll.takeBytes (c : Coll) (ch : Nat) (bs : List Byte) : List Byte × Bool × Bool :=
  if ch ≠ arriveChunk && c.dtype = 0 then
    let ws := (Machine.chunks 16 bs).map (fun b => Seam.ofNat (leVal b))
    (ws.flatMap (fun w => toLe 16 w.check.toNat), ws.any (·.poison), ws.any (fun w => !w.resOk))
  else (bs, false, false)

/-- One part of a chunk is read by the engine that owns it (R422); the parts read so far, carried POISON, failed words. -/
def State.collPart (s : State) (c : Coll) (ch p : Nat) (vs : List ChunkVal) : State × Coll × List ChunkVal :=
  let q := chunkQuad ch
  let a := (c.src + p * c.pitch) % 2 ^ 62 + 2048 * ch
  match s.collReach c q a (c.lenOf ch) false with
  | some (n, r) => let x := s.collFail c n r; (x.1, x.2, vs)
  | none =>
    let (s, bs, _, _) := s.getLines c.fn (s.spreadTile c.fn none) 1 a (c.lenOf ch)
    let w := c.takeBytes ch (bs.map (·.1))
    let s := s.statIf (w.2.1 || bs.any (·.2)) .coll q 9
    let (s, c) := if w.2.2 then s.collResidue c q else (s, c)
    (s, c, vs ++ [{ bytes := w.1, poison := bs.any (·.2) }])

/-- The package stage of a chunk (Table 15.6 order 1): its parts are read and combined by ascending part; no value where a
part could not be read. -/
def State.collLocal (s : State) (c : Coll) (ch : Nat) : State × Coll × Option ChunkVal :=
  let (s, c, vs) := (List.range c.parts).foldl (fun (a : State × Coll × List ChunkVal) p => a.1.collPart a.2.1 ch p a.2.2) (s, c, [])
  if vs.length < c.parts then (s, c, none)
  else
    let v := c.fold ch vs
    if v.2 then let p := s.collResidue c (chunkQuad ch); (p.1, p.2, v.1) else (s, c, v.1)

/-- The receivers of this member's data chunk (R423). -/
def Coll.dataTo (c : Coll) (ch : Nat) : List Nat :=
  let g := c.group
  let m := g.rank
  match c.opc with
  | 3 => g.ranks.filter (· ≠ m)
  | 5 => g.ranks.filter (fun r => r ≠ m && (c.cut ch r).2 ≠ 0)
  | _ =>
    let leads := (g.ranks.map g.trayOf).eraseDups.map (g.trayLeader ch)
    let own := g.trayLeader ch (g.trayOf m)
    let tray := if own = m then (g.trayRanks (g.trayOf m)).filter (fun r => r ≠ m && r ≠ c.root) else []
    if m = c.root then leads.filter (· ≠ m) ++ tray else tray

/-- Write a data chunk of a rank where Table 15.5 places it. -/
def State.collPlace (s : State) (c : Coll) (ch rank : Nat) (v : ChunkVal) : State × Coll :=
  let w := c.dataAt ch rank
  s.collWrite c (chunkQuad ch) w.1 ((v.bytes.drop w.2.1).take w.2.2) v.poison

/-- A chunk of this member's contribution enters the collective: as its part of a reduction, or to its receivers and its
own DST. -/
def State.collFeed (s : State) (c : Coll) (ch : Nat) : State × Coll :=
  if c.opc = 4 ∧ c.group.rank ≠ c.root then (s, c)
  else
    let (s, c, v) := s.collLocal c ch
    match v with
    | none => (s, c)
    | some v =>
      if c.reduced ch then (s, c.addPart ch 0 c.group.rank v)
      else
        let (s, c) := s.collPlace c ch c.group.rank v
        (s, { c with sends := c.sends ++ (c.dataTo ch).map (fun r => c.pkt 8 r ch 0 v) })

/-- The grants of a start (R425): 16 chunks for each sender and stage, or of a reduction as many as the free spaces allow
beyond the one reserved for each. -/
def State.collGrantAll (s : State) (c : Coll) : State × Coll :=
  let c := { c with given := c.senders.foldl (fun (m : SMap Nat) (e : Nat × Nat × Nat) => m.set 0 (gKeyQ e.1 e.2.1 e.2.2) 1) c.given }
  c.senders.foldl (fun (a : State × Coll) (e : Nat × Nat × Nat) =>
    let (s, c) := a
    let n := if c.opc ≤ 2 then min 15 ((s.putColl c).collFree e.2.2) else 15
    let c := { c with given := c.given.modify 0 (gKeyQ e.1 e.2.1 e.2.2) (· + n) }
    if e.1 = 0x10000 then (s, c)
    else ((s.fabSend c.fn (c.notice e.1 1 (n + 1 + e.2.1 * 2 ^ 16))).1, c)) (s, c)

/-- The ARRIVE record of this member (R429). -/
def Coll.ownArrive (c : Coll) : Arrive :=
  { sig := BitVec.ofNat 64 (fld c.raw 8 0 16 + fld c.raw 48 0 16 * 2 ^ 16 + fld c.raw 12 0 32 * 2 ^ 32),
    latest := c.start, earliest := c.start, rank := c.group.rank }

/-- Advance every reduced chunk of a collective in turn. -/
def State.collAdvanceAll (s : State) (f gid : Nat) : List Nat → State
  | [] => s
  | ch :: l => (match s.collOf f gid with
    | some c => if c.reduced ch then s.collAdvance c ch else s
    | none => s).collAdvanceAll f gid l

/-- Send what the collective of a group may send now. -/
def State.collFlushOf (s : State) (f gid : Nat) : State :=
  match s.collOf f gid with
  | some c => s.collFlush c
  | none => s

/-- A collective that holds its reservation runs: it grants, contributes ARRIVE and its data, and sends what it may. -/
def State.collRun (s : State) (c : Coll) : State :=
  let c := { c with running := true }
  let (s, c) := (s.putColl c).collGrantAll c
  let c := c.addPart arriveChunk 0 c.group.rank { bytes := c.ownArrive.bytes }
  let (s, c) := (List.range c.nChunks).foldl (fun (a : State × Coll) ch => a.1.collFeed a.2 ch) (s, c)
  ((s.putColl c).collAdvanceAll c.fn c.group.id c.all).collFlushOf c.fn c.group.id

/-- The free spaces of every engine hold the reservation of a collective (R425); the data operations need none. -/
def State.collFits (s : State) (c : Coll) : Bool :=
  c.opc > 2 || (List.range 4).all (fun q => (c.senders.filter (fun e => e.2.2 = q)).length ≤ s.collFree q)

/-- A waiting collective may start (R419): no collective of its group is before it and fewer than 64 run. -/
def State.collMayStart (s : State) (c : Coll) : Bool :=
  !c.admitted && (s.colls.filter (·.admitted)).length < 64 &&
    (s.colls.find? (fun d => d.fn = c.fn && d.group.id = c.group.id)) = some c

/-- A collective starts: START is now, and it stands behind those that have started. -/
def State.collBegin (s : State) (c : Coll) : State × Coll :=
  let d := { c with admitted := true, start := s.timeNs }
  ({ s with colls := s.colls.filter (fun e => !(e.fn = c.fn && e.group.id = c.group.id && e.opseq = c.opseq)) ++ [d] }, d)

/-- COLL_ADMIT: the first collective that holds a slot and waits for buffer space runs; else the first that may start
takes a slot, and runs unless it must wait for space (R419, R425). -/
def execCollAdmit (s : State) : Host.Outcome State Fault Refusal :=
  .next (if !s.live then s
    else
      let first := s.colls.find? (fun c => c.admitted && !c.running && c.abort = 0)
      match first.filter s.collFits with
      | some c => s.collRun c
      | none =>
        match s.colls.find? s.collMayStart with
        | none => s
        | some c =>
          let (s, c) := s.collBegin c
          if s.collFits c && (first.isNone || c.opc > 2) then s.collRun c else s)

/-- Take the first packet that an engine has received and that a predicate selects. -/
def State.takeColl (s : State) (ok : FPkt → Bool) (f : State → FPkt → State) : State :=
  if s.live then
    match takeFirst ok s.collIn with
    | some (p, rest) => f { s with collIn := rest } p
    | none => s
  else s

/-- The rank that a packet's SRC names. -/
def Coll.rankOf (c : Coll) (p : FPkt) : Nat := c.group.addrs.idxOf p.src

/-- The value a PART or RESULT carries, with the failures of R428: seam words that fail R83, which become poisoned, and
RESFAIL. POISON_IN is set for a poisoned chunk or word. -/
def State.collValue (s : State) (c : Coll) (p : FPkt) : State × Coll × ChunkVal :=
  let q := chunkQuad p.chunk
  let w := c.takeBytes p.chunk p.payload
  let poison := tb p.aux 60
  let s := s.statIf (poison || w.2.1) .coll q 9
  let v : ChunkVal := { bytes := w.1, poison := poison }
  if tb p.aux 59 || w.2.2 then
    let r := s.collResidue c q
    (r.1, r.2, v)
  else (s, c, v)

/-- A chunk of a data operation lands in DST and, at a tray leader of BROADCAST, goes on to its tray (R423, R425). -/
def State.collData (s : State) (c : Coll) (ch rank : Nat) (v : ChunkVal) : State :=
  let block := if c.opc = 4 then c.root else rank
  let (s, c) := s.collPlace c ch block v
  let c := { c with chunks := c.chunks.modify {} ch (fun k => { k with gotBlocks := k.gotBlocks ++ [block] }),
                    sends := c.sends ++ (if c.opc = 4 then (c.dataTo ch).map (fun r => c.pkt 8 r ch 0 v) else []) }
  let (s, c) := s.collConsume c rank 0 c.quad
  (s.putColl c).collFlush c

/-- COLL_PART_RECEIVE: the engine that owns the chunk combines it (R422, R423), or writes it. -/
def execCollPartReceive (q : QuadId) (s : State) : Host.Outcome State Fault Refusal :=
  .next (s.takeColl (fun p => p.kind = 8 && chunkQuad p.chunk = q) (fun s p =>
    match (s.collFor p).filter (·.running) with
    | none => s
    | some c =>
      let (s, c, v) := s.collValue c p
      if c.reduced p.chunk then s.collAdvance (c.addPart p.chunk p.stage (c.rankOf p) v) p.chunk
      else s.collData c p.chunk (c.rankOf p) v))

/-- COLL_RESULT_RECEIVE: a result is passed down or written (R423). The rack switch's RESULT of stage 1 is the one that
answers this leader's own PART. -/
def execCollResultReceive (q : QuadId) (s : State) : Host.Outcome State Fault Refusal :=
  .next (s.takeColl (fun p => p.kind = 9 && chunkQuad p.chunk = q) (fun s p =>
    match (s.collFor p).filter (·.running) with
    | none => s
    | some c =>
      let ch := p.chunk
      let k := c.chunks.get {} ch
      let switch := p.stage = 1 && k.sentRack && k.rackVal.isNone && !k.declined
      let (s, c, v) := s.collValue c p
      let s := s.collAdvance { c with chunks := c.chunks.modify {} ch (fun k => c.takeResult p.stage k v) } ch
      match s.collFor p with
      | none => s
      | some c =>
        let (s, c) := s.collConsume c (if switch then 0x10000 else c.rankOf p) p.stage (c.grantQuad ch)
        s.putColl c))

/-- COLL_DECLINE_RECEIVE (R427): the chunk goes to the rack ring, for which this leader grants its neighbours one chunk
each. -/
def execCollDeclineReceive (q : QuadId) (s : State) : Host.Outcome State Fault Refusal :=
  .next (s.takeColl (fun p => p.kind = 10 && chunkQuad p.chunk = q) (fun s p =>
    match (s.collFor p).filter (·.running) with
    | none => s
    | some c =>
      let ch := p.chunk
      let g := c.group
      let ts := g.trays (g.rackOf g.rank)
      let pos := g.pos g.rank
      let lead := fun i => g.trayLeader ch (ts.getD i 0)
      let gq := c.grantQuad ch
      let s := (s.orStat .coll q (2 ^ 8)).count .coll q 2 0 c.fn 1
      let c := { c with chunks := c.chunks.modify {} ch (fun k => { k with declined := true }) }
      let (s, c) := s.collConsume c 0x10000 1 gq
      let (s, c) := if pos > 0 then s.collGrant c (lead (pos - 1)) 2 gq 1 else (s, c)
      let (s, c) := if pos + 1 < ts.length then s.collGrant c (lead (ts.length - 1)) 2 gq 1 else (s, c)
      (s.putColl c).collAdvance c ch))

/-- A notice that finds no collective in progress is discarded and counted (R433). -/
def State.noticeDrop (s : State) (p : FPkt) : State :=
  (s.orStat .coll (s.noticeQuad p) (2 ^ 10)).count .coll (s.noticeQuad p) 4 0 p.dstFn 1

/-- The collective of a grant has not started here: its command is still to come, so the grant is kept. -/
def State.grantEarly (s : State) (p : FPkt) : Bool :=
  match s.collFor p with
  | some c => !c.running
  | none =>
    let d := (p.opseq + 65536 - s.opseqs.get 0 (p.dstFn * 65536 + p.gid)) % 65536
    d ≠ 0 && d < 32768

/-- COLL_GRANT_RECEIVE (R425): the receiver's chunks for one stage. -/
def execCollGrantReceive (q : QuadId) (s : State) : Host.Outcome State Fault Refusal :=
  .next (s.takeColl (fun p => p.kind = 11 && p.noticeCode = 1 && s.noticeQuad p = q && !s.grantEarly p) (fun s p =>
    match s.collFor p with
    | some c =>
      let n := p.aux / 2 ^ 40 % 2 ^ 16
      let c := { c with held := c.held.modify 0 (gKey (c.rankOf p) (p.aux / 2 ^ 56 % 4)) (· + n) }
      (s.putColl c).collFlush c
    | none => s.noticeDrop p))

/-- COLL_NOTICE_RECEIVE (R433): a notice aborts its collective with MEMBER_STOPPED; other codes are discarded. -/
def execCollNoticeReceive (q : QuadId) (s : State) : Host.Outcome State Fault Refusal :=
  .next (s.takeColl (fun p => p.kind = 11 && p.noticeCode ≠ 1 && s.noticeQuad p = q) (fun s p =>
    if p.noticeCode < 2 || p.noticeCode > 4 then s
    else match (s.collFor p).filter (·.admitted) with
      | some c => if c.abort = 0 then s.collAbort c 6 else s.noticeDrop p
      | none => s.noticeDrop p))

/-- COLL_TIMEOUT (R432): TIMEOUT_US after its start a collective is not complete; a tack that holds the package does not
count. -/
def execCollTimeout (f : FnId) (gid : BitVec 16) (s : State) : Host.Outcome State Fault Refusal :=
  .next (if s.live then
      match s.colls.find? (fun c => c.fn = f.val && c.group.id = gid.toNat && c.admitted) with
      | some c => s.collAbort c 5
      | none => s
    else s)

/-- Add to a little-endian field of slab memory modulo 2^(8n), or write it. -/
def State.slabField (s : State) (f a n : Nat) (g : Nat → Nat) : State :=
  let t := s.spreadTile f none
  let (s, bs, _, _) := s.getLines f t 1 a n
  s.putLines f t 1 a ((toLe n (g (leVal (bs.map (·.1))) % 2 ^ (8 * n))).map (fun b => (b, false))) []

/-- The record update of R430. -/
def State.groupRecord (s : State) (c : Coll) (a : Arrive) : State :=
  let lag := min (2 ^ 32 - 1) (a.latest - a.earliest)
  let at' := c.group.addr
  let e := at' + 64 + 16 * a.rank
  let f := c.fn
  (((((s.slabField f (at' + 16) 8 (· + 1)).slabField f (at' + 24) 2 (fun _ => a.rank)).slabField f (at' + 28) 4 (fun _ => lag)).slabField
    f (at' + 32) 8 (· + lag)).slabField f (e + 4) 4 (· + 1)).slabField f (e + 8) 8 (· + lag)

/-- COLL_COMPLETE (R430, R431): the record is updated and the ring command completes. -/
def execCollComplete (f : FnId) (gid : BitVec 16) (s : State) : Host.Outcome State Fault Refusal :=
  .next (if s.live then
      match s.collOf f gid.toNat with
      | some c =>
        if c.finished then
          match c.final, s.collReach c c.quad c.group.addr (64 + 16 * c.group.size) true with
          | some _, some (n, r) => let x := s.collFail c n r; x.1.putColl x.2
          | some a, none =>
            let s := s.groupRecord c a
            let s := { s with colls := s.colls.filter (fun d => !(d.fn = c.fn && d.group.id = c.group.id && d.opseq = c.opseq)) }
            (s.count .coll c.quad 5 0 c.fn 1).completeCmd c.ring c.idx
          | none, _ => s
        else s
      | none => s
    else s)

/-- An unreachable notice (R407): CHAN_LOST at the tile, and LOST for every running collective of its function whose group
holds the member that the notice names, since a notice does not say which kind of packet was lost. -/
def execUnreachableNoticeArrive (t : TileId) (s : State) : Host.Outcome State Fault Refusal :=
  .next (
    match if s.tileLive t then takeFirst (fun p => p.dst = t.val && p.body.kind .none = .unreachable) s.noc else none with
    | none => s
    | some (p, _) =>
      let lost := if (s.fn p.fn).st = .running then
          s.colls.filter (fun c => c.fn = p.fn && c.running &&
            (List.range c.group.size).any (fun r => p.srcPkg = 0x10000 + c.group.addrOf r && c.group.fns.getD r 0 = p.ep))
        else []
      lost.foldl (fun (s : State) c => s.collAbort c 7) (s.noticeAt t .unreachable))

end Sys2Proof.Machine
end

