-- ==== Sys2Proof/Machine/Messages.lean ====
section
/-! DEFINITION. Skelist messages from Ethernet and from mailboxes, identity, quotes, the tag area and firmware slots
(spec/12, spec/19). -/

namespace Sys2Proof.Machine

/-- An IPv4 address as this model keeps addresses: ::ffff:a.b.c.d. -/
def v4 (a : Nat) : BitVec 128 := BitVec.ofNat 128 (0xFFFF * 2 ^ 32 + a)

/-- ff02::1 or the IPv4 broadcast address (R361). -/
def discoveryAddr (a : BitVec 128) : Bool := a = BitVec.ofNat 128 (0xFF02 * 2 ^ 112 + 1) || a = v4 (2 ^ 32 - 1)

/-- A datagram reaches the Skelist port (R330, R361): served from order 9 on, once the link is up, where it was sent to an
address that has passed detection, and never in the safe state; an unsigned IDENTIFY also at ff02::1 or the IPv4 broadcast
address. -/
def State.skelistUdp (s : State) (dgram : List Byte) (src : UdpAddr) (dst : BitVec 128) : State :=
  let find := discoveryAddr dst && beAt dgram 0 2 = 0x0101 && beAt dgram 4 2 = 0xFFFF
  if s.boot.pgood && s.fatal.cause = 0 && 9 ≤ s.boot.order && s.eth.link && (s.eth.addrs.contains dst || find) then
    s.receiveMsg dgram (.udp src)
  else s

/-- A datagram on port 7714. -/
def execSkelistMessageReceive (dgram : List Byte) (way : UdpPath) (s : State) : Host.Outcome State Fault Refusal :=
  .next (s.skelistUdp dgram way.src way.dst)

/-- MB_CTL.GO is set (R350): the request is taken as signed under the key of the core's function. A write of GO while it
reads 1 is ignored. -/
def State.submitMailbox (s : State) (c : Nat) : State :=
  let x := s.core c
  match x.fn with
  | none => s
  | some f =>
    if x.go then s
    else
      let s := s.onCore c (fun x => { x with go := true })
      let m := (List.range 256).map (fun i => x.request.get 0 i)
      let len := beAt m 6 2
      if len > 224 ∨ beAt m 3 1 % 4 ≠ 0 then s.dropMsg
      else
        let r : Req := { cmd := beAt m 0 2, fn := beAt m 4 2, seq := beAt m 8 8, payload := (m.drop 16).take len,
                         src := .mailbox c, key := s.keyOf f }
        if r.fn ≠ f then s.reply r stDenied [] else s.accept r

/-- A core runs its program: its function is RUNNING and nothing holds the package. -/
def State.coreRuns (s : State) (c : Nat) : Bool := s.live && (s.core c).st = .running && (s.core c).fn.isSome

def execMailboxGo (c : CoreId) (s : State) : Host.Outcome State Fault Refusal :=
  .next (if s.coreRuns c then s.submitMailbox c else s)

/-- The 60-byte identity public key (R529), free where the fuses of the state hold none. -/
def Fuses.pub (x : Fuses) : List Byte := if x.idPub.isEmpty then (List.range 60).map (fun i => Config.fuseByte (64 + i)) else x.idPub

/-- The fabric address as IDENTIFY and ENUM report it. -/
def Fab.addrField (x : Fab) : Nat := match x.addr with
  | some a => a % 2 ^ 14 + 2 ^ 15
  | none => 0

/-- The IDENTIFY reply (Table 12.6). -/
def State.identity (s : State) : List Byte :=
  beBytes 4 s.fuses.cap0 ++ beBytes 4 s.cap1 ++ beBytes 4 s.thm.bootEpoch.toNat ++ beBytes 6 s.eth.mac.toNat ++
    beBytes 2 s.fab.addrField ++ beBytes 2 (if s.stch.index = 0xFF then 0xFFFF else s.stch.index) ++ beBytes 1 s.boot.slot ++
    beBytes 1 (bit s.thm.opKey.isSome 0 + bit s.thm.defaultMem 1) ++ sha256 s.fuses.pub ++
    beBytes 4 (s.slot s.boot.slot).version ++ [0, 0, 0, 0] ++ beBytes 8 s.fuses.serial.toNat

def execIdentify (s : State) : Host.Outcome State Fault Refusal :=
  .next (s.command 0x0101 (fun s r => s.judge r [(!payOk r.payload [], stBadArg)] (fun s => s.reply r stOk s.identity)))

/-- CONFIG_DIGEST (R532); a hole of the map is measured as 0xFF. -/
def State.configDigest (s : State) (f : Nat) : List Byte :=
  let x := s.fn f
  sha256 (toLe 1 x.vtmap.length ++ x.vtmap.map (fun v => BitVec.ofNat 8 (v.getD 0xFF)) ++ toLe 2 x.slice ++ toLe 4 x.winReg ++
    toLe 8 x.cfgReg)

/-- A measurement entry (R533). -/
def quoteEntry (kind index : Nat) (digest : List Byte) : List Byte := toLe 1 kind ++ toLe 1 index ++ List.replicate 6 0 ++ digest

/-- The measurement entries of a function (R533). -/
def State.quoteEntries (s : State) (f : Nat) : List (List Byte) :=
  let progs := (s.fn f).vtmap.zipIdx.filterMap (fun e => match e.1 with
    | some t => (s.tile t).image.map (fun i => quoteEntry 1 e.2 (beBytes 32 i.digest.toNat))
    | none => none)
  let cores := (s.coresOf f).zipIdx.filterMap (fun e =>
    if (s.core e.1).entry.isSome then some (quoteEntry 2 e.2 (beBytes 32 (s.core e.1).digest.toNat)) else none)
  let pats := if s.fuses.part = 3 then [] else (List.range 64).filterMap (fun i =>
    ((s.fn f).patterns.get none i).map (fun p => quoteEntry 3 i (sha256 p.image)))
  progs ++ cores ++ pats

/-- The quote of Table 19.8 up to its signature. -/
def State.quoteBody (s : State) (f : Nat) (nonce : List Byte) (tag : Bool) : List Byte :=
  let es := s.quoteEntries f
  let slot := s.slot s.boot.slot
  let total := 256 + 40 * es.length + (if tag then 4096 else 0) + 60 + 3604
  toLe 4 0x51544B34 ++ toLe 2 1 ++
    toLe 2 (bit tag 0 + bit s.thm.opKey.isSome 1 + bit s.thm.defaultMem 2 + bit s.flash.locked 3) ++ toLe 4 total ++
    toLe 2 es.length ++ toLe 2 f ++ toLe 8 s.fuses.serial.toNat ++ toLe 4 s.fuses.cap0 ++ toLe 4 s.cap1 ++
    toLe 4 s.thm.bootEpoch.toNat ++ toLe 4 (s.fn f).stateReg ++ toLe 8 s.timeNs ++ nonce ++
    beBytes 32 s.fuses.romDigest.toNat ++ slot.digest ++ toLe 4 slot.version ++ toLe 4 s.boot.reg ++ toLe 1 s.fuses.floor ++
    toLe 3 0 ++ toLe 4 s.flash.count ++ s.configDigest f ++ List.replicate 64 0 ++ es.flatten ++
    (if tag then s.flash.tagBytes 0 4096 else []) ++ s.fuses.pub

/-- The next signature index is taken, its block recorded first (R530). -/
def State.takeSig (s : State) : State :=
  let s := if s.boot.nextSig / 4096 ≥ s.flash.sigBlock then { s with flash := { s.flash with sigBlock := s.boot.nextSig / 4096 + 1 } } else s
  { s with boot := { s.boot with nextSig := s.boot.nextSig + 1 } }

/-- Commands that conflict with a quote (R534). -/
def quoteConflicts : List Nat := [0x0601, 0x0602, 0x0603, 0x0604, 0x0305, 0x0306]

/-- QUOTE (R531, R534): its signature is a free value for each index. -/
def execQuote (s : State) : Host.Outcome State Fault Refusal :=
  .next (s.command 0x0201 (fun s r =>
    let p := r.payload
    let off := beAt p 32 8
    let tag := beAt p 40 1 = 1
    let body := s.quoteBody r.fn (p.take 32) tag
    let total := body.length + 3604
    s.judge r [(!payOk p [(0, 32), (32, 8), (40, 1)] || beAt p 40 1 > 1 || !s.winOk r.fn off total true, stBadArg),
        (s.tacked || s.thm.long.any (fun l => l.fn = r.fn && quoteConflicts.contains l.req.cmd), stBusy),
        (s.flash.failed || s.boot.nextSig ≥ 2 ^ 40, stNoResource)] (fun s =>
      let sig := (List.range 3604).map (fun i => Config.fuseByte (4096 + s.boot.nextSig * 3604 + i))
      ((s.takeSig).winWrite r.fn off (body ++ sig)).holdLong r r.fn stOk (beBytes 4 total))))

/-- TAG_READ (R536). -/
def execTagRead (s : State) : Host.Outcome State Fault Refusal :=
  .next (s.command 0x0C01 (fun s r =>
    let o := beAt r.payload 0 2
    let n := beAt r.payload 2 1
    s.judge r [(r.notOperator, stDenied), (!payOk r.payload [(0, 2), (2, 1)] || n < 1 || n > 224 || o + n > 4096, stBadArg)] (fun s =>
      s.reply r stOk (s.flash.tagBytes o n))))

/-- TAG_WRITE (R536): DENIED once the area is locked. -/
def execTagWrite (s : State) : Host.Outcome State Fault Refusal :=
  .next (s.command 0x0C02 (fun s r =>
    let o := beAt r.payload 0 2
    let n := beAt r.payload 2 1
    s.judge r [(r.notOperator || s.flash.locked, stDenied),
        (!payOk r.payload [(0, 2), (2, 1), (8, n)] || n < 1 || n > 216 || o < 16 || o + n > 4096, stBadArg), (s.tacked, stBusy),
        (s.flash.failed || s.flash.count ≥ 2 ^ 32 - 1, stNoResource)] (fun s =>
      let s := { s with flash := s.flash.tagWrite o ((r.payload.drop 8).take n) }
      s.reply r stOk (beBytes 4 s.flash.count))))

/-- TAG_LOCK (R536). -/
def execTagLock (s : State) : Host.Outcome State Fault Refusal :=
  .next (s.command 0x0C03 (fun s r =>
    s.judge r [(r.notOperator, stDenied), (!payOk r.payload [], stBadArg), (s.tacked, stBusy),
        (!s.flash.locked && s.flash.count ≥ 2 ^ 32 - 1, stNoResource)] (fun s =>
      (if s.flash.locked then s else { s with flash := s.flash.tagWrite 6 (toLe 2 1) }).reply r stOk [])))

/-- The slot that runs holds an uncommitted trial (R525). -/
def State.trialRuns (s : State) : Bool := (s.slot s.boot.slot).state = .trial

/-- FW_STAGE (R524): the slot not running is written EMPTY, then the image is copied and checked. -/
def execFwStage (s : State) : Host.Outcome State Fault Refusal :=
  .next (s.command 0x0D01 (fun s r =>
    let p := r.payload
    let f := beAt p 0 2
    let n := beAt p 16 4
    let k := 1 - s.boot.slot
    let busy := s.tacked || s.trialRuns || s.thm.long.any (fun l => l.req.cmd = 0x0D01)
    s.judge r [(r.notOperator, stDenied), (f < 1024 && (s.fn f).st = .free, stStopped),
        (!payOk p [(0, 2), (8, 8), (16, 4), (24, 32)] || f ≥ 1024, stBadArg)] (fun s =>
      let clear := fun (s : State) => if busy then s
        else s.onSlot k (fun x => { x with state := .empty, tried := false, factory := false, region := [] })
      let (s, img) := if n > 100659200 then (s, none) else s.readImage f (beAt p 8 8) n ((p.drop 24).take 32)
      match img with
      | none => (clear s).reply r stBadArg []
      | some bs =>
        let x : Slot := { (s.slot k) with state := .valid, tried := false, factory := false, region := putBytes [] 0 bs }
        if !s.bootable x then ((clear s).onSlot k (fun y => if busy then y else { x with state := .empty })).reply r stBadArg []
        else if busy then s.reply r stBusy []
        else (s.setSlot k x).holdLong r f stOk [])))

/-- FW_ACTIVATE (R525, R526). -/
def execFwActivate (s : State) : Host.Outcome State Fault Refusal :=
  .next (s.command 0x0D02 (fun s r =>
    let n := beAt r.payload 0 1
    let x := s.slot n
    let here := n = s.boot.slot
    let go := if here then x.state = .active || x.state = .valid else x.state = .valid && s.bootable x
    s.judge r [(r.notOperator, stDenied), (!payOk r.payload [(0, 1)] || n > 1 || !go, stBadArg),
        (s.tacked || s.trialRuns || s.thm.long.any (fun l => l.req.cmd = 0x0D01) ||
          s.fns.any (fun e => !e.2.service && (e.2.st = .running || e.2.st = .stopping)), stBusy)] (fun s =>
      if here then (if x.state = .active then s else s.commitSlot n).reply r stOk []
      else ((s.setSlot n { x with state := .trial, tried := false }).reply r stOk []).doReset)))

/-- Slot states of Table 19.7. -/
def SlotState.code : SlotState → Nat
  | .empty => 0 | .valid => 1 | .trial => 2 | .active => 3

/-- The description of a slot in the FW_QUERY reply (Table 19.7). -/
def State.slotBytes (s : State) (n : Nat) : List Byte :=
  let x := s.slot n
  let e := x.state = .empty
  beBytes 1 x.state.code ++ beBytes 1 (if !e && s.bootable x then 1 else 0) ++ beBytes 1 (if e then 0 else x.rollback) ++ [0] ++
    beBytes 4 (if e then 0 else x.version) ++ beBytes 4 x.seq ++ [0, 0, 0, 0] ++ (if e then List.replicate 32 0 else x.digest)

/-- FW_QUERY (R528). -/
def execFwQuery (s : State) : Host.Outcome State Fault Refusal :=
  .next (s.command 0x0D03 (fun s r =>
    s.judge r [(r.notOperator, stDenied), (!payOk r.payload [], stBadArg)] (fun s =>
      s.reply r stOk (beBytes 1 s.boot.slot ++ beBytes 1 (bit s.trialRuns 0) ++ beBytes 1 s.fuses.floor ++ List.replicate 5 0 ++
        s.slotBytes 0 ++ s.slotBytes 1))))

end Sys2Proof.Machine
end

