-- ==== Sys2Proof/Machine/EthOps.lean ====
section
/-! DEFINITION. Ethernet frames and IP packets, the frame queues' transfers, and the RDMA checks (spec/13, R318, R322 to
R324). -/

namespace Sys2Proof.Machine

/-- The port carries frames: power, no safe state, link up. -/
def State.ethRuns (s : State) : Bool := s.boot.pgood && s.fatal.cause = 0 && s.eth.link

/-- The FCS of a frame: CRC-32 with its least significant byte first. -/
def fcs (bs : List Byte) : List Byte := toLe 4 (crc32 bs).toNat

/-- A frame on the wire, from one without tag and FCS (R358, R373). -/
def NetRec.wire (n : NetRec) (pcp : Nat) (b : List Byte) : List Byte :=
  let b := if n.vlan = 0 then b else b.take 12 ++ [0x81, 0x00] ++ beBytes 2 (pcp * 2 ^ 13 + n.vlan) ++ b.drop 12
  b ++ fcs b

/-- A frame leaves the port. -/
def State.ethOut (s : State) (b : List Byte) : State :=
  ({ s with eth := { s.eth with frames := s.eth.frames ++ [b] } }).count .eth 0 1 0 0 1

/-- Send a frame given without tag and FCS: it waits while its priority is paused (R364). -/
def State.ethSend (s : State) (pcp : Nat) (b : List Byte) : State :=
  let w := s.eth.netrec.wire pcp b
  if s.ethGo pcp then s.ethOut w else { s with eth := { s.eth with waiting := s.eth.waiting ++ [(pcp, w)] } }

/-- What waited for the port goes once its priority may send: frames in their order, Thimble's messages, and what
connections send (R364). -/
def State.ethRelease (s : State) : State :=
  let n := s.eth.netrec
  let w := s.eth.waiting
  let s := { s with eth := { s.eth with waiting := w.filter (fun x => !s.ethGo x.1) } }
  let s := (w.filter (fun x => s.ethGo x.1)).foldl (fun (s : State) x => s.ethOut x.2) s
  let msgs := if s.ethGo n.mgmtPcp then (s.thm.outbox.filter (·.held)).length else 0
  let roce := if s.ethGo n.rocePcp then
      ((s.eth.answers ++ s.eth.cnps).filter (·.held)).foldl (fun k o => k + s.rocePackets o) 0 else 0
  let free := fun (o : RoceOut) => { o with held := o.held && !s.ethGo n.rocePcp }
  let hold := fun (m : OutMsg) => { m with held := m.held && !s.ethGo n.mgmtPcp }
  ({ s with thm := { s.thm with outbox := s.thm.outbox.map hold },
            eth := { s.eth with answers := s.eth.answers.map free, cnps := s.eth.cnps.map free } }).count .eth 0 1 0 0 (msgs + roce)

/-- A PFC frame (R364, IEEE 802.1Qbb): pause a priority for the longest time, or resume it. PFC frames carry no tag and are
not paused. -/
def State.pfcSend (s : State) (p : Nat) (xoff : Bool) : State :=
  let b := [0x01, 0x80, 0xC2, 0x00, 0x00, 0x01] ++ beBytes 6 s.eth.mac.toNat ++ [0x88, 0x08, 0x01, 0x01] ++ beBytes 2 (2 ^ p) ++
    (List.range 8).flatMap (fun i => beBytes 2 (if i = p ∧ xoff then 0xFFFF else 0)) ++ List.replicate 26 0
  let bit : BitVec 8 := 1#8 <<< p
  ({ s with eth := { s.eth with xoff := if xoff then s.eth.xoff ||| bit else s.eth.xoff &&& ~~~bit } }).ethOut (b ++ fcs b)

/-- The receive buffers (R364): a lossless priority sends XOFF above 1.25 MiB occupied and XON below 0.75 MiB. `occ` gives
what each priority's buffer holds. -/
def State.pfcBuffers (s : State) (occ : List Nat) : State :=
  (List.range 8).foldl (fun (s : State) p =>
    let n := occ.getD p 0
    if !s.eth.netrec.pfcMask.testBit p then s
    else if n > 5 * 2 ^ 18 ∧ s.eth.xoff.getLsbD p = false then s.pfcSend p true
    else if n < 3 * 2 ^ 18 ∧ s.eth.xoff.getLsbD p = true then s.pfcSend p false
    else s) s

/-- A frame that is not accepted or not sent, by the SUB of Table 18.1. -/
def State.ethDrop (s : State) (sub : Nat) : State := s.count .eth 0 2 sub 0 1

/-- What an IP packet says: version 6, addresses, hop limit, upper protocol, ECN, whether it is a fragment, and its upper bytes. -/
structure Ip where
  six : Bool
  src : BitVec 128
  dst : BitVec 128
  hop : Nat
  proto : Nat
  ecn : Nat
  frag : Bool
  body : List Byte
  deriving DecidableEq, Repr

/-- An IP packet by its EtherType. IPv6 extension headers other than the fragment header are an upper protocol. -/
def Ip.parse (etype : Nat) (b : List Byte) : Option Ip :=
  if etype = 0x0800 then
    let h := beAt b 0 1 % 16 * 4
    if beAt b 0 1 / 16 ≠ 4 ∨ h < 20 ∨ beAt b 2 2 < h ∨ b.length < beAt b 2 2 then none
    else some { six := false, src := v4 (beAt b 12 4), dst := v4 (beAt b 16 4), hop := beAt b 8 1, proto := beAt b 9 1, ecn := beAt b 1 1 % 4,
                frag := beAt b 6 2 % 2 ^ 14 ≠ 0, body := (b.drop h).take (beAt b 2 2 - h) }
  else if etype = 0x86DD then
    if beAt b 0 1 / 16 ≠ 6 ∨ b.length < 40 + beAt b 4 2 then none
    else some { six := true, src := BitVec.ofNat 128 (beAt b 8 16), dst := BitVec.ofNat 128 (beAt b 24 16), hop := beAt b 7 1,
                proto := beAt b 6 1, ecn := beAt b 1 1 / 16 % 4, frag := beAt b 6 1 = 44, body := (b.drop 40).take (beAt b 4 2) }
  else none

/-- One's-complement checksum of 16-bit words. -/
def inetSum (b : List Byte) : Nat :=
  let t := (chunks 2 b).foldl (fun n c => n + beNat (c ++ List.replicate (2 - c.length) 0)) 0
  let t := t % 65536 + t / 65536
  65535 - (t % 65536 + t / 65536)

/-- An address of the package (R360). -/
def State.ownAddr (s : State) (a : BitVec 128) : Bool := s.eth.addrs.contains a

/-- A multicast or broadcast address. -/
def groupAddr (a : BitVec 128) : Bool :=
  let n := a.toNat
  n / 2 ^ 120 = 0xFF || (n / 2 ^ 32 = 0xFFFF && (n / 2 ^ 28 % 16 = 14 || n % 2 ^ 32 = 2 ^ 32 - 1))

/-- Pad a frame to 60 bytes, 64 with its FCS (R358). -/
def padFrame (b : List Byte) : List Byte := b ++ List.replicate (60 - b.length) 0

/-- An IP packet in its frame, without tag and FCS (R360, R365: DF, Not-ECT). `k` chooses what the spec leaves open. -/
def Eth.ipFrame (x : Eth) (k : Nat) (six : Bool) (mac : List Byte) (src dst : BitVec 128) (proto hop : Nat) (body : List Byte) :
    List Byte :=
  let o := Config.ipOpen k
  let ttl := if hop = 0 then o.1.toNat else hop
  let eth := mac ++ beBytes 6 x.mac.toNat
  padFrame (if six then
      eth ++ [0x86, 0xDD] ++ beBytes 4 0x60000000 ++ beBytes 2 body.length ++ beBytes 1 proto ++ beBytes 1 ttl ++
        beBytes 16 src.toNat ++ beBytes 16 dst.toNat ++ body
    else
      let h := fun (c : Nat) => [0x45, 0x00] ++ beBytes 2 (20 + body.length) ++ beBytes 2 o.2.toNat ++ [0x40, 0x00] ++ beBytes 1 ttl ++
        beBytes 1 proto ++ beBytes 2 c ++ beBytes 4 (src.toNat % 2 ^ 32) ++ beBytes 4 (dst.toNat % 2 ^ 32)
      eth ++ [0x08, 0x00] ++ h (inetSum (h 0)) ++ body)

/-- Answer an IP packet with another from one own address, at MGMT_PCP. -/
def State.ipSend (s : State) (six : Bool) (mac : List Byte) (src dst : BitVec 128) (proto hop : Nat) (body : List Byte) : State :=
  let (k, s) := s.fresh
  s.ethSend s.eth.netrec.mgmtPcp (s.eth.ipFrame k six mac src dst proto hop body)

/-- A UDP datagram with its checksum over the pseudo-header. -/
def udpBytes (six : Bool) (src dst : BitVec 128) (sport dport : Nat) (m : List Byte) : List Byte :=
  let n := 8 + m.length
  let a := fun (x : BitVec 128) => if six then beBytes 16 x.toNat else beBytes 4 (x.toNat % 2 ^ 32)
  let h := fun (c : Nat) => beBytes 2 sport ++ beBytes 2 dport ++ beBytes 2 n ++ beBytes 2 c
  let c := inetSum (a src ++ a dst ++ beBytes 4 n ++ beBytes 4 17 ++ h 0 ++ m)
  h (if c = 0 then 0xFFFF else c) ++ m

/-- An IPv4 address in its IPv4-mapped form. -/
def isV4 (a : BitVec 128) : Bool := a.toNat / 2 ^ 32 = 0xFFFF

/-- The frame that carries a message of Thimble to a UDP address (R330, R358, R360, R363, R365): from the package's first
address of the same version, with the VLAN tag and priority MGMT_PCP. `k` chooses what the spec leaves open. -/
def State.msgFrame (s : State) (k : Nat) (m : OutMsg) : Option (List Byte) :=
  match m.dest with
  | .udp d =>
    let six := !isV4 d.ip
    let src := (s.eth.addrs.find? (fun a => isV4 a = isV4 d.ip)).getD 0
    some (s.eth.netrec.wire s.eth.netrec.mgmtPcp (s.eth.ipFrame k six (beBytes 6 (Config.neighbour d.ip).toNat) src d.ip 17 0
      (udpBytes six src d.ip m.port d.port.toNat m.bytes)))
  | _ => none

/-- An ICMPv6 message with its checksum over the pseudo-header. -/
def icmp6 (src dst : BitVec 128) (m : List Byte) : List Byte :=
  let at' := fun (c : Nat) => m.take 2 ++ beBytes 2 c ++ m.drop 4
  at' (inetSum (beBytes 16 src.toNat ++ beBytes 16 dst.toNat ++ beBytes 4 m.length ++ beBytes 4 58 ++ at' 0))

/-- The interface identifier of a MAC: the modified EUI-64 of RFC 4291 (R360). -/
def eui64 (mac : BitVec 48) : Nat :=
  (mac.toNat / 2 ^ 24 ^^^ 0x020000) * 2 ^ 40 + 0xFFFE * 2 ^ 24 + mac.toNat % 2 ^ 24

/-- The link-local address of a MAC (R360). -/
def linkLocal (mac : BitVec 48) : BitVec 128 := BitVec.ofNat 128 (0xFE80 * 2 ^ 112 + eui64 mac)

/-- A global IPv6 address. -/
def isGlobal (a : BitVec 128) : Bool := !isV4 a && a.toNat / 2 ^ 118 ≠ 0x3FA

/-- The addresses that the prefixes of a router advertisement give (R360: SLAAC, RFC 4862): a prefix of 64 bits that is for
autonomous configuration and valid, with the interface identifier; at most four global addresses (fuel: options). -/
def State.routerAdv (s : State) (o : List Byte) : Nat → State
  | 0 => s
  | k + 1 =>
    let n := beAt o 1 1 * 8
    if n = 0 ∨ o.length < n then s
    else
      let a := BitVec.ofNat 128 (beAt o 16 8 * 2 ^ 64 + eui64 s.eth.mac)
      let take := beAt o 0 1 = 3 ∧ n = 32 ∧ beAt o 2 1 = 64 ∧ beAt o 3 1 / 64 % 2 = 1 ∧ beAt o 4 4 ≠ 0 ∧ isGlobal a ∧ !s.ownAddr a ∧
        !s.eth.learned.contains a ∧ ((s.eth.addrs ++ s.eth.learned).filter isGlobal).length < 4
      let s := if take then { s with eth := { s.eth with learned := s.eth.learned ++ [a] } } else s
      s.routerAdv (o.drop n) k

/-- A DHCPv4 message of the package (R360, RFC 2131), broadcast: 1 is DHCPDISCOVER, 3 DHCPREQUEST. -/
def State.dhcpSend (s : State) (xid kind : Nat) (opts : List Byte) : State :=
  let none' : BitVec 128 := v4 0
  let all := v4 0xFFFFFFFF
  let m := [1, 1, 6, 0] ++ beBytes 4 xid ++ beBytes 4 0x8000 ++ List.replicate 16 0 ++ beBytes 6 s.eth.mac.toNat ++
    List.replicate 202 0 ++ beBytes 4 0x63825363 ++ [53, 1, BitVec.ofNat 8 kind] ++ opts ++ [255]
  s.ipSend false (List.replicate 6 0xFF) none' all 17 0 (udpBytes false none' all 68 67 m)

/-- The value of an option of a DHCP message (fuel: options). -/
def dhcpOpt (code : Nat) : List Byte → Nat → List Byte
  | _, 0 => []
  | o, k + 1 =>
    if o.isEmpty ∨ beAt o 0 1 = 255 then []
    else if beAt o 0 1 = 0 then dhcpOpt code (o.drop 1) k
    else if beAt o 0 1 = code then (o.drop 2).take (beAt o 1 1)
    else dhcpOpt code (o.drop (2 + beAt o 1 1)) k

/-- Ask for an IPv4 address where IPV4_MODE selects DHCPv4 and the package has none (R360). -/
def State.dhcpStart (s : State) : State :=
  if s.eth.netrec.ipv4Mode ≠ 1 || s.eth.addrs.any isV4 then s
  else
    let (k, s) := s.fresh
    let x := (Config.connValue k).toNat
    ({ s with eth := { s.eth with dhcp := some x } }).dhcpSend x 1 []

/-- A message for the DHCP client: an offer is requested, an acknowledged address is learned, and a refusal begins again. -/
def State.dhcpIn (s : State) (m : List Byte) : State :=
  match s.eth.dhcp with
  | none => s
  | some x =>
    let opts := m.drop 240
    let opt := fun (c : Nat) => dhcpOpt c opts opts.length
    if beAt m 0 1 ≠ 2 ∨ beAt m 4 4 ≠ x ∨ beAt m 28 6 ≠ s.eth.mac.toNat ∨ beAt m 236 4 ≠ 0x63825363 then s
    else if opt 53 = [2] then s.dhcpSend x 3 ([50, 4] ++ (m.drop 16).take 4 ++ [54, 4] ++ (opt 54).take 4)
    else if opt 53 = [5] then { s with eth := { s.eth with dhcp := none, learned := s.eth.learned ++ [v4 (beAt m 16 4)] } }
    else if opt 53 = [6] then s.dhcpStart
    else s

/-- The package answers ICMP echo, ICMPv6 echo and neighbour solicitation, and takes router advertisements (R360). -/
def State.ethIcmp (s : State) (mac : List Byte) (p : Ip) : State :=
  let b := p.body
  if p.proto = 1 ∧ !p.six ∧ beAt b 0 1 = 8 ∧ s.ownAddr p.dst then
    let m := fun (c : Nat) => [0, 0] ++ beBytes 2 c ++ b.drop 4
    s.ipSend false mac p.dst p.src 1 0 (m (inetSum (m 0)))
  else if p.proto = 58 ∧ p.six ∧ beAt b 0 1 = 128 ∧ s.ownAddr p.dst then
    s.ipSend true mac p.dst p.src 58 0 (icmp6 p.dst p.src ([129, 0] ++ b.drop 2))
  else
    let target := BitVec.ofNat 128 (beAt b 8 16)
    if p.proto = 58 ∧ p.six ∧ beAt b 0 1 = 135 ∧ b.length ≥ 24 ∧ s.ownAddr target then
      let anon := p.src = 0
      let dst := if anon then BitVec.ofNat 128 (0xFF02 * 2 ^ 112 + 1) else p.src
      let mac := if anon then [0x33, 0x33, 0, 0, 0, 1] else mac
      s.ipSend true mac target dst 58 255 (icmp6 target dst ([136, 0, 0, 0, if anon then 0x20 else 0x60, 0, 0, 0] ++
        beBytes 16 target.toNat ++ [2, 1] ++ beBytes 6 s.eth.mac.toNat))
    else if p.proto = 58 ∧ p.six ∧ beAt b 0 1 = 134 ∧ p.hop = 255 ∧ p.src.toNat / 2 ^ 118 = 0x3FA then s.routerAdv (b.drop 16) b.length
    else s

/-- The package answers ARP for its own IPv4 address (R360). -/
def State.ethArp (s : State) (b : List Byte) : State :=
  if beAt b 0 8 = 0x0001080006040001 ∧ s.ownAddr (v4 (beAt b 24 4)) then
    let mac := beBytes 6 s.eth.mac.toNat
    s.ethSend s.eth.netrec.mgmtPcp (padFrame ((b.drop 8).take 6 ++ mac ++ [0x08, 0x06] ++ beBytes 8 0x0001080006040002 ++ mac ++
      (b.drop 24).take 4 ++ (b.drop 8).take 10))
  else s

/-- An entry of a frame queue (R372): its ring's offset in the aperture, and its number. -/
def HCore.fqEntry (x : HCore) (ring : Nat) (c : W32) : List Byte := (List.range 16).map (fun i => x.fqMem.get 0 (ring + 16 * (c.toNat % 64) + i))

/-- A core has bound a UDP port (R374). -/
def HCore.binds (x : HCore) (port : Nat) : Bool :=
  (List.range 4).any (fun n => x.bound.get false n && (x.ports.get 0 n).toNat % 65536 = port)

/-- Put a frame or a SEND in the next posted buffer of a core: 0 done, 1 no buffer or one too small, 2 a byte refused
(R371, R374). -/
def State.fqFill (s : State) (f c : Nat) (b : List Byte) : State × Nat :=
  let x := s.core c
  let e := x.fqEntry 0x2000 x.rxDone
  if x.rxDone = x.rxTail ∨ leVal ((e.drop 8).take 2) < b.length then (s, 1)
  else match s.slabCheck f none (leVal (e.take 8)) b.length true false with
    | .ok ps =>
      ((s.writePieces ps b false).onCore c (fun x =>
        { x with fqMem := putBytes x.fqMem (0x2000 + 16 * (x.rxDone.toNat % 64) + 8) (toLe 2 b.length), rxDone := x.rxDone + 1 }), 0)
    | r => (s.reportRefused f r, 2)

/-- A UDP datagram for cores (R374), as a frame without tag and FCS: the lowest-numbered core that has bound the port and
has a buffer. -/
def State.ethUdp (s : State) (port : Nat) (frame : List Byte) : State :=
  let cs := (List.range 32).filter (fun c => (s.core c).st = .running && (s.core c).binds port)
  let r := cs.foldl (fun (a : State × Bool) c =>
    if a.2 then a
    else match (s.core c).fn with
      | some f => let q := a.1.fqFill f c frame; (q.1, q.2 = 0)
      | none => a) (s, false)
  if r.2 then r.1 else r.1.ethDrop (if cs.isEmpty then 6 else 5)

/-- A transmit entry's frame may be sent (R373); a poisoned buffer and a frame outside the lengths of R358 may not. -/
def State.txOk (s : State) (c : Nat) (b : List Byte) : Bool :=
  60 ≤ b.length && b.length ≤ 9212 && beAt b 6 6 = s.eth.mac.toNat &&
    (match Ip.parse (beAt b 12 2) (b.drop 14) with
      | some p => p.proto = 17 && s.ownAddr p.src && (s.core c).binds (beAt p.body 0 2)
      | none => false)

/-- One transmit entry of a core: the frame is sent or the entry DROPPED, and FQ_TX_DONE advances (R373). -/
def State.txOne (s : State) (f c : Nat) : State :=
  let x := s.core c
  let e := x.fqEntry 0x1000 x.txDone
  let n := leVal ((e.drop 8).take 2)
  let chk := s.slabCheck f none (leVal (e.take 8)) n false false
  let (s, b, bad, _) := s.readPieces chk.pieces
  let done := fun (s : State) (drop : Bool) => s.onCore c (fun x =>
    { x with txDone := x.txDone + 1,
             fqMem := if drop then x.fqMem.modify 0 (0x1000 + 16 * (x.txDone.toNat % 64) + 11) (· ||| 0x80) else x.fqMem })
  if chk.isOk && !bad && s.txOk c b then done (s.ethSend ((e.getD 10 0).toNat % 8) b) false
  else done ((s.reportRefused f chk).ethDrop 8) true

/-- Send what a core has submitted, in order, until an entry's priority is paused (R364, R373; fuel: entries). -/
def State.txPump (s : State) (f c : Nat) : Nat → State
  | 0 => s
  | k + 1 =>
    let x := s.core c
    let pcp := ((x.fqEntry 0x1000 x.txDone).getD 10 0).toNat % 8
    if x.txDone = x.txTail ∨ !s.ethRuns ∨ (s.fn f).st ≠ .running ∨ s.eth.paused.getLsbD pcp then s
    else (s.txOne f c).txPump f c k

/-- Every core's transmit queue goes on. -/
def State.txPumpAll (s : State) : State :=
  (List.range 32).foldl (fun (s : State) c => match (s.core c).fn with
    | some f => s.txPump f c 64
    | none => s) s

/-- The port may send more: what waited goes, and every core's transmit queue goes on (R364). -/
def State.ethResume (s : State) : State := s.ethRelease.txPumpAll

/-- A write of FQ_TX_TAIL (R373). -/
def State.fqTxTail (s : State) (f c : Nat) (tail : W32) : State := (s.onCore c (fun x => { x with txTail := tail })).txPump f c 64

/-- A write of FQ_RX_TAIL. -/
def State.fqRxTail (s : State) (c : Nat) (tail : W32) : State := s.onCore c (fun x => { x with rxTail := tail })

/-- The ports that no core may bind (R374). -/
def reservedPorts : List Nat := [7714, 4791, 319, 320, 68, 546]

/-- A write of FQ_PORTn (R374). -/
def State.fqPort (s : State) (f c n : Nat) (value : W32) : State :=
  let port := value.toNat % 65536
  let taken := (List.range 32).any (fun d => (s.core d).fn ≠ some f && (s.core d).binds port)
  let bound := value.getLsbD 16 && !taken && !reservedPorts.contains port
  s.onCore c (fun x => { x with ports := x.ports.set 0 n (value &&& 0x1FFFF), bound := x.bound.set false n bound })

/-- Answer an RDMA request with a NAK, counted for the function (R324, Table 18.1). -/
def State.rdmaNak (s : State) (q f code : Nat) : State := (s.count .win 0 1 code f 1).answer q (.nak code)

/-- A connection that a request may use, with its function. -/
def State.rdmaConn (s : State) (q : Nat) (f : State → Conn → State) : State :=
  if s.ethRuns then
    match s.conn q with
    | some k => f s k
    | none => s
  else s

/-- The region an R_KEY of the function names (R369). -/
inductive Region where
  | window | ring | none
  deriving DecidableEq, Repr

def State.region (s : State) (f : Nat) (key : W32) : Region :=
  let has := fun (g : Conn → W32) => s.eth.conns.any (fun e => match e.2 with
    | some k => k.fn = f && g k = key
    | none => false)
  if has (·.rkeyWin) then .window else if has (·.rkeyRing) then .ring else .none

/-- The check of a window request at its acceptance (R322, R324): NAK 0x61 beyond the window, 0x63 for R286, 0x62 for a
flag. -/
def State.windowReq (s : State) (f va n : Nat) (write : Bool) : Except Nat (List (Nat × Nat × Nat)) :=
  let x := s.fn f
  let size := if x.winValid then x.winPages * 65536 else 0
  if n > 2 ^ 31 ∨ va + n > size then .error 0x61
  else match s.slabCheck f none (s.winAddr f va) n write true with
    | .ok ps => .ok ps
    | .flag _ => .error 0x62
    | _ => .error 0x63

/-- The check of an entry access to the ring region (R318). -/
def State.entryReq (s : State) (f va n : Nat) (write : Bool) : Except Nat (List (Nat × Nat × Nat)) :=
  let i := va / 2 ^ 22
  match s.localRing f i with
  | none => .error 0x61
  | some r =>
    let g := s.ring r
    let o := va % 2 ^ 22
    if n > 2 ^ 31 ∨ !g.sized ∨ o + n > 64 * 2 ^ g.sizeLog2 ∨ (write ∧ (o % 64 ≠ 0 ∨ n % 64 ≠ 0)) then .error 0x61
    else match s.slabCheck f none (g.base.toNat + o) n write false with
      | .ok ps => .ok ps
      | .flag _ => .error 0x62
      | _ => .error 0x63

/-- DONE and HEAD of a ring as its doorbell reads (R318, Table 12.8). -/
def Ring.doorbellRead (g : Ring) : List Byte := toLe 4 g.done.toNat ++ toLe 4 g.head.toNat

end Sys2Proof.Machine
end

