-- ==== Sys2Proof/Machine/Ethernet.lean ====
section
/-! DEFINITION. The commands of the Ethernet port: link, frames, flow control, connections, RDMA and frame queues
(spec/13, R356 to R376). -/

namespace Sys2Proof.Machine

/-- The link comes up with the PMDs advertised (R357); frames that waited for it go, and DHCPv4 asks for an address (R360). -/
def execEthLinkUp (s : State) : Host.Outcome State Fault Refusal :=
  .next (if s.boot.pgood && s.fatal.cause = 0 && s.eth.training then
      ({ s with eth := { s.eth with training := false, link := true, half := s.eth.advHalf, everUp := true } }).ethResume.dhcpStart
    else s)

/-- The link is lost: training advertises the 800 Gbit/s PMDs again (R357). Connections survive (R368). -/
def execEthLinkLoss (s : State) : Host.Outcome State Fault Refusal :=
  .next (if s.ethRuns then
      { s with eth := { s.eth with link := false, half := false, training := true, advHalf := false, paused := 0, xoff := 0 } }
    else s)

/-- 10 s after training first started no link is up: only 400GBASE-KR4 is advertised (R357). -/
def execEthHalfWidthFallback (s : State) : Host.Outcome State Fault Refusal :=
  .next (if s.eth.training && !s.eth.everUp then { s with eth := { s.eth with advHalf := true } } else s)

/-- An address that the package may take (R360): its link-local address, a global IPv6 address learned from a router
advertisement beside fewer than four, or its one IPv4 address: the record's in static mode, else the one DHCPv4 gave. -/
def Eth.mayTake (x : Eth) (a : BitVec 128) : Bool :=
  if isV4 a then !x.addrs.any isV4 &&
    (if x.netrec.ipv4Mode = 2 then a.toNat % 2 ^ 32 = x.netrec.ipv4Addr else x.netrec.ipv4Mode = 1 && x.learned.contains a)
  else if isGlobal a then x.learned.contains a && (x.addrs.filter isGlobal).length < 4
  else a = linkLocal x.mac

/-- Duplicate address detection or an ARP probe ends (R360): the address is used, or the failure is shown and counted as
ADDR_FAIL. -/
def execAddrDadComplete (addr : BitVec 128) (ok : Bool) (s : State) : Host.Outcome State Fault Refusal :=
  .next (if !s.ethRuns || s.ownAddr addr || !s.eth.mayTake addr then s
    else
      let s := { s with eth := { s.eth with learned := s.eth.learned.filter (· ≠ addr) } }
      if ok then { s with eth := { s.eth with addrs := s.eth.addrs ++ [addr] } } else s.orStat .eth 0 (2 ^ 3))

/-- PFC (R364): each enabled priority is paused or resumed; what waited is sent. -/
def execPfcFrameReceive (enable : BitVec 8) (pause : BitVec 8) (s : State) : Host.Outcome State Fault Refusal :=
  .next (if s.ethRuns then
      ({ s with eth := { s.eth with paused := (s.eth.paused &&& ~~~enable) ||| (pause &&& enable) } }).ethResume
    else s)

/-- A connection's new record. -/
def State.setConn (s : State) (q : Nat) (k : Conn) : State := { s with eth := { s.eth with conns := s.eth.conns.set none q (some k) } }

/-- A congestion notification halves the rate of a connection's read responses (R365). -/
def State.cnpIn (s : State) (q : Nat) (k : Conn) : State :=
  (s.setConn q { k with rate := k.rate / 2, cnpGot := some s.timeNs }).count .eth 0 3 1 0 1

def execCnpReceive (qpn : BitVec 24) (s : State) : Host.Outcome State Fault Refusal :=
  .next (s.rdmaConn qpn.toNat (fun s k => s.cnpIn qpn.toNat k))

/-- 55 µs without a notification, or since the last rise: the rate rises by 5 % of the line rate, up to the full rate (R365).
Before that, and where no notification has lowered the rate, nothing changes. -/
def execCnpRateRaise (qpn : BitVec 24) (s : State) : Host.Outcome State Fault Refusal :=
  .next (s.rdmaConn qpn.toNat (fun s k => match k.cnpGot with
    | none => s
    | some t =>
      if s.timeNs < t + 55000 then s
      else
        let rate := min 1000000000 (k.rate + 50000000)
        s.setConn qpn.toNat { k with rate := rate, cnpGot := if rate = 1000000000 then none else some s.timeNs }))

/-- A packet marked CE is answered with a congestion notification, at most one per connection in 50 µs (R365). -/
def State.congested (s : State) (q : Nat) (k : Conn) : State :=
  let quiet : Bool := match k.cnpSent with
    | some t => s.timeNs - t ≥ 50000
    | none => true
  if quiet then
    let o := s.roceOut q s.eth.netrec.cnpDscp .cnp
    let s := s.setConn q { k with cnpSent := some s.timeNs }
    (({ s with eth := { s.eth with cnps := s.eth.cnps ++ [o] } }).count .eth 0 3 0 0 1).count .eth 0 1 0 0 (if o.held then 0 else 1)
  else s

/-- A RoCEv2 packet of a connection (R365, R367): one marked CE is answered with a congestion notification, a notification
takes effect, and a request opcode that Table 13.3 does not list is answered with NAK 0x61. The requests it does list are the
RDMA commands; read responses and acknowledgements are no requests. -/
def State.roce (s : State) (p : Ip) : State :=
  let b := p.body.drop 8
  let op := beAt b 0 1
  let q := beAt b 5 3
  s.rdmaConn q (fun s k =>
    let s := if p.ecn = 3 then s.congested q k else s
    if op = 0x81 then s.cnpIn q ((s.conn q).getD k)
    else if [0x00, 0x01, 0x02, 0x04, 0x06, 0x07, 0x08, 0x0A, 0x0C].contains op || (0x0D ≤ op % 32 && op % 32 ≤ 0x12) then s
    else s.rdmaNak q k.fn 0x61)

/-- A UDP datagram (R361, R374): Skelist on port 7714, RoCEv2 on 4791, and the ports of cores. -/
def State.ethUdpIn (s : State) (p : Ip) (frame : List Byte) : State :=
  let src := beAt p.body 0 2
  let dst := beAt p.body 2 2
  let m := (p.body.take (beAt p.body 4 2)).drop 8
  let own := s.ownAddr p.dst
  if dst = 7714 then s.skelistUdp m (UdpAddr.mk p.src (BitVec.ofNat 16 src)) p.dst
  else if dst = 4791 then (if own then s.roce p else s)
  else if dst = 68 then s.dhcpIn m
  else if dst = 319 ∨ dst = 320 ∨ dst = 546 then s
  else if own || groupAddr p.dst then s.ethUdp dst frame
  else s

/-- A received frame, destination address to FCS (R356, R358): dropped by FEC, FCS, length or VLAN, else handed on. -/
def State.ethFrame (s : State) (frame : List Byte) : State :=
  let n := frame.length
  let isTag := fun (o : Nat) => beAt frame o 2 = 0x8100 || beAt frame o 2 = 0x88A8
  let tagged := beAt frame 12 2 = 0x8100
  let vid := beAt frame 14 2 % 4096
  let vlan := s.eth.netrec.vlan
  if n < 64 ∨ n > 9216 + (if tagged then 4 else 0) then s.ethDrop 2
  else
    let body := frame.take (n - 4)
    if fcs body ≠ frame.drop (n - 4) then s.ethDrop 1
    else if (isTag 12 && isTag 16) || (isTag 12 && !tagged) then s.ethDrop 3
    else if (if vlan = 0 then tagged && vid ≠ 0 else !tagged || (vid ≠ vlan && vid ≠ 0)) then s.ethDrop 3
    else
      let s := s.count .eth 0 1 1 0 1
      let b := if tagged then body.take 12 ++ body.drop 16 else body
      let mac := beAt b 0 6
      if mac ≠ s.eth.mac.toNat ∧ mac / 2 ^ 40 % 2 = 0 then s
      else
        let et := beAt b 12 2
        let peer := (b.drop 6).take 6
        if et = 0x0806 then s.ethArp (b.drop 14)
        else match Ip.parse et (b.drop 14) with
          | none => s
          | some p =>
            if p.frag then s.ethDrop 7
            else if p.proto = 17 then s.ethUdpIn p b
            else s.ethIcmp peer p

/-- The priority of a received frame: its PCP, and 0 where it is untagged (R363). -/
def frameClass (frame : List Byte) : Nat := if beAt frame 12 2 = 0x8100 then beAt frame 14 1 / 32 else 0

/-- The receive buffer of a priority has room for a frame: 2 MiB on a lossless priority (R364). -/
def State.ethRoom (s : State) (p held n : Nat) : Bool :=
  held = 0 || held + n ≤ (if s.eth.netrec.pfcMask.testBit p then 2 ^ 21 else Config.lossyBuffer)

/-- ETH_FRAME_RECEIVE: `rx.occ` gives what the receive buffer of each priority holds as the frame arrives. A frame with an
uncorrectable FEC codeword is dropped and reported (R356); one without room is dropped, and reported on a lossless priority,
where only a peer that PFC does not stop sends it (R364, Table 13.9). -/
def execEthFrameReceive (frame : List Byte) (rx : FrameRx) (s : State) : Host.Outcome State Fault Refusal :=
  let p := frameClass frame
  .next (if !s.ethRuns then s
    else if !rx.fecOk then (s.raise .eth 0 1 {}).ethDrop 4
    else
      let s := s.pfcBuffers rx.occ
      if s.ethRoom p (rx.occ.getD p 0) frame.length then s.ethFrame frame
      else if s.eth.netrec.pfcMask.testBit p then (s.raise .eth 0 2 {}).ethDrop 5
      else s.ethDrop 5)

/-- A QPN that no connection has, from a given one on (fuel: connections). -/
def State.freeQpn (s : State) : Nat → Nat → Nat
  | 0, q => q
  | k + 1, q => if (s.conn q).isSome then s.freeQpn k ((q + 1) % 2 ^ 24) else q

/-- WIN_CONNECT (R368): a connection with the peer's GID, QPN, PSN and path MTU; its own QPN, PSN and keys are free
values. -/
def execWinConnect (s : State) : Host.Outcome State Fault Refusal :=
  .next (s.command 0x0503 (fun s r =>
    let p := r.payload
    let mtu := beAt p 24 2
    let n := (s.eth.conns.filter (fun e => e.2.map (·.fn) = some r.fn)).length
    s.judge r [(!payOk p [(0, 16), (16, 4), (20, 4), (24, 2)] || beAt p 16 4 ≥ 2 ^ 24 || beAt p 20 4 ≥ 2 ^ 24 ||
          !(mtu = 1024 || mtu = 2048 || mtu = 4096), stBadArg), (s.tacked, stBusy),
        (n ≥ 16 || s.eth.conns.length ≥ 1024, stNoResource)] (fun s =>
      let v := fun (i : Nat) => Config.connValue (s.freeCtr + i)
      let q := s.freeQpn 1024 ((v 0).toNat % 2 ^ 24)
      let k : Conn := { fn := r.fn, gid := BitVec.ofNat 128 (beAt p 0 16), peerQpn := BitVec.ofNat 24 (beAt p 16 4),
                        peerPsn := BitVec.ofNat 24 (beAt p 20 4), mtu := mtu, psn := (v 1).truncate 24, rkeyWin := v 2, rkeyRing := v 3 }
      ({ s with freeCtr := s.freeCtr + 4, eth := { s.eth with conns := s.eth.conns.set none q (some k) } }).reply r stOk
        (beBytes 4 q ++ beBytes 4 k.psn.toNat ++ beBytes 4 k.rkeyWin.toNat ++ beBytes 4 k.rkeyRing.toNat))))

/-- WIN_CLOSE (R368). -/
def execWinClose (s : State) : Host.Outcome State Fault Refusal :=
  .next (s.command 0x0504 (fun s r =>
    let q := beAt r.payload 0 4
    s.judge r [(!payOk r.payload [(0, 4)] || (s.conn q).map (·.fn) ≠ some r.fn, stBadArg), (s.tacked, stBusy)] (fun s =>
      ({ s with eth := { s.eth with conns := s.eth.conns.set none q none } }).reply r stOk [])))

/-- RDMA WRITE (R318, R322, R324, R367, R369, R370): checked whole, then written before it is acknowledged. -/
def execRdmaWrite (qpn : BitVec 24) (rkey : W32) (va : W64) (data : List Byte) (s : State) : Host.Outcome State Fault Refusal :=
  .next (s.rdmaConn qpn.toNat (fun s k =>
    let q := qpn.toNat
    let a := va.toNat
    let land := fun (r : Except Nat (List (Nat × Nat × Nat))) => match r with
      | .error code => s.rdmaNak q k.fn code
      | .ok ps => ((s.writePieces ps data false).count .win 0 2 1 k.fn data.length).answer q .ack
    match s.region k.fn rkey with
    | .none => s.rdmaNak q k.fn 0x62
    | .window => if s.tacked then s.answer q .rnr else land (s.windowReq k.fn a data.length true)
    | .ring =>
      if a ≥ 2 ^ 40 then
        if a % 8 = 0 ∧ (data.length = 4 ∨ data.length = 8) then
          s.rdmaDoorbell q k.fn ((a - 2 ^ 40) / 8) (BitVec.ofNat 32 (leVal (data.take 4)))
        else s.rdmaNak q k.fn 0x61
      else if s.tacked then s.answer q .rnr
      else land (s.entryReq k.fn a data.length true)))

/-- The READs of a connection whose responses wait for the port. -/
def Eth.outstanding (x : Eth) (q : Nat) : Nat :=
  (x.answers.filter (fun o => o.qpn = q && o.held && (match o.ans with
    | .data _ => true
    | _ => false))).length

/-- RDMA READ (R318, R322, R324): poisoned data is answered with NAK 0x63, and a READ beyond 16 outstanding ones with NAK 0x61
(R369); served under a tack (R506). -/
def execRdmaRead (qpn : BitVec 24) (rkey : W32) (va : W64) (len : Nat) (s : State) : Host.Outcome State Fault Refusal :=
  .next (s.rdmaConn qpn.toNat (fun s k =>
    let q := qpn.toNat
    let a := va.toNat
    if s.eth.outstanding q ≥ 16 then s.rdmaNak q k.fn 0x61
    else
    let fetch := fun (r : Except Nat (List (Nat × Nat × Nat))) => match r with
      | .error code => s.rdmaNak q k.fn code
      | .ok ps =>
        let (s, bs, p, _) := s.readPieces ps
        if p then s.rdmaNak q k.fn 0x63 else (s.count .win 0 2 0 k.fn len).answer q (.data bs)
    match s.region k.fn rkey with
    | .none => s.rdmaNak q k.fn 0x62
    | .window => fetch (s.windowReq k.fn a len false)
    | .ring =>
      if a ≥ 2 ^ 40 then
        match s.localRing k.fn ((a - 2 ^ 40) / 8) with
        | some r => if a % 8 = 0 ∧ len = 8 then s.answer q (.data (s.ring r).doorbellRead) else s.rdmaNak q k.fn 0x61
        | none => s.rdmaNak q k.fn 0x61
      else fetch (s.entryReq k.fn a len false)))

/-- SEND (R371): the next receive buffer of the function's local core 0. -/
def execRdmaSend (qpn : BitVec 24) (data : List Byte) (s : State) : Host.Outcome State Fault Refusal :=
  .next (s.rdmaConn qpn.toNat (fun s k =>
    let q := qpn.toNat
    match (s.coresOf k.fn).head? with
    | none => s.rdmaNak q k.fn 0x61
    | some c =>
      let x := s.core c
      if data.length > 9216 then s.rdmaNak q k.fn 0x61
      else if s.tacked || (s.fn k.fn).st ≠ .running || x.rxDone = x.rxTail then s.answer q .rnr
      else match s.fqFill k.fn c data with
        | (s, 0) => s.answer q .ack
        | (s, 1) => s.rdmaNak q k.fn 0x61
        | (s, _) => s.rdmaNak q k.fn 0x63))

/-- FQ_TX_TAIL (R373): the port sends or drops what the core submits. -/
def execFqTxTailWrite (c : CoreId) (tail : W32) (s : State) : Host.Outcome State Fault Refusal :=
  .next (match s.coreFn c with
    | some f => s.fqTxTail f c tail
    | none => s)

/-- FQ_RX_TAIL (Table 13.4). -/
def execFqRxTailWrite (c : CoreId) (tail : W32) (s : State) : Host.Outcome State Fault Refusal :=
  .next (match s.coreFn c with
    | some _ => s.fqRxTail c tail
    | none => s)

def execFqPortWrite (c : CoreId) (n : Fin 4) (value : W32) (s : State) : Host.Outcome State Fault Refusal :=
  .next (match s.coreFn c with
    | some f => s.fqPort f c n value
    | none => s)

end Sys2Proof.Machine
end

