-- ==== Sys2Proof/Machine/FabCommands.lean ====
section
/-! DEFINITION. Peer tables, slices, routing entries and the USE bits of LNK_SYS (R402, R403, R405, R410). -/

namespace Sys2Proof.Machine

/-- A peer package table entry (Table 14.6): none where a VALID entry has another slice or a function above 1,023 (R405); the
other reserved bits are ignored (R11). -/
def peerEntry (slice : Nat) (b : List Byte) : Option Peer :=
  let a := beAt b 0 2
  let f := beAt b 2 2
  let w := beAt b 4 4
  if w.testBit 31 then
    if f ≥ 1024 ∨ w % 2 ^ 12 ≠ slice then none else some { addr := a % 2 ^ 14, fn := f, valid := true }
  else some {}

/-- PEER_WRITE (R405): entries in network byte order, as every field of a message (R331). -/
def execPeerWrite (s : State) : Host.Outcome State Fault Refusal :=
  .next (s.command 0x0701 (fun s r =>
    let p := r.payload
    let f := beAt p 0 2
    let first := beAt p 2 2
    let n := beAt p 4 1
    let es := (List.range n).map (fun i => peerEntry (s.fn f).slice ((p.drop (8 + 8 * i)).take 8))
    s.judge r [(r.notOperator, stDenied), (f < 1024 && (s.fn f).st = .free, stStopped),
        (!payOk p [(0, 2), (2, 2), (4, 1), (8, 8 * n)] || f ≥ 1024 || n < 1 || n > 27 || first + n > 16384 || es.any Option.isNone, stBadArg),
        (s.busyFor f, stBusy)] (fun s =>
      (s.onFn f (fun x => { x with peers := es.zipIdx.foldl (fun (m : SMap Peer) e => m.set {} (first + e.2) (e.1.getD {})) x.peers })).reply
        r stOk [])))

/-- The distinct non-zero slices of the functions other than one (R402). -/
def State.slicesBut (s : State) (f : Nat) : List Nat :=
  ((s.fns.filter (fun e => e.1 ≠ f && e.2.st ≠ .free && e.2.slice ≠ 0)).map (fun e => e.2.slice)).eraseDups

/-- SLICE_SET (R402). -/
def execSliceSet (s : State) : Host.Outcome State Fault Refusal :=
  .next (s.command 0x0702 (fun s r =>
    let f := beAt r.payload 0 2
    let v := beAt r.payload 2 2
    let others := s.slicesBut f
    s.judge r [(r.notOperator, stDenied), (f < 1024 && (s.fn f).st = .free, stStopped),
        (!payOk r.payload [(0, 2), (2, 2)] || f ≥ 1024 || v > 4095, stBadArg), (s.busyFor f, stBusy),
        (v ≠ 0 && (s.fab.addr.isNone || (!others.contains v && others.length ≥ 64)), stNoResource)] (fun s =>
      (s.onFn f (fun x => { x with slice := v, peers := [] })).reply r stOk [])))

/-- A write of USE (R410): a 1 takes effect on a present port that is ACTIVE8 or ACTIVE4, or whose bit is set already; a
0 always does. -/
def State.writeUse (s : State) (v : BitVec 20) : State :=
  { s with fab := { s.fab with use := (List.range 20).foldl (fun (u : BitVec 20) p =>
      if v.getLsbD p && (s.fab.use.getLsbD p || (!s.portAbsent p && (s.port p).st.active)) then u ||| BitVec.ofNat 20 (2 ^ p) else u) 0 } }

/-- LNK_SYS as a register image (Table 14.7). -/
def Fab.sysReg (x : Fab) : Nat := x.xsM1 + x.ysM1 * 8 + x.zsM1 * 64 + x.use.toNat * 256

/-- Slice entries of a ROUTE_WRITE, written one after another: an entry that names a slice replaces its entry or takes the
lowest free one; none when none is free (R403). -/
def Fab.writeRoutes (x : Fab) : List RouteReg → Option Fab
  | [] => some x
  | r :: rs =>
    let at' := fun (p : RouteReg → Bool) => (List.range 64).find? (fun i => p (x.routes.get 0 i))
    match (at' (fun q => routeValid q && routeSlice q = routeSlice r)).or (at' (fun q => !routeValid q)) with
    | some i => { x with routes := x.routes.set 0 i r }.writeRoutes rs
    | none => none

/-- A system entry changes the sizes of the axes. -/
def Fab.sameSizes (x : Fab) (v : Nat) : Bool := v % 256 = x.xsM1 + x.ysM1 * 8 + x.zsM1 * 64

/-- LNK_ROUTE without its reserved bits (Table 14.8, R11). -/
def routeImage (v : Nat) : RouteReg := BitVec.ofNat 64 (v % 2 ^ 21 + v / 2 ^ 24 % 2 ^ 8 * 2 ^ 24)

/-- ROUTE_WRITE (R403, Table 14.5): reserved bits of an entry are ignored (R11). -/
def execRouteWrite (s : State) : Host.Outcome State Fault Refusal :=
  .next (s.command 0x0703 (fun s r =>
    let p := r.payload
    let kind := beAt p 0 1
    let n := beAt p 1 1
    let es := (List.range n).map (fun i => beAt p (8 + 8 * i) 8)
    let rs := es.map routeImage
    let e := es.headD 0
    let torus := s.fuses.part = 3 && (if kind = 0 then e % 256 ≠ 0 || (e / 2 ^ 8 % 2 ^ 20) ≥ 2 ^ 14 else es.any (fun v => v / 2 ^ 17 % 8 ≠ 0))
    let bad := kind > 1 || n < 1 || n > (if kind = 0 then 1 else 27) ||
      (kind = 1 && es.any (fun v => v % 4096 = 0))
    let running := if kind = 0 then !s.fab.sameSizes e && !s.noneRunning
      else s.fns.any (fun x => (x.2.st = .running || x.2.st = .stopping) && es.any (fun v => v % 4096 = x.2.slice))
    s.judge r [(r.notOperator, stDenied), (torus, stUnsupported), (!payOk p [(0, 1), (1, 1), (8, 8 * n)] || bad, stBadArg),
        (s.tacked || running, stBusy), (kind = 1 && (s.fab.writeRoutes rs).isNone, stNoResource)] (fun s =>
      let s := if kind = 0 then
          { s with fab := { s.fab with xsM1 := e % 8, ysM1 := e / 8 % 8, zsM1 := e / 64 % 4 } }.writeUse (BitVec.ofNat 20 (e / 256 % 2 ^ 20))
        else { s with fab := (s.fab.writeRoutes rs).getD s.fab }
      s.reply r stOk [])))

/-- ROUTE_READ (Table 14.5): the system entry is entry 0 of KIND 0. -/
def execRouteRead (s : State) : Host.Outcome State Fault Refusal :=
  .next (s.command 0x0704 (fun s r =>
    let kind := beAt r.payload 0 1
    let a := beAt r.payload 1 1
    let n := beAt r.payload 2 1
    s.judge r [(r.notOperator, stDenied),
        (!payOk r.payload [(0, 1), (1, 1), (2, 1)] || kind > 1 || n < 1 || n > 28 || a + n > (if kind = 0 then 1 else 64), stBadArg)] (fun s =>
      s.reply r stOk (if kind = 0 then beBytes 8 s.fab.sysReg
        else (List.range n).flatMap (fun i => beBytes 8 (s.fab.routes.get 0 (a + i)).toNat)))))

end Sys2Proof.Machine
end

