-- ==== Sys2Proof/Machine/Fabric.lean ====
section
/-! DEFINITION. The fabric ports: link-up, replay, retraining, leaving service, packets and credits (spec/14, R386 to R412). -/

namespace Sys2Proof.Machine

/-- A port of the part that is powered and not fenced. -/
def State.portRuns (s : State) (p : Nat) : Bool := s.boot.pgood && s.fatal.cause = 0 && !s.portAbsent p

/-- A partner fits the role of a port (Table 14.1). -/
def partnerFits (p : Nat) (x : Partner) : Bool :=
  if p < 6 then !x.isSwitch && x.port.toNat = p
  else if p < 14 then x.isSwitch
  else !x.isSwitch && x.port.toNat = (if p % 2 = 0 then p + 1 else p - 1)

/-- A port carries packets or holds them without loss (Table 14.3). -/
def PortSt.inService (x : PortSt) : Bool := x.active || x = .retrain

/-- A port takes a state out of service (R394, R407, R410): its USE bit is cleared, and every packet queued for it or not
acknowledged is discarded. -/
def State.leaveService (s : State) (p : Nat) (st : PortSt) : State :=
  let x := s.port p
  let s := s.portGo p st
  if !x.st.inService then s
  else
    let s := (s.onPort p (fun y =>
      { y with queue := [], sent := [], used := [], lanes := 0, upper := false, replayFrom := none })).raise .lnk p 8 {}
    let s := { s with fab := { s.fab with use := s.fab.use &&& ~~~(BitVec.ofNat 20 (2 ^ p)) } }
    (x.sent ++ x.queue).foldl (fun (s : State) e => s.discard p 3 e.pkt) s

/-- The lanes of a port that train: none that self-test recorded as failed. -/
def State.goodLanes (s : State) (p : Nat) (lanes : BitVec 8) : BitVec 8 :=
  (List.range 8).foldl (fun (m : BitVec 8) l => if s.flash.failedLanes.contains (p, l) then m &&& ~~~(BitVec.ofNat 8 (2 ^ l)) else m) lanes

/-- A port enters service at 8 lanes, or at 4 with LANE_FAIL (R393): a link that comes up anew starts with an empty replay
buffer and full credits. -/
def State.enterService (s : State) (p : Nat) (lanes : BitVec 8) (upper eight : Bool) : State :=
  let s := s.onPort p (fun x =>
    let x := if x.st = .retrain then x else { x with sent := [], txSeq := 0, used := [] }
    { x with lanes := lanes, upper := upper, replayFrom := none })
  let s := s.portGo p (if eight then .active8 else .active4)
  let s := if eight then s else s.raise .lnk p 4 {}
  s.onPort p (fun x => if s.trc.tack = .none then x.pump else x)

/-- LNK_LINK_UP (R390, R393): the ends have exchanged their identity; training tries all lanes, then 0 to 3, then 4 to 7,
and a partner that does not fit the role leaves the port MISWIRED. -/
def execLnkLinkUp (p : PortId) (partner : Partner) (lanes : BitVec 8) (s : State) : Host.Outcome State Fault Refusal :=
  .next (
    let st := (s.port p).st
    if !s.portRuns p || !(st = .training || st = .retrain) then s
    else
      let m := s.goodLanes p lanes
      let low := m &&& 0x0F = 0x0F
      if !low && m &&& 0xF0 ≠ 0xF0 then (if st = .training then s.portGo p .down else s)
      else
        let s := s.onPort p (fun x => { x with partner := some partner })
        if !partnerFits p partner then (s.leaveService p .miswired).raise .lnk p 32 {}
        else s.enterService p m (!low) (m = 0xFF))

/-- LNK_REPLAY (R392): a flit in an uncorrectable codeword or out of sequence is dropped, and with it every later one until
the replay from the first missing number succeeds. -/
def execLnkReplay (p : PortId) (seq : BitVec 11) (ok : Bool) (s : State) : Host.Outcome State Fault Refusal :=
  .next (if s.portRuns p && (s.port p).st.active then
      (((s.onPort p (fun x => { x with replayFrom := if ok then none else some seq.toNat })).raise .lnk p 1 {}).count .lnk p 2 0 0 1)
    else s)

/-- LNK_RETRAIN (R393): packets wait and the replay buffer keeps its flits; a MISWIRED port trains again. -/
def execLnkRetrain (p : PortId) (_cause : RetrainCause) (s : State) : Host.Outcome State Fault Refusal :=
  .next (
    let st := (s.port p).st
    if !s.portRuns p || !(st.active || st = .miswired) then s
    else (s.portGo p (if st.active then .retrain else .training)).raise .lnk p 2 {})

/-- LNK_RETRAIN_TIMEOUT (R393): not ACTIVE again within 5 ms. -/
def execLnkRetrainTimeout (p : PortId) (s : State) : Host.Outcome State Fault Refusal :=
  .next (if s.portRuns p && (s.port p).st = .retrain then s.leaveService p .down else s)

/-- LNK_DOWN_RETRY (R394): a DOWN port trains again every 1 s, once training of the ports has begun (Table 19.2). -/
def execLnkDownRetry (p : PortId) (s : State) : Host.Outcome State Fault Refusal :=
  .next (if s.portRuns p && 8 ≤ s.boot.order && (s.port p).st = .down then s.portGo p .training else s)

/-- FENCE_ORDERED_SET_RECEIVE (R394). -/
def execFenceOrderedSetReceive (p : PortId) (s : State) : Host.Outcome State Fault Refusal :=
  .next (if s.portRuns p && (s.port p).st ≠ .fenced then s.leaveService p .down else s)

/-- PORT_LEAVE_SERVICE (R407): a port in service goes DOWN. -/
def execPortLeaveService (p : PortId) (s : State) : Host.Outcome State Fault Refusal :=
  .next (if s.portRuns p && (s.port p).st.inService then s.leaveService p .down else s)

/-- FABRIC_PACKET_RECEIVE (R395, R397): discarded for its header, forwarded, or delivered; under a tack it joins the log of
its channel until the marker (R503). -/
def execFabricPacketReceive (p : PortId) (vc : Fin 6) (packet : List Byte) (s : State) : Host.Outcome State Fault Refusal :=
  .next (
    if !s.portRuns p || !(s.port p).st.active || (s.port p).replayFrom.isSome then s
    else if s.trc.tack ≠ .none then
      let k := 0x1000 + p.val * 8 + vc.val
      if (s.trc.logs.get {} k).closed then s
      else { s with trc := { s.trc with logs := s.trc.logs.modify {} k (fun l => { l with entries := l.entries ++ [packet] }) } }
    else
      let s := s.count .lnk p 1 (vc.val + 0x80) 0 ((packet.length + 253) / 254)
      match FPkt.parse packet with
      | none => s.count .lnk p 3 1 0 1
      | some q => s.forward p q)

/-- PACKET_AGED (R408): the oldest packet that waits on a virtual channel of a port has waited 10 ms; ageing pauses under a
tack (R506). -/
def execPacketAged (p : PortId) (vc : Fin 6) (s : State) : Host.Outcome State Fault Refusal :=
  .next (if s.portRuns p && s.trc.tack = .none then
      match (s.port p).queue.find? (fun e => e.vc = vc.val) with
      | some e =>
        ((s.onPort p (fun x => { x with queue := x.queue.eraseP (fun q => q.vc = vc.val) })).raise .lnk p 64 {}).discard p 4 e.pkt
      | none => s
    else s)

/-- LNK_SYS_USE_WRITE (R410). -/
def execLnkSysUseWrite (use : BitVec 20) (s : State) : Host.Outcome State Fault Refusal :=
  .next (if s.boot.pgood && s.fatal.cause = 0 then s.writeUse use else s)

/-- A sent packet whose last flit an acknowledgement covers: sequence numbers count, modulo 2,048, from the first flit that
is not acknowledged. -/
def Port.acked (x : Port) (ack : Nat) (e : PortPkt) : Bool :=
  let held := x.sent.foldl (fun a e => a + e.pkt.flits) 0
  let off := fun (n : Nat) => (n + 4096 + held - x.txSeq) % 2048
  match e.lastSeq with
  | some n => off n ≤ off ack && off ack < held
  | none => false

/-- LNK_CONTROL_FLIT_RECEIVE (R391): the replay buffer frees what is acknowledged, credits return, and what waits is
sent. -/
def execLnkControlFlitReceive (p : PortId) (ack : BitVec 11) (credits : List (Fin 6 × Nat)) (s : State) :
    Host.Outcome State Fault Refusal :=
  .next (if s.portRuns p && (s.port p).st.active then
      s.onPort p (fun x =>
        let x := { x with sent := x.sent.dropWhile (x.acked ack.toNat),
                          used := credits.foldl (fun (m : SMap Nat) c => m.modify 0 c.1.val (· - c.2)) x.used }
        if s.trc.tack = .none then x.pump else x)
    else s)

end Sys2Proof.Machine
end

