-- ==== Sys2Proof/Machine/HCore.lean ====
section
/-! DEFINITION. The host-class cores' accesses to the package: slab views, apertures, watches, mailbox and frame queues
(spec/12, R345 to R350, Table 12.8). -/

namespace Sys2Proof.Machine

/-- The machine external interrupt of a core (R349, Table 12.10): it stays pending until software clears EN. -/
def State.coreIrq (s : State) (c : Nat) : Bool :=
  let x := s.core c
  x.watches.any (fun e => e.2.en && e.2.pending) || (x.done && x.irqEn)

/-- The cores of a quadrant that hit in one another's ways (R346): those of one function, a core itself first. -/
def State.cacheMates (s : State) (f c : Nat) : List Nat :=
  c :: (List.range 8).filterMap (fun i =>
    let d := c / 8 * 8 + i
    if d ≠ c && (s.core d).fn = some f then some d else none)

/-- A byte that the ways of a core and its mates hold: one stored and not written back, else a copy read before. -/
def State.cachedByte (s : State) (f c a : Nat) : Option Byte :=
  let at' := fun (m : SMap Byte) => (m.find? (fun e => e.1 = a)).map (·.2)
  let ms := s.cacheMates f c
  (ms.findSome? (fun d => at' (s.core d).dirty)).or (ms.findSome? (fun d => at' (s.core d).clean))

/-- Bytes are filled into a core's own ways (R346). -/
def HCore.fillClean (x : HCore) (a : Nat) (bs : List Byte) : HCore :=
  { x with clean := bs.zipIdx.foldl (fun (m : SMap Byte) p => m.insert (a + p.2) p.1) x.clean }

/-- The bytes from one address to another leave a core's ways. -/
def HCore.dropBytes (x : HCore) (a n : Nat) : HCore :=
  let out := fun (e : Nat × Byte) => !(a ≤ e.1 && e.1 < a + n)
  { x with dirty := x.dirty.filter out, clean := x.clean.filter out }

/-- A store through the cached view: the bytes become dirty in this core's ways and leave its mates' (R348). -/
def State.cachedStore (s : State) (f c a : Nat) (bs : List Byte) : State :=
  let s := (s.cacheMates f c).foldl (fun (s : State) d => s.onCore d (fun x => x.dropBytes a bs.length)) s
  s.onCore c (fun x => { x with dirty := bs.zipIdx.foldl (fun (m : SMap Byte) p => m.insert (a + p.2) p.1) x.dirty })

/-- The bytes that a core's own caches hold: its L2 and its two ways of 2 MiB (R18, R346). -/
def cacheBytes : Nat := 6 * 2 ^ 20

/-- After an access the caches may write back and drop what they hold, and must where they are full; which bytes they drop,
and when software's cache operations, which no command carries, ask for it, is free (R348). -/
def State.cacheMay (s : State) (f c : Nat) : State :=
  let (k, s) := s.fresh
  let x := s.core c
  if Config.cacheOut k || decide (x.dirty.length + x.clean.length > cacheBytes) then s.cacheFlush f c else s

/-- A cached load (R348): each byte that the ways hold is a hit, and the others are read from the slab and filled. -/
def State.cachedLoad (s : State) (f c a : Nat) (ps : List (Nat × Nat × Nat)) (n : Nat) : State × List Byte :=
  let held := (List.range n).map (fun i => s.cachedByte f c (a + i))
  if held.all Option.isSome then (s, held.filterMap id)
  else
    let (s, bs, _, _) := s.readPieces ps
    let out := (held.zip bs).map (fun p => p.1.getD p.2)
    let new := (held.zip bs).zipIdx.filter (fun p => p.1.1.isNone)
    (s.onCore c (fun x => new.foldl (fun (x : HCore) p => x.fillClean (a + p.2) [p.1.2]) x), out)

/-- A core's traffic enters the mesh at one of the four edge routers of its quadrant (R19): from one of them every slab that
an access names can be reached and answers (R287, R480). -/
def State.coreReaches (s : State) (c : Nat) (ps : List (Nat × Nat × Nat)) : Bool :=
  s.mesh.halves.isEmpty || (coreTiles c).any (fun e => ps.all (fun p => s.pathOk e p.1 && s.pathOk p.1 e))

/-- An access to the function's slab (R347): one that fails the checks, or finds no path, is an access fault of the core. -/
def State.coreSlab (s : State) (f c a n : Nat) (cached write : Bool) (v : Nat) : State :=
  match s.slabCheck f none a n write false with
  | .ok ps =>
    if !s.coreReaches c ps then s.coreAns c .fault
    else if write then
      let s := if cached then (s.cachedStore f c a (toLe n v)).cacheMay f c else s.writePieces ps (toLe n v) false
      s.coreAns c (.data 0)
    else if cached then
      let (s, bs) := s.cachedLoad f c a ps n
      (s.cacheMay f c).coreAns c (.data (BitVec.ofNat 64 (leVal bs)))
    else
      let (s, bs, _, _) := s.readPieces ps
      s.coreAns c (.data (BitVec.ofNat 64 (leVal bs)))
  | r => (s.reportRefused f r).coreAns c .fault

/-- A naturally aligned access to registers: n bytes at an offset of an image of `size` bytes are read, or replaced and
given to `put`. -/
def State.coreReg (s : State) (c o n size : Nat) (image : Nat) (write : Bool) (v : Nat) (put : State → Nat → State) : State :=
  if o + n > size then s.coreAns c .fault
  else if write then
    let low := image % 2 ^ (8 * o)
    let high := image / 2 ^ (8 * (o + n)) * 2 ^ (8 * (o + n))
    (put s (high + v % 2 ^ (8 * n) * 2 ^ (8 * o) + low)).coreAns c (.data 0)
  else s.coreAns c (.data (BitVec.ofNat 64 (image / 2 ^ (8 * o) % 2 ^ (8 * n))))

/-- The image of a fence watch (Table 12.9). -/
def State.watchImage (s : State) (f : Nat) (w : Watch) : Nat :=
  w.index + bit w.en 14 + bit (s.watchHit f w) 15 + w.value.toNat * 2 ^ 64

/-- A watch is written (R349): its interrupt is pending from the moment its condition holds until EN is cleared. -/
def State.writeWatch (s : State) (f c i v : Nat) : State :=
  let w : Watch := { index := v % 2 ^ 14, en := tb v 14, value := BitVec.ofNat 64 (v / 2 ^ 64) }
  s.onCore c (fun x =>
    let w := { w with pending := w.en && ((x.watches.get {} i).pending || s.watchHit f w) }
    { x with watches := x.watches.set {} i w })

/-- A write of MB_CTL (Table 12.10). -/
def State.writeMbCtl (s : State) (c v : Nat) : State :=
  let s := s.onCore c (fun x => { x with done := x.done && !tb v 1, irqEn := tb v 2 })
  if tb v 0 then s.submitMailbox c else s

/-- MB_CTL as it reads. -/
def HCore.mbCtl (x : HCore) : Nat := bit x.go 0 + bit x.done 1 + bit x.irqEn 2

/-- The mailbox (R350). -/
def State.coreMailbox (s : State) (c o n : Nat) (write : Bool) (v : Nat) : State :=
  let x := s.core c
  if o < 0x100 then
    if write then (s.onCore c (fun x => { x with request := putBytes x.request o (toLe n v) })).coreAns c (.data 0)
    else s.coreAns c (.data (BitVec.ofNat 64 (leVal ((List.range n).map (fun i => x.request.get 0 (o + i))))))
  else if o < 0x200 then
    s.coreAns c (if write then .data 0 else .data (BitVec.ofNat 64 (leVal ((List.range n).map (fun i => x.reply.getD (o - 0x100 + i) 0)))))
  else s.coreReg c (o - 0x200) n 4 (x.mbCtl - bit write 1 * bit x.done 0) write v (fun s v => s.writeMbCtl c v)

/-- FQ_PORTn as it reads (Table 13.4). -/
def HCore.fqPortReg (x : HCore) (n : Nat) : Nat := (x.ports.get 0 n).toNat + bit (x.bound.get false n) 17

/-- The frame-queue aperture (Table 13.4). -/
def State.coreFrames (s : State) (f c o n : Nat) (write : Bool) (v : Nat) : State :=
  let x := s.core c
  if (0x1000 ≤ o ∧ o < 0x1400) ∨ (0x2000 ≤ o ∧ o < 0x2400) then
    if write then (s.onCore c (fun x => { x with fqMem := putBytes x.fqMem o (toLe n v) })).coreAns c (.data 0)
    else s.coreAns c (.data (BitVec.ofNat 64 (leVal ((List.range n).map (fun i => x.fqMem.get 0 (o + i))))))
  else if n ≠ 4 then s.coreAns c .fault
  else if o = 0 then s.coreReg c 0 n 4 x.txTail.toNat write v (fun s v => s.fqTxTail f c (BitVec.ofNat 32 v))
  else if o = 8 then s.coreReg c 0 n 4 x.txDone.toNat write v (fun s _ => s)
  else if o = 16 then s.coreReg c 0 n 4 x.rxTail.toNat write v (fun s v => s.fqRxTail c (BitVec.ofNat 32 v))
  else if o = 24 then s.coreReg c 0 n 4 x.rxDone.toNat write v (fun s _ => s)
  else if 0x20 ≤ o ∧ o < 0x30 then
    s.coreReg c 0 n 4 (x.fqPortReg ((o - 0x20) / 4)) write v (fun s v => s.fqPort f c ((o - 0x20) / 4) (BitVec.ofNat 32 v))
  else s.coreAns c .fault

/-- The doorbell aperture: a write of 4 or 8 bytes sets TAIL, a read returns DONE and HEAD. -/
def State.coreDoorbell (s : State) (f c o n : Nat) (write : Bool) (v : Nat) : State :=
  match s.localRing f (o / 8) with
  | none => s.coreAns c .fault
  | some r =>
    if write then
      if o % 8 = 0 ∧ n ≥ 4 then ((s.doorbell r (BitVec.ofNat 32 v)).1).coreAns c (.data 0) else s.coreAns c .fault
    else s.coreReg c (o % 8) n 8 (leVal (s.ring r).doorbellRead) false 0 (fun s _ => s)

/-- The fence apertures: a write adds to the counter or sets it, and only the first can be read. -/
def State.coreFenceAt (s : State) (f c o n : Nat) (set write : Bool) (v : Nat) : State :=
  let i := o / 8
  if n ≠ 8 ∨ i ≥ (s.fn f).fences ∨ (set ∧ !write) then s.coreAns c .fault
  else if write then (s.signalFence f i set (BitVec.ofNat 64 v)).coreAns c (.data 0)
  else s.coreAns c (.data (s.fence ((s.fn f).fenceBase + i)))

/-- TIME, and the core's own identity (Table 12.8). -/
def State.coreTime (s : State) (f c o n : Nat) (write : Bool) : State :=
  let id := f + (s.coresOf f).idxOf c * 2 ^ 10 + c * 2 ^ 16
  s.coreReg c o n 16 (s.timeNs % 2 ^ 64 + id * 2 ^ 64) write 0 (fun s _ => s)

/-- One access of n bytes at a core physical address (Table 12.8): registers take naturally aligned accesses. -/
def State.coreAccess (s : State) (f c a n : Nat) (write : Bool) (v : Nat) : State :=
  let slab := fun (x : Nat) (cached : Bool) =>
    if x < 2 ^ 40 then some (x, cached) else if 2 ^ 45 ≤ x ∧ x < 2 ^ 46 then some (2 ^ 61 + (x - 2 ^ 45), cached) else none
  match if a < 2 ^ 46 then slab a true else if 2 ^ 47 ≤ a then slab (a - 2 ^ 47) false else none with
  | some p => s.coreSlab f c p.1 n p.2 write v
  | none =>
    let b := 0xF00000000000
    let o := a - b
    if a < b ∨ a % n ≠ 0 then s.coreAns c .fault
    else if o < 0x10000 then s.coreDoorbell f c o n write v
    else if o < 0x30000 then s.coreFenceAt f c (o - 0x10000) n false write v
    else if o < 0x50000 then s.coreFenceAt f c (o - 0x30000) n true write v
    else if 0x50000 ≤ o ∧ o < 0x50040 then
      let i := (o - 0x50000) / 16
      s.coreReg c (o % 16) n 16 (s.watchImage f ((s.core c).watches.get {} i)) write v (fun s v => s.writeWatch f c i v)
    else if 0x60000 ≤ o ∧ o < 0x60010 then s.coreTime f c (o - 0x60000) n write
    else if 0x70000 ≤ o ∧ o < 0x70204 then s.coreMailbox c (o - 0x70000) n write v
    else if 0x100000 ≤ o ∧ o < 0x200000 then s.coreFrames f c (o - 0x100000) n write v
    else s.coreAns c .fault

/-- HCORE_ACCESS (R347): one access of 1, 2, 4 or 8 bytes that leaves a running core; log2Bytes above 3 is no access. -/
def execHcoreAccess (c : CoreId) (addr : BitVec 56) (write : Bool) (log2Bytes : Fin 4) (value : W64) (s : State) :
    Host.Outcome State Fault Refusal :=
  .next (match s.coreFn c with
    | some f => s.coreAccess f c addr.toNat (2 ^ log2Bytes.val) write value.toNat
    | none => s)

end Sys2Proof.Machine
end

