-- ==== Sys2Proof/Machine/Window.lean ====
section
/-! DEFINITION. Window transitions and window queries (R325, R326, Table 12.3). -/

namespace Sys2Proof.Machine

def State.onPflag (s : State) (p : Nat × Nat) (f : PFlag → PFlag) : State :=
  s.onSlab p.1 (fun b => { b with pflag := b.pflag.modify {} p.2 f })

/-- The physical pages of a range of window pages that resolve. -/
def State.winRange (s : State) (f first n : Nat) : List (Nat × Nat) :=
  (List.range n).filterMap (fun i => s.winPage f (first + i))

/-- A range of window pages lies in the window, every page of it resolving. -/
def State.inWindow (s : State) (f first n : Nat) : Bool :=
  (s.fn f).winValid && first + n ≤ (s.fn f).winPages && (List.range n).all (fun i => (s.winPage f (first + i)).isSome)

def State.pageRetired (s : State) (p : Nat × Nat) : Bool := (s.tile p.1).retired || (s.slab p.1).isRetired p.2

/-- WIN_FLAGS (R325 steps 1 and 2): the range becomes PENDING; a stopped function gives STOPPED. -/
def execWinFlags (s : State) : Host.Outcome State Fault Refusal :=
  .next (s.command 0x0501 (fun s r =>
    let f := r.fn
    let a := beAt r.payload 0 4
    let n := beAt r.payload 4 4
    let v := beAt r.payload 8 1
    s.judge r [((s.fn f).st ≠ .running, stStopped),
        (!payOk r.payload [(0, 4), (4, 4), (8, 1)] || v > 2 || a + n > (s.fn f).winPages || !s.inWindow f a n, stBadArg),
        ((s.winRange f a n).any s.pageRetired, stFaulted),
        (s.tacked || s.thm.long.any (fun l => l.fn = f && l.req.cmd ≠ 0x0501) ||
          (s.winRange f a n).any (fun p => (s.pflagOf p).pending), stBusy)] (fun s =>
      let s := (s.winRange f a n).foldl (fun (s : State) p => s.onPflag p (fun g => { g with pending := true, newFlag := v })) s
      { s with thm := { s.thm with long := s.thm.long ++ [{ req := r, fn := f, first := a, pages := n }] } })))

/-- End a transition: its pages take a flag, or keep theirs, and it replies. -/
def State.endTransition (s : State) (l : Long) (done : Bool) : State :=
  let s := (s.winRange l.fn l.first l.pages).foldl (fun (s : State) p => s.onPflag p (fun g =>
    { g with flag := if done then g.newFlag else g.flag, pending := false, newFlag := 0 })) s
  let s := { s with thm := { s.thm with long := s.thm.long.filter (fun k => k ≠ l) } }
  s.reply l.req (if done then stOk else stBusy) []

/-- Thimble works: powered and in no safe state. -/
def State.thmRuns (s : State) : Bool := s.boot.pgood && s.fatal.cause = 0

/-- Steps 3 and 4 of R325: a transition whose earlier operations have ended takes its new flag. -/
def execWinTransitionComplete (f : FnId) (s : State) : Host.Outcome State Fault Refusal :=
  .next (
    let busy := s.heldPages f
    match s.thm.long.find? (fun l => l.fn = f.val && l.req.cmd = 0x0501 &&
        (s.winRange f l.first l.pages).all (fun p => !busy.contains p)) with
    | some l => if s.thmRuns then s.endTransition l true else s
    | none => s)

/-- 1,000 µs without step 3 (R325): the oldest transition of the function reverts; the limit pauses under a tack
(R506). -/
def execWinTransitionTimeout (f : FnId) (s : State) : Host.Outcome State Fault Refusal :=
  .next (match s.thm.long.find? (fun l => l.fn = f.val && l.req.cmd = 0x0501) with
    | some l => if s.thmRuns && !s.tacked then s.endTransition l false else s
    | none => s)

/-- Pack 2-bit codes, the first in bits [7:6]. -/
def pack2 (l : List Nat) : List Byte :=
  (List.range ((l.length + 3) / 4)).map (fun i =>
    BitVec.ofNat 8 (l.getD (4 * i) 0 % 4 * 64 + l.getD (4 * i + 1) 0 % 4 * 16 + l.getD (4 * i + 2) 0 % 4 * 4 + l.getD (4 * i + 3) 0 % 4))

/-- WIN_QUERY: 2 bits a page, PENDING as 0b11. -/
def execWinQuery (s : State) : Host.Outcome State Fault Refusal :=
  .next (s.command 0x0502 (fun s r =>
    let a := beAt r.payload 0 4
    let n := beAt r.payload 4 2
    s.judge r [(!payOk r.payload [(0, 4), (4, 2)] || n < 1 || n > 896 || !s.inWindow r.fn a n, stBadArg),
        ((s.winRange r.fn a n).any s.pageRetired, stFaulted)] (fun s =>
      s.reply r stOk (pack2 ((s.winRange r.fn a n).map (fun p => let g := s.pflagOf p; if g.pending then 3 else g.flag))))))

end Sys2Proof.Machine
end

