-- ==== Sys2Proof/Machine/Loads.lean ====
section
/-! DEFINITION. Loading tile programs, core images and patterns, and the end of a long command (R135, R221, R341, R345,
R337). -/

namespace Sys2Proof.Machine

/-- A tile program image whose header keeps every limit of Table 4.11. DEDUCED (log 139): its reserved bytes ("reads 0; write
0") are among the limits. -/
def Image.parse (bs : List Byte) : Option Image :=
  let g := fun (o n : Nat) => leVal ((bs.drop o).take n)
  let code := g 8 4
  let entry := g 12 4
  let data := g 16 4
  let addr := g 20 4
  if bs.length ≥ 64 && g 0 4 = 0x50544B4C && g 4 2 = 1 && g 6 2 = 0 && code % 4 = 0 && 4 ≤ code && code ≤ 262144 &&
      entry % 4 = 0 && entry < code && data ≤ 6291456 && addr % 64 = 0 && addr + data ≤ 0x600000 && g 24 40 = 0 &&
      bs.length = 64 + code + data then
    some { entry := entry, code := (bs.drop 64).take code, data := bs.drop (64 + code), dataAddr := addr, digest := sha256v bs }
  else none

/-- A program is loaded into a tile (R135, R134): it enters LOADED and its launch arguments are released. -/
def State.loadImage (s : State) (t : Nat) (i : Image) : State :=
  (s.seqGoto t .loaded).onTile t (fun x => { x with image := some i, argsHeld := false })

/-- The virtual tiles of an 80-bit mask. -/
def maskBits (m : Nat) : List Nat := (List.range 80).filter (fun v => m.testBit v)

/-- TILE_LOAD: the image is read and checked before anything is loaded. -/
def execTileLoad (s : State) : Host.Outcome State Fault Refusal :=
  .next (s.command 0x0601 (fun s r =>
    let p := r.payload
    let f := r.fn
    let vs := maskBits (beMask p 0 10)
    let ts := vs.map (s.vtile f)
    let (s, img) := s.readImage f (beAt p 16 8) (beAt p 24 4) ((p.drop 32).take 32)
    let img := img.bind Image.parse
    s.judge r [(!payOk p [(0, 10), (16, 8), (24, 4), (32, 32)] || ts.any Option.isNone || img.isNone, stBadArg),
        (ts.any s.tileRetired, stFaulted), (s.busyFor f, stBusy)] (fun s =>
      (match img with
        | some i => (ts.filterMap id).foldl (fun (s : State) t => s.loadImage t i) s
        | none => s).holdLong r f stOk [])))

/-- The local cores of a mask, as physical cores; none for a bit at or beyond the function's cores. -/
def State.localCores (s : State) (f m : Nat) : List (Option Nat) :=
  ((List.range 32).filter (fun i => m.testBit i)).map (fun i => (s.coresOf f)[i]?)

/-- HCORE_LOAD (R341, R345): the image goes to DEST, on HOST pages of the window, and its cores start at ENTRY. -/
def execHcoreLoad (s : State) : Host.Outcome State Fault Refusal :=
  .next (s.command 0x0602 (fun s r =>
    let p := r.payload
    let f := r.fn
    let cs := s.localCores f (beMask p 0 4)
    let n := beAt p 16 4
    let dest := beAt p 24 8
    let ps := s.pieces f none (n / 65536 + 2) dest n
    let pgs := (ps.getD []).map (fun q => (q.1, q.2.1 / 65536))
    s.judge r [(s.fuses.part = 3, stUnsupported)] (fun s =>
      let (s, img) := s.readImage f (beAt p 8 8) n ((p.drop 40).take 32)
      s.judge r [(!payOk p [(0, 4), (8, 8), (16, 4), (24, 8), (32, 8), (40, 32)] || cs.any Option.isNone || ps.isNone ||
          pgs.any (fun q => !(s.pflagOf q).thimble true) || img.isNone, stBadArg),
        (pgs.any s.pageRetired || (cs.filterMap id).any (fun c => s.flash.withheldCores.contains c), stFaulted),
        (s.busyFor f, stBusy)] (fun s =>
      let s := s.writePieces (ps.getD []) (img.getD []) false
      ((cs.filterMap id).foldl (fun (s : State) c => s.onCore c (fun x =>
        { x with entry := some (BitVec.ofNat 64 (beAt p 32 8)), digest := sha256v (img.getD []) })) s).holdLong r f stOk []))))

/-- Bytes of the pattern RAM that a function's patterns take in each of its tiles. -/
def Fn.patUsed (x : Fn) : Nat :=
  x.patterns.foldl (fun n e => n + (match e.2 with
    | some p => p.image.length
    | none => 0)) 0

/-- Change the pattern in a slot of a function and of every tile it owns (R221). -/
def State.setPattern (s : State) (f slot : Nat) (p : Option PatSlot) : State :=
  (s.tilesOf f).foldl (fun (s : State) t => s.onTile t (fun x => { x with patterns := x.patterns.set none slot p }))
    (s.onFn f (fun x => { x with patterns := x.patterns.set none slot p }))

/-- PATTERN_LOAD (R220 to R223): 256 KiB of pattern RAM and 64 slots in each tile. -/
def execPatternLoad (s : State) : Host.Outcome State Fault Refusal :=
  .next (s.command 0x0603 (fun s r =>
    let p := r.payload
    let f := beAt p 0 2
    let slot := beAt p 2 1
    s.judge r [(r.notOperator, stDenied), (s.fuses.part = 3, stUnsupported), (f < 1024 && (s.fn f).st = .free, stStopped),
        (!payOk p [(0, 2), (2, 1), (8, 8), (16, 4), (24, 32)] || f ≥ 1024 || slot > 63, stBadArg)] (fun s =>
      let (s, img) := s.readImage f (beAt p 8 8) (beAt p 16 4) ((p.drop 24).take 32)
      let pat := img.bind (fun b => (Pattern.parse b).map (fun q => (b, q)))
      s.judge r [(pat.isNone, stBadArg), (s.busyFor f, stBusy),
          (((s.fn f).patterns.get none slot).isSome || (s.fn f).patUsed + (img.getD []).length > 262144, stNoResource)] (fun s =>
        match pat with
        | some (b, q) =>
          let rep := q.report b
          (s.setPattern f slot (some { image := b, report := rep.1, monotone := rep.2 })).holdLong r f stOk rep.1
        | none => s))))

/-- PATTERN_UNLOAD (R221). -/
def execPatternUnload (s : State) : Host.Outcome State Fault Refusal :=
  .next (s.command 0x0604 (fun s r =>
    let f := beAt r.payload 0 2
    let slot := beAt r.payload 2 1
    s.judge r [(r.notOperator, stDenied), (s.fuses.part = 3, stUnsupported), (f < 1024 && (s.fn f).st = .free, stStopped),
        (!payOk r.payload [(0, 2), (2, 1)] || f ≥ 1024 || slot > 63, stBadArg), (s.busyFor f, stBusy)] (fun s =>
      (s.setPattern f slot none).reply r stOk [])))

/-- PATTERN_QUERY (R223). -/
def execPatternQuery (s : State) : Host.Outcome State Fault Refusal :=
  .next (s.command 0x0605 (fun s r =>
    let slot := beAt r.payload 0 1
    let pat := (s.fn r.fn).patterns.get none slot
    s.judge r [(s.fuses.part = 3, stUnsupported), (!payOk r.payload [(0, 1)] || slot > 63 || pat.isNone, stBadArg)] (fun s =>
      s.reply r stOk ((pat.map (·.report)).getD []))))

/-- A long load, stage or quote command of a function sends its reply and ends (R337). -/
def execLongCommandComplete (f : FnId) (s : State) : Host.Outcome State Fault Refusal :=
  .next (if s.thmRuns then
      match takeFirst (fun l => l.fn = f.val && l.result.isSome) s.thm.long with
      | some (l, rest) =>
        let x := l.result.getD (stOk, [])
        { s with thm := { s.thm with long := rest } }.reply l.req x.1 x.2
      | none => s
    else s)

end Sys2Proof.Machine
end

