-- ==== Sys2Proof/Machine/Observe.lean ====
section
/-! DEFINITION. Counters, snapshots, event subscriptions, event rings and traces (R492 to R500). -/

namespace Sys2Proof.Machine

/-- The event numbers and SUB values of Table 18.1. -/
def ctrKnown (b : Blk) (ev sub : Nat) : Bool :=
  let rng := fun (lo hi : Nat) => decide (lo ≤ sub) && decide (sub ≤ hi)
  let fn := sfuOpOk sub
  let fmts := (Fmt.ofCode (sub / 16)).isSome && (Fmt.ofCode (sub % 16)).isSome
  match b, ev with
  | .tseq, 1 => rng 0 0 | .tseq, 2 => rng 1 4 | .tseq, 3 => rng 0 5
  | .dma, 1 => rng 0 5
  | .opa, 1 => rng 0 0 | .opa, 2 => fmts | .opa, 3 => rng 1 4 | .opa, 4 => rng 0 7 | .opa, 5 => rng 0 7 | .opa, 6 => rng 0 0
  | .sel, 1 => rng 0 3 || rng 0x80 0x83 | .sel, 2 => rng 0 0 || rng 0x80 0x80
  | .ve, 1 => (veUse sub).isSome | .ve, 2 => rng 1 5 | .ve, 3 => rng 0 3 | .ve, 4 => rng 0 1 | .ve, 5 => rng 0 1
  | .sfu, 1 => fn | .sfu, 2 => fn | .sfu, 3 => fn | .sfu, 4 => rng 1 5
  | .gus, 1 => rng 0 4 | .gus, 2 => rng 0 0 | .gus, 3 => rng 0 0 | .gus, 4 => rng 0 0 | .gus, 5 => rng 0 0
  | .pw, 1 => rng 0 0 | .pw, 2 => rng 0 0 | .pw, 3 => rng 0 0 | .pw, 4 => rng 0 11 | .pw, 5 => rng 0 0 | .pw, 6 => rng 1 5
  | .slb, 1 => rng 0 0 | .slb, 2 => rng 0 0 | .slb, 3 => rng 0 0 | .slb, 4 => rng 0 0 | .slb, 5 => rng 0 3
  | .dsp, 1 => rng 0 6 | .dsp, 2 => rng 0 0
  | .win, 1 => rng 0x61 0x63 | .win, 2 => rng 0 1
  | .coll, 1 => rng 0 3 | .coll, 2 => rng 0 0 | .coll, 3 => rng 3 7 | .coll, 4 => rng 0 0 | .coll, 5 => rng 0 0
  | .trc, 1 => rng 0 0 | .trc, 2 => rng 0 1 | .trc, 3 => rng 0 0
  | .mesh, 1 => rng 0 3 | .mesh, 2 => rng 0 0
  | .lnk, 1 => rng 0 5 || rng 0x80 0x85 | .lnk, 2 => rng 0 0 | .lnk, 3 => rng 1 6 | .lnk, 4 => rng 0 1
  | .eth, 1 => rng 0 1 | .eth, 2 => rng 1 8 | .eth, 3 => rng 0 1
  | .stch, 1 => rng 0 0 | .stch, 2 => rng 0 2
  | .pwr, 1 => rng 0 6 | .pwr, 2 => rng 0 8
  | .thm, 1 => rng 0 0 | .thm, 2 => rng 0 7
  | _, _ => false

/-- The counters of MESH, LNK, ETH, STCH, PWR, TIME and THM belong to function 0 (R492). -/
def Blk.packageWide : Blk → Bool
  | .mesh | .lnk | .eth | .stch | .pwr | .time | .thm => true
  | _ => false

/-- The number of instances of a block that is not per tile (R493). -/
def Blk.insts : Blk → Nat
  | .mesh => 80 | .lnk => 20 | .pwr => 20 | .dsp => 4 | .coll => 4 | _ => 1

/-- Every counter of the package, the durations of the PWR block in µs among them (R492). -/
def State.allCtrs (s : State) : SMap Nat :=
  (s.pwr.accrue s.timeNs).domDur.foldl (fun (m : SMap Nat) e =>
    let n := e.1 % 32
    m.set 0 (ctrKey .pwr (e.1 / 32) (if n < 16 then 1 else 2) (n % 16) 0) (e.2 / 1000 % 2 ^ 48)) s.ctrs

/-- The sum of the counters that an identifier of a function names: `inst` none sums every instance it may read. -/
def State.ctrSum (s : State) (ctrs : SMap Nat) (b : Blk) (f : Nat) (inst : Option Nat) (ev sub : Nat) : Nat :=
  (ctrs.foldl (fun (n : Nat) e =>
    let i := e.1 / 2 ^ 26 % 1024
    let mine := e.1 % 1024 = f && e.1 / 2 ^ 36 = b.code && e.1 / 2 ^ 18 % 256 = ev && (sub = 0xFF || e.1 / 2 ^ 10 % 256 = sub)
    let here := match inst with
      | some k => i = k
      | none => !b.perTile || (s.tile i).owner = some f || b = .slb
    if mine && here then n + e.2 else n) 0) % 2 ^ 48

/-- The instance that an identifier names; `some none` sums, `none` where it names none of the function's. -/
def State.ctrInst (s : State) (b : Blk) (f inst : Nat) : Option (Option Nat) :=
  if inst = 0xFF then some none
  else if b.perTile then (s.vtile f inst).map some
  else if inst < b.insts then some (some inst) else none

/-- The block, instance, event and sub-event of a counter identifier (Table 18.1). -/
def idBlk (v : Nat) : Option Blk := Blk.ofCode (v / 2 ^ 24)
def idInst (v : Nat) : Nat := v / 2 ^ 16 % 256
def idEv (v : Nat) : Nat := v / 2 ^ 8 % 256

/-- A counter identifier names a counter that a function may read. -/
def State.idOk (s : State) (f v : Nat) : Bool :=
  match idBlk v with
  | some b => (f = 0 || !b.packageWide) && (s.ctrInst b f (idInst v)).isSome &&
      (if v % 256 = 0xFF then (List.range 255).any (fun u => ctrKnown b (idEv v) u) else ctrKnown b (idEv v) (v % 256))
  | none => false

/-- A counter identifier names a port that the part lacks, or a retired tile. -/
def State.idAbsent (s : State) (v : Nat) : Bool := idBlk v = some .lnk && idInst v < 20 && s.portAbsent (idInst v)
def State.idRetired (s : State) (f v : Nat) : Bool :=
  match idBlk v with
  | some b => b.perTile && idInst v ≠ 0xFF && s.tileRetired (s.vtile f (idInst v))
  | none => false

/-- Counters of Table 18.1 that count waiting steps, or bytes that transfers inside the package move: no command carries
them, and their value is free. -/
def ctrOpen (b : Blk) (ev : Nat) : Bool :=
  match b, ev with
  | .tseq, 2 | .opa, 3 | .opa, 4 | .opa, 5 | .slb, 5 | .mesh, 1 => true
  | _, _ => false

/-- The value of a counter identifier in a reading. -/
def State.idValue (s : State) (x : Snap) (f v : Nat) : Nat :=
  match idBlk v with
  | some b => if ctrOpen b (idEv v) then (Config.openCount x.key f v).toNat
    else s.ctrSum x.ctrs b f ((s.ctrInst b f (idInst v)).getD none) (idEv v) (v % 256)
  | none => 0

/-- A reading of every counter now. -/
def State.reading (s : State) : Snap := { time := s.timeNs, ctrs := s.allCtrs, key := s.freeCtr }

/-- COUNTERS_READ (R493, R494). -/
def execCountersRead (s : State) : Host.Outcome State Fault Refusal :=
  .next (s.command 0x0901 (fun s r =>
    let p := r.payload
    let f := r.fn
    let snap := beAt p 0 1
    let n := beAt p 1 1
    let ids := (List.range n).map (fun i => beAt p (4 + 4 * i) 4)
    s.judge r [(ids.any s.idAbsent, stUnsupported),
        (!payOk p [(0, 1), (1, 1), (4, 4 * n)] || snap > 2 || n < 1 || n > 27 || !ids.all (s.idOk f) || (snap = 2 && s.snap.isNone),
          stBadArg),
        (ids.any (s.idRetired f), stFaulted)] (fun s =>
      let x := s.reading
      let s := if snap = 2 then s else { s with freeCtr := s.freeCtr + 1 }
      let s := if snap = 1 then { s with snap := some x } else s
      let src := if snap = 2 then s.snap.getD x else x
      s.reply r stOk (beBytes 8 src.time ++ ids.flatMap (fun v => beBytes 8 (s.idValue src f v))))))

/-- EVENT_SUBSCRIBE (R338): PORT and ADDR both zero clear the destination. -/
def execEventSubscribe (s : State) : Host.Outcome State Fault Refusal :=
  .next (s.command 0x0902 (fun s r =>
    let p := r.payload
    let d := beAt p 0 1
    let port := beAt p 2 2
    let ip := beAt p 4 16
    let v : Option UdpAddr := if port = 0 ∧ ip = 0 then none else some { ip := BitVec.ofNat 128 ip, port := BitVec.ofNat 16 port }
    s.judge r [(!payOk p [(0, 1), (2, 2), (4, 16)] || d > 1, stBadArg), (s.tacked, stBusy)] (fun s =>
      (s.onFn r.fn (fun x => if d = 0 then { x with sub0 := v } else { x with sub1 := v })).reply r stOk [])))

/-- The fields of an event's payload by its kind (Table 18.3): their widths in bytes. -/
def eventWidths : Nat → List Nat
  | 1 => [4, 4, 1, 1] | 2 => [8, 2] | 3 => [1, 3, 3, 3] | 4 => [1, 1, 8] | 5 => [8, 2] | 6 => [1, 1, 8] | 7 => [1, 1, 8]
  | 0xFF => [4, 6] | _ => [10]

/-- A number of consecutive little-endian fields as bytes, each field in the order that `put` gives. -/
def fieldBytes (put : Nat → Nat → List Byte) : List Nat → Nat → List Byte
  | [], _ => []
  | w :: ws, v => put w (v % 256 ^ w) ++ fieldBytes put ws (v / 256 ^ w)

/-- An event record of 32 bytes (Table 18.2) with an instance number: little-endian in memory (R9), in network byte order
in a message (R331). -/
def EvRec.bytes (r : EvRec) (put : Nat → Nat → List Byte) (inst : Nat) : List Byte :=
  put 8 r.time ++ put 6 r.steps.toNat ++ put 2 r.seq ++ put 1 r.block ++ put 1 inst ++ put 1 r.kind ++
    put 1 (bit r.resync 0 + bit r.inj 1 + bit r.tacked 2) ++
    put 2 (match r.fn with
      | some f => f + 2 ^ 15
      | none => 0) ++
    fieldBytes put (eventWidths r.kind) r.payload

/-- INSTANCE of a record as a reader sees it (R493, R497): a tenant's tile by its virtual number. -/
def State.evInst (s : State) (f : Nat) (r : EvRec) : Nat :=
  match Blk.ofCode r.block with
  | some b => if b.perTile ∧ f ≠ 0 then s.vtOf f r.inst else r.inst
  | none => r.inst

/-- Blocks with a package ring (R496). -/
def Blk.hasRing : Blk → Bool
  | .lnk | .eth | .stch | .pwr | .time | .thm | .dsp | .win | .coll | .trc => true
  | _ => false

/-- EVENTS_READ (R497): the operator names a tile by its physical number, a tenant by its virtual one. -/
def execEventsRead (s : State) : Host.Outcome State Fault Refusal :=
  .next (s.command 0x0903 (fun s r =>
    let p := r.payload
    let vt := beAt p 0 1
    let blk := beAt p 1 1
    let first := beAt p 2 2
    let n := beAt p 4 1
    let tile := if vt = 0xFF then none else if r.fn = 0 then (if vt < 80 then some vt else none) else s.vtile r.fn vt
    let pkg := match Blk.ofCode blk with
      | some b => b.hasRing
      | none => false
    let bad := if vt = 0xFF then !pkg else tile.isNone || blk > 22
    s.judge r [(!payOk p [(0, 1), (1, 1), (2, 2), (4, 1)] || n < 1 || n > 7 || bad, stBadArg)] (fun s =>
      let key := match tile with
        | some t => t
        | none => 256 + blk
      let recs := ((s.evrings.get {} key).recs.dropWhile (fun e => (e.seq + 65536 - first) % 65536 ≥ 2 ^ 15)).filter
        (fun e => (blk = 0 || e.block = blk) && e.readable r.fn)
      s.reply r stOk ((recs.take n).flatMap (fun e => e.bytes beBytes (s.evInst r.fn e))))))

/-- Count the records that a trace writes (Table 18.1): written, and gap records among them. -/
def State.countTrace (s : State) (f : Nat) (rs : List EvRec) : State :=
  (s.count .trc 0 1 0 f rs.length).count .trc 0 3 0 f (rs.filter (fun r => r.kind = 0xFF)).length

/-- A write of a trace to its slab buffer, device-side; answers whether it was refused (R500). -/
def State.traceWrite (s : State) (f a : Nat) (bs : List Byte) : State × Bool :=
  match s.slabCheck f none a bs.length true false with
  | .ok ps => (s.writePieces ps bs false, false)
  | _ => (s, true)

/-- Write one waiting record of a slab trace (R499); a refused one is dropped and counted. -/
def State.traceRecord (s : State) (f : Nat) (r : EvRec) : State :=
  let x := (s.fn f).trace
  let at' := x.buf + 64 + 32 * (x.written % ((x.bytes - 64) / 32))
  match s.traceWrite f at' (r.bytes toLe (s.evInst f r)) with
  | (s, false) => (s.onFn f (fun g => { g with trace := { g.trace with written := g.trace.written + 1 } })).countTrace f [r]
  | (s, true) => (s.raise .trc 0 2 {}).count .trc 0 2 1 f 1

/-- The datagrams of an Ethernet trace: up to 256 records each, with the header of R499 (fuel: records). -/
def State.traceGrams (s : State) (f : Nat) : Nat → List EvRec → State
  | 0, _ => s
  | k + 1, rs =>
    if rs.isEmpty then s
    else
      let x := (s.fn f).trace
      let now := rs.take 256
      let m := beBytes 2 f ++ [0, 0] ++ beBytes 4 now.length ++ beBytes 8 (x.seq + 1) ++ now.flatMap (fun r => r.bytes toLe (s.evInst f r))
      let s := s.onFn f (fun g => { g with trace := { g.trace with seq := x.seq + 1, written := x.written + now.length } })
      let s := { s with eth := { s.eth with datagrams := s.eth.datagrams ++ [(UdpAddr.mk x.ip x.port, m)] } }
      ((s.count .eth 0 1 0 0 1).countTrace f now).traceGrams f k (rs.drop 256)

/-- Write the records that wait in a trace (R499): none while a tack holds (R500), and none to Ethernet without a link or under a
pause. -/
def State.traceFlush (s : State) (f : Nat) : State :=
  let x := (s.fn f).trace
  let rs := x.waiting
  if !x.en || rs.isEmpty || s.tacked || !(s.boot.pgood && s.fatal.cause = 0) || (x.dest = 1 && !s.ethGo s.eth.netrec.mgmtPcp) then s
  else
    let s := s.onFn f (fun g => { g with trace := { g.trace with waiting := [] } })
    if x.dest = 1 then s.traceGrams f rs.length rs
    else
      let s := rs.foldl (fun (s : State) r => s.traceRecord f r) s
      match s.traceWrite f x.buf (toLe 8 (s.fn f).trace.written) with
      | (s, false) => s
      | (s, true) => s.raise .trc 0 2 {}

/-- At least every 100 µs the records of a trace are written (R499). -/
def execTraceFlush (f : FnId) (s : State) : Host.Outcome State Fault Refusal := .next (s.traceFlush f)

/-- TRACE_CFG (R498, Table 18.4): the buffer is checked where the trace is on. -/
def execTraceCfg (s : State) : Host.Outcome State Fault Refusal :=
  .next (s.command 0x0904 (fun s r =>
    let p := r.payload
    let f := r.fn
    let fl := beAt p 0 1 % 4
    let en := fl % 2 = 1
    let dest := fl / 2 % 2
    let cap := beAt p 1 1
    let blocks := beAt p 4 4
    let buf := beAt p 8 8
    let n := beAt p 16 4
    let on := beAt p 40 4
    let badBuf := en && dest = 0 && (buf % 64 ≠ 0 || n % 64 ≠ 0 || n < 4096 || n > 2 ^ 31 ||
      !(s.slabCheck f none buf n true false).isOk)
    s.judge r [(!payOk p [(0, 1), (1, 1), (4, 4), (8, 8), (16, 4), (20, 2), (24, 16), (40, 4)] || cap > 100 ||
          blocks % 2 = 1 || blocks ≥ 2 ^ 23 || badBuf || (if f = 0 then on % 2 = 1 || on ≥ 2 ^ 23 else on ≠ 0), stBadArg),
        (s.tacked, stBusy)] (fun s =>
      let s := s.traceFlush f
      let s := s.onFn f (fun x => { x with trace :=
        { en := en, dest := dest, cap := if cap = 0 then 20 else cap, blocks := BitVec.ofNat 32 blocks, buf := buf, bytes := n,
          ip := BitVec.ofNat 128 (beAt p 24 16), port := BitVec.ofNat 16 (beAt p 20 2), seq := x.trace.seq, bucketTime := s.timeNs } })
      (if f = 0 then { s with trc := { s.trc with tackOn := BitVec.ofNat 32 on } } else s).reply r stOk [])))

end Sys2Proof.Machine
end

