-- ==== Sys2Proof/Machine/Registers.lean ====
section
/-! DEFINITION. Writes of registers by address (R12, Table 0.5): each field acts by its access code. -/

namespace Sys2Proof.Machine

/-- A field of a written value. -/
def wfld (v : BitVec 192) (o n : Nat) : Nat := v.toNat / 2 ^ o % 2 ^ n

/-- A w1c write of a block's status register. -/
def State.clearStat (s : State) (b i : Nat) (v : BitVec 192) : State :=
  match Blk.ofCode b with
  | some blk => s.setStat blk i (s.stat blk i &&& ~~~(BitVec.ofNat 32 (wfld v 0 32)))
  | none => s

/-- The slab registers (Tables 10.5 to 10.7 and 10.10). -/
def Slab.writeExt (b : Slab) (v : BitVec 192) : Slab :=
  { b with ext := { basePage := wfld v 0 17, pages := wfld v 17 18, fn := wfld v 35 10, valid := wfld v 45 1 = 1 } }

def Slab.writeSpread (b : Slab) (set : Nat) (v : BitVec 192) : Slab :=
  { b with spread := b.spread.set {} set { members := BitVec.ofNat 80 (wfld v 0 80), basePage := wfld v 80 17, granules := wfld v 97 18,
                                           valid := wfld v 115 1 = 1 } }

def Slab.writeScrub (b : Slab) (v : BitVec 192) : Slab :=
  { b with scrubPeriod := BitVec.ofNat 8 (wfld v 0 8), scrubEnable := wfld v 8 1 = 1 }

def Slab.writeRetire (b : Slab) (n : Nat) (v : BitVec 192) : Slab :=
  { b with retire := b.retire.set {} n { page := wfld v 0 17, valid := wfld v 17 1 = 1, retired := wfld v 18 1 = 1 } }

/-- WIN_PFLAG (Table 11.17): PENDING is updated by hardware only. -/
def Slab.writePflag (b : Slab) (page : Nat) (v : BitVec 192) : Slab :=
  { b with pflag := b.pflag.modify {} page (fun p => { p with flag := wfld v 0 2, inWin := wfld v 2 1 = 1 }) }

/-- FN_CFG and WIN_CFG (Tables 11.12 and 11.18). -/
def Fn.writeCfg (x : Fn) (v : BitVec 192) : Fn :=
  { x with drainLimit := wfld v 0 14, fenceBase := wfld v 14 14, fences := wfld v 28 15 }

def Fn.writeWin (x : Fn) (v : BitVec 192) : Fn :=
  { x with winSet := wfld v 0 5, winPages := wfld v 5 21, winValid := wfld v 26 1 = 1 }

/-- RING_CFG (Table 11.13). -/
def Ring.writeCfg (x : Ring) (v : BitVec 192) : Ring :=
  { x with base := BitVec.ofNat 64 (wfld v 0 62), doneAddr := BitVec.ofNat 64 (wfld v 64 62), sizeLog2 := wfld v 128 5,
           fn := wfld v 133 10, valid := wfld v 143 1 = 1, group := wfld v 144 1 = 1 }

/-- LNK_SYS (Table 14.7): the sizes stay 1 on a TVX-LK4E (R389), and USE follows R410. -/
def State.writeLnkSys (s : State) (v : BitVec 192) : State :=
  let k := if s.fuses.part = 3 then 0 else 1
  { s with fab := { s.fab with xsM1 := k * wfld v 0 3, ysM1 := k * wfld v 3 3, zsM1 := k * wfld v 6 2 } }.writeUse
    (BitVec.ofNat 20 (wfld v 8 20))

/-- A write of one register: rh and r fields keep their value, w1c bits written 1 are cleared, rw fields take the value. -/
def State.writeReg (s : State) (r : Reg) (v : BitVec 192) : State :=
  match r with
  | .errStat b i => (match Blk.ofCode b with
    | some blk => s.clearErr blk i (BitVec.ofNat 32 (wfld v 0 32))
    | none => s)
  | .errCtl b i => (match Blk.ofCode b with
    | some blk => s.writeErrCtl blk i (wfld v 0 32)
    | none => s)
  | .stat b i => s.clearStat b i v
  | .opaCtl t => s.onTile t (fun x => { x with forceQueued := wfld v 0 1 = 1 })
  | .slbExt t => s.onSlab t (fun b => b.writeExt v)
  | .slbSpread t n => s.onSlab t (fun b => b.writeSpread n v)
  | .slbScrub t => s.onSlab t (fun b => b.writeScrub v)
  | .slbRetire t n => s.onSlab t (fun b => b.writeRetire n v)
  | .fnCfg f => s.onFn f (fun x => x.writeCfg v)
  | .ringCfg n => s.onRing n (fun x => x.writeCfg v)
  | .ringTail n => (s.doorbell n (BitVec.ofNat 32 (wfld v 0 32))).1
  | .ringStat n => s.onRing n (fun x => { x with refused := x.refused && wfld v 0 1 = 0 })
  | .dspFence n => s.setFence n (BitVec.ofNat 64 (wfld v 0 64))
  | .winPflag t p => if p < s.slabPages then s.onSlab t (fun b => b.writePflag p v) else s
  | .winCfg f => s.onFn f (fun x => x.writeWin v)
  | .lnkSys => s.writeLnkSys v
  | .lnkRoute n => { s with fab := { s.fab with routes := s.fab.routes.set 0 n (routeImage v.toNat) } }
  | .trcTackOn => { s with trc := { s.trc with tackOn := BitVec.ofNat 32 (wfld v 1 22 * 2) } }
  | .coreWatch c w => (match (s.core c).fn with
    | some f => s.writeWatch f c w (wfld v 0 128)
    | none => s)
  | .mbCtl c => s.writeMbCtl c (wfld v 0 32)
  | .errFirst _ _ | .errCount _ _ | .opaHeld _ _ | .sfuPatLoaded _ | .sfuPatMono _ | .slbCorrLast _ | .fnState _ | .ringPtr _
  | .lnkStat _ | .pwrVtab _ _ | .pwrDom _ | .pwrLim _ | .pwrSlow | .meshLink _ | .thmFatal | .thmFatalTime | .thmBoot | .trcTack
  | .trcTackTime | .jtagIdcode => s

/-- The registers that only Thimble writes, and only to carry out a Skelist command or a rule (R328). -/
def thimbleOnly : Reg → Bool
  | .fnState _ | .fnCfg _ | .slbExt _ | .slbSpread _ _ | .ringCfg _ | .winCfg _ | .winPflag _ _ => true
  | _ => false

/-- REGISTER_WRITE (R12): the safe state blocks every write (R484). A write through Thimble's register access leaves the
registers of R328 alone; one over JTAG, a path that no key governs, reaches every register (R544, Table 11.12). -/
def execRegisterWrite (r : RegTarget) (value : BitVec 192) (s : State) : Host.Outcome State Fault Refusal :=
  .next (if s.regWrites && !(r.path = .thimble && thimbleOnly r.reg) then s.writeReg r.reg value else s)

end Sys2Proof.Machine
end

