-- ==== Sys2Proof/Machine/Stitch.lean ====
section
/-! DEFINITION. The stitch chain: characters, frames, enumeration, addresses and board events (spec/13, R377 to R385). -/

namespace Sys2Proof.Machine

/-- The chain logic runs once V3P3 is in range (Table 19.2 order 1), the safe state included (R380). -/
def State.chainRuns (s : State) : Bool := s.boot.v3p3

/-- A chain frame that fails its check is dropped and counted by its cause (R379). -/
def State.chainDrop (s : State) (cause : Nat) : State := (s.raise .stch 0 (2 ^ cause) {}).count .stch 0 2 cause 0 1

/-- Send a frame on with HOPS + 1, its CRC recomputed (R380). -/
def State.chainForward (s : State) (b : List Byte) : State :=
  let b := b.take 3 ++ beBytes 1 (min 255 (beAt b 3 1 + 1)) ++ b.drop 4
  ({ s with stch := { s.stch with out := s.stch.out ++ [b ++ chainCrc b] } }).count .stch 0 1 0 0 1

/-- STCH_FRAME_RECEIVE (R379, R380): a frame from TYPE to its CRC. One that is for this package, or for every package, is
taken; ENUM is sent on by its own effect. -/
def execStchFrameReceive (frame : List Byte) (codingOk : Bool) (s : State) : Host.Outcome State Fault Refusal :=
  .next (if !s.chainRuns then s
    else
      let len := beAt frame 4 2
      let b := frame.take (6 + len)
      if !codingOk || len > 256 || frame.length ≠ 8 + len then s.chainDrop 1
      else if chainCrc b ≠ frame.drop (6 + len) then s.chainDrop 0
      else
        let dest := beAt b 1 1
        let all := dest = 0xFF
        let own := dest = s.stch.index && dest < 0xFE
        let type := beAt b 0 1
        let s := if (all || own) && 1 ≤ type && type ≤ 6 then { s with stch := { s.stch with inbox := s.stch.inbox ++ [b] } } else s
        if own || (all && type = 1 && len = 1) then s else s.chainForward b)

/-- Take the first frame that waits and that a predicate selects. -/
def State.takeFrame (s : State) (ok : List Byte → Bool) (f : State → List Byte → State) : State :=
  if s.chainRuns then
    match takeFirst ok s.stch.inbox with
    | some (b, rest) => f { s with stch := { s.stch with inbox := rest } } b
    | none => s
  else s

/-- The payload of a frame. -/
def chainPayload (b : List Byte) : List Byte := b.drop 6

/-- Reply to a chain frame, downstream to the controller (R380). -/
def State.chainReply (s : State) (type : Nat) (payload : List Byte) : State := s.chainOwn (type + 0x80) 0xFE payload

/-- ENUM (R381). -/
def execEnumFrame (s : State) : Host.Outcome State Fault Refusal :=
  .next (s.takeFrame (fun b => beAt b 0 1 = 1) (fun s b =>
    let p := chainPayload b
    if p.length ≠ 1 then s
    else
      let next := beAt p 0 1
      ({ s with stch := { s.stch with index := next } }).chainForward (b.take 6 ++ beBytes 1 (min 254 (next + 1)))))

/-- Thimble serves SETADDR: firmware runs, out of the safe state and not halted (Table 19.2). -/
def State.chainServes (s : State) : Bool := s.boot.pgood && 5 ≤ s.boot.order && s.boot.fail = 0 && s.fatal.cause = 0

/-- SETADDR (R382): BUSY while a function other than a default service's runs; a locked tag area takes effect without being
stored. -/
def execSetaddr (s : State) : Host.Outcome State Fault Refusal :=
  .next (s.takeFrame (fun b => beAt b 0 1 = 2) (fun s b =>
    let p := chainPayload b
    let v := beAt p 0 2
    if !s.chainServes then s.chainReply 2 [1]
    else if p.length ≠ 2 then s.chainReply 2 [3]
    else if !s.noneRunning then s.chainReply 2 [1]
    else
      let s := { s with fab := { s.fab with addr := some (v % 2 ^ 14) } }
      if !tb v 15 then s.chainReply 2 [0]
      else if s.flash.locked then s.chainReply 2 [2]
      else ({ s with flash := s.flash.tagWrite 24 (toLe 2 (v % 2 ^ 14 + 2 ^ 15)) }).chainReply 2 [0]))

/-- PING (Table 13.6). -/
def execPing (s : State) : Host.Outcome State Fault Refusal :=
  .next (s.takeFrame (fun b => beAt b 0 1 = 3) (fun s b => s.chainReply 3 (chainPayload b)))

/-- RESET_REQ (R383): the reply comes before the reset; BUSY in the safe state. -/
def execResetReq (s : State) : Host.Outcome State Fault Refusal :=
  .next (s.takeFrame (fun b => beAt b 0 1 = 4) (fun s b =>
    if !(chainPayload b).isEmpty then s.chainReply 4 [3]
    else if s.fatal.cause ≠ 0 then s.chainReply 4 [1]
    else (s.chainReply 4 [0]).doReset))

/-- A BOARD_EVENT of the controller sets or clears the host-request throttle (R458, Table 13.7). -/
def State.boardWarn (s : State) (kind : Byte) (warn : Bool) : State :=
  s.takeFrame (fun b => beAt b 0 1 = 5 && chainPayload b = [kind]) (fun s _ =>
    if s.boot.pgood && s.fatal.cause = 0 then s.pwrStep (fun s => { s with pwr := { s.pwr with hostWarn := warn } }) else s)

def execPowerWarn (s : State) : Host.Outcome State Fault Refusal := .next (s.boardWarn 0x81 true)

def execPowerWarnClear (s : State) : Host.Outcome State Fault Refusal := .next (s.boardWarn 0x82 false)

/-- A SKELIST frame's command was taken but cannot be served: BUSY before order 5, FAULTED in the safe state or a halted
boot (Table 19.2, R484, R517). -/
def State.chainRefuse (s : State) (n : Nat) : State :=
  match s.thm.queue[n]? with
  | none => s
  | some r =>
    if s.thmServes r.cmd then s
    else ({ s with thm := { s.thm with queue := s.thm.queue.eraseIdx n } }).reply r
      (if s.fatal.cause = 0 && s.boot.fail = 0 then stBusy else stFaulted) []

/-- STCH_SKELIST (R384): a message with a command that is not marked "chain" is dropped. A comparator failure leaves nothing
to answer (R517, R484). -/
def execStchSkelist (s : State) : Host.Outcome State Fault Refusal :=
  .next (s.takeFrame (fun b => beAt b 0 1 = 6) (fun s b =>
    let m := chainPayload b
    if !s.boot.pgood || s.boot.fail = 2 || s.fatal.cause = 1 then s
    else if !chainCodes.contains (beAt m 0 2) then s.dropMsg
    else
      let n := s.thm.queue.length
      (s.receiveMsg m .chain).chainRefuse n))

/-- 100 µs without a character (R385): UPSTREAM_LOST is set and reported. -/
def execUpstreamLost (s : State) : Host.Outcome State Fault Refusal :=
  .next (if s.chainRuns && !s.stch.upstreamLost then
      ({ s with stch := { s.stch with upstreamLost := true } }).boardEvent 3
    else s)

/-- The report is sent again every 10 ms (R385). -/
def execUpstreamLostRepeat (s : State) : Host.Outcome State Fault Refusal :=
  .next (if s.chainRuns && s.stch.upstreamLost then s.boardEvent 3 else s)

/-- Any character ends UPSTREAM_LOST (R378, R385). -/
def execStchCharacterReceive (_control : Bool) (_c : Byte) (s : State) : Host.Outcome State Fault Refusal :=
  .next (if s.chainRuns then { s with stch := { s.stch with upstreamLost := false } } else s)

/-- The package sends on STCH_OUT between forwarded frames: its oldest own frame, and a NULL where none waits (R378,
R380). -/
def execStchNullSend (s : State) : Host.Outcome State Fault Refusal :=
  .next (if s.chainRuns then
      { s with stch := { s.stch with out := s.stch.out ++ [s.stch.own.headD []], own := s.stch.own.drop 1 } }
    else s)

end Sys2Proof.Machine
end

