-- ==== Sys2Proof/Machine/Tack.lean ====
section
/-! DEFINITION. The tack: its triggers, markers, logs, the held package and its resumption (R501 to R508). -/

namespace Sys2Proof.Machine

/-- The key of a channel's log. -/
def cutKey : CutChannel → Nat
  | .mesh t d => t.val * 4 + dirCode d
  | .fabric p vc => 0x1000 + p.val * 8 + vc.val

/-- TACK: its reply is sent when the package is HELD (R505). -/
def execTack (s : State) : Host.Outcome State Fault Refusal :=
  .next (s.command 0x0A01 (fun s r =>
    s.judge r [(r.notOperator, stDenied), (!payOk r.payload [], stBadArg), (s.tacked, stBusy)] (fun s =>
      let s := s.triggerTack 0 0
      { s with thm := { s.thm with long := s.thm.long ++ [{ req := r, fn := 1025 }] } })))

/-- TACK_N low for 100 ns after being high (R501, R542): before order 10 the pin is not followed. -/
def execTackNFall (s : State) : Host.Outcome State Fault Refusal :=
  .next (if s.trc.pinArmed then
      let s := { s with trc := { s.trc with pinArmed := false } }
      if s.boot.pgood && s.boot.order = 10 then s.triggerTack 2 0 else s
    else s)

/-- TACK_N high again: the next low level is an edge. -/
def execTackNRise (s : State) : Host.Outcome State Fault Refusal := .next { s with trc := { s.trc with pinArmed := true } }

/-- A port takes part in the cut: it is active or retraining. -/
def State.portCut (s : State) (p : Nat) : Bool := !s.portAbsent p && ((s.port p).st.active || (s.port p).st = .retrain)

/-- A tack marker (R501 to R503): the first triggers the tack, and each closes the log of its channel. -/
def execTackMarkerReceive (c : CutChannel) (s : State) : Host.Outcome State Fault Refusal :=
  .next (
    let from' := match c with
      | .fabric p _ => s.portCut p
      | .mesh _ _ => s.tacked
    if !s.boot.pgood || s.fatal.cause ≠ 0 || !from' then s
    else
      let s := s.triggerTack 3 0
      if s.trc.tack = .stopping then
        { s with trc := { s.trc with logs := s.trc.logs.modify {} (cutKey c) (fun l => { l with closed := true }) } }
      else s)

/-- Every log of a fabric port of the cut is closed; a mesh channel's log closes with the package's own markers. -/
def State.logsClosed (s : State) : Bool :=
  (List.range 20).all (fun p => !s.portCut p || (List.range 6).all (fun v => (s.trc.logs.get {} (0x1000 + p * 8 + v)).closed))

/-- The entry of a packet in a mesh channel's log (Table 18.7), with its channel: the last hop of its path. -/
def State.meshEntry (s : State) (p : ChPkt) : Option (Nat × List Byte) :=
  if p.srcPkg ≠ 0xFFFF then none
  else match s.vtile p.fn p.srcVt with
    | none => none
    | some a =>
      match (meshPath a p.dst).getLast? with
      | none => none
      | some l =>
        let k : Nat × Nat × Nat := match p.body with
          | .msg d _ => (0, 0, d.length)
          | .bulk o d _ _ => (1, o, d.length)
          | _ => (4, 0, 0)
        some (l.1 * 4 + l.2, beBytes 1 a ++ beBytes 1 p.dst ++ beBytes 2 p.fn ++ beBytes 1 k.1 ++ [0, 0, 0] ++ beBytes 8 k.2.1 ++
          beBytes 4 k.2.2 ++ List.replicate 12 0)

/-- The logs with the packets that the mesh holds. -/
def State.fillLogs (s : State) : SMap TackLog :=
  s.noc.foldl (fun (m : SMap TackLog) p => match s.meshEntry p with
    | some e => m.modify {} e.1 (fun l => { closed := true, entries := l.entries ++ [e.2] })
    | none => m) s.trc.logs

/-- An event of the tack: 0 stopping, 1 held, 2 resumed (Table 18.3). -/
def State.tackEvent (s : State) (k : Nat) : State :=
  s.event .trc 0 6 none (k + s.trc.origin * 256 + s.trc.tackTime * 65536) false

/-- Deliver what a fabric channel's log holds, in arrival order (R507). -/
def State.replayLog (s : State) (port : Nat) (l : TackLog) : State :=
  l.entries.foldl (fun (s : State) b => match FPkt.parse b with
    | some p => s.forward port p
    | none => s) s

/-- A pass that a tack stopped in the array goes on in queued feeding (R156, R166). -/
def Tile.requeue (x : Tile) : Tile :=
  match x.opa.run with
  | some r => if r.begun && !r.done then { x with lastQueued := true } else x
  | none => x

/-- Resumption (R507): the passes in the arrays become queued, and the logs are delivered ahead of every later packet. -/
def State.resumeTack (s : State) : State :=
  let s := s.tackEvent 2
  let logs := s.trc.logs
  let s := (List.range 80).foldl (fun (s : State) t => s.onTile t Tile.requeue) s
  let s := { s with trc := { s.trc with tack := .none, pinDrive := false, logs := [], resumeWait := false } }
  let s := logs.foldl (fun (s : State) e => if e.1 ≥ 0x1000 then s.replayLog ((e.1 - 0x1000) / 8) e.2 else s) s
  { s with ports := s.ports.map (fun e => (e.1, e.2.pump)) }

/-- Order 4 of Table 18.6: HELD, with a snapshot and the reply of TACK; 10 µs after the trigger it is late. -/
def execTackHeld (s : State) : Host.Outcome State Fault Refusal :=
  .next (if s.trc.tack = .stopping && s.boot.pgood && s.fatal.cause = 0 && s.logsClosed then
      let s := { s with trc := { s.trc with tack := .held, logs := s.fillLogs }, snap := some s.reading, freeCtr := s.freeCtr + 1 }
      let s := s.tackEvent 1
      let s := if s.timeNs - s.trc.tackTime > 10000 then s.raise .trc 0 1 {} else s
      let s := s.finishLong 0x0A01 1025 stOk (beBytes 8 s.trc.tackTime)
      if s.trc.resumeWait then s.resumeTack else s
    else s)

/-- A request to resume: at once where HELD, once HELD where STOPPING. -/
def State.askResume (s : State) : State :=
  match s.trc.tack with
  | .none => s
  | .stopping => { s with trc := { s.trc with resumeWait := true } }
  | .held => s.resumeTack

/-- TACK_RESUME (R507). -/
def execTackResume (s : State) : Host.Outcome State Fault Refusal :=
  .next (s.command 0x0A02 (fun s r =>
    s.judge r [(r.notOperator, stDenied), (!payOk r.payload [] || !s.tacked, stBadArg)] (fun s => s.askResume.reply r stOk [])))

/-- A resume marker (R507); a package with no tack ignores it. -/
def execResumeMarkerReceive (c : CutChannel) (s : State) : Host.Outcome State Fault Refusal :=
  .next (
    let from' := match c with
      | .fabric p _ => s.portCut p
      | .mesh _ _ => true
    if s.boot.pgood && s.fatal.cause = 0 && from' then s.askResume else s)

/-- TACK_LOG_READ (R508, Table 18.7): only while HELD. -/
def execTackLogRead (s : State) : Host.Outcome State Fault Refusal :=
  .next (s.command 0x0A03 (fun s r =>
    let p := r.payload
    let kind := beAt p 0 1
    let inst := beAt p 1 1
    let ch := beAt p 2 1
    let first := beAt p 4 2
    let n := beAt p 6 1
    let bad := kind > 1 || (if kind = 0 then inst ≥ 80 || ch > 3 else inst ≥ 20 || ch > 5) || n < 1 || n > 6 || s.trc.tack ≠ .held
    s.judge r [(r.notOperator, stDenied), (kind = 1 && inst < 20 && s.portAbsent inst, stUnsupported),
        (!payOk p [(0, 1), (1, 1), (2, 1), (4, 2), (6, 1)] || bad, stBadArg),
        (kind = 0 && (s.tile inst).retired, stFaulted)] (fun s =>
      let l := s.trc.logs.get {} (if kind = 0 then inst * 4 + ch else 0x1000 + inst * 8 + ch)
      s.reply r stOk (beBytes 4 l.entries.length ++ ((l.entries.drop first).take n).flatMap (fun e => e.take 32)))))

end Sys2Proof.Machine
end

