-- ==== Sys2Proof/Machine/Dispatch.lean ====
section
/-! DEFINITION. One arm for each command of the table. -/

namespace Sys2Proof.Machine

/-- The effect of a command on everything but the queue. -/
def exec (i : Instr) (s : State) : Host.Outcome State Fault Refusal :=
  match i with
  | .aluAdd t rd rs1 rs2 => Sys2Proof.Machine.execAluAdd t rd rs1 rs2 s
  | .aluSub t rd rs1 rs2 => Sys2Proof.Machine.execAluSub t rd rs1 rs2 s
  | .aluAnd t rd rs1 rs2 => Sys2Proof.Machine.execAluAnd t rd rs1 rs2 s
  | .aluOr t rd rs1 rs2 => Sys2Proof.Machine.execAluOr t rd rs1 rs2 s
  | .aluXor t rd rs1 rs2 => Sys2Proof.Machine.execAluXor t rd rs1 rs2 s
  | .aluSll t rd rs1 rs2 => Sys2Proof.Machine.execAluSll t rd rs1 rs2 s
  | .aluSrl t rd rs1 rs2 => Sys2Proof.Machine.execAluSrl t rd rs1 rs2 s
  | .aluSra t rd rs1 rs2 => Sys2Proof.Machine.execAluSra t rd rs1 rs2 s
  | .aluMul t rd rs1 rs2 => Sys2Proof.Machine.execAluMul t rd rs1 rs2 s
  | .aluMulhu t rd rs1 rs2 => Sys2Proof.Machine.execAluMulhu t rd rs1 rs2 s
  | .aluMulh t rd rs1 rs2 => Sys2Proof.Machine.execAluMulh t rd rs1 rs2 s
  | .aluSlt t rd rs1 rs2 => Sys2Proof.Machine.execAluSlt t rd rs1 rs2 s
  | .aluSltu t rd rs1 rs2 => Sys2Proof.Machine.execAluSltu t rd rs1 rs2 s
  | .aluMin t rd rs1 rs2 => Sys2Proof.Machine.execAluMin t rd rs1 rs2 s
  | .aluMax t rd rs1 rs2 => Sys2Proof.Machine.execAluMax t rd rs1 rs2 s
  | .aluSext32 t rd rs1 rs2 => Sys2Proof.Machine.execAluSext32 t rd rs1 rs2 s
  | .addi t f => Sys2Proof.Machine.execAddi t f s
  | .andi t f => Sys2Proof.Machine.execAndi t f s
  | .ori t f => Sys2Proof.Machine.execOri t f s
  | .xori t f => Sys2Proof.Machine.execXori t f s
  | .slti t f => Sys2Proof.Machine.execSlti t f s
  | .shiSll t rd rs1 hi sh => Sys2Proof.Machine.execShiSll t rd rs1 hi sh s
  | .shiSrl t rd rs1 hi sh => Sys2Proof.Machine.execShiSrl t rd rs1 hi sh s
  | .shiSra t rd rs1 hi sh => Sys2Proof.Machine.execShiSra t rd rs1 hi sh s
  | .lui t f => Sys2Proof.Machine.execLui t f s
  | .beq t f => Sys2Proof.Machine.execBeq t f s
  | .bne t f => Sys2Proof.Machine.execBne t f s
  | .blt t f => Sys2Proof.Machine.execBlt t f s
  | .bge t f => Sys2Proof.Machine.execBge t f s
  | .bltu t f => Sys2Proof.Machine.execBltu t f s
  | .bgeu t f => Sys2Proof.Machine.execBgeu t f s
  | .jal t rd off => Sys2Proof.Machine.execJal t rd off s
  | .jalr t f => Sys2Proof.Machine.execJalr t f s
  | .lb t f => Sys2Proof.Machine.execLb t f s
  | .lh t f => Sys2Proof.Machine.execLh t f s
  | .lw t f => Sys2Proof.Machine.execLw t f s
  | .ld t f => Sys2Proof.Machine.execLd t f s
  | .sb t f => Sys2Proof.Machine.execSb t f s
  | .sh t f => Sys2Proof.Machine.execSh t f s
  | .sw t f => Sys2Proof.Machine.execSw t f s
  | .sd t f => Sys2Proof.Machine.execSd t f s
  | .sld t f => Sys2Proof.Machine.execSld t f s
  | .sst t f => Sys2Proof.Machine.execSst t f s
  | .dsw t f => Sys2Proof.Machine.execDsw t f s
  | .dld t f => Sys2Proof.Machine.execDld t f s
  | .diss t f => Sys2Proof.Machine.execDiss t f s
  | .dissQueueEntryFreed t => Sys2Proof.Machine.execDissQueueEntryFreed t s
  | .msend t f => Sys2Proof.Machine.execMsend t f s
  | .msendCreditTaken t => Sys2Proof.Machine.execMsendCreditTaken t s
  | .mrecv t f => Sys2Proof.Machine.execMrecv t f s
  | .mrecvMessageReturned t => Sys2Proof.Machine.execMrecvMessageReturned t s
  | .mtry t f => Sys2Proof.Machine.execMtry t f s
  | .mfree t f => Sys2Proof.Machine.execMfree t f s
  | .chcfg t f => Sys2Proof.Machine.execChcfg t f s
  | .charm t f => Sys2Proof.Machine.execCharm t f s
  | .twait t f => Sys2Proof.Machine.execTwait t f s
  | .tallyWaitRelease t => Sys2Proof.Machine.execTallyWaitRelease t s
  | .tsig t f => Sys2Proof.Machine.execTsig t f s
  | .tset t f => Sys2Proof.Machine.execTset t f s
  | .trd t f => Sys2Proof.Machine.execTrd t f s
  | .rdsys t f => Sys2Proof.Machine.execRdsys t f s
  | .wrsysDseq t rd rs1 hi => Sys2Proof.Machine.execWrsysDseq t rd rs1 hi s
  | .wrsysLack t rd rs1 hi => Sys2Proof.Machine.execWrsysLack t rd rs1 hi s
  | .fence t rd rs1 rs2 => Sys2Proof.Machine.execFence t rd rs1 rs2 s
  | .evpost t rd rs1 rs2 => Sys2Proof.Machine.execEvpost t rd rs1 rs2 s
  | .halt t f => Sys2Proof.Machine.execHalt t f s
  | .descStart t q => Sys2Proof.Machine.execDescStart t q s
  | .descSignal t q => Sys2Proof.Machine.execDescSignal t q s
  | .opaPass t => Sys2Proof.Machine.execOpaPass t s
  | .opaRowStart t row => Sys2Proof.Machine.execOpaRowStart t row s
  | .opaPassComplete t => Sys2Proof.Machine.execOpaPassComplete t s
  | .veCvt t => Sys2Proof.Machine.execVeCvt t s
  | .veAdd t => Sys2Proof.Machine.execVeAdd t s
  | .veSub t => Sys2Proof.Machine.execVeSub t s
  | .veMul t => Sys2Proof.Machine.execVeMul t s
  | .veMuladd t => Sys2Proof.Machine.execVeMuladd t s
  | .veMax t => Sys2Proof.Machine.execVeMax t s
  | .veMin t => Sys2Proof.Machine.execVeMin t s
  | .veMuls t => Sys2Proof.Machine.execVeMuls t s
  | .veRsum t => Sys2Proof.Machine.execVeRsum t s
  | .veRmax t => Sys2Proof.Machine.execVeRmax t s
  | .veRmin t => Sys2Proof.Machine.execVeRmin t s
  | .veLnorm t => Sys2Proof.Machine.execVeLnorm t s
  | .veRmsnorm t => Sys2Proof.Machine.execVeRmsnorm t s
  | .veRope t => Sys2Proof.Machine.execVeRope t s
  | .veGather t => Sys2Proof.Machine.execVeGather t s
  | .vePermute t => Sys2Proof.Machine.execVePermute t s
  | .veTopk t => Sys2Proof.Machine.execVeTopk t s
  | .veArgmax t => Sys2Proof.Machine.execVeArgmax t s
  | .veSample t => Sys2Proof.Machine.execVeSample t s
  | .veAccRead t => Sys2Proof.Machine.execVeAccRead t s
  | .veSeamAdd t => Sys2Proof.Machine.execVeSeamAdd t s
  | .veSeamCvt t => Sys2Proof.Machine.execVeSeamCvt t s
  | .sfuExp2 t => Sys2Proof.Machine.execSfuExp2 t s
  | .sfuLog2 t => Sys2Proof.Machine.execSfuLog2 t s
  | .sfuReciprocal t => Sys2Proof.Machine.execSfuReciprocal t s
  | .sfuRsqrt t => Sys2Proof.Machine.execSfuRsqrt t s
  | .sfuSqrt t => Sys2Proof.Machine.execSfuSqrt t s
  | .sfuTanh t => Sys2Proof.Machine.execSfuTanh t s
  | .sfuSigmoid t => Sys2Proof.Machine.execSfuSigmoid t s
  | .sfuErf t => Sys2Proof.Machine.execSfuErf t s
  | .sfuGelu t => Sys2Proof.Machine.execSfuGelu t s
  | .sfuSilu t => Sys2Proof.Machine.execSfuSilu t s
  | .sfuSin t => Sys2Proof.Machine.execSfuSin t s
  | .sfuCos t => Sys2Proof.Machine.execSfuCos t s
  | .sfuPattern t => Sys2Proof.Machine.execSfuPattern t s
  | .gusAttend t => Sys2Proof.Machine.execGusAttend t s
  | .gusAcquire t => Sys2Proof.Machine.execGusAcquire t s
  | .gusRebase t => Sys2Proof.Machine.execGusRebase t s
  | .gusFinalise t => Sys2Proof.Machine.execGusFinalise t s
  | .gusRecompute t => Sys2Proof.Machine.execGusRecompute t s
  | .pwAppend t => Sys2Proof.Machine.execPwAppend t s
  | .pwInvalidate t => Sys2Proof.Machine.execPwInvalidate t s
  | .dmaCopy t => Sys2Proof.Machine.execDmaCopy t s
  | .dmaBulkSend t => Sys2Proof.Machine.execDmaBulkSend t s
  | .dmaFill t => Sys2Proof.Machine.execDmaFill t s
  | .chanMsgArrive t ep => Sys2Proof.Machine.execChanMsgArrive t ep s
  | .chanBulkArrive t ep => Sys2Proof.Machine.execChanBulkArrive t ep s
  | .bulkAckArrive t => Sys2Proof.Machine.execBulkAckArrive t s
  | .chanGrantArrive t ep => Sys2Proof.Machine.execChanGrantArrive t ep s
  | .chanCreditArrive t ep => Sys2Proof.Machine.execChanCreditArrive t ep s
  | .stopNoticeArrive t => Sys2Proof.Machine.execStopNoticeArrive t s
  | .unreachableNoticeArrive t => Sys2Proof.Machine.execUnreachableNoticeArrive t s
  | .skelistMessageReceive dgram way => Sys2Proof.Machine.execSkelistMessageReceive dgram way s
  | .mailboxGo c => Sys2Proof.Machine.execMailboxGo c s
  | .identify => Sys2Proof.Machine.execIdentify s
  | .claim => Sys2Proof.Machine.execClaim s
  | .rekey => Sys2Proof.Machine.execRekey s
  | .serviceCfg => Sys2Proof.Machine.execServiceCfg s
  | .quote => Sys2Proof.Machine.execQuote s
  | .fnCreate => Sys2Proof.Machine.execFnCreate s
  | .fnDestroy => Sys2Proof.Machine.execFnDestroy s
  | .fnStart => Sys2Proof.Machine.execFnStart s
  | .fnStop => Sys2Proof.Machine.execFnStop s
  | .fnFaultStop f => Sys2Proof.Machine.execFnFaultStop f s
  | .drainLimitExpire f => Sys2Proof.Machine.execDrainLimitExpire f s
  | .stopComplete f => Sys2Proof.Machine.execStopComplete f s
  | .fnAssignTiles => Sys2Proof.Machine.execFnAssignTiles s
  | .fnAssignSpread => Sys2Proof.Machine.execFnAssignSpread s
  | .fnAssignRings => Sys2Proof.Machine.execFnAssignRings s
  | .fnAssignFences => Sys2Proof.Machine.execFnAssignFences s
  | .fnAssignCores => Sys2Proof.Machine.execFnAssignCores s
  | .fnAssignWindow => Sys2Proof.Machine.execFnAssignWindow s
  | .fnAssignVtileMap => Sys2Proof.Machine.execFnAssignVtileMap s
  | .fnAssignSettings => Sys2Proof.Machine.execFnAssignSettings s
  | .domainUngateDone d => Sys2Proof.Machine.execDomainUngateDone d s
  | .fnWithdraw => Sys2Proof.Machine.execFnWithdraw s
  | .fnQuery => Sys2Proof.Machine.execFnQuery s
  | .pageRelease => Sys2Proof.Machine.execPageRelease s
  | .slabTag => Sys2Proof.Machine.execSlabTag s
  | .ringConfig => Sys2Proof.Machine.execRingConfig s
  | .ringRead => Sys2Proof.Machine.execRingRead s
  | .fenceRead => Sys2Proof.Machine.execFenceRead s
  | .fenceWrite => Sys2Proof.Machine.execFenceWrite s
  | .winFlags => Sys2Proof.Machine.execWinFlags s
  | .winTransitionComplete f => Sys2Proof.Machine.execWinTransitionComplete f s
  | .winTransitionTimeout f => Sys2Proof.Machine.execWinTransitionTimeout f s
  | .winQuery => Sys2Proof.Machine.execWinQuery s
  | .winConnect => Sys2Proof.Machine.execWinConnect s
  | .winClose => Sys2Proof.Machine.execWinClose s
  | .tileLoad => Sys2Proof.Machine.execTileLoad s
  | .hcoreLoad => Sys2Proof.Machine.execHcoreLoad s
  | .patternLoad => Sys2Proof.Machine.execPatternLoad s
  | .patternUnload => Sys2Proof.Machine.execPatternUnload s
  | .patternQuery => Sys2Proof.Machine.execPatternQuery s
  | .peerWrite => Sys2Proof.Machine.execPeerWrite s
  | .sliceSet => Sys2Proof.Machine.execSliceSet s
  | .routeWrite => Sys2Proof.Machine.execRouteWrite s
  | .routeRead => Sys2Proof.Machine.execRouteRead s
  | .powerGrant => Sys2Proof.Machine.execPowerGrant s
  | .powerQuery => Sys2Proof.Machine.execPowerQuery s
  | .countersRead => Sys2Proof.Machine.execCountersRead s
  | .eventSubscribe => Sys2Proof.Machine.execEventSubscribe s
  | .eventsRead => Sys2Proof.Machine.execEventsRead s
  | .traceCfg => Sys2Proof.Machine.execTraceCfg s
  | .tack => Sys2Proof.Machine.execTack s
  | .tackResume => Sys2Proof.Machine.execTackResume s
  | .tackLogRead => Sys2Proof.Machine.execTackLogRead s
  | .faultStatus => Sys2Proof.Machine.execFaultStatus s
  | .stopRecord => Sys2Proof.Machine.execStopRecord s
  | .errClear => Sys2Proof.Machine.execErrClear s
  | .tagRead => Sys2Proof.Machine.execTagRead s
  | .tagWrite => Sys2Proof.Machine.execTagWrite s
  | .tagLock => Sys2Proof.Machine.execTagLock s
  | .fwStage => Sys2Proof.Machine.execFwStage s
  | .fwActivate => Sys2Proof.Machine.execFwActivate s
  | .fwQuery => Sys2Proof.Machine.execFwQuery s
  | .ringDoorbell src ring tail => Sys2Proof.Machine.execRingDoorbell src ring tail s
  | .ringFetch q => Sys2Proof.Machine.execRingFetch q s
  | .ringNop r => Sys2Proof.Machine.execRingNop r s
  | .ringLaunch r => Sys2Proof.Machine.execRingLaunch r s
  | .ringLaunchComplete r => Sys2Proof.Machine.execRingLaunchComplete r s
  | .ringCopy r => Sys2Proof.Machine.execRingCopy r s
  | .ringWait r => Sys2Proof.Machine.execRingWait r s
  | .ringWaitRelease r => Sys2Proof.Machine.execRingWaitRelease r s
  | .ringSignal r => Sys2Proof.Machine.execRingSignal r s
  | .ringCollective r => Sys2Proof.Machine.execRingCollective r s
  | .ringBarrier r => Sys2Proof.Machine.execRingBarrier r s
  | .ringCommandComplete r => Sys2Proof.Machine.execRingCommandComplete r s
  | .coreFenceAdd c idx value => Sys2Proof.Machine.execCoreFenceAdd c idx value s
  | .coreFenceSet c idx value => Sys2Proof.Machine.execCoreFenceSet c idx value s
  | .hcoreAccess c addr write log2Bytes value => Sys2Proof.Machine.execHcoreAccess c addr write log2Bytes value s
  | .fqTxTailWrite c tail => Sys2Proof.Machine.execFqTxTailWrite c tail s
  | .fqRxTailWrite c tail => Sys2Proof.Machine.execFqRxTailWrite c tail s
  | .fqPortWrite c n value => Sys2Proof.Machine.execFqPortWrite c n value s
  | .rdmaWrite qpn rkey va data => Sys2Proof.Machine.execRdmaWrite qpn rkey va data s
  | .rdmaRead qpn rkey va len => Sys2Proof.Machine.execRdmaRead qpn rkey va len s
  | .rdmaSend qpn data => Sys2Proof.Machine.execRdmaSend qpn data s
  | .ethFrameReceive frame rx => Sys2Proof.Machine.execEthFrameReceive frame rx s
  | .pfcFrameReceive enable pause => Sys2Proof.Machine.execPfcFrameReceive enable pause s
  | .cnpReceive qpn => Sys2Proof.Machine.execCnpReceive qpn s
  | .cnpRateRaise qpn => Sys2Proof.Machine.execCnpRateRaise qpn s
  | .ethLinkUp => Sys2Proof.Machine.execEthLinkUp s
  | .ethLinkLoss => Sys2Proof.Machine.execEthLinkLoss s
  | .ethHalfWidthFallback => Sys2Proof.Machine.execEthHalfWidthFallback s
  | .addrDadComplete addr ok => Sys2Proof.Machine.execAddrDadComplete addr ok s
  | .ptpMessageReceive domain masterTime offset => Sys2Proof.Machine.execPtpMessageReceive domain masterTime offset s
  | .stchFrameReceive frame codingOk => Sys2Proof.Machine.execStchFrameReceive frame codingOk s
  | .enumFrame => Sys2Proof.Machine.execEnumFrame s
  | .setaddr => Sys2Proof.Machine.execSetaddr s
  | .ping => Sys2Proof.Machine.execPing s
  | .resetReq => Sys2Proof.Machine.execResetReq s
  | .powerWarn => Sys2Proof.Machine.execPowerWarn s
  | .powerWarnClear => Sys2Proof.Machine.execPowerWarnClear s
  | .stchSkelist => Sys2Proof.Machine.execStchSkelist s
  | .upstreamLost => Sys2Proof.Machine.execUpstreamLost s
  | .upstreamLostRepeat => Sys2Proof.Machine.execUpstreamLostRepeat s
  | .lnkLinkUp p partner lanes => Sys2Proof.Machine.execLnkLinkUp p partner lanes s
  | .fabricPacketReceive p vc packet => Sys2Proof.Machine.execFabricPacketReceive p vc packet s
  | .lnkReplay p seq ok => Sys2Proof.Machine.execLnkReplay p seq ok s
  | .lnkRetrain p cause => Sys2Proof.Machine.execLnkRetrain p cause s
  | .lnkRetrainTimeout p => Sys2Proof.Machine.execLnkRetrainTimeout p s
  | .lnkDownRetry p => Sys2Proof.Machine.execLnkDownRetry p s
  | .fenceOrderedSetReceive p => Sys2Proof.Machine.execFenceOrderedSetReceive p s
  | .portLeaveService p => Sys2Proof.Machine.execPortLeaveService p s
  | .packetAged p vc => Sys2Proof.Machine.execPacketAged p vc s
  | .lnkSysUseWrite use => Sys2Proof.Machine.execLnkSysUseWrite use s
  | .collAdmit => Sys2Proof.Machine.execCollAdmit s
  | .collPartReceive q => Sys2Proof.Machine.execCollPartReceive q s
  | .collResultReceive q => Sys2Proof.Machine.execCollResultReceive q s
  | .collDeclineReceive q => Sys2Proof.Machine.execCollDeclineReceive q s
  | .collGrantReceive q => Sys2Proof.Machine.execCollGrantReceive q s
  | .collNoticeReceive q => Sys2Proof.Machine.execCollNoticeReceive q s
  | .collTimeout f group => Sys2Proof.Machine.execCollTimeout f group s
  | .collComplete f group => Sys2Proof.Machine.execCollComplete f group s
  | .govCapIteration estimateMw => Sys2Proof.Machine.execGovCapIteration estimateMw s
  | .rateLoopTick d pacerMsteps => Sys2Proof.Machine.execRateLoopTick d pacerMsteps s
  | .govMeasureWindow frameOk readingMw => Sys2Proof.Machine.execGovMeasureWindow frameOk readingMw s
  | .paceWindow periods waits => Sys2Proof.Machine.execPaceWindow periods waits s
  | .regSetpointAck d => Sys2Proof.Machine.execRegSetpointAck d s
  | .regSlewEnd d => Sys2Proof.Machine.execRegSlewEnd d s
  | .droopEngage d => Sys2Proof.Machine.execDroopEngage d s
  | .droopRelease d => Sys2Proof.Machine.execDroopRelease d s
  | .shortfallEnter d pacerMsteps => Sys2Proof.Machine.execShortfallEnter d pacerMsteps s
  | .shortfallClear d pacerMsteps => Sys2Proof.Machine.execShortfallClear d pacerMsteps s
  | .ageingRecord meanMv => Sys2Proof.Machine.execAgeingRecord meanMv s
  | .brownout d => Sys2Proof.Machine.execBrownout d s
  | .regControlLoss d => Sys2Proof.Machine.execRegControlLoss d s
  | .thermalThreshold sensor temp => Sys2Proof.Machine.execThermalThreshold sensor temp s
  | .thermCeilingStep d => Sys2Proof.Machine.execThermCeilingStep d s
  | .thermtrip sensor => Sys2Proof.Machine.execThermtrip sensor s
  | .currentLimit src deciAmps => Sys2Proof.Machine.execCurrentLimit src deciAmps s
  | .grantLeaseExpire => Sys2Proof.Machine.execGrantLeaseExpire s
  | .domainGate d => Sys2Proof.Machine.execDomainGate d s
  | .timerefLoss => Sys2Proof.Machine.execTimerefLoss s
  | .ppsEdge => Sys2Proof.Machine.execPpsEdge s
  | .ppsLoss => Sys2Proof.Machine.execPpsLoss s
  | .ptpLoss => Sys2Proof.Machine.execPtpLoss s
  | .linkTimeOffset p partnerLocked offset => Sys2Proof.Machine.execLinkTimeOffset p partnerLocked offset s
  | .errInject block inst value => Sys2Proof.Machine.execErrInject block inst value s
  | .errCountRead block inst => Sys2Proof.Machine.execErrCountRead block inst s
  | .fatalEntry => Sys2Proof.Machine.execFatalEntry s
  | .meshCrcRetry t d => Sys2Proof.Machine.execMeshCrcRetry t d s
  | .meshHalfDown t d => Sys2Proof.Machine.execMeshHalfDown t d s
  | .meshLinkDown t d => Sys2Proof.Machine.execMeshLinkDown t d s
  | .patrolScrubRead t => Sys2Proof.Machine.execPatrolScrubRead t s
  | .tileRetire t => Sys2Proof.Machine.execTileRetire t s
  | .tackNFall => Sys2Proof.Machine.execTackNFall s
  | .tackMarkerReceive c => Sys2Proof.Machine.execTackMarkerReceive c s
  | .tackHeld => Sys2Proof.Machine.execTackHeld s
  | .resumeMarkerReceive c => Sys2Proof.Machine.execResumeMarkerReceive c s
  | .traceFlush f => Sys2Proof.Machine.execTraceFlush f s
  | .v3p3Rise => Sys2Proof.Machine.execV3p3Rise s
  | .suppliesInRange => Sys2Proof.Machine.execSuppliesInRange s
  | .bootSequence bootMode found => Sys2Proof.Machine.execBootSequence bootMode found s
  | .trialWatchdog => Sys2Proof.Machine.execTrialWatchdog s
  | .resetNAssert heldNs => Sys2Proof.Machine.execResetNAssert heldNs s
  | .powerDown vin12Mv v3p3Mv => Sys2Proof.Machine.execPowerDown vin12Mv v3p3Mv s
  | .fatalLatchClear vin12Mv v3p3Mv => Sys2Proof.Machine.execFatalLatchClear vin12Mv v3p3Mv s
  | .jtagImageWrite slot offset data => Sys2Proof.Machine.execJtagImageWrite slot offset data s
  | .registerWrite r value => Sys2Proof.Machine.execRegisterWrite r value s
  | .longCommandComplete f => Sys2Proof.Machine.execLongCommandComplete f s
  | .timerefRestore => Sys2Proof.Machine.execTimerefRestore s
  | .tackNRise => Sys2Proof.Machine.execTackNRise s
  | .stchCharacterReceive control c => Sys2Proof.Machine.execStchCharacterReceive control c s
  | .stchNullSend => Sys2Proof.Machine.execStchNullSend s
  | .lnkControlFlitReceive p ack credits => Sys2Proof.Machine.execLnkControlFlitReceive p ack credits s
  | .safeStateEthernetIdle => Sys2Proof.Machine.execSafeStateEthernetIdle s

end Sys2Proof.Machine
end

