-- ==== Sys2Proof/Safety.lean ====
section
/-! DEFINITION. What a safe run of the package is, in the terms the statements use. -/

namespace Sys2Proof.Machine

/-- A byte memory of the package is in its canonical form: addresses strictly rising, no entry equal to the 0 that an
unlisted address reads as. -/
def Memory.wf (m : List (Nat × Byte)) : Bool := SMap.wf 0 m

/-- Two byte memories and a table of marks are canonical. -/
def TileMem.wf (mem slots : SMap Byte) (poison : SMap Bool) : Prop :=
  Memory.wf mem ∧ Memory.wf slots ∧ SMap.wf false poison

/-- The memories of a tile are canonical: tile store, cache and buffers, descriptor slots, and the poison of lines. -/
def Tile.memWf (x : Tile) : Prop := TileMem.wf x.mem x.slots x.poison

/-- Data, metadata and the differences of check symbols are canonical. -/
def SlabMem.wf (data mdata : SMap Byte) (chk : SMap (BitVec 24)) : Prop :=
  Memory.wf data ∧ Memory.wf mdata ∧ SMap.wf 0 chk

/-- The memories of a slab are canonical. -/
def Slab.memWf (b : Slab) : Prop := SlabMem.wf b.data b.mdata b.chk

/-- Every memory of the tiles and slabs listed is canonical. -/
def Memories.wf (tiles : SMap Tile) (slabs : SMap Slab) : Prop :=
  (∀ t, (tiles.get {} t).memWf) ∧ ∀ t, (slabs.get {} t).memWf

/-- Every tile memory and every slab memory is canonical. -/
def State.memWf (s : State) : Prop := Memories.wf s.tiles s.slabs

/-- A step that goes on. -/
def Continues (o : Host.Outcome State Fault Refusal) : Prop := ∃ t, o = .next t

/-- A tile's sequencer can retire the instruction that the word w encodes: it is RUNNING on a live tile, no error of its own
stops it, and the word at its PC is w, which the sequencer implements (R94, R95, R99, R100). -/
def Runs (s : State) (t : TileId) (w : Nat) : Prop :=
  s.seqReady t = true ∧ (s.tile t).word = w ∧ seqWordOk w = true

/-- A tile's sequencer has begun to wait at its own PC. -/
def State.waits (s : State) (t : Nat) (w : Wait) : State := (s.seqGoto t .waiting).onTile t (fun x => { x with wait := w })

/-- A tile's sequencer has stopped waiting, its instruction not yet retired. -/
def State.wakes (s : State) (t : Nat) : State := (s.seqGoto t .running).onTile t (fun x => { x with wait := .none })

/-- A live tile's sequencer waits, with no error of its own. -/
def Waits (s : State) (t : TileId) (w : Wait) : Prop :=
  s.tileLive t = true ∧ (s.tile t).seq = .waiting ∧ (s.tile t).seqFault = false ∧ (s.tile t).wait = w

/-- A program address (R94: program memory is 256 KiB). -/
def InProgram (npc : Int) : Prop := 0 ≤ npc ∧ npc < 262144

/-- An instruction of tile t has retired with no effect outside the tile: the tile is x with its PC at npc and nothing to
wait for, every other tile and every other part of the state is as it was, and the instruction is counted modulo 2^48. -/
def Retired (s : State) (t : TileId) (x : Tile) (npc : Nat) (n : State) : Prop :=
  n.tile t = { x with pc := npc, wait := .none } ∧ (∀ u, u ≠ t.val → n.tile u = s.tile u) ∧
  { n with tiles := [], ctrs := [] } = { s with tiles := [], ctrs := [] } ∧
  ∀ k, n.ctrs.get 0 k = if k = ctrKey .tseq t 1 0 (x.owner.getD 0) then (s.ctrs.get 0 k + 1) % 2 ^ 48 else s.ctrs.get 0 k

/-- A command answers the state in which its instruction has so retired. -/
def Retires (i : Instr) (s : State) (t : TileId) (x : Tile) (npc : Nat) : Prop :=
  ∃ n, exec i s = .next n ∧ Retired s t x npc n

/-- `c` is the first started command of an operation on a ring whose work is not done and that no stop has cut, and `s1` the
state that marks it done. -/
def Begins (s : State) (r op : Nat) (c : RCmd) (s1 : State) : Prop :=
  s.ringLive r = true ∧ (s.ring r).cmds.find? (fun c => ringOp c.raw = op && !c.run && !c.cut) = some c ∧
    s1 = s.onCmd r c.idx (fun c => { c with run := true })

/-- No fatal cause is latched or waits to be latched (R481). -/
def State.sound (s : State) : Bool := s.fatal.cause = 0 && s.fatal.pendingCause = 0

/-- The accepted request that starts next (R337) is `r`, of the command `code` and one that `want` selects; the function
that sent it is not FREE (R336); and `s0` is the state without it. -/
def TakesIf (s : State) (code : Nat) (want : Req → Bool) (r : Req) (s0 : State) : Prop :=
  (∃ q, takeFirst s.mayStart s.thm.queue = some (r, q) ∧ s0 = { s with thm := { s.thm with queue := q } }) ∧
    r.cmd = code ∧ want r = true ∧ s.gone r = false

/-- As `TakesIf`, for every request of the command. -/
def Takes (s : State) (code : Nat) (r : Req) (s0 : State) : Prop := TakesIf s code (fun _ => true) r s0

/-- An FN_ASSIGN of a kind under the operator key, for a STOPPED function with no conflict, its payload well formed. -/
def Assigns (s : State) (kind : Nat) (fields : List (Nat × Nat)) (r : Req) (s0 : State) : Prop :=
  TakesIf s 0x0305 (fun r => beAt r.payload 2 1 = kind) r s0 ∧ r.notOperator = false ∧ beAt r.payload 0 2 < 1024 ∧
    (s0.fn (beAt r.payload 0 2)).st = .stopped ∧ s0.longOn (beAt r.payload 0 2) = false ∧ s0.tacked = false ∧
    payOk r.payload ([(0, 2), (2, 1)] ++ fields) = true

end Sys2Proof.Machine
end

