-- ==== Sys2Proof/Certificates/Slice0/Obligations.lean ====
section
/-! DEFINITION. The statements about the model, for the provers. -/

open Sys2Proof Sys2Proof.Machine

/-! The block's own working: the queue, reset, idling. -/

/-- A step runs the command at the front of the queue on the state with the queue's rest. -/
def Obligations.StepRunsFrontCommand : Prop :=
  ∀ (c : Instr) (q : List Instr) (s : State), step { s with pending := c :: q } = exec c { s with pending := q }

/-- On an empty queue the package idles for one nanosecond of package time and changes nothing else (the model's choice,
log 2). A step takes the front command off the queue and no command puts one on it. -/
def Obligations.StepOnTheQueue : Prop :=
  (∀ s : State, s.pending = [] → step s = .next { s with timeNs := s.timeNs + 1 }) ∧
  (∀ (s t : State), step s = .next t → t.pending = s.pending.tail)

/-- What reset leaves, where the spec says it: function 0 is STOPPED and every other FREE (Table 11.11), every tile is
EMPTY and in service, every fence, counter, error register and tally reads 0, SLB_SCRUB has its period of 24 hours and
is enabled, no fatal cause is latched and FAULT_N is high, no tack is held, PGOOD is asserted, order 2 is reached, the
chain index is 0xFF, and no command waits. -/
def Obligations.ResetState : Prop :=
  State.reset.pending = [] ∧
  (∀ f, (State.reset.fn f).st = if f = 0 then .stopped else .free) ∧
  (∀ t, (State.reset.tile t).seq = .empty ∧ (State.reset.tile t).retired = false ∧ (State.reset.tile t).owner = none ∧
    ∀ i, (State.reset.tile t).tally i = 0) ∧
  (∀ i, State.reset.fence i = 0) ∧ (∀ k, State.reset.ctrs.get 0 k = 0) ∧
  (∀ b i, (State.reset.err b i).stat = 0 ∧ (State.reset.err b i).first = 0 ∧ (State.reset.err b i).corr = 0 ∧
    (State.reset.err b i).uncorr = 0 ∧ State.reset.stat b i = 0) ∧
  (∀ t, (State.reset.slab t).scrubPeriod = 24 ∧ (State.reset.slab t).scrubEnable = true ∧ (State.reset.slab t).ext.valid = false) ∧
  State.reset.fatal.cause = 0 ∧ State.reset.fatal.faultN = true ∧ State.reset.trc.tack = .none ∧
  State.reset.boot.pgood = true ∧ State.reset.boot.order = 2 ∧ State.reset.stch.index = 0xFF

/-- Every command goes on: none ends in a fault or a refusal, in any state and with any operands. -/
def Obligations.EveryCommandGoesOn : Prop := ∀ (i : Instr) (s : State), Continues (exec i s)

/-- Every step keeps every tile memory and every slab memory in its canonical form, whatever state it starts from. -/
def Obligations.EveryStepKeepsMemoriesCanonical : Prop := ∀ (s t : State), s.memWf → step s = .next t → t.memWf

/-! The tile sequencer (spec/04_tile_programs.md). -/

/-- Registers: s0 reads 0 and takes no write; any other register reads what was written to it last. -/
def Obligations.RegisterZeroDiscardsWrites : Prop :=
  ∀ (x : Tile) (r q : BitVec 5) (v : W64), x.reg 0 = 0 ∧ x.setReg 0 v = x ∧
    (x.setReg r v).reg q = if r = q ∧ r ≠ 0 then v else x.reg q

/-- The ALU instructions (Table 4.4): each writes RD with its function of RS1 and RS2, goes on with the next word, and
changes nothing else; the instruction is counted. The instructions with an immediate (Table 4.3): sign-extended, but
zero-extended for ANDI, ORI and XORI. -/
def Obligations.AluAndImmediateInstructions : Prop :=
  (∀ (s : State) (t : TileId) (rd rs1 rs2 : BitVec 5), (s.tile t).pc + 4 < 262144 →
     let x := s.tile t
     let a := x.reg rs1
     let b := x.reg rs2
     let n := b.toNat % 64
     let W := fun (i : Instr) (n : Nat) (v : W64) => Runs s t (encR 0 rd rs1 rs2 n) → Retires i s t (x.setReg rd v) (x.pc + 4)
     W (.aluAdd t rd rs1 rs2) 0 (a + b) ∧ W (.aluSub t rd rs1 rs2) 1 (a - b) ∧ W (.aluAnd t rd rs1 rs2) 2 (a &&& b) ∧
     W (.aluOr t rd rs1 rs2) 3 (a ||| b) ∧ W (.aluXor t rd rs1 rs2) 4 (a ^^^ b) ∧ W (.aluSll t rd rs1 rs2) 5 (a <<< n) ∧
     W (.aluSrl t rd rs1 rs2) 6 (a >>> n) ∧ W (.aluSra t rd rs1 rs2) 7 (a.sshiftRight n) ∧ W (.aluMul t rd rs1 rs2) 8 (a * b) ∧
     W (.aluMulhu t rd rs1 rs2) 9 (BitVec.ofNat 64 (a.toNat * b.toNat / 2 ^ 64)) ∧
     W (.aluMulh t rd rs1 rs2) 10 (BitVec.ofInt 64 (a.toInt * b.toInt / 2 ^ 64)) ∧
     W (.aluSlt t rd rs1 rs2) 11 (if a.toInt < b.toInt then 1 else 0) ∧
     W (.aluSltu t rd rs1 rs2) 12 (if a.toNat < b.toNat then 1 else 0) ∧
     W (.aluMin t rd rs1 rs2) 13 (if a.toInt < b.toInt then a else b) ∧
     W (.aluMax t rd rs1 rs2) 14 (if a.toInt < b.toInt then b else a) ∧
     W (.aluSext32 t rd rs1 rs2) 15 (BitVec.ofInt 64 (a.setWidth 32).toInt)) ∧
  (∀ (s : State) (t : TileId) (f : IFields) (hi : BitVec 8) (sh : BitVec 6), (s.tile t).pc + 4 < 262144 →
     let x := s.tile t
     let a := x.reg f.rs1
     let se := BitVec.ofInt 64 f.imm.toInt
     let ze := BitVec.ofNat 64 f.imm.toNat
     let W := fun (i : Instr) (w : Nat) (v : W64) => Runs s t w → Retires i s t (x.setReg f.rd v) (x.pc + 4)
     let shi := fun (k : Nat) => encI 6 f.rd f.rs1 (hi.toNat * 256 + k * 64 + sh.toNat)
     W (.addi t f) (f.word 1) (a + se) ∧ W (.andi t f) (f.word 2) (a &&& ze) ∧ W (.ori t f) (f.word 3) (a ||| ze) ∧
     W (.xori t f) (f.word 4) (a ^^^ ze) ∧ W (.slti t f) (f.word 5) (if a.toInt < f.imm.toInt then 1 else 0) ∧
     W (.lui t f) (f.word 7) (se <<< (16 : Nat)) ∧
     W (.shiSll t f.rd f.rs1 hi sh) (shi 0) (a <<< sh.toNat) ∧ W (.shiSrl t f.rd f.rs1 hi sh) (shi 1) (a >>> sh.toNat) ∧
     W (.shiSra t f.rd f.rs1 hi sh) (shi 2) (a.sshiftRight sh.toNat))

/-- Branches go to their own address plus four times the offset where their comparison holds, else to the next word;
they write no register. JAL and JALR write the address of the next word to RD and jump. -/
def Obligations.BranchesAndJumps : Prop :=
  ∀ (s : State) (t : TileId) (f : BFields) (g : IFields) (rd : BitVec 5) (off : BitVec 21),
    let x := s.tile t
    let a := x.reg f.rs1
    let b := x.reg f.rs2
    let dest := fun (c : Bool) => if c then (x.pc : Int) + 4 * f.off.toInt else (x.pc : Int) + 4
    let B := fun (i : Instr) (op : Nat) (c : Bool) => Runs s t (f.word op) → InProgram (dest c) → Retires i s t x (dest c).toNat
    let link := BitVec.ofNat 64 (x.pc + 4)
    let target := (x.reg g.rs1 + BitVec.ofInt 64 g.imm.toInt).toNat / 4 * 4
    B (.beq t f) 8 (decide (a = b)) ∧ B (.bne t f) 9 (decide (a ≠ b)) ∧ B (.blt t f) 10 (decide (a.toInt < b.toInt)) ∧
    B (.bge t f) 11 (decide (b.toInt ≤ a.toInt)) ∧ B (.bltu t f) 12 (decide (a.toNat < b.toNat)) ∧
    B (.bgeu t f) 13 (decide (b.toNat ≤ a.toNat)) ∧
    (Runs s t (encJ 14 rd off) → InProgram ((x.pc : Int) + 4 * off.toInt) →
      Retires (.jal t rd off) s t (x.setReg rd link) ((x.pc : Int) + 4 * off.toInt).toNat) ∧
    (Runs s t (g.word 15) → target < 262144 → Retires (.jalr t g) s t (x.setReg g.rd link) target)

/-- Scalar loads: naturally aligned, mapped and with no poisoned line, they write RD with the bytes at RS1 + IMM,
little-endian and zero-extended; DLD copies 64 bytes into a descriptor slot. No byte of tile memory changes but the
slot's. SLD and SST on an aligned address of the function's slab: SLD writes RD with the eight bytes read,
little-endian, where no byte is poisoned; SST writes the eight bytes of RD to the slab, clean. Both go on with the next
word. -/
def Obligations.LoadsAndSlabStores : Prop :=
  (∀ (s : State) (t : TileId) (f : IFields), (s.tile t).pc + 4 < 262144 →
     let x := s.tile t
     let a := (x.reg f.rs1 + BitVec.ofInt 64 f.imm.toInt).toNat
     let L := fun (i : Instr) (op n : Nat) => Runs s t (f.word op) → a % n = 0 → tmOk .scalar false a n = true → x.poisoned a n = false →
       Retires i s t (x.setReg f.rd (BitVec.ofNat 64 (leVal ((List.range n).map (fun k => x.byte (a + k)))))) (x.pc + 4)
     let d := (x.reg f.rs1).toNat
     L (.lb t f) 16 1 ∧ L (.lh t f) 17 2 ∧ L (.lw t f) 18 4 ∧ L (.ld t f) 19 8 ∧
     (Runs s t (f.word 33) → d % 64 = 0 → tmOk .scalar false d 64 = true → x.poisoned d 64 = false →
       let bs := (List.range 64).map (fun k => x.byte (d + k))
       Retires (.dld t f) s t { x with slots := putBytes x.slots (f.imm.toNat % 16 * 64) bs } (x.pc + 4))) ∧
  (∀ (s : State) (t : TileId) (f : IFields) (ps : List (Nat × Nat × Nat)), (s.tile t).pc + 4 < 262144 →
     let x := s.tile t
     let a := (x.reg f.rs1 + BitVec.ofInt 64 f.imm.toInt).toNat
     let own := x.owner.getD 0
     a % 8 = 0 →
     (Runs s t (f.word 24) → s.slabCheck own (some t.val) a 8 false false = .ok ps → (s.readPieces ps).2.2.1 = false →
       exec (.sld t f) s = .next ((((s.readPieces ps).1.setTile t (((s.readPieces ps).1.tile t).setReg f.rd
         (BitVec.ofNat 64 (leVal (s.readPieces ps).2.1))))).retire t (x.pc + 4))) ∧
     (Runs s t (f.word 25) → s.slabCheck own (some t.val) a 8 true false = .ok ps →
       exec (.sst t f) s = .next ((s.writePieces ps (toLe 8 (x.reg f.rd).toNat) false).retire t (x.pc + 4))))

/-- Scalar stores: naturally aligned and mapped, they write the low bytes of RD at RS1 + IMM, little-endian; DSW writes
a word, or with its wide bit two, of a descriptor slot. Every other byte of tile memory reads as before, and nothing but
the tile changes. -/
def Obligations.ScalarStores : Prop :=
  ∀ (s : State) (t : TileId) (f : IFields), (s.tile t).pc + 4 < 262144 →
    let x := s.tile t
    let a := (x.reg f.rs1 + BitVec.ofInt 64 f.imm.toInt).toNat
    let v := (x.reg f.rd).toNat
    let Put := fun (i : Instr) (a n : Nat) => ∃ y, Retires i s t y (x.pc + 4) ∧
      (∀ k, y.byte k = if a ≤ k ∧ k < a + n then BitVec.ofNat 8 (v / 256 ^ (k - a)) else x.byte k) ∧
      { y with mem := x.mem, slots := x.slots, poison := x.poison } = x
    let S := fun (i : Instr) (op n : Nat) => Runs s t (f.word op) → a % n = 0 → tmOk .scalar true a n = true → Put i a n
    let w := f.imm.toNat
    S (.sb t f) 20 1 ∧ S (.sh t f) 21 2 ∧ S (.sw t f) 22 4 ∧ S (.sd t f) 23 8 ∧
    (Runs s t (f.word 32) → w / 128 % 2 = 0 → Put (.dsw t f) (0xD00000 + w / 4096 * 64 + w / 256 % 16 * 4) 4) ∧
    (Runs s t (f.word 32) → w / 128 % 2 = 1 →
      Put (.dsw t f) (0xD00000 + w / 4096 * 64 + w / 256 % 16 * 4) 8)

/-- A misaligned or unmapped scalar load or store, and a misaligned SLD or SST, raises ADDR_FAULT and does not retire:
the program counter and every register stay, FAULT_PC holds the instruction's address, and the bit is set in
TSEQ_ERR_STAT. -/
def Obligations.MisalignedAccessRaisesAddrFault : Prop :=
  ∀ (s : State) (t : TileId) (f : IFields),
    let x := s.tile t
    let a := (x.reg f.rs1 + BitVec.ofInt 64 f.imm.toInt).toNat
    let G := fun (i : Instr) => ∃ u, exec i s = .next u ∧ (u.tile t).pc = x.pc ∧ (u.tile t).regs = x.regs ∧
      (u.tile t).mem = x.mem ∧ (u.tile t).faultPc = x.pc ∧ (u.tile t).seqFault = true ∧ (u.err .tseq t).stat.getLsbD 1 = true
    let F := fun (i : Instr) (op n : Nat) (w : Bool) => Runs s t (f.word op) → a % n ≠ 0 ∨ tmOk .scalar w a n = false → G i
    F (.lb t f) 16 1 false ∧ F (.lh t f) 17 2 false ∧ F (.lw t f) 18 4 false ∧ F (.ld t f) 19 8 false ∧
    F (.sb t f) 20 1 true ∧ F (.sh t f) 21 2 true ∧ F (.sw t f) 22 4 true ∧ F (.sd t f) 23 8 true ∧
    (a % 8 ≠ 0 → (Runs s t (f.word 24) → G (.sld t f)) ∧ (Runs s t (f.word 25) → G (.sst t f)))

/-- TSET writes tally FN with RS1[31:0], TSIG adds RS1[31:0] to it modulo 2^32, TRD reads it zero-extended into RD. Each
retires and changes nothing else. TWAIT retires and changes nothing else where the tally satisfies RS1[31:0], and
otherwise waits at its own PC; a waiting TWAIT retires once its tally satisfies the value it waits for. -/
def Obligations.TallyInstructions : Prop :=
  ∀ (s : State) (t : TileId) (f : RFields) (k : Nat) (v : W32),
    let x := s.tile t
    let n := f.fn.toNat
    let w := (x.reg f.rs1).setWidth 32
    x.pc + 4 < 262144 →
    (Runs s t (f.word 0x32) → Retires (.tset t f) s t (x.setTally n w) (x.pc + 4)) ∧
    (Runs s t (f.word 0x31) → Retires (.tsig t f) s t (x.setTally n (x.tally n + w)) (x.pc + 4)) ∧
    (Runs s t (f.word 0x33) → Retires (.trd t f) s t (x.setReg f.rd (BitVec.ofNat 64 (x.tally n).toNat)) (x.pc + 4)) ∧
    (Runs s t (f.word 0x30) → (x.tally n - w).toNat < 2 ^ 31 → Retires (.twait t f) s t x (x.pc + 4)) ∧
    (Runs s t (f.word 0x30) → ¬ (x.tally n - w).toNat < 2 ^ 31 → exec (.twait t f) s = .next (s.waits t (.tally n w))) ∧
    (Waits s t (.tally k v) → (x.tally k - v).toNat < 2 ^ 31 →
      exec (.tallyWaitRelease t) s = .next ((s.wakes t).retire t (x.pc + 4)))

/-- A tally of value T satisfies a wait value V when (T − V) mod 2^32 is below 2^31. -/
def Obligations.TallyComparison : Prop :=
  ∀ t v : W32, tallyOk t v = true ↔ ((t.toNat : Int) - v.toNat) % 2 ^ 32 < 2 ^ 31

/-- System instructions: RDSYS reads a register of Table 4.5 into RD (STEPS is a free value), WRSYS sets DSEQ, a WRSYS
of LACK releases the launch arguments, FENCE only goes on, EVPOST writes an event record, and HALT halts and counts. -/
def Obligations.SystemInstructions : Prop :=
  ∀ (s : State) (t : TileId) (rd r r2 : BitVec 5) (hi : BitVec 8) (f : RFields), (s.tile t).pc + 4 < 262144 →
    let x := s.tile t
    let own := x.owner.getD 0
    let R := fun (n : Nat) (v : W64) => Runs s t (encI 0x3C rd r n) →
      Retires (.rdsys t ⟨rd, r, BitVec.ofNat 16 n⟩) s t (x.setReg rd v) (x.pc + 4)
    R 0 (BitVec.ofNat 64 (s.vtOf own t)) ∧ R 1 (BitVec.ofNat 64 (s.vtiles own)) ∧
    R 2 (BitVec.ofNat 64 x.dseq.toNat) ∧ R 3 (BitVec.ofNat 64 s.timeNs) ∧ R 5 x.larg.a0 ∧ R 6 x.larg.a1 ∧ R 7 x.larg.a2 ∧
    R 8 x.larg.a3 ∧ R 9 (BitVec.ofNat 64 x.faultPc) ∧
    (Runs s t (encI 0x3C rd r 4) → ∃ v : W64, exec (.rdsys t ⟨rd, r, 4⟩) s =
      .next (({ s.setTile t (x.setReg rd v) with freeCtr := s.freeCtr + 1 } : State).retire t (x.pc + 4))) ∧
    (Runs s t (encI 0x3D rd r (hi.toNat * 256 + 2)) →
      Retires (.wrsysDseq t rd r hi) s t { x with dseq := BitVec.ofNat 32 (x.reg r).toNat } (x.pc + 4)) ∧
    (Runs s t (encI 0x3D rd r (hi.toNat * 256 + 10)) → exec (.wrsysLack t rd r hi) s = .next ((s.lackTile t).retire t (x.pc + 4))) ∧
    (x.argsHeld = true → s.pendingLaunch own t = none →
      s.lackTile t = s.setTile t { x with argsHeld := false, lacks := x.lacks + 1 }) ∧
    (Runs s t (encR 0x3E rd r r2 0) → Retires (.fence t rd r r2) s t x (x.pc + 4)) ∧
    (Runs s t (encR 0x3E rd r r2 1) →
      exec (.evpost t rd r r2) s = .next ((s.event .tseq t 2 x.owner (x.reg r).toNat false).retire t (x.pc + 4))) ∧
    (Runs s t (f.word 0x3F) → exec (.halt t f) s =
      .next (((s.seqGoto t .halted).onTile t (fun y => { y with halts := y.halts + 1 })).retire t (x.pc + 4)))

/-- A word at the PC that the sequencer does not implement, TSET or TSIG of t63 among them, raises ILLEGAL: whichever
instruction is commanded, no register and no memory of the tile changes, the PC stays, and FAULT_PC holds it. -/
def Obligations.IllegalWordsDoNotRetire : Prop :=
  ∀ (s : State) (t : TileId) (f : IFields) (g : RFields) (b : BFields) (rd r1 r2 : BitVec 5) (off : BitVec 21) (hi : BitVec 8)
      (sh : BitVec 6),
    let x := s.tile t
    (g.fn = 63 → seqWordOk (g.word 0x31) = false ∧ seqWordOk (g.word 0x32) = false) ∧
    (s.seqReady t = true → seqWordOk x.word = false →
      ∀ i ∈ [Instr.aluAdd t rd r1 r2, .aluSub t rd r1 r2, .aluAnd t rd r1 r2, .aluOr t rd r1 r2, .aluXor t rd r1 r2,
          .aluSll t rd r1 r2, .aluSrl t rd r1 r2, .aluSra t rd r1 r2, .aluMul t rd r1 r2, .aluMulhu t rd r1 r2,
          .aluMulh t rd r1 r2, .aluSlt t rd r1 r2, .aluSltu t rd r1 r2, .aluMin t rd r1 r2, .aluMax t rd r1 r2,
          .aluSext32 t rd r1 r2, .addi t f, .andi t f, .ori t f, .xori t f, .slti t f, .lui t f, .shiSll t rd r1 hi sh,
          .shiSrl t rd r1 hi sh, .shiSra t rd r1 hi sh, .beq t b, .bne t b, .blt t b, .bge t b, .bltu t b, .bgeu t b,
          .jal t rd off, .jalr t f, .lb t f, .lh t f, .lw t f, .ld t f, .sb t f, .sh t f, .sw t f, .sd t f, .sld t f,
          .sst t f, .dsw t f, .dld t f, .diss t f, .msend t g, .mrecv t g, .mtry t g, .mfree t g, .chcfg t g, .charm t g,
          .twait t g, .tsig t g, .tset t g, .trd t g, .rdsys t f, .wrsysDseq t rd r1 hi, .wrsysLack t rd r1 hi,
          .fence t rd r1 r2, .evpost t rd r1 r2, .halt t g],
        exec i s = .next ((s.setTile t { x with faultPc := x.pc, seqFault := true }).raiseT .tseq t 1))

/-! Descriptors, channels and the tile engines (spec/04 to spec/09). -/

/-- DISS on a well-formed slot queues its descriptor with the next sequence number where its queue has an entry free,
and waits where it has none; a waiting DISS does the same once an entry is free. A queued descriptor starts when it
heads its queue, nothing of the queue runs, its wait is satisfied, and no Gusset descriptor holds its unit; one that its
engine rejects is dropped with its errors raised. A descriptor whose writes are visible signals once: the engine is
free, its tally rises by 1 where its header says so, and no other tally, register or memory of the tile changes. -/
def Obligations.DescriptorsIssueStartAndSignal : Prop :=
  (∀ (s : State) (t : TileId) (f : IFields) (q : EngQ) (n : Nat),
     let x := s.tile t
     let raw := x.slotRaw n
     let e := x.eng q
     let issued := fun (s : State) => ((s.onTile t (fun y => { y.setEng q { y.eng q with
       queue := (y.eng q).queue ++ [{ raw := raw, dseq := y.dseq }] } with dseq := y.dseq + 1 })).countT .tseq t 3 (fld raw 0 0 4) 1).retire
         t (x.pc + 4)
     engQ (fld raw 0 0 4) = some q → headerOk raw n = true → x.pc + 4 < 262144 →
     (Runs s t (f.word 0x22) → f.imm.toNat % 16 = n → e.queue.length < 16 → exec (.diss t f) s = .next (issued s)) ∧
     (Runs s t (f.word 0x22) → f.imm.toNat % 16 = n → ¬ e.queue.length < 16 → exec (.diss t f) s = .next (s.waits t (.queue q n))) ∧
     (Waits s t (.queue q n) → e.queue.length < 16 → exec (.dissQueueEntryFreed t) s = .next (issued (s.wakes t)))) ∧
  (∀ (s : State) (t : TileId) (q : EngQ) (d : Desc) (l : List Desc),
     let x := s.tile t
     let s1 := s.setTile t (x.setEng q { x.eng q with queue := l })
     s.tileLive t = true → (x.eng q).run = none → (x.eng q).queue = d :: l →
     (d.waitEn = true → tallyOk (x.tally d.waitTally) d.waitValue = true) → (q = .opa ∨ q = .ve → x.gussetHolds = false) →
     exec (.descStart t q) s = .next (if (s1.checkDesc t q d).2 then (s1.checkDesc t q d).1
       else (s1.checkDesc t q d).1.onTile t (fun y => y.setEng q { y.eng q with
         run := some { desc := d, anchCol := (y.anchorsFor q d.raw).1, anchRow := (y.anchorsFor q d.raw).2 } }))) ∧
  (∀ (s : State) (t : TileId) (q : EngQ) (r : Run),
     let x := s.tile t
     let S := fun (i : Instr) (q : EngQ) => s.tileLive t = true → (x.eng q).run = some r → r.done = true →
       ∃ u, exec i s = .next u ∧ ((u.tile t).eng q).run = none ∧ ((u.tile t).eng q).queue = (x.eng q).queue ∧
         (∀ k, (u.tile t).tally k = if r.desc.sigEn = true ∧ k = r.desc.sigTally then x.tally k + 1 else x.tally k) ∧
         (u.tile t).regs = x.regs ∧ (u.tile t).mem = x.mem ∧ (u.tile t).pc = x.pc ∧ ∀ v, v ≠ t.val → u.tile v = s.tile v
     S (.descSignal t q) q ∧ S (.opaPassComplete t) .opa)

/-- A body sent to a tile of the same package is queued for that tile's endpoint with its source: tile, function,
virtual tile and endpoint. MSEND on a send endpoint that holds a grant of slots: a message within the slot size that can
be sent takes one credit; one that cannot raises CHAN_LOST and takes none; with no credit the instruction waits, and
goes on when one arrives. MRECV and MTRY return the oldest message that has arrived and not been returned, as its length
above its slot address; with none, MTRY returns all ones and MRECV waits, and goes on when one arrives. MFREE releases a
returned slot and sends one credit to the sender. -/
def Obligations.MessagesAreSentAndReturned : Prop :=
  (∀ (s : State) (t k d : Nat) (b : ChBody),
     let x := s.tile t
     let f := x.owner.getD 0
     (x.ep k).peerPkg = 0xFFFF → s.vtile f (x.ep k).peerVt = some d → s.pathOk t d = true →
     s.chSend t k b = ({ s with noc := s.noc ++
       [{ src := t, dst := d, ep := (x.ep k).peerEp, fn := f, srcPkg := 0xFFFF, srcVt := s.vtOf f t, srcEp := k, body := b }] }, true)) ∧
  (∀ (s s1 : State) (t : TileId) (f : RFields) (k size : Nat) (a n : W64) (ok : Bool),
     let x := s.tile t
     let e := x.ep k
     let body := ChBody.msg (x.bytes a.toNat n.toNat) (x.poisoned a.toNat n.toNat)
     let sent := if ok then (s1.onTile t (fun y => y.setEp k { y.ep k with credits := e.credits - 1 })).retire t (x.pc + 4)
       else s1.seqError t 128
     e.kind = .send → e.grant = .slots size → x.pc + 4 < 262144 → n.toNat ≤ size →
     (Runs s t (f.word 0x28) → f.fn.toNat = k → x.reg f.rs1 = a → x.reg f.rs2 = n →
       (e.credits ≠ 0 → tmOk .scalar false a.toNat n.toNat = true → s.chSend t k body = (s1, ok) → exec (.msend t f) s = .next sent) ∧
       (e.credits = 0 → exec (.msend t f) s = .next (s.waits t (.credit k a n)))) ∧
     (Waits s t (.credit k a n) → e.credits ≠ 0 → tmOk .scalar false a.toNat n.toNat = true → (s.wakes t).chSend t k body = (s1, ok) →
       exec (.msendCreditTaken t) s = .next sent)) ∧
  (∀ (s s1 : State) (t : TileId) (f : RFields) (rd : BitVec 5) (k len : Nat) (rest : List Nat),
     let x := s.tile t
     let e := x.ep k
     let e1 := { e with lens := rest, returned := e.returned + 1 }
     let v := BitVec.ofNat 64 (len * 2 ^ 32 + e.base + e.returned % (e.slotsM1 + 1) * 2 ^ e.slotLog2)
     e.kind = .recvInline → x.pc + 4 < 262144 →
     (f.fn.toNat = k →
       (Runs s t (f.word 0x29) → e.lens = len :: rest → Retires (.mrecv t f) s t ((x.setEp k e1).setReg f.rd v) (x.pc + 4)) ∧
       (Runs s t (f.word 0x2A) → e.lens = len :: rest → Retires (.mtry t f) s t ((x.setEp k e1).setReg f.rd v) (x.pc + 4)) ∧
       (Runs s t (f.word 0x2A) → e.lens = [] → Retires (.mtry t f) s t (x.setReg f.rd (BitVec.allOnes 64)) (x.pc + 4)) ∧
       (Runs s t (f.word 0x29) → e.lens = [] → exec (.mrecv t f) s = .next (s.waits t (.recv k f.rd))) ∧
       (Runs s t (f.word 0x2B) → e.freed < e.returned → s.chSend t k .credit = (s1, true) → exec (.mfree t f) s =
         .next ((s1.onTile t (fun y => y.setEp k { y.ep k with freed := (y.ep k).freed + 1 })).retire t (x.pc + 4)))) ∧
     (Waits s t (.recv k rd) → e.lens = len :: rest → exec (.mrecvMessageReturned t) s =
       .next (((s.wakes t).setTile t ((((s.wakes t).tile t).setEp k e1).setReg rd v)).retire t (x.pc + 4))))

/-- CHCFG configures an unconfigured endpoint from its record, whose peer is in the function's maps; CHARM sends the
grant of a receive endpoint once. -/
def Obligations.ChannelSetup : Prop :=
  ∀ (s s1 : State) (t : TileId) (f : RFields) (e : Endpoint),
    let x := s.tile t
    let k := f.fn.toNat
    let a := (x.reg f.rs1).toNat
    let armed := (s1.onTile t (fun y => y.setEp k { y.ep k with armed := true })).retire t (x.pc + 4)
    x.pc + 4 < 262144 →
    (Runs s t (f.word 0x2C) → tmOk .scalar false a 24 = true → x.poisoned a 24 = false → s.chRecord t (x.rd a 24) = some e →
      s.peerBad (x.owner.getD 0) (x.rd a 24) = false → (x.ep k).kind = .unconf → Retires (.chcfg t f) s t (x.setEp k e) (x.pc + 4)) ∧
    (Runs s t (f.word 0x2D) → (x.ep k).armed = false →
      ((x.ep k).kind = .recvInline → s.chSend t k (.grantSlots (2 ^ (x.ep k).slotLog2) ((x.ep k).slotsM1 + 1)) = (s1, true) →
        exec (.charm t f) s = .next armed) ∧
      ((x.ep k).kind = .recvBulk → s.chSend t k (.grantBulk (x.ep k).window) = (s1, true) → exec (.charm t f) s = .next armed))

/-- Packets that reach the endpoint they are meant for, from its configured peer: a message lands in the next slot and
then bumps the tally; bulk data that no slab controller refuses lands in the window and, with its last byte, is
acknowledged; an acknowledgement lets a BULK_SEND signal; a grant and a credit reach the sender. A stop notice or an
unreachable notice for a running function raises CHAN_LOST where an endpoint of the tile has the notice's package and
function as its peer, and is dropped where none has. -/
def Obligations.ChannelPacketsAndNoticesArrive : Prop :=
  (∀ (s : State) (t : TileId) (ep : Idx64) (p : ChPkt) (rest : List ChPkt),
     let x := s.tile t
     let Arrives := fun (ep : Nat) (k : ChKind) => s.tileLive t = true ∧
       takeInOrder t (fun p => p.ep = ep && p.body.kind (x.ep ep).grant = k) [] s.noc = some (p, rest) ∧
       x.owner = some p.fn ∧ s.fnTakes p.fn = true ∧ (x.ep ep).kind = k.takenBy ∧
       ({ s with noc := rest } : State).fromPeer p.fn (x.ep ep) p = true ∧ p.body.kind (x.ep ep).grant = k
     let s1 := { s with noc := rest }
     let e := x.ep ep
     (∀ d po, Arrives ep .msg → p.body = .msg d po → e.part = none → p.srcPkg = 0xFFFF →
       exec (.chanMsgArrive t ep) s = .next (s1.setTile t
         (((x.write (e.base + e.arrived % (e.slotsM1 + 1) * 2 ^ e.slotLog2) d po).setEp ep
           { e with arrived := e.arrived + 1, lens := e.lens ++ [d.length], part := none }).bump e))) ∧
     (∀ off d po, Arrives ep .bulk → p.body = .bulk off d po false → off + d.length ≤ e.window →
       s1.landRefused t e p off d.length = none →
       exec (.chanBulkArrive t ep) s = .next ((s1.writeWindow t e off (d.zip po)).countT .dma t 1 5 d.length)) ∧
     (∀ off d po, Arrives ep .bulk → p.body = .bulk off d po true → off + d.length ≤ e.window →
       s1.landRefused t e p off d.length = none →
       exec (.chanBulkArrive t ep) s = .next ((((s1.writeWindow t e off (d.zip po)).countT .dma t 1 5 d.length).onTile t
         (fun y => y.bump e)).chSendOrLost t ep .bulkAck)) ∧
     (∀ r, x.dma.run = some r → Arrives (fld r.desc.raw 40 0 6) .ack → r.ack = true →
       exec (.bulkAckArrive t) s = .next (s1.setTile t
         { x with dma := { x.dma with run := some { r with ack := false, done := true } } })) ∧
     (∀ z n, Arrives ep .grant → p.body = .grantSlots z n → exec (.chanGrantArrive t ep) s =
       .next (s1.setTile t (x.setEp ep { e with grant := .slots z, credits := n }))) ∧
     (∀ z, Arrives ep .grant → p.body = .grantBulk z → exec (.chanGrantArrive t ep) s =
       .next (s1.setTile t (x.setEp ep { e with grant := .bulk z }))) ∧
     (Arrives ep .credit → (∀ z, e.grant ≠ .bulk z) → exec (.chanCreditArrive t ep) s =
       .next (s1.setTile t (x.setEp ep { e with credits := e.credits + 1 })))) ∧
  (∀ (s : State) (t : TileId) (p : ChPkt) (rest : List ChPkt),
     let x := s.tile t
     let N := fun (i : Instr) (k : ChKind) => s.tileLive t = true →
       takeInOrder t (fun p => p.body.kind .none = k) [] s.noc = some (p, rest) → x.owner = some p.fn →
       (s.fn p.fn).st = .running →
       exec i s = .next (if ∃ n ∈ List.range 64, (x.ep n).kind ≠ .unconf ∧ (x.ep n).peerPkg ≠ 0xFFFF ∧
           ((s.fn p.fn).peers.get {} (x.ep n).peerPkg).valid = true ∧
           p.srcPkg = 0x10000 + ((s.fn p.fn).peers.get {} (x.ep n).peerPkg).addr ∧
           ((s.fn p.fn).peers.get {} (x.ep n).peerPkg).fn = p.ep
         then ({ s with noc := rest } : State).chanErr t 7 else { s with noc := rest })
     N (.stopNoticeArrive t) .stop ∧ N (.unreachableNoticeArrive t) .unreachable)

/-- The vector engine's operations run the operation of their running descriptor over its walk, vector by vector or row
by row, then finish it: their writes are visible and it may signal. ACC_READ runs over its walk, finishes with the valid
rows of its bank, and with RELEASE returns the drain tokens of the rows below E1. The special functions run over the
walk of their descriptor: the built-in function of the code, or the pattern of the slot that the code names, unchecked
where the pattern has no monotonicity pass. -/
def Obligations.VectorAndSpecialFunctions : Prop :=
  (∀ (s : State) (t : TileId) (r : Run), s.tileLive t = true → (s.tile t).ve.run = some r → r.done = false →
     r.desc.engine = 1 →
     let v := VeD.of r.desc.raw
     let V := fun (i : Instr) (op : Nat) (g : VeAcc → Vec → VeAcc) => r.desc.op = op →
       exec i s = .next ((s.veFinish t v v.walk.length (v.walk.foldl g (s.veStart t r.desc))).engDone t .ve)
     let R := fun (i : Instr) (op : Nat) (g : VeAcc → Nat → List Vec → VeAcc) => r.desc.op = op →
       exec i s = .next ((s.veFinish t v v.walk.length ((v.rows v.red).foldl (fun a p => g a p.1 p.2) (s.veStart t r.desc))).engDone t .ve)
     V (.veCvt t) 0x01 (fun a => a.map1 v id) ∧ V (.veAdd t) 0x02 (fun a => a.map2 v Machine.Num.add) ∧
     V (.veSub t) 0x03 (fun a => a.map2 v Machine.Num.sub) ∧ V (.veMul t) 0x04 (fun a => a.map2 v Machine.Num.mul) ∧
     V (.veMuladd t) 0x05 (fun a => a.mulAdd v) ∧ V (.veMax t) 0x06 (fun a => a.map2 v Machine.Num.max) ∧
     V (.veMin t) 0x07 (fun a => a.map2 v Machine.Num.min) ∧ V (.veMuls t) 0x08 (fun a => a.useParam.map1 v (fun x => x.mul v.paramNum)) ∧
     R (.veRsum t) 0x10 (fun a => a.rsum v) ∧ R (.veRmax t) 0x11 (fun a => a.rext v Machine.Num.max) ∧
     R (.veRmin t) 0x12 (fun a => a.rext v Machine.Num.min) ∧ R (.veLnorm t) 0x18 (fun a => a.norm v) ∧
     R (.veRmsnorm t) 0x19 (fun a => a.norm v) ∧ V (.veRope t) 0x20 (fun a => a.rope v) ∧
     V (.veGather t) 0x28 (fun a => a.gather v) ∧ V (.vePermute t) 0x29 (fun a => a.permute v) ∧
     R (.veTopk t) 0x30 (fun a => a.topk v) ∧ R (.veArgmax t) 0x31 (fun a => a.topk v) ∧ R (.veSample t) 0x32 (fun a => a.sample v) ∧
     V (.veSeamAdd t) 0x39 (fun a => a.seamAdd v) ∧ V (.veSeamCvt t) 0x3A (fun a => a.seamCvt v)) ∧
  (∀ (s : State) (t : TileId) (r : Run), s.tileLive t = true → (s.tile t).ve.run = some r → r.done = false →
     r.desc.engine = 1 → r.desc.op = 0x38 →
     let v := VeD.of r.desc.raw
     let valid := v.walk.filter (fun w => ((s.tile t).bank v.bank).rowValid.getLsbD w.l1)
     let s1 := s.veFinish t v valid.length (v.walk.foldl (fun a w => a.accRead v w) (s.veStart t r.desc))
     exec (.veAccRead t) s = .next ((if v.release then s1.onTile t (fun x => x.setBank v.bank { x.bank v.bank with
       held := (x.bank v.bank).held &&& ~~~(rowMask v.e1) }) else s1).engDone t .ve)) ∧
  (∀ (s : State) (t : TileId) (r : Run) (p : PatSlot) (q : Pattern), s.tileLive t = true → (s.tile t).ve.run = some r →
     r.done = false → r.desc.engine = 2 →
     let F := fun (i : Instr) (op : Nat) => r.desc.op = op → exec i s = .next (s.sfuRun t r (sfuBuiltin op) false)
     F (.sfuExp2 t) 0x01 ∧ F (.sfuLog2 t) 0x02 ∧ F (.sfuReciprocal t) 0x03 ∧ F (.sfuRsqrt t) 0x04 ∧ F (.sfuSqrt t) 0x05 ∧
     F (.sfuTanh t) 0x06 ∧ F (.sfuSigmoid t) 0x07 ∧ F (.sfuErf t) 0x08 ∧ F (.sfuGelu t) 0x09 ∧ F (.sfuSilu t) 0x0A ∧
     F (.sfuSin t) 0x0B ∧ F (.sfuCos t) 0x0C ∧
     (0x40 ≤ r.desc.op → r.desc.op ≤ 0x7F → (s.tile t).patterns.get none (r.desc.op - 0x40) = some p →
       Pattern.parse p.image = some q → exec (.sfuPattern t) s = .next (s.sfuRun t r q.eval (!p.monotone))))

/-- The outer-product array. A pass that starts runs its valid rows in ascending order up to the first whose drain token
is HELD; the rows from there on wait. The first waiting row starts once its token is free, and the rows after it follow,
up to the next HELD one. Where no row is left, the bank record is committed and the pass is done. -/
def Obligations.OuterProductPasses : Prop :=
  ∀ (s : State) (t : TileId) (r : Run) (row : Idx64) (c w : FSpec), s.tileLive t = true → (s.tile t).opa.run = some r →
    r.done = false → r.desc.op = 1 →
    let d := OpaD.of r.desc.raw
    let ls := (s.tile t).rowLines d w r.anchRow (passClass c w).window
    let free := fun (s : State) (i : Nat) => !((s.tile t).bank d.bank).held.getLsbD i
    let goes := fun (s : State) (l : List Nat) => l.takeWhile (free s)
    let waits := fun (s : State) (l : List Nat) => l.dropWhile (free s)
    let after := fun (s : State) (l : List Nat) (f : SMap (BitVec 3)) =>
      ({ r with begun := true, rowFlags := f, rows := BitVec.ofNat 64 ((waits s l).foldl (fun m i => m + 2 ^ i) 0),
                done := (waits s l).isEmpty } : Run)
    let runs := fun (s : State) (l : List Nat) (f : SMap (BitVec 3)) =>
      let u := (goes s l).foldl (fun s i => s.opaRow t d (after s l f) c w ls i) s
      (if waits s l = [] then u.onTile t (fun x => x.commitPass d (after s l f) c w) else u).onTile t
        (fun x => { x with opa := { x.opa with run := some (after s l f) } })
    let flags := if d.rows = [] then [] else ls.zipIdx.foldl (fun (m : SMap (BitVec 3)) l => m.set 0 l.2 (lineFlags l.1.ev l.1.poison)) []
    FSpec.parse d.col.fmt false = some c → FSpec.parse d.row.fmt false = some w →
    (r.begun = false → exec (.opaPass t) s = .next (runs (s.opaBegin t d c w ls) d.rows flags)) ∧
    (r.begun = true → (r.waiting d).head? = some row.val → exec (.opaRowStart t row) s = .next (runs s (r.waiting d) r.rowFlags))

/-- The attention gusset: a descriptor first acquires the array, the vector engine and the special functions; then
ATTEND reads each slot once for its rows, REBASE and FINALISE treat each row, and RECOMPUTE writes the probabilities;
each leaves the banks' rows invalid and may then signal. -/
def Obligations.GussetOperations : Prop :=
  ∀ (s : State) (t : TileId) (r : Run), s.tileLive t = true → (s.tile t).gus.run = some r → r.done = false →
    let x := s.tile t
    let d := GusD.of r.desc.raw
    let Done := fun (u : State) => (u.onTile t (fun x => { x with bank0 := { x.bank0 with rowValid := 0 },
                                                                  bank1 := { x.bank1 with rowValid := 0 } })).engDone t .gus
    let q := r.anchCol
    (r.acquired = false → x.arrayFree = true → x.ve.run = none →
      exec (.gusAcquire t) s = .next (s.setTile t { x with gus := { x.gus with run := some { r with acquired := true } } })) ∧
    (r.acquired = true → r.desc.op = 2 → exec (.gusRebase t) s = .next (Done (d.rows.foldl (fun s r => s.rebaseRow t d r) s))) ∧
    (r.acquired = true → r.desc.op = 3 → exec (.gusFinalise t) s = .next (Done (d.rows.foldl (fun s r => s.finaliseRow t d r) s))) ∧
    (r.acquired = true → r.desc.op = 1 → exec (.gusAttend t) s =
      let c := (List.range d.nslot).foldl (fun (p : State × Nat) i =>
        let rows := d.rows.filter (fun r => d.slotOf r = i)
        let b := p.1.readSlot (s.ownerOr0 t) t d i
        if rows.isEmpty then p
        else ((rows.foldl (fun s r => s.attendRow t d q b.2.1 b.2.2 r) b.1).countT .gus t 5 0 b.2.1.length, max p.2 b.2.1.length))
        (s, 0)
      .next (Done (c.1.gusSteps t d c.2))) ∧
    (r.acquired = true → r.desc.op = 4 → exec (.gusRecompute t) s =
      let c := (List.range d.nslot).foldl (fun (p : State × Nat) i =>
        let rows := d.rows.filter (fun r => d.slotOf r = i)
        let sl := (p.1.tile t).slot8 d i
        let b := p.1.readSlot (s.ownerOr0 t) t d i
        if rows.isEmpty then p
        else if !sl.valid then (b.1, p.2)
        else ((rows.foldl (fun s r => s.recomputeRow t d q sl b.2.1 b.2.2 r) b.1).countT .gus t 5 0 b.2.1.length,
          max p.2 b.2.1.length)) (s, 0)
      .next (Done (c.1.gusSteps t d c.2)))

/-- The page walker: an APPEND first writes the status 0xFF of the rows that are not valid, then appends one row at each
turn, in ascending order, and is done with its last; INVALIDATE drops the look-aside entries of its function that its
scope names and no other. The DMA engine, where no slab controller refuses a range any more: COPY copies its rows in
ascending order, FILL writes its pattern to each row, BULK_SEND sends its rows to the peer and then waits for the
acknowledgement. Where one refuses, RANGE is raised once and nothing moves. -/
def Obligations.PageWalkerAndDma : Prop :=
  (∀ (s : State) (t : TileId) (r : Run) (sp : FSpec), s.tileLive t = true → (s.tile t).pw.run = some r → r.done = false →
     let x := s.tile t
     let d := AppD.of r.desc.raw
     let f := s.ownerOr0 t
     let raw := r.desc.raw
     let tag := fld raw 12 0 24
     let left := if r.begun then d.rows.filter (fun i => r.rows.getLsbD i) else d.rows
     let s1 := if r.begun then s else s.onTile t (fun x =>
       ((List.range 64).filter (fun i => !d.rows.contains i)).foldl (fun x i => x.write (d.status + i) [0xFF] false) x)
     let left' := fun (u : State) (l : List Nat) => u.onTile t (fun x => { x with pw := { x.pw with run := some { r with
       begun := true, done := l.isEmpty, rows := BitVec.ofNat 64 (l.foldl (fun m i => m + 2 ^ i) 0) } } })
     (r.desc.op = 1 → d.src = some sp → left = [] → exec (.pwAppend t) s = .next (left' s1 [])) ∧
     (∀ i l, r.desc.op = 1 → d.src = some sp → left = i :: l → exec (.pwAppend t) s =
       .next (left' (s1.appendRow t f d sp { seed := (s.fn f).seed, dseq := r.desc.dseq, tile := t } i) l)) ∧
     (r.desc.op = 2 → ∃ u, exec (.pwInvalidate t) s = .next u ∧
       (u.tile t).plb = x.plb.filter (fun p => !(decide (p.fn = f) && (match fld raw 8 0 2 with
         | 0 => true
         | 1 => decide (p.tag = tag)
         | _ => decide (p.tag = tag) && decide (fld raw 16 0 32 ≤ p.page) && decide (p.page < fld raw 20 0 32)))) ∧
       (u.tile t).pw.run = some { r with done := true } ∧ (u.tile t).mem = x.mem ∧ (u.tile t).regs = x.regs)) ∧
  (∀ (s : State) (t : TileId) (r : Run), s.tileLive t = true → (s.tile t).dma.run = some r → r.done = false → r.begun = false →
     r.ack = false →
     let d := DmaD.of r.desc.raw
     let f := s.ownerOr0 t
     let lost := s.dmaLost t r.desc.raw
     let rows := (rowStarts d.src d.srcPitch d.rows).zip (rowStarts d.dst d.dstPitch d.rows)
     let stays := fun (u : State) (r : Run) => u.onTile t (fun x => { x with dma := { x.dma with run := some r } })
     (r.desc.op = 1 → lost = [] → exec (.dmaCopy t) s =
       let c := s.copyRows f t d (s.copyOpen f t d) true rows
       .next (((if c.2 then c.1.raiseT .dma t 8 else c.1).countDma t d).engDone t .dma)) ∧
     (r.desc.op = 3 → lost = [] → exec (.dmaFill t) s =
       .next ((((rowStarts d.dst d.dstPitch d.rows).foldl
         (fun s a => s.putLines f t d.dstSpace a (fillRow d.pattern d.rowBytes) []) s).countDma t d).engDone t .dma)) ∧
     (r.desc.op = 2 → lost = [] → exec (.dmaBulkSend t) s =
       let c := s.sendRows f t d rows
       let s1 := if c.2.1 then c.1.raiseT .dma t 8 else c.1
       .next (stays ((if c.2.2 then s1 else s1.chanErr t 7).countDma t d) { r with ack := true })) ∧
     (lost ≠ [] →
       let u := stays ((lost.foldl (fun s c => s.reportRefused f c) s).raiseT .dma t 2) { r with begun := true }
       (r.desc.op = 1 → exec (.dmaCopy t) s = .next u) ∧ (r.desc.op = 3 → exec (.dmaFill t) s = .next u) ∧
       (r.desc.op = 2 → exec (.dmaBulkSend t) s = .next u)))

/-! Skelist messages and commands (spec/11, spec/12, spec/19). -/

/-- A datagram on the Skelist port that was sent to one of the package's addresses, or an unsigned IDENTIFY sent to a
discovery address, is received by R335 from order 9 on, with the link up, outside the safe state; any other is not. A
core that runs submits its mailbox: an admissible request of its own function waits with GO set. An accepted request
waits in the queue of commands; beyond 64 in progress it is answered BUSY, and a command that the package does not
implement UNSUPPORTED. -/
def Obligations.SkelistMessagesAreReceived : Prop :=
  (∀ (s : State) (m : List Byte) (a : UdpAddr) (d : BitVec 128) (c : CoreId) (f : Nat),
     let x := s.core c
     let box := (List.range 256).map (fun i => x.request.get 0 i)
     let n := beAt box 6 2
     let s1 := s.onCore c (fun x => { x with go := true })
     let find := discoveryAddr d = true ∧ beAt m 0 2 = 0x0101 ∧ beAt m 4 2 = 0xFFFF
     (s.boot.pgood = true → s.fatal.cause = 0 → 9 ≤ s.boot.order → s.eth.link = true → s.eth.addrs.contains d = true ∨ find →
       exec (.skelistMessageReceive m ⟨a, d⟩) s = .next (s.receiveMsg m (.udp a))) ∧
     (s.fatal.cause ≠ 0 ∨ s.boot.order < 9 ∨ s.eth.link = false ∨ (s.eth.addrs.contains d = false ∧ ¬ find) →
       exec (.skelistMessageReceive m ⟨a, d⟩) s = .next s) ∧
     (s.coreRuns c = true → x.fn = some f → x.go = false → n ≤ 224 → beAt box 3 1 % 4 = 0 → beAt box 4 2 = f →
       exec (.mailboxGo c) s = .next (s1.accept ⟨beAt box 0 2, f, beAt box 8 8, (box.drop 16).take n, .mailbox c, s1.keyOf f⟩))) ∧
  (∀ (s : State) (r : Req),
     (64 ≤ s.thm.queue.length + s.thm.long.length → s.accept r = s.reply r stBusy []) ∧
     (s.thm.queue.length + s.thm.long.length < 64 → skelistCodes.contains r.cmd = false → s.accept r = s.reply r stUnsupported []) ∧
     (s.thm.queue.length + s.thm.long.length < 64 → skelistCodes.contains r.cmd = true → r.cmd ≠ 0x0305 →
       s.accept r = { s with thm := { s.thm with queue := s.thm.queue ++ [r] } }))

/-- A message whose lengths or reserved flags are wrong, or whose function is FREE, or whose authentication code is
right under no key that the function may use, is dropped: only the counter of dropped messages changes. An authentic
message whose sequence number is above the last accepted one is accepted once: it becomes the function's last sequence
number, is kept with the sixteen last accepted, and is admitted; the same bytes again repeat the kept reply and change
nothing but the destination's output. -/
def Obligations.AuthenticMessagesAreAcceptedOnce : Prop :=
  (∀ (s : State) (m : List Byte) (src : MsgDest),
     let n := beAt m 6 2
     let f := beAt m 4 2
     let mac := (m.drop (16 + n)).take 16
     let right := fun (k : BitVec 256) => mac = mac16 k (beBytes 4 s.thm.bootEpoch.toNat ++ m.take (16 + n))
     let dropped := s.receiveMsg m src = s.count .thm 0 1 0 0 1
     (m.length < 32 ∨ m.length ≠ 32 + n ∨ 224 < n ∨ beAt m 3 1 % 4 ≠ 0 → dropped) ∧
     (f ≠ 0xFFFF → (s.fn f).st = .free → dropped) ∧
     (f ≠ 0xFFFF → (∀ k, s.keyOf f = some k → ¬ right k) → (f = 0 → ¬ right s.fuses.claimKey) → dropped)) ∧
  (∀ (s : State) (m : List Byte) (src : MsgDest) (k : BitVec 256),
     let n := beAt m 6 2
     let f := beAt m 4 2
     let q := beAt m 8 8
     let x := s.fn f
     let acc := x.accepted ++ [{ seq := q, bytes := m, reply := none }]
     let r : Req := { cmd := beAt m 0 2, fn := f, seq := q, payload := (m.drop 16).take n, src := src, key := some k }
     m.length = 32 + n → n ≤ 224 → beAt m 3 1 % 4 = 0 → f < 1024 → x.st ≠ .free → s.keyOf f = some k →
     (m.drop (16 + n)).take 16 = mac16 k (beBytes 4 s.thm.bootEpoch.toNat ++ m.take (16 + n)) →
     (x.lastSeq < q → s.receiveMsg m src = (s.setFn f { x with lastSeq := q, accepted := acc.drop (acc.length - 16) }).accept r) ∧
     (∀ a b, q ≤ x.lastSeq → x.accepted.find? (fun a => a.seq = q && a.bytes = m) = some a → a.reply = some b →
       s.receiveMsg m src = s.sendMsg src b))

/-- IDENTIFY, CLAIM, REKEY, SERVICE_CFG and QUOTE where none of their refusals applies. CLAIM and REKEY set the key only
after the reply and end what the old key accepted; a quote takes one signature index. The tag area and the firmware
slots, under the operator key, where none of the refusals applies. -/
def Obligations.IdentityTagAndFirmware : Prop :=
  (∀ (s s0 : State) (r : Req),
     let p := r.payload
     let f := beAt p 0 2
     let off := beAt p 32 8
     let body := s0.quoteBody r.fn (p.take 32) (beAt p 40 1 = 1)
     let sig := (List.range 3604).map (fun i => Config.fuseByte (4096 + s0.boot.nextSig * 3604 + i))
     let fresh := fun (k : BitVec 256) (x : Fn) => { x with key := k, lastSeq := 0, accepted := [] }
     let key := s0.unwrap r (s0.thm.opKey.getD 0) labelFnkey f ((p.drop 2).take 32)
     let s1 := ((s0.reply r stOk []).closeConns f).onFn f (fresh key)
     let s2 := (s0.reply r stOk []).onFn 0 (fun x => { x with lastSeq := 0, accepted := [] })
     let off3 : State := { s0 with thm := { s0.thm with defaultMem := false } }
     let s3 := (((List.range 10).map (· + 1)).filter (fun g => (s0.fn g).service)).foldl (fun s g =>
       if (s.fn g).st = .running then s.beginStop g false none else if (s.fn g).st = .stopped then s.destroyFn g else s) off3
     let claimed := s0.unwrap r s0.fuses.claimKey labelClaim 0 (p.take 32)
     (Takes s 0x0101 r s0 → payOk p [] = true → exec .identify s = .next (s0.reply r stOk s0.identity)) ∧
     (Takes s 0x0102 r s0 → r.fn = 0 → s0.thm.opKey = none → r.key = some s0.fuses.claimKey → payOk p [(0, 32)] = true →
       s0.tacked = false →
       exec .claim s = .next ({ s2 with thm := { s2.thm with opKey := some claimed } } : State).startServices) ∧
     (Takes s 0x0103 r s0 → r.notOperator = false → f < 1024 → (s0.fn f).st = .stopped → s0.longOn f = false → s0.tacked = false →
       payOk p [(0, 2), (2, 32)] = true →
       exec .rekey s = .next (if f = 0 then { s1 with thm := { s1.thm with opKey := some key } } else s1)) ∧
     (Takes s 0x0104 r s0 → r.notOperator = false → payOk p [(0, 1)] = true → s0.tacked = false → s0.longOn 1024 = false →
       (beAt p 0 1 = 1 →
         exec .serviceCfg s = .next ({ s0 with thm := { s0.thm with defaultMem := true } }.reply r stOk [])) ∧
       (beAt p 0 1 = 0 → exec .serviceCfg s = .next (if s3.fns.any (fun e => e.2.service) then
           { s3 with thm := { s3.thm with long := s3.thm.long ++ [{ req := r, fn := 1024 }] } }
         else s3.reply r stOk []))) ∧
     (Takes s 0x0201 r s0 → payOk p [(0, 32), (32, 8), (40, 1)] = true → beAt p 40 1 ≤ 1 →
       s0.winOk r.fn off (body.length + 3604) true = true → s0.tacked = false →
       (∀ l ∈ s0.thm.long, l.fn = r.fn → l.req.cmd ∉ quoteConflicts) → s0.flash.failed = false → s0.boot.nextSig < 2 ^ 40 →
       exec .quote s = .next (((s0.takeSig).winWrite r.fn off (body ++ sig)).holdLong r r.fn stOk (beBytes 4 (body.length + 3604))))) ∧
  (∀ (s s0 s1 : State) (r : Req) (bs : List Byte),
     let p := r.payload
     let o := beAt p 0 2
     let n := beAt p 2 1
     let k := 1 - s0.boot.slot
     let v := beAt p 0 1
     let S := fun (c : Nat) (l : List (Nat × Nat)) => Takes s c r s0 ∧ r.notOperator = false ∧ payOk p l = true
     let quiet := s0.tacked = false ∧ s0.trialRuns = false ∧ (∀ l ∈ s0.thm.long, l.req.cmd ≠ 0x0D01)
     (S 0x0C01 [(0, 2), (2, 1)] → 1 ≤ n → n ≤ 224 → o + n ≤ 4096 →
       exec .tagRead s = .next (s0.reply r stOk (s0.flash.tagBytes o n))) ∧
     (S 0x0C02 [(0, 2), (2, 1), (8, n)] → s0.flash.locked = false → 1 ≤ n → n ≤ 216 → 16 ≤ o → o + n ≤ 4096 → s0.tacked = false →
       s0.flash.failed = false → s0.flash.count < 2 ^ 32 - 1 →
       let s1 := { s0 with flash := s0.flash.tagWrite o ((p.drop 8).take n) }
       exec .tagWrite s = .next (s1.reply r stOk (beBytes 4 s1.flash.count))) ∧
     (S 0x0C03 [] → s0.tacked = false → s0.flash.locked = true → exec .tagLock s = .next (s0.reply r stOk [])) ∧
     (S 0x0C03 [] → s0.tacked = false → s0.flash.locked = false → s0.flash.count < 2 ^ 32 - 1 →
       exec .tagLock s = .next ({ s0 with flash := s0.flash.tagWrite 6 (toLe 2 1) }.reply r stOk [])) ∧
     (S 0x0D01 [(0, 2), (8, 8), (16, 4), (24, 32)] → o < 1024 → (s0.fn o).st ≠ .free → beAt p 16 4 ≤ 100659200 → quiet →
       s0.readImage o (beAt p 8 8) (beAt p 16 4) ((p.drop 24).take 32) = (s1, some bs) →
       let x : Slot := { (s1.slot k) with state := .valid, tried := false, factory := false, region := putBytes [] 0 bs }
       exec .fwStage s = .next (if s1.bootable x then (s1.setSlot k x).holdLong r o stOk []
         else (s1.setSlot k { x with state := .empty }).reply r stBadArg [])) ∧
     (S 0x0D02 [(0, 1)] → v ≤ 1 → quiet → (∀ e ∈ s0.fns, e.2.service = true ∨ e.2.st ≠ .running ∧ e.2.st ≠ .stopping) →
       (v = s0.boot.slot → (s0.slot v).state = .active → exec .fwActivate s = .next (s0.reply r stOk [])) ∧
       (v = s0.boot.slot → (s0.slot v).state = .valid → exec .fwActivate s = .next ((s0.commitSlot v).reply r stOk [])) ∧
       (v ≠ s0.boot.slot → (s0.slot v).state = .valid → s0.bootable (s0.slot v) = true → exec .fwActivate s =
         .next (((s0.setSlot v { s0.slot v with state := .trial, tried := false }).reply r stOk []).doReset))) ∧
     (S 0x0D03 [] → exec .fwQuery s = .next (s0.reply r stOk (beBytes 1 s0.boot.slot ++ beBytes 1 (bit s0.trialRuns 0) ++
       beBytes 1 s0.fuses.floor ++ List.replicate 5 0 ++ s0.slotBytes 0 ++ s0.slotBytes 1))))

/-- Creating, destroying, starting, stopping and querying a function, where none of the refusals applies. The stop of a
function (Table 11.4): a charge stops it in ABORT mode, the drain limit cuts what still runs, and with nothing started
left it becomes STOPPED, its stop command answered. -/
def Obligations.FunctionsStartAndStop : Prop :=
  (∀ (s s0 : State) (r : Req),
     let p := r.payload
     let f := beAt p 0 2
     let g := r.fn
     let x := s0.fn g
     (Takes s 0x0301 r s0 → r.notOperator = false → payOk p [(0, 2), (2, 32)] = true → 0 < f → f < 1024 → s0.tacked = false →
       (s0.fn f).st = .free → s0.inService f = false → exec .fnCreate s = .next ((s0.setFn f
         { st := .stopped, evSeq := (s0.fn f).evSeq, key := s0.unwrap r (s0.thm.opKey.getD 0) labelFnkey f ((p.drop 2).take 32) }).reply r stOk [])) ∧
     (Takes s 0x0302 r s0 → r.notOperator = false → payOk p [(0, 2)] = true → 0 < f → f < 1024 → (s0.fn f).st = .stopped →
       s0.longOn f = false → s0.tacked = false → exec .fnDestroy s = .next ((s0.destroyFn f).reply r stOk [])) ∧
     (Takes s 0x0303 r s0 → payOk p [] = true → s0.longOn g = false → s0.tacked = false →
       (x.st = .running → exec .fnStart s = .next (s0.reply r stOk [])) ∧
       (x.st = .stopped → (∀ v ∈ x.vtmap, ∃ t, v = some t ∧ (s0.tile t).retired = false) →
         s0.pathsOk (s0.tilesOf g) (s0.coresOf g) = true → exec .fnStart s = .next ((s0.startFn g).reply r stOk []))) ∧
     (∀ c, Takes s 0x0304 r s0 → payOk p [(0, 1)] = true → beAt p 0 1 ≤ 1 → x.st = .running → x.charge = some c →
       exec .fnStop s = .next (((s0.recordFault c).beginStop g true (some c)).reply r stOk [])) ∧
     (Takes s 0x0304 r s0 → payOk p [(0, 1)] = true → beAt p 0 1 ≤ 1 → x.st = .running → x.charge = none →
       let s1 := s0.beginStop g (beAt p 0 1 = 1) none
       exec .fnStop s = .next { s1 with thm := { s1.thm with long := s1.thm.long ++ [{ req := r, fn := g }] } }) ∧
     (Takes s 0x0304 r s0 → payOk p [(0, 1)] = true → beAt p 0 1 ≤ 1 → x.st = .stopping →
       exec .fnStop s = .next ((if beAt p 0 1 = 1 ∧ x.abort = false then (s0.onFn g (fun x => { x with abort := true })).cutAll g
         else s0).reply r stOk [])) ∧
     (Takes s 0x0307 r s0 → payOk p [] = true → exec .fnQuery s = .next (s0.reply r stOk (beBytes 4 x.stateReg ++
       beBytes 1 (s0.tilesOf g).length ++ beBytes 1 (s0.coresOf g).length ++ beBytes 2 (s0.ringsOf g).length ++ beBytes 2 x.fences ++
       [0, 0] ++ beBytes 4 x.winPages ++ ((x.lastStop.map (fun t => t.bytes g)).getD (List.replicate 40 0)))))) ∧
  (∀ (s : State) (f : FnId) (c : Charge),
     let s1 := if (s.fn f).abort then s.cutAll f else s
     s.live = true →
     ((s.fn f).charge = some c → (s.fn f).st = .running → exec (.fnFaultStop f) s =
       .next ((s.recordFault c).beginStop f true (some c))) ∧
     ((s.fn f).st = .stopping → (s.fn f).abort = false → exec (.drainLimitExpire f) s = .next (s.cutAll f)) ∧
     ((s.fn f).st = .stopping → s1.quiet f = true →
       exec (.stopComplete f) s = .next (((s1.endStop f).finishLong 0x0304 f stOk []).serviceStopped f)))

/-- The eight kinds of FN_ASSIGN (Table 12.7) on a STOPPED function, where no refusal applies: each resource is the
function's and the command answers OK. Tiles whose domains are all powered are answered at once; where one is gated, its
domain begins to ungate and the command waits. A domain that has ungated stands at OP1 with its tiles powered, and every
waiting FN_ASSIGN with no tile in a domain that still ungates is answered. FN_WITHDRAW takes back from a STOPPED
function what it holds exactly as assigned, where no refusal applies: tiles, retired ones of its map among them, a
spread set, a range of rings, the fences, cores, or the window. -/
def Obligations.AssignmentAndWithdrawal : Prop :=
  (∀ (s s0 : State) (r : Req) (d : DomId),
     let p := r.payload
     let f := beAt p 0 2
     let A := fun (k : Nat) (l : List (Nat × Nat)) => Assigns s k l r s0
     let ts := maskTiles (beMask p 4 10)
     let given := ts.foldl (fun s t => s.giveTile f t (beAt p 16 4) (beAt p 20 4)) s0
     let cold := ((ts.map domainOf).eraseDups).filter (fun d => (given.dom d).gated)
     let a := beAt p 4 2
     let n := beAt p 6 2
     let group := beAt p 8 1 = 1
     let cs := (List.range 32).filter (fun c => (beMask p 4 4).testBit c)
     let vs := ((p.drop 8).take (beAt p 4 1)).map (fun b => b.toNat)
     let y := s.dom d
     let v := s.fuses.vnom d 1
     let on := fun (s : State) => ((List.range 80).filter (fun t => domainOf t = d.val && !(s.tile t).retired)).foldl
       (fun s t => s.onTile t (fun y => { y with gated := false, resync := true }))
       (s.setDom d { y with gated := false, ungating := false, op := 1, vset := v, target := v, slewing := false })
     let ready := fun (s : State) => s.thm.long.filter (fun l => l.req.cmd = 0x0305 &&
       (maskTiles (beMask l.req.payload 4 10)).all (fun t => !(s.dom (domainOf t)).ungating))
     (A 1 [(4, 10), (16, 4), (20, 4)] → beAt p 16 4 + beAt p 20 4 ≤ s0.slabPages →
       (∀ t ∈ ts, (s0.tile t).retired = false ∧ ((s0.tile t).owner = none ∨ (s0.tile t).owner = some f)) →
       s0.pathsOk (ts ++ s0.tilesOf f) (s0.coresOf f) = true →
       exec .fnAssignTiles s = .next (if cold = [] then given.reply r stOk [] else
         { given with pwr := { given.pwr with doms := cold.foldl (fun (m : SMap Dom) d => m.modify {} d (fun x =>
                        { x with ungating := true })) given.pwr.doms },
                      thm := { given.thm with long := given.thm.long ++ [{ req := r, fn := f }] } })) ∧
     (A 2 [(4, 1), (6, 10), (16, 4), (20, 4)] → beAt p 4 1 < 32 →
       s0.badSpread f (BitVec.ofNat 80 (beMask p 6 10)) (beAt p 16 4) (beAt p 20 4) = false → s0.pathsOk (s0.tilesOf f) [] = true →
       exec .fnAssignSpread s = .next ((s0.setSpread f (beAt p 4 1)
         ⟨BitVec.ofNat 80 (beMask p 6 10), beAt p 16 4, beAt p 20 4, true⟩).reply r stOk [])) ∧
     (A 3 [(4, 2), (6, 2), (8, 1)] → a + n ≤ 8192 → beAt p 8 1 ≤ 1 →
       (∀ e ∈ s0.rings, a ≤ e.1 → e.1 < a + n → e.2.valid = true → e.2.fn = f) →
       (group → (s0.rings.filter (fun e => e.2.valid && e.2.group && !(a ≤ e.1 && e.1 < a + n))).length + n ≤ 512) →
       exec .fnAssignRings s = .next ((((List.range n).foldl (fun (s : State) i => s.setRing (a + i)
         { fn := f, valid := true, group := group }) s0).onFn f (fun x =>
           { x with ringRanges := x.ringRanges.filter (· ≠ (a, n)) ++ [(a, n)] })).reply r stOk [])) ∧
     (A 4 [(4, 2), (6, 2)] → a + n ≤ 16384 → (∀ e ∈ s0.fns, e.1 ≠ f → e.2.fenceBase + e.2.fences ≤ a ∨ a + n ≤ e.2.fenceBase) →
       exec .fnAssignFences s = .next ((s0.onFn f (fun x => { x with fenceBase := a, fences := n })).reply r stOk [])) ∧
     (A 5 [(4, 4)] → s0.fuses.part ≠ 3 → (∀ c ∈ cs, c ∉ s0.flash.withheldCores ∧ ((s0.core c).fn = none ∨ (s0.core c).fn = some f)) →
       s0.pathsOk (s0.tilesOf f) (cs ++ s0.coresOf f) = true →
       exec .fnAssignCores s = .next (((List.range 32).foldl (fun s c => if (beMask p 4 4).testBit c then s.resetCore c (some f)
         else s) s0).reply r stOk [])) ∧
     (A 6 [(4, 1), (8, 4)] → beAt p 4 1 < 32 → beAt p 8 4 ≤ 1048576 → beAt p 8 4 ≤ s0.setCapacity f (beAt p 4 1) →
       exec .fnAssignWindow s = .next ((s0.setWindow f (beAt p 4 1) (beAt p 8 4) true).reply r stOk [])) ∧
     (A 7 [(4, 1), (8, beAt p 4 1)] → 1 ≤ beAt p 4 1 → beAt p 4 1 ≤ 80 → vs.Nodup →
       (∀ t ∈ vs, t < 80 ∧ (s0.tile t).owner = some f ∧ (s0.tile t).retired = false) →
       exec .fnAssignVtileMap s = .next ((s0.onFn f (fun x => { x with vtmap := vs.map some })).reply r stOk [])) ∧
     (A 8 [(8, 8), (16, 2)] → 1 ≤ beAt p 16 2 → beAt p 16 2 ≤ 10000 → exec .fnAssignSettings s = .next ((s0.onFn f (fun x =>
       { x with seed := BitVec.ofNat 64 (beAt p 8 8), drainLimit := beAt p 16 2 })).reply r stOk [])) ∧
     (y.ungating = true → exec (.domainUngateDone d) s = .next (s.pwrStep (fun s => (ready (on s)).foldl
       (fun (s : State) l => s.reply l.req stOk [])
       { on s with thm := { (on s).thm with long := (on s).thm.long.filter (fun l => !(ready (on s)).contains l) } })))) ∧
  (∀ (s s0 : State) (r : Req),
     let p := r.payload
     let f := beAt p 0 2
     let x := s0.fn f
     let a := beAt p 4 2
     let n := beAt p 6 2
     let W := fun (k len : Nat) (l : List (Nat × Nat)) => Takes s 0x0306 r s0 ∧ r.notOperator = false ∧ f < 1024 ∧ x.st = .stopped ∧
       s0.longOn f = false ∧ s0.tacked = false ∧ beAt p 2 1 = k ∧ len ≤ p.length ∧ restZero p ([(0, 2), (2, 1)] ++ l) = true
     let gives := fun (t : State) => exec .fnWithdraw s = .next (t.reply r stOk [])
     (W 1 14 [(4, 10), (16, 4), (20, 4)] → (∀ t ∈ maskTiles (beMask p 4 10), (s0.tile t).owner = some f ∨
         ((s0.tile t).retired = true ∧ x.vtmap.contains (some t) = true)) →
       gives ((maskTiles (beMask p 4 10)).foldl (fun (s : State) t => if (s.tile t).owner = some f then s.withdrawTile t
         else (s.onFn f (fun g => { g with vtmap := g.vtmap.map (fun v => if v = some t then none else v) })).onSlab t
           Slab.leaveFn) s0)) ∧
     (W 2 5 [(4, 1), (6, 10), (16, 4), (20, 4)] → beAt p 4 1 < 32 →
       ((s0.slab (s0.spreadTile f none)).spread.get {} (beAt p 4 1)).valid = true → gives (s0.setSpread f (beAt p 4 1) {})) ∧
     (W 3 8 [(4, 2), (6, 2), (8, 1)] → (a, n) ∈ x.ringRanges → gives (((List.range n).foldl (fun (s : State) i =>
       s.setRing (a + i) {}) s0).onFn f (fun g => { g with ringRanges := g.ringRanges.filter (· ≠ (a, n)) }))) ∧
     (W 4 8 [(4, 2), (6, 2)] → x.fences ≠ 0 → x.fenceBase = a → x.fences = n →
       gives (s0.onFn f (fun g => { g with fenceBase := 0, fences := 0 }))) ∧
     (W 5 8 [(4, 4)] → s0.fuses.part ≠ 3 → (∀ c < 32, (beMask p 4 4).testBit c = true → (s0.core c).fn = some f) →
       gives (((List.range 32).filter (fun c => (beMask p 4 4).testBit c)).foldl (fun (s : State) c => s.resetCore c none) s0)) ∧
     (W 6 5 [(4, 1), (8, 4)] → x.winValid = true → x.winSet = beAt p 4 1 → gives (s0.setWindow f 0 0 false)))

/-- Rings, fences, pages and records of a function, where none of the refusals applies. -/
def Obligations.ResourceCommands : Prop :=
  ∀ (s s0 : State) (r : Req) (t k : Nat),
    let p := r.payload
    let f := r.fn
    let x := s0.fn f
    let a := beAt p 0 2
    let n := beAt p 2 1
    let S := fun (c : Nat) (l : List (Nat × Nat)) => Takes s c r s0 ∧ payOk p l = true
    let idle := (s0.fn f).st = .stopped ∧ s0.longOn f = false ∧ s0.tacked = false
    let pg := beAt p 4 4
    let b := s0.slab t
    let release := fun (m : SMap Retire) => (List.range 32).foldl (fun (m : SMap Retire) i =>
      if (m.get {} i).valid && (m.get {} i).page = pg then m.set {} i { m.get {} i with retired := true } else m) m
    (S 0x0308 [(0, 1), (4, 4)] → s0.vtile f (beAt p 0 1) = some t → (s0.tile t).retired = false → b.ext.valid = true →
      b.ext.fn = f → b.ext.basePage ≤ pg → pg < b.ext.basePage + b.ext.pages → (∃ e, b.retireOf pg = some e ∧ e.retired = false) →
      s0.longOn f = false → s0.tacked = false →
      exec .pageRelease s = .next ((s0.onSlab t (fun b => { b with retire := release b.retire })).reply r stOk [])) ∧
    (∀ ps, S 0x0309 [(0, 8), (8, 4), (12, 1)] → beAt p 0 8 % 64 = 0 → 1 ≤ beAt p 8 4 → beAt p 8 4 ≤ 2 ^ 20 → beAt p 12 1 < 128 →
      s0.pieces f none (beAt p 8 4 * 64 / 65536 + 2) (beAt p 0 8) (beAt p 8 4 * 64) = some ps →
      (∀ q ∈ ps, (s0.tile q.1).retired = false ∧ (s0.slab q.1).isRetired (q.2.1 / 65536) = false) → s0.tacked = false →
      exec .slabTag s = .next ((ps.foldl (fun s q => (List.range (q.2.2 / 64)).foldl (fun s i =>
        s.tagCw q.1 (q.2.1 / 64 + i) (beAt p 12 1)) s) s0).reply r stOk [])) ∧
    (S 0x0401 [(0, 2), (8, 8), (16, 8), (24, 1)] → s0.localRing f a = some k → beAt p 8 8 % 64 = 0 → beAt p 8 8 < 2 ^ 62 →
      beAt p 16 8 % 8 = 0 → beAt p 16 8 < 2 ^ 62 → 6 ≤ beAt p 24 1 → beAt p 24 1 ≤ 16 → idle →
      exec .ringConfig s = .next ((s0.onRing k (fun g =>
        { g with base := BitVec.ofNat 64 (beAt p 8 8), doneAddr := BitVec.ofNat 64 (beAt p 16 8), sizeLog2 := beAt p 24 1 })).reply
        r stOk [])) ∧
    (S 0x0402 [(0, 2), (2, 1)] → 1 ≤ n → n ≤ 28 → a + n ≤ (s0.ringsOf f).length → exec .ringRead s =
      .next (s0.reply r stOk ((((s0.ringsOf f).drop a).take n).flatMap (fun k =>
        beBytes 4 (s0.ringCount k).1.toNat ++ beBytes 4 (s0.ringCount k).2.toNat)))) ∧
    (S 0x0403 [(0, 2), (2, 1)] → 1 ≤ n → n ≤ 28 → a + n ≤ x.fences → exec .fenceRead s =
      .next (s0.reply r stOk ((List.range n).flatMap (fun i => beBytes 8 (s0.fence (x.fenceBase + a + i)).toNat)))) ∧
    (S 0x0404 [(0, 2), (2, 1), (8, 8)] → n ≤ 1 → a < x.fences → s0.tacked = false → exec .fenceWrite s =
      .next (((s0.setFence (x.fenceBase + a) (if n = 1 then BitVec.ofNat 64 (beAt p 8 8)
        else s0.fence (x.fenceBase + a) + BitVec.ofNat 64 (beAt p 8 8))).fenceLatch f).reply r stOk [])) ∧
    (S 0x0B02 [(0, 1), (1, 1)] → 1 ≤ beAt p 1 1 → beAt p 1 1 ≤ 37 → beAt p 0 1 + beAt p 1 1 ≤ s0.vtiles f →
      (∀ i < beAt p 1 1, s0.tileRetired (s0.vtile f (beAt p 0 1 + i)) = false) → exec .stopRecord s =
      .next (s0.reply r stOk ((List.range (beAt p 1 1)).flatMap (fun i =>
        let c := ((s0.vtile f (beAt p 0 1 + i)).map (fun t => x.stop.tiles.get {} t)).getD {}
        beBytes 2 (min c.discarded 65535) ++ beBytes 2 (min c.cut 65535) ++ beBytes 2 (min c.drained 65535)))))

/-- Window transitions: WIN_FLAGS makes its pages PENDING and waits; once no earlier operation holds a page the
transition takes the new flag and answers OK; on its time limit the pages keep their flag and it answers BUSY. WIN_QUERY
packs the flags. -/
def Obligations.WindowCommands : Prop :=
  ∀ (s s0 : State) (r : Req) (g : FnId) (l : Long),
    let p := r.payload
    let f := r.fn
    let a := beAt p 0 4
    let n := beAt p 4 4
    let ps := s0.winRange f a n
    let s1 := ps.foldl (fun (s : State) q => s.onPflag q (fun h => { h with pending := true, newFlag := beAt p 8 1 })) s0
    (Takes s 0x0501 r s0 → payOk p [(0, 4), (4, 4), (8, 1)] = true → (s0.fn f).st = .running → beAt p 8 1 ≤ 2 →
      s0.inWindow f a n = true → ps.any s0.pageRetired = false → s0.tacked = false →
      (∀ l ∈ s0.thm.long, l.fn = f → l.req.cmd = 0x0501) → (∀ q ∈ ps, (s0.pflagOf q).pending = false) →
      exec .winFlags s = .next { s1 with thm := { s1.thm with long := s1.thm.long ++ [{ req := r, fn := f, first := a, pages := n }] } }) ∧
    (s.thm.long.find? (fun l => l.fn = g.val && l.req.cmd = 0x0501 &&
        (s.winRange g l.first l.pages).all (fun p => !(s.heldPages g).contains p)) = some l → s.thmRuns = true →
      exec (.winTransitionComplete g) s = .next (s.endTransition l true)) ∧
    (s.thm.long.find? (fun l => l.fn = g.val && l.req.cmd = 0x0501) = some l → s.thmRuns = true → s.tacked = false →
      exec (.winTransitionTimeout g) s = .next (s.endTransition l false)) ∧
    (Takes s 0x0502 r s0 → payOk p [(0, 4), (4, 2)] = true → 1 ≤ beAt p 4 2 → beAt p 4 2 ≤ 896 →
      s0.inWindow f a (beAt p 4 2) = true → (s0.winRange f a (beAt p 4 2)).any s0.pageRetired = false →
      exec .winQuery s = .next (s0.reply r stOk (pack2 ((s0.winRange f a (beAt p 4 2)).map (fun q =>
        if (s0.pflagOf q).pending then 3 else (s0.pflagOf q).flag)))))

/-- Loads: an image read through the window whose digest and format are right is loaded, with the reply held; a pattern
goes to its function and every tile of it and is unloaded and queried; a held reply is sent once. -/
def Obligations.LoadCommands : Prop :=
  ∀ (s s0 s1 : State) (r : Req) (bs : List Byte) (im : Image) (ps : List (Nat × Nat × Nat)) (q : Pattern) (g : FnId) (l : Long)
      (rest : List Long),
    let p := r.payload
    let f := beAt p 0 2
    let vs := maskBits (beMask p 0 10)
    let cs := (s0.localCores r.fn (beMask p 0 4)).filterMap id
    let idle := fun (f : Nat) => (s0.fn f).st = .stopped ∧ s0.longOn f = false ∧ s0.tacked = false
    let op := r.notOperator = false ∧ s0.fuses.part ≠ 3 ∧ f < 1024 ∧ idle f ∧ beAt p 2 1 ≤ 63
    let slot := beAt p 2 1
    let put := fun (s : State) (c : Option PatSlot) => (s.tilesOf f).foldl (fun (s : State) t => s.onTile t (fun x =>
      { x with patterns := x.patterns.set none slot c })) (s.onFn f (fun x => { x with patterns := x.patterns.set none slot c }))
    (Takes s 0x0601 r s0 → payOk p [(0, 10), (16, 8), (24, 4), (32, 32)] = true →
      s0.readImage r.fn (beAt p 16 8) (beAt p 24 4) ((p.drop 32).take 32) = (s1, some bs) → Image.parse bs = some im →
      (∀ v ∈ vs, ∃ t, s0.vtile r.fn v = some t ∧ (s1.tile t).retired = false) → s1.busyFor r.fn = false →
      exec .tileLoad s = .next (((vs.filterMap (s0.vtile r.fn)).foldl (fun (s : State) t => s.loadImage t im) s1).holdLong
        r r.fn stOk [])) ∧
    (Takes s 0x0602 r s0 → payOk p [(0, 4), (8, 8), (16, 4), (24, 8), (32, 8), (40, 32)] = true →
      s0.readImage r.fn (beAt p 8 8) (beAt p 16 4) ((p.drop 40).take 32) = (s1, some bs) → s0.fuses.part ≠ 3 →
      none ∉ s0.localCores r.fn (beMask p 0 4) → s0.pieces r.fn none (beAt p 16 4 / 65536 + 2) (beAt p 24 8) (beAt p 16 4) = some ps →
      (∀ q ∈ ps, (s1.pflagOf (q.1, q.2.1 / 65536)).thimble true = true ∧ s1.pageRetired (q.1, q.2.1 / 65536) = false) →
      (∀ c ∈ cs, c ∉ s1.flash.withheldCores) → s1.busyFor r.fn = false →
      exec .hcoreLoad s = .next ((cs.foldl (fun (s : State) c => s.onCore c (fun x =>
        { x with entry := some (BitVec.ofNat 64 (beAt p 32 8)), digest := sha256v bs })) (s1.writePieces ps bs false)).holdLong
        r r.fn stOk [])) ∧
    (Takes s 0x0603 r s0 → op → payOk p [(0, 2), (2, 1), (8, 8), (16, 4), (24, 32)] = true →
      s0.readImage f (beAt p 8 8) (beAt p 16 4) ((p.drop 24).take 32) = (s1, some bs) → Pattern.parse bs = some q →
      s1.busyFor f = false → (s1.fn f).patterns.get none slot = none → (s1.fn f).patUsed + bs.length ≤ 262144 →
      exec .patternLoad s = .next ((put s1 (some { image := bs, report := (q.report bs).1, monotone := (q.report bs).2 })).holdLong
        r f stOk (q.report bs).1)) ∧
    (Takes s 0x0604 r s0 → op → payOk p [(0, 2), (2, 1)] = true → exec .patternUnload s =
      .next ((put s0 none).reply r stOk [])) ∧
    (∀ c, Takes s 0x0605 r s0 → s0.fuses.part ≠ 3 → payOk p [(0, 1)] = true → beAt p 0 1 ≤ 63 →
      (s0.fn r.fn).patterns.get none (beAt p 0 1) = some c →
      exec .patternQuery s = .next (s0.reply r stOk c.report)) ∧
    (∀ st out, s.thmRuns = true → takeFirst (fun l => l.fn = g.val && l.result.isSome) s.thm.long = some (l, rest) →
      l.result = some (st, out) → exec (.longCommandComplete g) s =
        .next ({ s with thm := { s.thm with long := rest } }.reply l.req st out))

/-- Refusals come in the order of R336: a command whose first condition that holds carries a status is answered with
that status, and nothing else changes but its leaving the queue. -/
def Obligations.RefusalsComeInOrder : Prop :=
  ∀ (s s0 : State) (r : Req) (q : List Req),
    let p := r.payload
    let f := beAt p 0 2
    (Takes s 0x0301 r s0 → r.notOperator = true → exec .fnCreate s = .next (s0.reply r stDenied [])) ∧
    (Takes s 0x0301 r s0 → r.notOperator = false → f = 0 ∨ 1024 ≤ f → exec .fnCreate s = .next (s0.reply r stBadArg [])) ∧
    (Takes s 0x0301 r s0 → r.notOperator = false → payOk p [(0, 2), (2, 32)] = true → 0 < f → f < 1024 → s0.tacked = false →
      (s0.fn f).st ≠ .free → exec .fnCreate s = .next (s0.reply r stNoResource [])) ∧
    (Takes s 0x0302 r s0 → r.notOperator = false → 0 < f → f < 1024 → (s0.fn f).st = .free →
      exec .fnDestroy s = .next (s0.reply r stStopped [])) ∧
    (Takes s 0x0302 r s0 → r.notOperator = false → payOk p [(0, 2)] = true → 0 < f → f < 1024 → (s0.fn f).st = .running →
      exec .fnDestroy s = .next (s0.reply r stBusy [])) ∧
    (Takes s 0x0102 r s0 → s0.thm.opKey.isSome = true → exec .claim s = .next (s0.reply r stDenied [])) ∧
    (Takes s 0x0C02 r s0 → s0.flash.locked = true → exec .tagWrite s = .next (s0.reply r stDenied [])) ∧
    (Takes s 0x0602 r s0 → s0.fuses.part = 3 → exec .hcoreLoad s = .next (s0.reply r stUnsupported [])) ∧
    (takeFirst s.mayStart s.thm.queue = some (r, q) → r.cmd = 0x0303 → s.gone r = true → exec .fnStart s =
      .next ({ s with thm := { s.thm with queue := q } }.reply r stStopped [])) ∧
    (Takes s 0x0404 r s0 → payOk p [(0, 2), (2, 1), (8, 8)] = true → beAt p 2 1 ≤ 1 → f < (s0.fn r.fn).fences → s0.tacked = true →
      exec .fenceWrite s = .next (s0.reply r stBusy []))

/-! Skelist commands on the fabric, connections, power, observation and faults (spec/12 to spec/18). -/

/-- Peer entries, slices, routes and connections, where none of the refusals applies. -/
def Obligations.FabricAndConnectionCommands : Prop :=
  ∀ (s s0 : State) (r : Req) (x : Fab),
    let p := r.payload
    let f := beAt p 0 2
    let first := beAt p 2 2
    let n := beAt p 4 1
    let op := r.notOperator = false
    let idle := f < 1024 ∧ (s0.fn f).st = .stopped ∧ s0.longOn f = false ∧ s0.tacked = false
    let es := (List.range n).map (fun i => peerEntry (s0.fn f).slice ((p.drop (8 + 8 * i)).take 8))
    let put := fun (m : SMap Peer) => es.zipIdx.foldl (fun (m : SMap Peer) e => m.set {} (first + e.2) (e.1.getD {})) m
    let k := beAt p 1 1
    let e := beAt p 8 8
    let sized : State := { s0 with fab := { s0.fab with xsM1 := e % 8, ysM1 := e / 8 % 8, zsM1 := e / 64 % 4 } }
    let rs := (List.range k).map (fun i => beAt p (8 + 8 * i) 8)
    let v := fun (i : Nat) => Config.connValue (s0.freeCtr + i)
    let q := s0.freeQpn 1024 ((v 0).toNat % 2 ^ 24)
    let c : Conn := { fn := r.fn, gid := BitVec.ofNat 128 (beAt p 0 16), peerQpn := BitVec.ofNat 24 (beAt p 16 4),
                      peerPsn := BitVec.ofNat 24 (beAt p 20 4), mtu := beAt p 24 2, psn := (v 1).truncate 24, rkeyWin := v 2,
                      rkeyRing := v 3 }
    (Takes s 0x0701 r s0 → op → idle → payOk p [(0, 2), (2, 2), (4, 1), (8, 8 * n)] = true → 1 ≤ n → n ≤ 27 →
      first + n ≤ 16384 → none ∉ es →
      exec .peerWrite s = .next ((s0.onFn f (fun x => { x with peers := put x.peers })).reply r stOk [])) ∧
    (Takes s 0x0702 r s0 → op → idle → payOk p [(0, 2), (2, 2)] = true → first ≤ 4095 →
      (first = 0 ∨ s0.fab.addr.isSome = true ∧ (first ∈ s0.slicesBut f ∨ (s0.slicesBut f).length < 64)) →
      exec .sliceSet s = .next ((s0.onFn f (fun x => { x with slice := first, peers := [] })).reply r stOk [])) ∧
    (Takes s 0x0703 r s0 → op → (s0.fuses.part = 3 → (if beAt p 0 1 = 0 then e % 256 = 0 ∧ e / 2 ^ 8 % 2 ^ 20 < 2 ^ 14
        else ∀ v ∈ rs, v / 2 ^ 17 % 8 = 0)) → payOk p [(0, 1), (1, 1), (8, 8 * k)] = true → s0.tacked = false →
      (beAt p 0 1 = 0 → k = 1 → (s0.fab.sameSizes e = true ∨ s0.noneRunning = true) →
        exec .routeWrite s = .next ((sized.writeUse (BitVec.ofNat 20 (e / 256 % 2 ^ 20))).reply r stOk [])) ∧
      (beAt p 0 1 = 1 → 1 ≤ k → k ≤ 27 → (∀ v ∈ rs, v % 4096 ≠ 0) →
        (∀ f ∈ s0.fns, f.2.st = .running ∨ f.2.st = .stopping → ∀ v ∈ rs, v % 4096 ≠ f.2.slice) → s0.fab.writeRoutes (rs.map routeImage) = some x →
        exec .routeWrite s = .next ({ s0 with fab := x }.reply r stOk []))) ∧
    (Takes s 0x0704 r s0 → op → payOk p [(0, 1), (1, 1), (2, 1)] = true →
      (beAt p 0 1 = 0 → k = 0 → beAt p 2 1 = 1 → exec .routeRead s = .next (s0.reply r stOk (beBytes 8 s0.fab.sysReg))) ∧
      (beAt p 0 1 = 1 → 1 ≤ beAt p 2 1 → beAt p 2 1 ≤ 28 → k + beAt p 2 1 ≤ 64 → exec .routeRead s =
        .next (s0.reply r stOk ((List.range (beAt p 2 1)).flatMap (fun i => beBytes 8 (s0.fab.routes.get 0 (k + i)).toNat))))) ∧
    (Takes s 0x0503 r s0 → payOk p [(0, 16), (16, 4), (20, 4), (24, 2)] = true → beAt p 16 4 < 2 ^ 24 → beAt p 20 4 < 2 ^ 24 →
      beAt p 24 2 ∈ [1024, 2048, 4096] → s0.tacked = false →
      (s0.eth.conns.filter (fun e => e.2.map (·.fn) = some r.fn)).length < 16 → s0.eth.conns.length < 1024 →
      exec .winConnect s =
        .next (({ s0 with freeCtr := s0.freeCtr + 4, eth := { s0.eth with conns := s0.eth.conns.set none q (some c) } } : State).reply
          r stOk (beBytes 4 q ++ beBytes 4 c.psn.toNat ++ beBytes 4 c.rkeyWin.toNat ++ beBytes 4 c.rkeyRing.toNat))) ∧
    (Takes s 0x0504 r s0 → payOk p [(0, 4)] = true → (s0.conn (beAt p 0 4)).map (·.fn) = some r.fn → s0.tacked = false →
      exec .winClose s = .next ({ s0 with eth := { s0.eth with conns := s0.eth.conns.set none (beAt p 0 4) none } }.reply r stOk []))

/-- Power grants and queries, counters, event records, traces, tacks and error registers by command, where none of the
refusals applies. A grant of 0 W returns the cap to 1,200 W; one above 2,800 W is held to it. -/
def Obligations.ObservationCommands : Prop :=
  ∀ (s s0 : State) (r : Req) (b : Blk) (fn : FnId) (key : Nat),
    let p := r.payload
    let w := beAt p 0 2
    let g := min w 2800
    let granted := fun (x : Pwr) =>
      { x with grantW := g, capW := if g = 0 then 1200 else g, leaseEnd := if g = 0 then 0 else s0.timeNs + beAt p 4 4 * 1000000 }
    let S := fun (c : Nat) (l : List (Nat × Nat)) => Takes s c r s0 ∧ payOk p l = true
    let op := r.notOperator = false
    let ids := (List.range (beAt p 1 1)).map (fun i => beAt p (4 + 4 * i) 4)
    let sums := fun (t : State) (x : Snap) => t.reply r stOk (beBytes 8 x.time ++ ids.flatMap (fun v => beBytes 8 (t.idValue x r.fn v)))
    let dest : Option UdpAddr := if beAt p 2 2 = 0 ∧ beAt p 4 16 = 0 then none
      else some { ip := BitVec.ofNat 128 (beAt p 4 16), port := BitVec.ofNat 16 (beAt p 2 2) }
    let inst := beAt p 2 2
    let n := beAt p 4 1
    let readable := fun (k : Nat) => ((s0.evrings.get {} k).recs.dropWhile (fun e =>
      (e.seq + 65536 - inst) % 65536 ≥ 2 ^ 15)).filter (fun e => (beAt p 1 1 = 0 || e.block = beAt p 1 1) && e.readable r.fn)
    let records := fun (k : Nat) => s0.reply r stOk (((readable k).take n).flatMap (fun e => e.bytes beBytes (s0.evInst r.fn e)))
    let cfg : Nat → Trace := fun q =>
      { en := beAt p 0 1 % 2 = 1, dest := beAt p 0 1 / 2 % 2, cap := if beAt p 1 1 = 0 then 20 else beAt p 1 1,
        blocks := BitVec.ofNat 32 (beAt p 4 4), buf := beAt p 8 8, bytes := beAt p 16 4, ip := BitVec.ofNat 128 (beAt p 24 16),
        port := BitVec.ofNat 16 (beAt p 20 2), seq := q, bucketTime := (s0.traceFlush r.fn).timeNs }
    let traced := (s0.traceFlush r.fn).onFn r.fn (fun x => { x with trace := cfg x.trace.seq })
    let s1 := s0.triggerTack 0 0
    (S 0x0801 [(0, 2), (4, 4)] → op → (w = 0 ∨ 600 ≤ w) → 100 ≤ beAt p 4 4 → beAt p 4 4 ≤ 3600000 →
      exec .powerGrant s = .next ({ s0 with pwr := granted s0.pwr }.reply r stOk (beBytes 2 g))) ∧
    (S 0x0802 [] → op → exec .powerQuery s = .next (s0.reply r stOk s0.powerReply)) ∧
    (S 0x0901 [(0, 1), (1, 1), (4, 4 * beAt p 1 1)] → 1 ≤ beAt p 1 1 → beAt p 1 1 ≤ 27 →
      (∀ v ∈ ids, s0.idOk r.fn v = true ∧ s0.idAbsent v = false ∧ s0.idRetired r.fn v = false) →
      (beAt p 0 1 = 0 → exec .countersRead s = .next (sums { s0 with freeCtr := s0.freeCtr + 1 } s0.reading)) ∧
      (beAt p 0 1 = 1 → exec .countersRead s = .next (sums { s0 with snap := some s0.reading, freeCtr := s0.freeCtr + 1 } s0.reading)) ∧
      (∀ x, beAt p 0 1 = 2 → s0.snap = some x → exec .countersRead s = .next (sums s0 x))) ∧
    (S 0x0902 [(0, 1), (2, 2), (4, 16)] → s0.tacked = false →
      (beAt p 0 1 = 0 → exec .eventSubscribe s = .next ((s0.onFn r.fn (fun x => { x with sub0 := dest })).reply r stOk [])) ∧
      (beAt p 0 1 = 1 → exec .eventSubscribe s = .next ((s0.onFn r.fn (fun x => { x with sub1 := dest })).reply r stOk []))) ∧
    (S 0x0903 [(0, 1), (1, 1), (2, 2), (4, 1)] → 1 ≤ n → n ≤ 7 →
      (beAt p 0 1 = 0xFF → b.hasRing = true → beAt p 1 1 = b.code → exec .eventsRead s = .next (records (256 + b.code))) ∧
      (beAt p 0 1 ≠ 0xFF → beAt p 1 1 ≤ 22 → (if r.fn = 0 then beAt p 0 1 < 80 ∧ key = beAt p 0 1
        else s0.vtile r.fn (beAt p 0 1) = some key) → exec .eventsRead s = .next (records key))) ∧
    (S 0x0904 [(0, 1), (1, 1), (4, 4), (8, 8), (16, 4), (20, 2), (24, 16), (40, 4)] → beAt p 1 1 ≤ 100 →
      beAt p 4 4 % 2 = 0 → beAt p 4 4 < 2 ^ 23 → (beAt p 0 1 % 4 = 1 → beAt p 8 8 % 64 = 0 ∧ beAt p 16 4 % 64 = 0 ∧ 4096 ≤ beAt p 16 4 ∧
        beAt p 16 4 ≤ 2 ^ 31 ∧ (s0.slabCheck r.fn none (beAt p 8 8) (beAt p 16 4) true false).isOk = true) →
      (if r.fn = 0 then beAt p 40 4 % 2 = 0 ∧ beAt p 40 4 < 2 ^ 23 else beAt p 40 4 = 0) → s0.tacked = false →
      exec .traceCfg s = .next ((if r.fn = 0 then { traced with trc := { traced.trc with tackOn := BitVec.ofNat 32 (beAt p 40 4) } }
        else traced).reply r stOk [])) ∧
    (exec (.traceFlush fn) s = .next (s.traceFlush fn)) ∧
    (S 0x0A01 [] → op → s0.tacked = false →
      exec .tack s = .next { s1 with thm := { s1.thm with long := s1.thm.long ++ [{ req := r, fn := 1025 }] } }) ∧
    (S 0x0A02 [] → op → s0.tacked = true → exec .tackResume s = .next (s0.askResume.reply r stOk [])) ∧
    (S 0x0A03 [(0, 1), (1, 1), (2, 1), (4, 2), (6, 1)] → op → 1 ≤ beAt p 6 1 → beAt p 6 1 ≤ 6 → s0.trc.tack = .held →
      (beAt p 0 1 = 0 ∧ beAt p 1 1 < 80 ∧ beAt p 2 1 ≤ 3 ∧ (s0.tile (beAt p 1 1)).retired = false ∧ key = beAt p 1 1 * 4 + beAt p 2 1 ∨
        beAt p 0 1 = 1 ∧ beAt p 1 1 < 20 ∧ beAt p 2 1 ≤ 5 ∧ s0.portAbsent (beAt p 1 1) = false ∧
          key = 0x1000 + beAt p 1 1 * 8 + beAt p 2 1) →
      let l := s0.trc.logs.get {} key
      exec .tackLogRead s = .next (s0.reply r stOk (beBytes 4 l.entries.length ++
        ((l.entries.drop (beAt p 4 2)).take (beAt p 6 1)).flatMap (fun e => e.take 32)))) ∧
    (S 0x0B01 [(0, 1), (2, 2)] → r.key.isSome = true → beAt p 0 1 = b.code →
      (b.hasInst inst = true ∨ b = .thm ∧ inst < 3) → (b = .lnk → s0.portAbsent inst = false) → (r.fn = 0 ∨ b.perTile = true ∧ (s0.tile (inst % 256)).owner = some r.fn) →
      exec .faultStatus s = .next (s0.reply r stOk (beBytes 4 (s0.faultFields b inst).1 ++ beBytes 4 (s0.faultFields b inst).2.1 ++
        beBytes 8 (s0.faultFields b inst).2.2.1 ++ beBytes 8 (s0.faultFields b inst).2.2.2))) ∧
    (S 0x0B03 [(0, 1), (2, 2), (4, 4)] → op → beAt p 0 1 = b.code → b.hasInst inst = true → (b = .lnk → s0.portAbsent inst = false) →
      (b.perTile = true → (s0.tile (inst % 256)).retired = false) →
      exec .errClear s = .next ((s0.clearErr b inst (BitVec.ofNat 32 (beAt p 4 4))).reply r stOk []))

/-! Rings, fences and cores (spec/11, spec/12). -/

/-- A doorbell sets TAIL of a running function's ring to a value at most SIZE beyond DONE; a value farther beyond raises
RANGE, and the ring of a function that does not run only notes the refusal. A core's access is answered, with a fault
where its function has no such ring; by RDMA it is acknowledged or refused. A dispatcher's turn fetches the command at
HEAD of its next ring and starts it, where both accesses are allowed, the entry reads clean and well formed, and no
serial command must wait; a SERIAL one waits for the signals of those before it. An entry that is poisoned or malformed,
or whose ranges or DONE_ADDR are refused, raises its causes instead and is not started. -/
def Obligations.RingDoorbellsAndFetches : Prop :=
  (∀ (s : State) (c : CoreId) (q : BitVec 24) (n f r : Nat) (tail : W32) (k : Conn),
     let g := s.ring r
     let ring := s.setRing r { g with tail := tail }
     let refused := (s.setRing r { g with refused := true }).count .dsp (r / 2048) 2 0 g.fn 1
     let core := s.coreFn c = some f ∧ s.localRing f n = some r
     let rdma := s.boot.pgood = true ∧ s.fatal.cause = 0 ∧ s.eth.link = true ∧ s.conn q.toNat = some k ∧ k.fn = f ∧
       s.localRing f n = some r ∧ s.tacked = false
     let runs := (s.fn g.fn).st = .running ∧ g.sized = true
     let near := (tail - g.done).toNat ≤ 2 ^ g.sizeLog2
     (core → runs → near → exec (.ringDoorbell (.core c) n tail) s = .next (ring.coreAns c (.data 0))) ∧
     (core → runs → ¬ near → exec (.ringDoorbell (.core c) n tail) s = .next ((s.raiseDsp r 4).coreAns c (.data 0))) ∧
     (core → (s.fn g.fn).st ≠ .running → exec (.ringDoorbell (.core c) n tail) s = .next (refused.coreAns c (.data 0))) ∧
     (s.coreFn c = some f → s.localRing f n = none → exec (.ringDoorbell (.core c) n tail) s = .next (s.coreAns c .fault)) ∧
     (rdma → runs → near → exec (.ringDoorbell (.rdma q) n tail) s = .next (ring.answer q.toNat .ack)) ∧
     (rdma → (s.fn g.fn).st ≠ .running →
       exec (.ringDoorbell (.rdma q) n tail) s = .next ((refused.count .win 0 1 0x63 f 1).answer q.toNat (.nak 0x63)))) ∧
  (∀ (s : State) (q : QuadId) (r : Nat) (ps : List (Nat × Nat × Nat)),
     let s1 : State := { s with dspNext := s.dspNext.set 0 q (turnKey (r, s.ring r) + 1) }
     let g := s.ring r
     let s2 := (s1.readPieces ps).1
     let raw := leVal (s1.readPieces ps).2.1
     let clean := (s1.readPieces ps).2.2.1 = false ∧ (s1.readPieces ps).2.2.2 = false
     let done := s1.slabCheck g.fn none g.doneAddr.toNat 8 true false
     let waits := (ringSerial raw = true ∨ g.group = true) ∧ ∃ c ∈ g.cmds, c.signalled = false
     s.live = true → s.nextRing q = some r →
     s1.slabCheck g.fn none (g.base.toNat + 64 * (g.head.toNat % 2 ^ g.sizeLog2)) 64 false false = .ok ps →
     (clean → ¬ waits → s2.ringMalformed g.fn g.group raw = false → s2.copyCheck g.fn raw = [] → done.isOk = true →
       exec (.ringFetch q) s = .next (s2.onRing r (fun g =>
         { g with head := g.head + 1, serialHold := false, waiting := decide (ringOp raw = 3),
                  cmds := g.cmds ++ [s2.waitLatch (s.ring r).fn { idx := g.head, raw := raw }] }))) ∧
     (clean → waits → exec (.ringFetch q) s = .next (s2.onRing r (fun g => { g with serialHold := true }))) ∧
     (clean → ¬ waits → s2.ringMalformed g.fn g.group raw = true → s2.copyCheck g.fn raw = [] → done.isOk = true →
       exec (.ringFetch q) s = .next (s2.raiseDsp r 1)) ∧
     (clean → ¬ waits → s2.copyCheck g.fn raw = [] → done.isOk = false → exec (.ringFetch q) s =
       .next ((s2.reportRefused g.fn done).raiseDsp r (bit (s2.ringMalformed g.fn g.group raw) 0 + 2))) ∧
     (¬ clean → done.isOk = true → exec (.ringFetch q) s = .next (s2.raiseDsp r 8)) ∧
     (¬ clean → done.isOk = false → exec (.ringFetch q) s = .next ((s2.reportRefused g.fn done).raiseDsp r 10)))

/-- The commands of a ring: NOP completes its work, LAUNCH delivers its arguments to each tile it names, COPY moves its
bytes and carries no tags, WAIT ends its work once its condition has held, SIGNAL writes a fence; a command whose work
is visible completes, with DONE written where it advances. -/
def Obligations.RingCommands : Prop :=
  ∀ (s s1 : State) (r : RingId) (c : RCmd),
    let raw := c.raw
    let f := (s1.ring r).fn
    let ts := (s1.launchTiles f raw).filterMap id
    let t := s1.spreadTile f none
    let d : DmaD := { op := 1, src := fld raw 8 0 64, srcSpace := 1, dst := fld raw 16 0 64, dstSpace := 1,
                      rowBytes := fld raw 24 0 64, rows := 1, srcPitch := 0, dstPitch := 0, ep := 0, pattern := 0 }
    let first := fun (p : RCmd → Bool) => s.ringLive r = true ∧ (s.ring r).cmds.find? p = some c
    let held := fun (s : State) => (s.waitLatch (s.ring r).fn c).released
    (Begins s r 0 c s1 → exec (.ringNop r) s = .next (s1.completeCmd r c.idx)) ∧
    (Begins s r 1 c s1 → ts = [] → exec (.ringLaunch r) s = .next (s1.completeCmd r c.idx)) ∧
    (Begins s r 1 c s1 → ts ≠ [] → exec (.ringLaunch r) s = .next (ts.foldl (fun (s : State) t => s.deliverOne r c.idx t)
      (s1.onCmd r c.idx (fun c => { c with deliver := ts })))) ∧
    (Begins s r 2 c s1 → s1.copyLost f raw = [] → exec (.ringCopy r) s =
      .next (((s1.copyRows f t d (s1.copyOpen f t d) false [(d.src, d.dst)]).1).completeCmd r c.idx)) ∧
    (Begins s r 2 c s1 → s1.copyLost f raw ≠ [] → exec (.ringCopy r) s =
      .next (((s1.copyLost f raw).foldl (fun (s : State) x => s.reportRefused f x) s1).raiseDsp r 2)) ∧
    (Begins s r 3 c s1 → exec (.ringWait r) s = .next (if held s1 then s1.completeCmd r c.idx else s1)) ∧
    (Begins s r 4 c s1 → exec (.ringSignal r) s = .next ((s1.signalFence f (fld raw 8 0 16) (fld raw 10 0 1 = 1)
      (BitVec.ofNat 64 (fld raw 16 0 64))).completeCmd r c.idx)) ∧
    (first (fun c => ringOp c.raw = 1 && !c.complete && !c.cut && s.launchDone c) →
      exec (.ringLaunchComplete r) s = .next (s.completeCmd r c.idx)) ∧
    (first (fun c => ringOp c.raw = 3 && c.run && !c.complete && !c.cut) → held s = true →
      exec (.ringWaitRelease r) s = .next (s.completeCmd r c.idx)) ∧
    (∀ ps, first (fun c => c.complete && !c.signalled && !c.cut) →
      s.slabCheck (s.ring r).fn none (s.ring r).doneAddr.toNat 8 true false = .ok ps →
      exec (.ringCommandComplete r) s = .next ((s.signalCmd r c).advanceDone r ps))

/-- A COLLECTIVE or BARRIER whose body, group description and ranges are right joins its group's queue with the next
sequence number of that group. The first collective that has its slot and waits for buffer space runs as soon as the
space is there; else the first that may start takes a slot and the present time as its start, and runs where its space
is free and none waits before it, or where it needs none; one that is not complete at its time limit aborts; one that
has finished updates its record and completes its ring command, but for one whose record can no longer be written, which
fails. -/
def Obligations.CollectivesAreQueuedAndRun : Prop :=
  (∀ (s s1 s2 : State) (r : RingId) (k : RCmd) (b : Bool) (ps : List (Nat × Nat × Nat)) (g : Group),
     let f := (s1.ring r).fn
     let a := fld k.raw 16 0 64
     let none0 : Group := { id := 0, addr := a, size := 0, rank := 0, timeoutUs := 0, vpkgs := [], addrs := [], fns := [] }
     let c0 : Coll := { fn := f, ring := r, idx := k.idx, raw := k.raw, quad := r / 2048, barrier := b, opseq := 0, group := none0 }
     let c := { c0 with group := g }
     let n := (s2.opseqs.get 0 (f * 65536 + g.id) + 1) % 65536
     Begins s r (if b then 6 else 5) k s1 → s1.slabCheck f none a 64 true false = .ok ps → c0.badBody = false →
     s1.loadGroup f a ps = (s2, some g) → c.badSize = false → s2.collOverlap c = false →
     (∀ p ∈ c.srcRanges, (s2.slabCheck f none p.1 p.2 false false).isOk = true) →
     (∀ p ∈ c.dstRanges, (s2.slabCheck f none p.1 p.2 true false).isOk = true) →
     (g.multiRack = true → (s2.ring r).group = true) →
     exec (if b then .ringBarrier r else .ringCollective r) s = .next
       { s2 with opseqs := s2.opseqs.set 0 (f * 65536 + g.id) n, colls := s2.colls ++ [{ c with opseq := n }] }) ∧
  (∀ (s : State) (c : Coll) (f : FnId) (gid : BitVec 16) (a : Arrive), s.live = true →
     let b := s.collBegin c
     let first := s.colls.find? (fun c => c.admitted && !c.running && c.abort = 0)
     let gone : State := { (s.groupRecord c a) with colls := (s.groupRecord c a).colls.filter (fun d =>
       !(d.fn = c.fn && d.group.id = c.group.id && d.opseq = c.opseq)) }
     let reach := s.collReach c c.quad c.group.addr (64 + 16 * c.group.size) true
     (first = some c → s.collFits c = true → exec .collAdmit s = .next (s.collRun c)) ∧
     (first.filter s.collFits = none → s.colls.find? s.collMayStart = some c →
       exec .collAdmit s = .next (if b.1.collFits b.2 = true ∧ (first = none ∨ 2 < c.opc) then b.1.collRun b.2 else b.1)) ∧
     (s.colls.find? (fun c => c.fn = f.val && c.group.id = gid.toNat && c.admitted) = some c →
       exec (.collTimeout f gid) s = .next (s.collAbort c 5)) ∧
     (s.collOf f gid.toNat = some c → c.finished = true → c.final = some a → reach = none →
       exec (.collComplete f gid) s = .next ((gone.count .coll c.quad 5 0 c.fn 1).completeCmd c.ring c.idx)) ∧
     (∀ n r, s.collOf f gid.toNat = some c → c.finished = true → c.final = some a → reach = some (n, r) →
       exec (.collComplete f gid) s = .next ((s.collFail c n r).1.putColl (s.collFail c n r).2)))

/-- Cores: the fence apertures add to a counter modulo 2^64 or set it, with what that releases; an index at or beyond
FENCES changes no counter and is answered as a fault; TIME and the doorbell aperture read as Table 12.8 says; the frame
queues take their tails and port bindings. -/
def Obligations.CoreAccesses : Prop :=
  ∀ (s : State) (c : CoreId) (f i r : Nat) (v : W64) (a : BitVec 56) (w : Bool) (lg : Fin 4) (tail : W32) (n : Fin 4),
    let k := (s.fn f).fenceBase + i
    let fence := 0xF00000010000 + 8 * i
    let taken := (List.range 32).any (fun d => (s.core d).fn ≠ some f && (s.core d).binds (tail.toNat % 65536))
    let bound := tail.getLsbD 16 && !taken && !reservedPorts.contains (tail.toNat % 65536)
    s.coreFn c = some f →
    (i < (s.fn f).fences → exec (.coreFenceAdd c i v) s = .next (((s.setFence k (s.fence k + v)).fenceLatch f).coreAns c (.data 0)) ∧
      exec (.coreFenceSet c i v) s = .next (((s.setFence k v).fenceLatch f).coreAns c (.data 0))) ∧
    (¬ i < (s.fn f).fences → exec (.coreFenceAdd c i v) s = .next (s.coreAns c .fault) ∧
      exec (.coreFenceSet c i v) s = .next (s.coreAns c .fault)) ∧
    exec (.hcoreAccess c a w lg v) s = .next (s.coreAccess f c a.toNat (2 ^ lg.val) w v.toNat) ∧
    (i < (s.fn f).fences → i < 16384 → s.coreAccess f c fence 8 false v.toNat = s.coreAns c (.data (s.fence k)) ∧
      s.coreAccess f c fence 8 true v.toNat = ((s.setFence k (s.fence k + v)).fenceLatch f).coreAns c (.data 0)) ∧
    (¬ i < (s.fn f).fences → i < 16384 → s.coreAccess f c fence 8 w v.toNat = s.coreAns c .fault) ∧
    s.coreAccess f c 0xF00000060000 8 false v.toNat = s.coreAns c (.data (BitVec.ofNat 64 s.timeNs)) ∧
    (s.localRing f i = some r → i < 8192 → s.coreAccess f c (0xF00000000000 + 8 * i) 8 false v.toNat =
      s.coreAns c (.data (BitVec.ofNat 64 ((s.ring r).done.toNat + (s.ring r).head.toNat * 2 ^ 32)))) ∧
    exec (.fqTxTailWrite c tail) s = .next ((s.onCore c (fun x => { x with txTail := tail })).txPump f c 64) ∧
    exec (.fqRxTailWrite c tail) s = .next (s.onCore c (fun x => { x with rxTail := tail })) ∧
    exec (.fqPortWrite c n tail) s = .next (s.onCore c (fun x =>
      { x with ports := x.ports.set 0 n (tail &&& 0x1FFFF), bound := x.bound.set false n bound }))

/-! Collectives (spec/15). -/

/-- Collective packets that an engine has received, for a running collective: a PART of a reduction joins its chunk and
moves it on, a PART that only moves data is placed; a RESULT is taken, written or passed on, and consumed from its
sender's grant; a DECLINE is counted, sends the chunk to the ring of tray leaders and grants its packets; a GRANT is
added to what is held from its sender and lets waiting chunks go; a notice of codes 2 to 4 aborts a collective in
progress that has not aborted, and is discarded and counted where none is in progress; one of another code is discarded.
-/
def Obligations.CollectivePackets : Prop :=
  ∀ (s : State) (q : QuadId) (p : FPkt) (rest : List FPkt) (c : Coll),
    let s1 : State := { s with collIn := rest }
    let T := fun (ok : FPkt → Bool) => s.live = true ∧ takeFirst ok s.collIn = some (p, rest)
    let runs := s1.collFor p = some c ∧ c.running = true
    let v := s1.collValue c p
    let rank := c.rankOf p
    let k := c.chunks.get {} p.chunk
    let n := p.aux / 2 ^ 40 % 2 ^ 16
    (T (fun p => p.kind = 8 && chunkQuad p.chunk = q) → runs → exec (.collPartReceive q) s =
      .next (if v.2.1.reduced p.chunk then v.1.collAdvance (v.2.1.addPart p.chunk p.stage (v.2.1.rankOf p) v.2.2) p.chunk
        else v.1.collData v.2.1 p.chunk (v.2.1.rankOf p) v.2.2)) ∧
    (T (fun p => p.kind = 9 && chunkQuad p.chunk = q) → runs →
      let s2 := v.1.collAdvance { v.2.1 with chunks := v.2.1.chunks.modify {} p.chunk (fun k => v.2.1.takeResult p.stage k v.2.2) } p.chunk
      let switch := p.stage = 1 ∧ k.sentRack = true ∧ k.rackVal = none ∧ k.declined = false
      exec (.collResultReceive q) s = .next (match s2.collFor p with
        | none => s2
        | some d =>
          let x := s2.collConsume d (if switch then 0x10000 else d.rankOf p) p.stage (d.grantQuad p.chunk)
          x.1.putColl x.2)) ∧
    (T (fun p => p.kind = 10 && chunkQuad p.chunk = q) → runs →
      let g := c.group
      let ts := g.trays (g.rackOf g.rank)
      let lead := fun (i : Nat) => g.trayLeader p.chunk (ts.getD i 0)
      let gq := c.grantQuad p.chunk
      let s2 := (s1.orStat .coll q (2 ^ 8)).count .coll q 2 0 c.fn 1
      let d := { c with chunks := c.chunks.modify {} p.chunk (fun k => { k with declined := true }) }
      let x := s2.collConsume d 0x10000 1 gq
      let y := if 0 < g.pos g.rank then x.1.collGrant x.2 (lead (g.pos g.rank - 1)) 2 gq 1 else x
      let z := if g.pos g.rank + 1 < ts.length then y.1.collGrant y.2 (lead (ts.length - 1)) 2 gq 1 else y
      exec (.collDeclineReceive q) s = .next ((z.1.putColl z.2).collAdvance z.2 p.chunk)) ∧
    (T (fun p => p.kind = 11 && p.noticeCode = 1 && s.noticeQuad p = q && !s.grantEarly p) → s1.collFor p = some c →
      let d := { c with held := c.held.modify 0 (gKey rank (p.aux / 2 ^ 56 % 4)) (· + n) }
      exec (.collGrantReceive q) s = .next ((s1.putColl d).collFlush d)) ∧
    (T (fun p => p.kind = 11 && p.noticeCode ≠ 1 && s.noticeQuad p = q) → s1.collFor p = some c → c.admitted = true → 2 ≤ p.noticeCode → p.noticeCode ≤ 4 →
      c.abort = 0 → exec (.collNoticeReceive q) s = .next (s1.collAbort c 6)) ∧
    (T (fun p => p.kind = 11 && p.noticeCode ≠ 1 && s.noticeQuad p = q) → ¬ (2 ≤ p.noticeCode ∧ p.noticeCode ≤ 4) →
      exec (.collNoticeReceive q) s = .next s1) ∧
    (T (fun p => p.kind = 11 && p.noticeCode ≠ 1 && s.noticeQuad p = q) → (s1.collFor p).filter (·.admitted) = none →
      2 ≤ p.noticeCode → p.noticeCode ≤ 4 → exec (.collNoticeReceive q) s =
        .next ((s1.orStat .coll (s1.noticeQuad p) (2 ^ 10)).count .coll (s1.noticeQuad p) 4 0 p.dstFn 1))

/-! The Ethernet port (spec/13). -/

/-- The Ethernet link comes up with what it advertises, what waited for it goes, and DHCPv4 asks for an address; its
loss advertises 800 Gbit/s again, and no priority stays paused; half width is advertised where none came up; an address
that the package may take is used once its detection has found no other, and is shown as failed otherwise; pause bits of
enabled priorities follow a PFC frame, and what waited goes; a congestion notification halves a connection's rate, and
55 µs after that or after the last rise it rises by 5 % of the line rate, up to the full rate, and not before. A frame
that comes with an uncorrectable FEC codeword is dropped, counted and reported. Another first sends the XOFF and XON
that its receive buffers ask for. One without room in its priority's buffer is dropped and counted, and reported where
the priority is lossless; one whose length or FCS is wrong is dropped and counted by cause; any other is handed on. -/
def Obligations.EthernetLinkAndFrames : Prop :=
  (∀ (s : State) (a : BitVec 128) (en pa : BitVec 8) (q : BitVec 24) (k : Conn) (t : Nat),
     let e := s.eth
     let conn := fun (k : Conn) => ({ s with eth := { e with conns := e.conns.set none q.toNat (some k) } } : State)
     let learned := e.learned.filter (· ≠ a)
     let rate := min 1000000000 (k.rate + 50000000)
     (s.boot.pgood = true → s.fatal.cause = 0 → e.training = true → exec .ethLinkUp s =
       .next (({ s with eth := { e with training := false, link := true, half := e.advHalf, everUp := true } } :
         State).ethResume.dhcpStart)) ∧
     (s.ethRuns = true → exec .ethLinkLoss s =
       .next { s with eth := { e with link := false, half := false, training := true, advHalf := false, paused := 0, xoff := 0 } }) ∧
     (e.training = true → e.everUp = false → exec .ethHalfWidthFallback s = .next { s with eth := { e with advHalf := true } }) ∧
     (s.ethRuns = true → s.ownAddr a = false → e.mayTake a = true →
       exec (.addrDadComplete a true) s = .next { s with eth := { e with addrs := e.addrs ++ [a], learned := learned } } ∧
       exec (.addrDadComplete a false) s = .next (({ s with eth := { e with learned := learned } } : State).orStat .eth 0 8)) ∧
     (s.ethRuns = true → exec (.pfcFrameReceive en pa) s =
       .next (({ s with eth := { e with paused := (e.paused &&& ~~~en) ||| (pa &&& en) } } : State).ethResume)) ∧
     (s.ethRuns = true → s.conn q.toNat = some k →
       exec (.cnpReceive q) s = .next ((conn { k with rate := k.rate / 2, cnpGot := some s.timeNs }).count .eth 0 3 1 0 1) ∧
       (k.cnpGot = some t → t + 55000 ≤ s.timeNs → exec (.cnpRateRaise q) s =
         .next (conn { k with rate := rate, cnpGot := if rate = 1000000000 then none else some s.timeNs })) ∧
       (k.cnpGot = none ∨ k.cnpGot = some t ∧ s.timeNs < t + 55000 → exec (.cnpRateRaise q) s = .next s))) ∧
  (∀ (s : State) (m : List Byte) (occ : List Nat), s.ethRuns = true →
     let p := frameClass m
     let s1 := s.pfcBuffers occ
     let room := s1.ethRoom p (occ.getD p 0) m.length
     exec (.ethFrameReceive m ⟨false, occ⟩) s = .next ((s.raise .eth 0 1 {}).ethDrop 4) ∧
     (room = false → s1.eth.netrec.pfcMask.testBit p = true → exec (.ethFrameReceive m ⟨true, occ⟩) s =
       .next ((s1.raise .eth 0 2 {}).ethDrop 5)) ∧
     (room = false → s1.eth.netrec.pfcMask.testBit p = false → exec (.ethFrameReceive m ⟨true, occ⟩) s = .next (s1.ethDrop 5)) ∧
     (room = true → m.length < 64 ∨ 9220 < m.length → exec (.ethFrameReceive m ⟨true, occ⟩) s = .next (s1.ethDrop 2)) ∧
     (room = true → 64 ≤ m.length → m.length ≤ 9216 → fcs (m.take (m.length - 4)) ≠ m.drop (m.length - 4) →
       exec (.ethFrameReceive m ⟨true, occ⟩) s = .next (s1.ethDrop 1)) ∧
     (room = true → exec (.ethFrameReceive m ⟨true, occ⟩) s = .next (s1.ethFrame m)))

/-- RDMA requests on a connection: a write within the window lands before its acknowledgement, a read answers its bytes,
one that its key or range does not allow changes nothing but its NAK, and a SEND fills the next buffer of the first
core. A READ beyond 16 outstanding ones is answered with NAK 0x61. -/
def Obligations.RdmaRequests : Prop :=
  ∀ (s s1 : State) (q : BitVec 24) (key : W32) (va : W64) (d bs : List Byte) (n code : Nat) (k : Conn) (ps : List (Nat × Nat × Nat))
      (c : Nat) (l : List Nat),
    let a := va.toNat
    s.ethRuns = true → s.conn q.toNat = some k →
    (s.region k.fn key = .none → exec (.rdmaWrite q key va d) s = .next (s.rdmaNak q.toNat k.fn 0x62)) ∧
    (16 ≤ s.eth.outstanding q.toNat → exec (.rdmaRead q key va n) s = .next (s.rdmaNak q.toNat k.fn 0x61)) ∧
    (s.eth.outstanding q.toNat < 16 → s.region k.fn key = .none → exec (.rdmaRead q key va n) s = .next (s.rdmaNak q.toNat k.fn 0x62)) ∧
    (s.region k.fn key = .window → s.tacked = false →
      (s.windowReq k.fn a d.length true = .ok ps → exec (.rdmaWrite q key va d) s =
        .next (((s.writePieces ps d false).count .win 0 2 1 k.fn d.length).answer q.toNat .ack)) ∧
      (s.windowReq k.fn a d.length true = .error code → exec (.rdmaWrite q key va d) s = .next (s.rdmaNak q.toNat k.fn code))) ∧
    (s.region k.fn key = .window → s.tacked = true → exec (.rdmaWrite q key va d) s = .next (s.answer q.toNat .rnr)) ∧
    (s.region k.fn key = .ring → s.tacked = false → a < 2 ^ 40 → s.entryReq k.fn a d.length true = .ok ps →
      exec (.rdmaWrite q key va d) s =
        .next (((s.writePieces ps d false).count .win 0 2 1 k.fn d.length).answer q.toNat .ack)) ∧
    (s.region k.fn key = .ring → 2 ^ 40 ≤ a → a % 8 = 0 → d.length = 4 ∨ d.length = 8 → exec (.rdmaWrite q key va d) s =
      .next (s.rdmaDoorbell q.toNat k.fn ((a - 2 ^ 40) / 8) (BitVec.ofNat 32 (leVal (d.take 4))))) ∧
    (∀ u, s.eth.outstanding q.toNat < 16 → s.region k.fn key = .window → s.windowReq k.fn a n false = .ok ps →
      s.readPieces ps = (s1, bs, false, u) →
      exec (.rdmaRead q key va n) s = .next ((s1.count .win 0 2 0 k.fn n).answer q.toNat (.data bs))) ∧
    (∀ u, s.eth.outstanding q.toNat < 16 → s.region k.fn key = .window → s.windowReq k.fn a n false = .ok ps →
      s.readPieces ps = (s1, bs, true, u) →
      exec (.rdmaRead q key va n) s = .next (s1.rdmaNak q.toNat k.fn 0x63)) ∧
    (s.coresOf k.fn = c :: l → d.length ≤ 9216 → s.tacked = false → (s.fn k.fn).st = .running → (s.core c).rxDone ≠ (s.core c).rxTail →
      s.fqFill k.fn c d = (s1, 0) → exec (.rdmaSend q d) s = .next (s1.answer q.toNat .ack)) ∧
    (s.coresOf k.fn = c :: l → d.length ≤ 9216 → s.tacked = false → (s.fn k.fn).st = .running → (s.core c).rxDone = (s.core c).rxTail →
      exec (.rdmaSend q d) s = .next (s.answer q.toNat .rnr))

/-! The stitch chain (spec/13). -/

/-- A frame whose length or coding is wrong, or whose check is wrong, is dropped; a good one for this package alone is
taken and not sent on, one for another is sent on with HOPS + 1, one for every package is taken and sent on, but for
ENUM. What the taken frames do: ENUM gives the package its index and sends the next one on, SETADDR its fabric address,
PING answers its payload, RESET_REQ answers and resets, a power warning sets and clears the host throttle, and SKELIST
carries a message; characters, losses and idle times of the chain act at once. -/
def Obligations.ChainFrames : Prop :=
  (∀ (s : State) (m : List Byte),
     let n := beAt m 4 2
     let b := m.take (6 + n)
     let dest := beAt b 1 1
     let type := beAt b 0 1
     let s1 : State := { s with stch := { s.stch with inbox := s.stch.inbox ++ [b] } }
     let whole := n ≤ 256 ∧ m.length = 8 + n
     let good := whole ∧ chainCrc b = m.drop (6 + n)
     let mine := 1 ≤ type ∧ type ≤ 6
     s.chainRuns = true →
     exec (.stchFrameReceive m false) s = .next (s.chainDrop 1) ∧
     (¬ whole → exec (.stchFrameReceive m true) s = .next (s.chainDrop 1)) ∧
     (whole → chainCrc b ≠ m.drop (6 + n) → exec (.stchFrameReceive m true) s = .next (s.chainDrop 0)) ∧
     (good → dest = s.stch.index → dest < 0xFE → exec (.stchFrameReceive m true) s = .next (if mine then s1 else s)) ∧
     (good → dest ≠ s.stch.index ∨ dest = 0xFE → dest ≠ 0xFF → exec (.stchFrameReceive m true) s = .next (s.chainForward b)) ∧
     (good → dest = 0xFF → ¬ (type = 1 ∧ n = 1) →
       exec (.stchFrameReceive m true) s = .next ((if mine then s1 else s).chainForward b)) ∧
     (good → dest = 0xFF → type = 1 → n = 1 → exec (.stchFrameReceive m true) s = .next s1)) ∧
  (∀ (s : State) (b : List Byte) (rest : List (List Byte)) (ctl : Bool) (ch : Byte),
     let p := chainPayload b
     let v := beAt p 0 2
     let s1 : State := { s with stch := { s.stch with inbox := rest } }
     let addr : State := { s1 with fab := { s1.fab with addr := some (v % 2 ^ 14) } }
     let K := fun (ok : List Byte → Bool) => s.chainRuns = true ∧ takeFirst ok s.stch.inbox = some (b, rest)
     let enum : State := { s1 with stch := { s1.stch with index := beAt p 0 1 } }
     let works := s.boot.pgood = true ∧ s.fatal.cause = 0
     (K (fun b => beAt b 0 1 = 1) → p.length = 1 →
       exec .enumFrame s = .next (enum.chainForward (b.take 6 ++ beBytes 1 (min 254 (beAt p 0 1 + 1))))) ∧
     (K (fun b => beAt b 0 1 = 2) → s1.chainServes = true → p.length = 2 → s1.noneRunning = true →
       (tb v 15 = false → exec .setaddr s = .next (addr.chainReply 2 [0])) ∧
       (tb v 15 = true → s.flash.locked = true → exec .setaddr s = .next (addr.chainReply 2 [2])) ∧
       (tb v 15 = true → s.flash.locked = false → exec .setaddr s =
         .next (({ addr with flash := addr.flash.tagWrite 24 (toLe 2 (v % 2 ^ 14 + 2 ^ 15)) }).chainReply 2 [0]))) ∧
     (K (fun b => beAt b 0 1 = 2) → s1.chainServes = true → p.length = 2 → s1.noneRunning = false →
       exec .setaddr s = .next (s1.chainReply 2 [1])) ∧
     (K (fun b => beAt b 0 1 = 3) → exec .ping s = .next (s1.chainReply 3 p)) ∧
     (K (fun b => beAt b 0 1 = 4) → p = [] → s.fatal.cause = 0 → exec .resetReq s = .next (s1.chainReply 4 [0]).doReset) ∧
     (K (fun b => beAt b 0 1 = 4) → p = [] → s.fatal.cause ≠ 0 → exec .resetReq s = .next (s1.chainReply 4 [1])) ∧
     (K (fun b => beAt b 0 1 = 5 && chainPayload b = [0x81]) → works → exec .powerWarn s =
       .next (s1.pwrStep (fun s => { s with pwr := { s.pwr with hostWarn := true } }))) ∧
     (K (fun b => beAt b 0 1 = 5 && chainPayload b = [0x82]) → works → exec .powerWarnClear s =
       .next (s1.pwrStep (fun s => { s with pwr := { s.pwr with hostWarn := false } }))) ∧
     (K (fun b => beAt b 0 1 = 6) → s.boot.pgood = true → s.boot.fail ≠ 2 → s.fatal.cause ≠ 1 → chainCodes.contains (beAt p 0 2) = true →
       exec .stchSkelist s = .next ((s1.receiveMsg p .chain).chainRefuse s.thm.queue.length)) ∧
     (s.chainRuns = true → s.stch.upstreamLost = false → exec .upstreamLost s =
       .next (({ s with stch := { s.stch with upstreamLost := true } }).boardEvent 3)) ∧
     (s.chainRuns = true → s.stch.upstreamLost = true → exec .upstreamLostRepeat s = .next (s.boardEvent 3)) ∧
     (s.chainRuns = true → exec (.stchCharacterReceive ctl ch) s = .next { s with stch := { s.stch with upstreamLost := false } }) ∧
     (s.chainRuns = true → exec .stchNullSend s =
       .next { s with stch := { s.stch with out := s.stch.out ++ [s.stch.own.headD []], own := s.stch.own.drop 1 } }))

/-! The fabric (spec/14). -/

/-- A port trains, retrains and leaves service: with eight good lanes it is ACTIVE8, with four ACTIVE4, with a partner
that does not fit MISWIRED, with too few lanes DOWN; leaving service clears its USE bit. USE bits (R410): a bit written
1 is set where it was set, or where its port is present and active; a bit written 0 is cleared. -/
def Obligations.PortStates : Prop :=
  (∀ (s : State) (p : PortId) (x : Partner) (lanes : BitVec 8) (cause : RetrainCause) (use : BitVec 20), s.portRuns p = true →
     let st := (s.port p).st
     let m := s.goodLanes p lanes
     let met := s.onPort p (fun y => { y with partner := some x })
     let four := m &&& 0x0F = 0x0F ∨ m &&& 0xF0 = 0xF0
     (st = .training ∨ st = .retrain → four → partnerFits p x = true → exec (.lnkLinkUp p x lanes) s =
       .next (met.enterService p m (decide (m &&& 0x0F ≠ 0x0F)) (decide (m = 0xFF)))) ∧
     (st = .training ∨ st = .retrain → four → partnerFits p x = false → exec (.lnkLinkUp p x lanes) s =
       .next ((met.leaveService p .miswired).raise .lnk p 32 {})) ∧
     (st = .training → ¬ four → exec (.lnkLinkUp p x lanes) s = .next (s.portGo p .down)) ∧
     (st = .active8 ∨ st = .active4 → exec (.lnkRetrain p cause) s = .next ((s.portGo p .retrain).raise .lnk p 2 {})) ∧
     (st = .miswired → exec (.lnkRetrain p cause) s = .next ((s.portGo p .training).raise .lnk p 2 {})) ∧
     (st = .retrain → exec (.lnkRetrainTimeout p) s = .next (s.leaveService p .down)) ∧
     (st = .down → 8 ≤ s.boot.order → exec (.lnkDownRetry p) s = .next (s.portGo p .training)) ∧
     (st ≠ .fenced → exec (.fenceOrderedSetReceive p) s = .next (s.leaveService p .down)) ∧
     (st.inService = true → exec (.portLeaveService p) s = .next (s.leaveService p .down)) ∧
     exec (.lnkSysUseWrite use) s = .next (s.writeUse use)) ∧
  (∀ (s : State) (v : BitVec 20) (p : Nat), p < 20 →
     (s.writeUse v).fab.use.getLsbD p =
       (v.getLsbD p && (s.fab.use.getLsbD p || (!s.portAbsent p && (s.port p).st.active))))

/-- Packets of an active port: a replay is counted, acknowledgements and credits release what waits, a packet whose
header is wrong is counted and dropped, a right one is forwarded, one that has waited 10 ms is discarded; under a tack
an open channel's packets join its log. -/
def Obligations.FabricPackets : Prop :=
  ∀ (s : State) (p : PortId) (vc : Fin 6) (m : List Byte) (q : FPkt) (e : PortPkt) (seq ack : BitVec 11) (ok : Bool)
      (cr : List (Fin 6 × Nat)), s.portRuns p = true →
    let x := s.port p
    let counted := s.count .lnk p 1 (vc.val + 0x80) 0 ((m.length + 253) / 254)
    let k := 0x1000 + p.val * 8 + vc.val
    let used := cr.foldl (fun (m : SMap Nat) c => m.modify 0 c.1.val (· - c.2)) x.used
    let freed := { x with sent := x.sent.dropWhile (x.acked ack.toNat), used := used }
    (x.st.active = true → x.replayFrom = none → s.trc.tack = .none →
      (FPkt.parse m = none → exec (.fabricPacketReceive p vc m) s = .next (counted.count .lnk p 3 1 0 1)) ∧
      (FPkt.parse m = some q → exec (.fabricPacketReceive p vc m) s = .next (counted.forward p q))) ∧
    (x.st.active = true → x.replayFrom = none → s.trc.tack ≠ .none → (s.trc.logs.get {} k).closed = false →
      exec (.fabricPacketReceive p vc m) s =
        .next { s with trc := { s.trc with logs := s.trc.logs.modify {} k (fun l => { l with entries := l.entries ++ [m] }) } }) ∧
    (x.st.active = true → exec (.lnkReplay p seq ok) s = .next
      (((s.onPort p (fun x => { x with replayFrom := if ok then none else some seq.toNat })).raise .lnk p 1 {}).count .lnk p 2 0 0 1)) ∧
    (x.st.active = true → exec (.lnkControlFlitReceive p ack cr) s =
      .next (s.setPort p (if s.trc.tack = .none then freed.pump else freed))) ∧
    (s.trc.tack = .none → x.queue.find? (fun e => e.vc = vc.val) = some e → exec (.packetAged p vc) s =
      .next (((s.onPort p (fun x => { x with queue := x.queue.eraseP (fun q => q.vc = vc.val) })).raise .lnk p 64 {}).discard p 4 e.pkt))

/-! Power, temperature and time (spec/16). -/

/-- The rate loop and the regulators of a domain: VSET moves by 5 mV towards the target rate within its limits, a
setpoint is acknowledged and then slews, a slew that no droop pauses ends at its target; droops gate and release. No
other domain changes. Shortfall of a domain is entered at the highest setpoint below 98 % of the target rate and cleared
at the target, each reported; the daily ageing record joins the history. -/
def Obligations.SetpointsAndShortfall : Prop :=
  (∀ (s : State) (d : DomId) (rate : Nat),
     let x := s.dom d
     let v := s.fuses.vnom d x.op
     let t := targetRate x.op
     let next := if rate < t then x.vset + 5 else if rate * 100 > t * 102 then x.vset - 5 else x.vset
     let Dom := fun (i : Instr) (y : Dom) => ∃ u, exec i s = .next u ∧ ∀ k, u.dom k = if k = d.val then y else s.dom k
     (s.govRuns = true → x.gated = false → x.slewing = false →
       Dom (.rateLoopTick d rate) { x with vset := max (v - 60) (min next (v + s.fuses.age d)) }) ∧
     (s.boot.pgood = true → x.slewing = true → Dom (.regSetpointAck d) { x with acked := true }) ∧
     (s.boot.pgood = true → x.slewing = true → x.acked = true → x.droop = false →
       Dom (.regSlewEnd d) { x with slewing := false, vset := x.target }) ∧
     (s.boot.pgood = true → Dom (.droopEngage d) { x with droop := true } ∧ Dom (.droopRelease d) { x with droop := false })) ∧
  (∀ (s : State) (d : DomId) (rate : Nat) (l : List (DomId × Fin 8 × Int)), s.govRuns = true →
     let x := s.dom d
     let recs := l.map (fun m => (⟨.ageing, s.timeNs, m.1.val * 16 + m.2.1.val + 1, m.2.2⟩ : HistRec))
     (x.gated = false → x.slewing = false → x.shortfall = false → x.vset = s.fuses.vnom d x.op + s.fuses.age d →
       rate * 100 < targetRate x.op * 98 →
       exec (.shortfallEnter d rate) s = .next ((s.setDom d { x with shortfall := true }).shortfallReport d 1)) ∧
     (x.shortfall = true → targetRate x.op ≤ rate →
       exec (.shortfallClear d rate) s = .next ((s.setDom d { x with shortfall := false }).shortfallReport d 0)) ∧
     exec (.ageingRecord l) s = .next { s with flash := { s.flash with history := s.flash.history ++ recs } })

/-- Temperature and current: THERM falls at 103 °C or with its stack at 93 °C and rises below both release points; CURR
falls above 95 % of a regulator's limit and rises below 80 %, and on VIN12 with 240 A and 200 A for every domain; gates
follow their thresholds. -/
def Obligations.ThermalAndCurrentCeilings : Prop :=
  ∀ (s : State) (d : DomId) (t : TileId) (temp : BitVec 16) (n : Nat), s.govRuns = true →
    let x := s.dom d
    let hot := x.temp ≥ 103 * 16 ∨ x.stackTemp.toInt ≥ 93 * 16
    let cool := x.temp ≤ 100 * 16 ∧ x.stackTemp.toInt ≤ 90 * 16
    let At := fun (i : Instr) (f : Dom → Dom) => ∃ u, exec i s = .next u ∧ ∀ k, u.dom k = if k = d.val then f (s.dom k) else s.dom k
    let All := fun (i : Instr) (f : Dom → Dom) => ∃ u, exec i s = .next u ∧ ∀ k < 20, u.dom k = f (s.dom k)
    let v := temp.toInt
    let slow := fun (x : Dom) => if v ≥ 95 * 16 then true else if v ≤ 93 * 16 then false else x.stackSlow
    let stack := fun (x : Dom) => { x with stackTemp := temp, doubled := decide (v > 85 * 16), stackSlow := slow x }
    let therm := fun (x : Dom) => if hot then max 1 (x.therm - 1) else if cool then min 8 (x.therm + 1) else x.therm
    let reg := fun (x : Dom) => if n * 2 > s.fuses.limit d * 19 then max 1 (x.curr - 1)
      else if n < s.fuses.limit d * 8 then min 8 (x.curr + 1) else x.curr
    let vin := fun (x : Dom) => if n > 2400 then max 1 (x.curr - 1) else if n < 2000 then min 8 (x.curr + 1) else x.curr
    let tile := fun (x : Dom) =>
      let y := { x with tileTemp := x.tileTemp.set 0 t temp }
      { y with thermGate := if y.temp ≥ 105 * 16 then true else if y.temp ≤ 104 * 16 then false else x.thermGate }
    At (.thermCeilingStep d) (fun x => { x with therm := therm x }) ∧
    (domainOf t = d.val → At (.thermalThreshold (.tile t) temp) tile) ∧
    At (.thermalThreshold (.stack d) temp) stack ∧
    At (.currentLimit (.regulator d) n) (fun x => { x with curr := reg x }) ∧
    All (.currentLimit .vin12 n) (fun x => { x with curr := vin x })

/-- The governor: an iteration decides and commands the operating points, a measurement window sets the mode, a pace
window the pace ceilings, a lease that ends returns the cap to 1,200 W, and a domain with no tile of a function is
gated. -/
def Obligations.GovernorRuns : Prop :=
  ∀ (s : State) (est : Nat) (ok : Bool) (mw : List Int) (per : List (DomId × Nat)) (ws : List PaceWait) (d : DomId),
    s.govRuns = true →
    let ts := (List.range 80).filter (fun t => domainOf t = d.val)
    (∃ u, exec (.govCapIteration est) s = .next u ∧ (∀ k, (u.dom k).gated = (s.dom k).gated) ∧
      ∀ k < 20, (s.dom k).gated = false → (u.dom k).op = u.opOf k) ∧
    (∃ u, exec (.govMeasureWindow ok mw) s = .next u ∧ (∀ k, u.dom k = s.dom k) ∧ u.pwr.estSum = 0 ∧ u.pwr.estN = 0) ∧
    (s.pwr.tackInWindow = false → s.tacked = false → ∃ u, exec (.paceWindow per ws) s = .next u ∧
      ∀ k < 20, (u.dom k).periods = ((per.filter (fun p => p.1.val = k)).map Prod.snd).foldl (· + ·) 0) ∧
    (s.pwr.grantW ≠ 0 → exec .grantLeaseExpire s =
      .next ({ s with pwr := { s.pwr with grantW := 0, capW := 1200, leaseEnd := 0 } }.notify 0 5 (beBytes 2 1200))) ∧
    ((s.dom d).gated = false → (∀ t ∈ ts, (s.tile t).owner = none ∨ (s.tile t).retired = true) → ∃ u,
      exec (.domainGate d) s = .next u ∧ (u.dom d).gated = true ∧ (u.dom d).op = 0 ∧ (u.dom d).vset = 0 ∧
      ∀ k, k ≠ d.val → u.dom k = s.dom k)

/-- Faults of the supply raise their bit and wait to be latched as their fatal cause, the first cause first; THERMTRIP_N
falls with its cause. Entry into the safe state latches the waiting cause with its time, drives FAULT_N low and records
the cause; after 100 ms the Ethernet port is idle; the latch is cleared with both supplies removed. -/
def Obligations.SupplyFaultsAndTheFatalLatch : Prop :=
  (∀ (s : State) (d : DomId) (sn : Sensor), s.fatal.cause = 0 → s.fatal.pendingCause = 0 →
     let F := fun (i : Instr) (n cause : Nat) => ∃ u, exec i s = .next u ∧ (u.err .pwr 0).stat.getLsbD n = true ∧
       u.fatal.cause = 0 ∧ u.fatal.pendingCause = cause
     (s.boot.pgood = true → F (.brownout d) 1 2 ∧ F (.regControlLoss d) 2 3) ∧
     (s.boot.v3p3 = true → F (.thermtrip sn) 3 4 ∧ ∃ u, exec (.thermtrip sn) s = .next u ∧ u.fatal.thermtripN = false)) ∧
  (∀ (s : State) (a b : Nat),
     (s.fatal.pendingCause ≠ 0 → s.fatal.cause = 0 → ∃ u, exec .fatalEntry s = .next u ∧
       u.fatal.cause = s.fatal.pendingCause ∧ u.fatal.pendingCause = 0 ∧ u.fatal.time = s.timeNs ∧ u.fatal.faultN = false) ∧
     (s.fatal.cause ≠ 0 → exec .safeStateEthernetIdle s = .next
       { s with fatal := { s.fatal with ethIdle := true }, eth := { s.eth with link := false, training := false } }) ∧
     (a < 1000 → b < 500 → exec (.fatalLatchClear a b) s = .next { s.powerOff false false with fatal := {} }))

/-- The time base takes the state that its sources call for: FREE without TIMEREF, LOCKED with PPS and PTP, HOLDOVER
once it has been LOCKED and lost one, else FREQ. A link's measured offset is kept for its port. -/
def Obligations.TimeBaseFollowsItsSources : Prop :=
  ∀ (s : State) (dom : Byte) (mt off : W64) (p : PortId) (lk : Bool), s.boot.pgood = true →
    let T := fun (i : Instr) (x : TimeB) => ∃ u, exec i s = .next u ∧ u.timeBase.timeref = x.timeref ∧ u.timeBase.pps = x.pps ∧
      u.timeBase.ptp = x.ptp ∧ u.timeBase.state = x.next
    let x := s.timeBase
    (x.timeref = true → T .timerefLoss { x with timeref := false }) ∧
    (x.timeref = false → T .timerefRestore { x with timeref := true }) ∧
    T .ppsEdge { x with pps := true } ∧
    (x.state = 2 → T .ppsLoss { x with pps := false } ∧ T .ptpLoss { x with ptp := false }) ∧
    (s.eth.link = true → s.fatal.cause = 0 → dom.toNat = s.eth.netrec.ptpDomain →
      T (.ptpMessageReceive dom mt off) { x with ptp := true }) ∧
    (p.val < 6 ∨ 14 ≤ p.val → s.portAbsent p = false → (s.port p).st.active = true → ∃ u,
      exec (.linkTimeOffset p lk off) s = .next u ∧
      u.port p = { s.port p with timeOffset := off, partnerLocked := lk } ∧ ∀ q, q ≠ p.val → u.port q = s.port q)

/-! Errors, the safe state, the tack, boot and reset (spec/17 to spec/19). -/

/-- The first error of an instance: an event of a cleared instance sets its cause bits, latches the lowest of them in
ERR_FIRST with its class, counts 1, an event of a higher class overwrites ERR_FIRST, and one of no higher class leaves
it as it is. -/
def Obligations.ErrorRegistersLatchTheFirst : Prop :=
  ∀ (s : State) (b : Blk) (i m : Nat) (sc : Scope) (j : Bool), m ≠ 0 →
    let r := s.err b i
    let q := (s.raise b i m sc j).err b i
    let cls := b.maskCls m
    (r.stat = 0 → q.stat = BitVec.ofNat 32 m) ∧
    (r.first.toNat / 128 % 2 = 0 → q.first = BitVec.ofNat 32 (errImage (lowBit m 16) cls sc j)) ∧
    (r.first.toNat / 128 % 2 = 1 → cls.code ≤ r.first.toNat / 32 % 4 → q.first = r.first) ∧
    (r.first.toNat / 128 % 2 = 1 → r.first.toNat / 32 % 4 < cls.code →
      q.first = BitVec.ofNat 32 (errImage (lowBit m 16) cls sc j)) ∧
    (cls = .c → q.corr = min (2 ^ 64 - 1) (r.corr + 1) ∧ q.uncorr = r.uncorr) ∧
    (cls ≠ .c → q.uncorr = min (2 ^ 64 - 1) (r.uncorr + 1) ∧ q.corr = r.corr) ∧ q.ctl = r.ctl

/-- Writes of registers outside the safe state: ERR_STAT clears the bits written 1 and, with none left, ERR_FIRST;
ERR_CTL takes its value and injects a cause; a read of ERR_COUNT ends its interrupt; read-only registers take no write.
A write through Thimble leaves the registers that only Thimble changes for its commands as they are, where one over JTAG
reaches them; the safe state blocks every write by either path. -/
def Obligations.RegisterWrites : Prop :=
  ∀ (s : State) (b : Blk) (i : Nat) (v : BitVec 192) (w : W32) (r : Reg) (f : FnId) (t : TileId) (n : Fin 16384) (g : RingId)
      (d : DomId) (k : Fin 2) (path : RegPath),
    let W := fun (r : Reg) (u : State) => exec (.registerWrite ⟨path, r⟩ v) s = .next u
    let e := s.err b i
    let st := e.stat &&& ~~~(BitVec.ofNat 32 (wfld v 0 32))
    (s.regWrites = true →
      W (.errStat b.code i) (s.setErr b i { e with stat := st, first := if st = 0 then 0 else e.first }) ∧
      (b.hasInst i = true → w.getLsbD 29 = false → exec (.errInject b.code i w) s =
        .next (s.setErr b i { e with ctl := BitVec.ofNat 32 (w.toNat % 2 ^ 21) })) ∧
      (b.hasInst i = true → w.getLsbD 29 = true → exec (.errInject b.code i w) s =
        .next ((s.setErr b i { e with ctl := BitVec.ofNat 32 (w.toNat % 2 ^ 21) }).inject b i (w.toNat / 2 ^ 24 % 32))) ∧
      (thimbleOnly r = true → exec (.registerWrite ⟨.thimble, r⟩ v) s = .next s) ∧
      exec (.registerWrite ⟨.jtag, .fnCfg f⟩ v) s = .next (s.setFn f { s.fn f with drainLimit := wfld v 0 14, fenceBase := wfld v 14 14, fences := wfld v 28 15 }) ∧
      W (.dspFence n) (s.setFence n (BitVec.ofNat 64 (wfld v 0 64))) ∧
      W (.slbScrub t) (s.setSlab t { s.slab t with scrubPeriod := BitVec.ofNat 8 (wfld v 0 8), scrubEnable := wfld v 8 1 = 1 }) ∧
      (∀ r ∈ [Reg.errFirst b.code i, .errCount b.code i, .fnState f, .ringPtr g, .thmFatal, .thmFatalTime, .thmBoot, .trcTack,
          .trcTackTime, .opaHeld t k, .pwrDom d, .meshLink t, .jtagIdcode], W r s)) ∧
    (b.hasInst i = true → exec (.errCountRead b.code i) s = .next (s.setErr b i { e with crossing := false })) ∧
    (s.regWrites = false → W r s)

/-- Mesh links, the patrol scrub and a tile's retirement. A retired tile belongs to no function and is gated. -/
def Obligations.MeshScrubAndRetirement : Prop :=
  ∀ (s : State) (t : TileId) (d : Dir) (n : Nat) (f : Nat), s.live = true → neighbour t d = some n →
    let x := s.tile t
    let b := s.slab t
    let cw := b.scrubFrom 33 b.scrubPos
    let s1 := if cw < s.slabPages * 1024 then (s.readCw t cw true).1 else s
    (s.lostHalves t d < 2 → exec (.meshCrcRetry t d) s = .next ((s.raise .mesh t 1 {}).count .mesh t 2 0 0 1)) ∧
    (s.lostHalves t d = 0 → exec (.meshHalfDown t d) s = .next ((s.setHalves t d 1).raise .mesh t 2 {})) ∧
    (s.lostHalves t d = 1 → ∃ u, exec (.meshLinkDown t d) s = .next u ∧ u.lostHalves t d = 2 ∧
      u.noc = s.noc.filter (fun p => !s.crosses p (t.val, dirCode d)) ∧
      (u.err .mesh t).stat.getLsbD 2 = true ∧ (u.err .mesh n).stat.getLsbD 2 = true ∧
      u.flash.downLinks = s.flash.downLinks ++ [(t.val, d)]) ∧
    (b.scrubEnable = true → x.retired = false → cw + 1 < s.slabPages * 1024 →
      exec (.patrolScrubRead t) s = .next (s1.onSlab t (fun b => { b with scrubPos := cw + 1 }))) ∧
    (b.scrubEnable = true → x.retired = false → s.slabPages * 1024 ≤ cw + 1 → exec (.patrolScrubRead t) s = .next
      (((s1.onSlab t (fun b => { b with scrubPos := 0 })).orStat .slb t 8).count .slb t 3 0 ((s1.tile t).owner.getD 0) 1)) ∧
    (x.retireReq = true → x.retired = false → (∀ f, x.owner = some f → (s.fn f).st = .stopped) →
      exec (.tileRetire t) s = .next (s.retireTile t) ∧ ((s.retireTile t).tile t).retired = true ∧
      ((s.retireTile t).tile t).gated = true ∧ ((s.retireTile t).tile t).owner = none) ∧
    (x.retireReq = true → x.retired = false → x.owner = some f → (s.fn f).st = .running →
      exec (.tileRetire t) s = .next (s.beginStop f true (s.fn f).charge))

/-- The tack: a falling TACK_N or a marker triggers it and a marker closes its channel; once every log is closed the
package is HELD with a snapshot; a resume marker ends it. -/
def Obligations.TackIsTakenAndEnded : Prop :=
  ∀ (s : State) (p : PortId) (vc : Fin 6) (t : TileId) (d : Dir),
    let closed := fun (s : State) (c : CutChannel) =>
      { s with trc := { s.trc with logs := s.trc.logs.modify {} (cutKey c) (fun l => { l with closed := true }) } }
    let works := s.boot.pgood = true ∧ s.fatal.cause = 0
    let off : State := { s with trc := { s.trc with pinArmed := false } }
    (s.trc.pinArmed = true → s.boot.pgood = true → s.boot.order = 10 → exec .tackNFall s = .next (off.triggerTack 2 0)) ∧
    (s.trc.pinArmed = true → s.boot.order ≠ 10 → exec .tackNFall s = .next off) ∧
    exec .tackNRise s = .next { s with trc := { s.trc with pinArmed := true } } ∧
    (works → s.portCut p = true → s.trc.tack = .none →
      exec (.tackMarkerReceive (.fabric p vc)) s = .next (closed (s.triggerTack 3 0) (.fabric p vc))) ∧
    (works → s.trc.tack = .stopping → exec (.tackMarkerReceive (.mesh t d)) s = .next (closed s (.mesh t d))) ∧
    (works → s.trc.tack = .none → exec (.tackMarkerReceive (.mesh t d)) s = .next s) ∧
    (works → s.trc.tack = .stopping → s.logsClosed = true → s.trc.resumeWait = false → ∃ u, exec .tackHeld s = .next u ∧
      u.trc.tack = .held ∧ u.snap = some s.reading) ∧
    (works → exec (.resumeMarkerReceive (.mesh t d)) s = .next s.askResume) ∧
    (works → s.portCut p = true → exec (.resumeMarkerReceive (.fabric p vc)) s = .next s.askResume) ∧
    (s.trc.tack = .none → s.askResume = s)

/-- Supplies, resets and JTAG: what power-up, a power-down, RESET_N and the trial watchdog leave, and what a JTAG write
leaves in an image region. -/
def Obligations.PowerAndReset : Prop :=
  ∀ (s : State) (a b ns o : Nat) (slot : Fin 2) (l : List Byte),
    (s.boot.v3p3 = false → exec .v3p3Rise s = .next { s with boot := { s.boot with v3p3 := true, order := 1 } }) ∧
    (s.boot.v3p3 = true → s.boot.pgood = false → exec .suppliesInRange s =
      .next (State.resetPackage { s with boot := { s.boot with vin12 := true, pgood := true } })) ∧
    (a < 10500 ∨ b < 3000 → ∃ u, exec (.powerDown a b) s = .next u ∧ u.boot.pgood = false ∧ u.eth.link = false ∧
      u.boot.order = (if 3000 ≤ b then 1 else 0) ∧ u.fuses = s.fuses ∧ u.flash = s.flash) ∧
    (2000 ≤ ns → s.boot.pgood = true → s.fatal.cause = 0 → exec (.resetNAssert ns) s = .next s.resetPackage) ∧
    (ns < 2000 → exec (.resetNAssert ns) s = .next s) ∧
    (s.boot.trial = true → 3 ≤ s.boot.order → s.boot.order < 7 → exec .trialWatchdog s = .next s.doReset) ∧
    (s.boot.v3p3 = true → s.fatal.cause = 0 → o + l.length ≤ 100659200 → ∃ u, exec (.jtagImageWrite slot o l) s = .next u ∧
      (u.slot slot).factory = false ∧ ∀ k, (u.slot slot).region.get 0 k =
        if o ≤ k ∧ k < o + l.length then l.getD (k - o) 0 else (s.slot slot).region.get 0 k)

/-- A reset leaves flash, fuses, keys, the boot epoch and the fatal latch, and nothing of functions, tiles, slabs,
rings, queues of requests or the fabric. -/
def Obligations.ResetLeavesWhatPersists : Prop :=
  ∀ s : State, s.boot.pgood = true → s.fatal.cause = 0 →
    let u := s.doReset
    u.flash = s.flash ∧ u.fuses = s.fuses ∧ u.thm.opKey = s.thm.opKey ∧ u.thm.bootEpoch = s.thm.bootEpoch ∧
    u.thm.defaultMem = s.thm.defaultMem ∧ u.fatal = s.fatal ∧ u.stch.index = s.stch.index ∧ u.boot.nextSig = s.boot.nextSig ∧
    (∀ f, (u.fn f).st = if f = 0 then .stopped else .free) ∧ (∀ t, u.tile t = {} ∧ u.slab t = {}) ∧ (∀ r, u.ring r = {}) ∧
    (∀ i, u.fence i = 0) ∧ (∀ p, u.port p = {}) ∧ u.thm.queue = [] ∧ u.thm.long = [] ∧ u.noc = [] ∧ u.boot.order = 2

/-- Boot: a comparator failure halts it at order 3, a flash failure or no bootable slot at order 4, a failed unit at
order 6; else it reaches order 10, with the boot epoch advanced by 1. -/
def Obligations.BootReachesItsOrder : Prop :=
  ∀ (s : State) (m : BitVec 2) (x : SelfTest) (n : Nat) (b : Byte) (s2 : State),
    let s1 : State := { s with boot := { s.boot with order := 3, mode := m.toNat, modeBad := m.toNat = 3 } }
    s.boot.pgood = true → s.boot.order = 2 → s.boot.fail = 0 → s.fatal.cause = 0 →
    let B := fun (P : State → Prop) => ∃ u, exec (.bootSequence m x) s = .next u ∧ P u
    let halted := fun (o f : Nat) (u : State) => u.boot.order = o ∧ u.boot.fail = f
    (x.comparatorFail = true → B (halted 3 2)) ∧
    (x.comparatorFail = false → x.flashFail = true ∨ s.flash.failed = true → B (halted 4 4)) ∧
    (x.comparatorFail = false → x.flashFail = false → s.flash.failed = false →
      ((s1.recover m.toNat).pickSlot (m.toNat = 1) = (s2, none) → B (halted 4 1)) ∧
      ((s1.recover m.toNat).pickSlot (m.toNat = 1) = (s2, some n) → x.unitFail = some b →
        B (fun u => halted 6 3 u ∧ u.boot.failBlock = b.toNat ∧ u.boot.slot = n)) ∧
      ((s1.recover m.toNat).pickSlot (m.toNat = 1) = (s2, some n) → x.unitFail = none →
        B (fun u => u.boot.order = 10 ∧ u.boot.slot = n ∧ u.thm.bootEpoch = s.thm.bootEpoch + 1)))

/-! What every step keeps. -/

/-- A latched fatal cause stays until FATAL_LATCH_CLEAR with VIN12 below 1.0 V and V3P3 below 0.5 V: no other command
changes it. -/
def Obligations.FatalCauseStaysLatched : Prop :=
  ∀ (i : Instr) (s u : State), s.fatal.cause ≠ 0 → (∀ a b, a < 1000 → b < 500 → i ≠ .fatalLatchClear a b) → exec i s = .next u →
    u.fatal.cause = s.fatal.cause

/-- No command changes a fuse but FLOOR, which never falls. The keys and the epoch: the operator key changes only by
CLAIM, REKEY and BOOT_SEQUENCE, and the boot epoch only by BOOT_SEQUENCE. The tag area and its WRITE_COUNT change only
by TAG_WRITE, TAG_LOCK, SETADDR and BOOT_SEQUENCE. -/
def Obligations.KeysFusesAndTagAreaAreGuarded : Prop :=
  (∀ (i : Instr) (s u : State), exec i s = .next u → ∃ n, s.fuses.floor ≤ n ∧ u.fuses = { s.fuses with floor := n }) ∧
  (∀ (i : Instr) (s u : State), exec i s = .next u →
     (i ≠ .claim → i ≠ .rekey → (∀ m x, i ≠ .bootSequence m x) → u.thm.opKey = s.thm.opKey) ∧
     ((∀ m x, i ≠ .bootSequence m x) → u.thm.bootEpoch = s.thm.bootEpoch)) ∧
  (∀ (i : Instr) (s u : State), exec i s = .next u → i ≠ .tagWrite → i ≠ .tagLock → i ≠ .setaddr →
     (∀ m x, i ≠ .bootSequence m x) → u.flash.tag = s.flash.tag ∧ u.flash.writeCount = s.flash.writeCount)

/-- No signature index is used twice: the next index never falls, and never passes the block that flash has recorded, so
that a boot, which goes on from that block, stays above every index used. -/
def Obligations.SignatureIndicesNeverFall : Prop :=
  ∀ (s u : State), s.boot.nextSig ≤ s.flash.sigBlock * 4096 → step s = .next u →
    s.boot.nextSig ≤ u.boot.nextSig ∧ s.flash.sigBlock ≤ u.flash.sigBlock ∧ u.boot.nextSig ≤ u.flash.sigBlock * 4096

/-- The invariants hold after reset: every memory is canonical and no signature index is beyond its block. -/
def Obligations.ResetMeetsTheInvariants : Prop :=
  State.reset.memWf ∧ State.reset.boot.nextSig ≤ State.reset.flash.sigBlock * 4096
end

