-- ==== Sys2Proof/Laws/SMap.lean ====
section
/-! SUPPORT. Reading after writing in a sparse table, and the table's canonical form. -/

namespace Sys2Proof.SMap

variable {α : Type}

theorem get_insert (d : α) (m : SMap α) (i j : Nat) (x : α) :
    get d (insert m i x) j = if i = j then x else get d m j := by
  induction m with
  | nil => simp [insert, get]
  | cons e m ih =>
    obtain ⟨k, v⟩ := e
    unfold insert
    split
    · simp [get]
    · split
      · subst_vars
        simp only [get]
        split <;> simp_all
      · simp only [get, ih]
        split <;> split <;> simp_all

/-- Every key of the table is above a bound. -/
def above (b : Nat) (m : SMap α) : Prop := ∀ e ∈ m, b < e.1

theorem get_of_above (d : α) (m : SMap α) (b : Nat) (h : above b m) : get d m b = d := by
  induction m with
  | nil => rfl
  | cons e m ih =>
    have he := h e (List.mem_cons_self ..)
    have : e.1 ≠ b := by omega
    simp only [get, this, if_false]
    exact ih (fun x hx => h x (List.mem_cons_of_mem _ hx))

/-- The canonical form, as a recursion on the head: the first entry is no default, the rest lies above it and is
canonical. -/
theorem wf_cons [DecidableEq α] (d : α) (k : Nat) (v : α) (m : SMap α) :
    wf d ((k, v) :: m) = true ↔ v ≠ d ∧ above k m ∧ wf d m = true := by
  induction m generalizing k v with
  | nil => simp [wf, above]
  | cons e m ih =>
    obtain ⟨k', v'⟩ := e
    simp only [wf, Bool.and_eq_true, decide_eq_true_eq, ih]
    constructor
    · rintro ⟨⟨h1, h2⟩, h3, h4, h5⟩
      refine ⟨h1, ?_, h3, h4, h5⟩
      intro x hx
      rcases List.mem_cons.mp hx with rfl | hx
      · exact h2
      · exact Nat.lt_trans h2 (h4 x hx)
    · rintro ⟨h1, h2, h3, h4, h5⟩
      exact ⟨⟨h1, h2 _ (List.mem_cons_self ..)⟩, h3, h4, h5⟩

theorem above_insert (b : Nat) (m : SMap α) (i : Nat) (x : α) (hb : b < i) (h : above b m) : above b (insert m i x) := by
  induction m with
  | nil => intro e he; simp [insert] at he; subst he; exact hb
  | cons e m ih =>
    obtain ⟨k, v⟩ := e
    have hk := h _ (List.mem_cons_self ..)
    have hm : above b m := fun y hy => h y (List.mem_cons_of_mem _ hy)
    unfold insert
    split
    · intro y hy
      rcases List.mem_cons.mp hy with rfl | hy
      · exact hb
      · exact h y hy
    · split
      · intro y hy
        rcases List.mem_cons.mp hy with rfl | hy
        · exact hb
        · exact hm y hy
      · intro y hy
        rcases List.mem_cons.mp hy with rfl | hy
        · exact hk
        · exact ih hm y hy

theorem above_erase (b : Nat) (m : SMap α) (i : Nat) (h : above b m) : above b (erase m i) := by
  induction m with
  | nil => exact h
  | cons e m ih =>
    obtain ⟨k, v⟩ := e
    have hm : above b m := fun y hy => h y (List.mem_cons_of_mem _ hy)
    unfold erase
    split
    · exact ih hm
    · intro y hy
      rcases List.mem_cons.mp hy with rfl | hy
      · exact h _ (List.mem_cons_self ..)
      · exact ih hm y hy

theorem wf_insert [DecidableEq α] (d : α) (m : SMap α) (i : Nat) (x : α) (hx : x ≠ d) (h : wf d m = true) : wf d (insert m i x) = true := by
  induction m with
  | nil => simp [insert, wf, hx]
  | cons e m ih =>
    obtain ⟨k, v⟩ := e
    obtain ⟨h1, h2, h3⟩ := (wf_cons d k v m).mp h
    unfold insert
    split
    · rename_i hlt
      refine (wf_cons d i x _).mpr ⟨hx, ?_, h⟩
      intro y hy
      rcases List.mem_cons.mp hy with rfl | hy
      · exact hlt
      · exact Nat.lt_trans hlt (h2 y hy)
    · split
      · subst_vars; exact (wf_cons d _ x m).mpr ⟨hx, h2, h3⟩
      · exact (wf_cons d k v _).mpr ⟨h1, above_insert k m i x (by omega) h2, ih h3⟩

theorem wf_erase [DecidableEq α] (d : α) (m : SMap α) (i : Nat) (h : wf d m = true) : wf d (erase m i) = true := by
  induction m with
  | nil => exact h
  | cons e m ih =>
    obtain ⟨k, v⟩ := e
    obtain ⟨h1, h2, h3⟩ := (wf_cons d k v m).mp h
    unfold erase
    split
    · exact ih h3
    · exact (wf_cons d k v _).mpr ⟨h1, above_erase k m i h2, ih h3⟩

/-- Writing keeps the canonical form. -/
theorem wf_set [DecidableEq α] (d : α) (m : SMap α) (i : Nat) (x : α) (h : wf d m = true) : wf d (set d m i x) = true := by
  unfold set
  split
  · exact wf_erase d m i h
  · rename_i hx; exact wf_insert d m i x hx h

theorem wf_modify [DecidableEq α] (d : α) (m : SMap α) (i : Nat) (f : α → α) (h : wf d m = true) : wf d (modify d m i f) = true :=
  wf_set d m i _ h

@[simp] theorem wf_nil [DecidableEq α] (d : α) : wf d ([] : SMap α) = true := rfl

theorem wf_filter [DecidableEq α] (d : α) (m : SMap α) (p : Nat × α → Bool) (h : wf d m = true) :
    wf d (m.filter p) = true := by
  induction m with
  | nil => exact h
  | cons e m ih =>
    obtain ⟨k, v⟩ := e
    obtain ⟨h1, h2, h3⟩ := (wf_cons d k v m).mp h
    rw [List.filter_cons]
    split
    · refine (wf_cons d k v _).mpr ⟨h1, ?_, ih h3⟩
      intro y hy
      exact h2 y (List.mem_filter.mp hy).1
    · exact ih h3

theorem get_erase (d : α) (m : SMap α) (i j : Nat) : get d (erase m i) j = if i = j then d else get d m j := by
  induction m with
  | nil => simp [erase, get]
  | cons e m ih =>
    obtain ⟨k, v⟩ := e
    unfold erase
    split
    · subst_vars; rw [ih]; split <;> simp_all [get]
    · simp only [get, ih]
      split <;> split <;> simp_all

/-- Reading after writing: the value written at its key, what was held at every other. -/
theorem get_set [DecidableEq α] (d : α) (m : SMap α) (i j : Nat) (x : α) :
    get d (set d m i x) j = if i = j then x else get d m j := by
  unfold set
  split
  · subst_vars; exact get_erase _ m i j
  · exact get_insert d m i j x

@[simp] theorem get_set_self [DecidableEq α] (d : α) (m : SMap α) (i : Nat) (x : α) : get d (set d m i x) i = x := by
  rw [get_set, if_pos rfl]

theorem get_set_ne [DecidableEq α] (d : α) (m : SMap α) (i j : Nat) (x : α) (h : i ≠ j) :
    get d (set d m i x) j = get d m j := by
  rw [get_set, if_neg h]

theorem get_modify [DecidableEq α] (d : α) (m : SMap α) (i j : Nat) (f : α → α) :
    get d (modify d m i f) j = if i = j then f (get d m j) else get d m j := by
  unfold modify
  rw [get_set]
  split
  · subst_vars; rfl
  · rfl

@[simp] theorem get_nil (d : α) (i : Nat) : get d [] i = d := rfl

end Sys2Proof.SMap
end

