-- ==== Sys2Proof/Laws/State.lean ====
section
/-! SUPPORT. What each update of the state leaves and what is read after it. -/

namespace Sys2Proof.Machine

@[simp] theorem State.setTile_pending (s : State) (t : Nat) (x : Tile) : (s.setTile t x).pending = s.pending := rfl
@[simp] theorem State.setTile_freeCtr (s : State) (t : Nat) (x : Tile) : (s.setTile t x).freeCtr = s.freeCtr := rfl
@[simp] theorem State.setTile_timeNs (s : State) (t : Nat) (x : Tile) : (s.setTile t x).timeNs = s.timeNs := rfl
@[simp] theorem State.setTile_slabs (s : State) (t : Nat) (x : Tile) : (s.setTile t x).slabs = s.slabs := rfl
@[simp] theorem State.setTile_fns (s : State) (t : Nat) (x : Tile) : (s.setTile t x).fns = s.fns := rfl
@[simp] theorem State.setTile_rings (s : State) (t : Nat) (x : Tile) : (s.setTile t x).rings = s.rings := rfl
@[simp] theorem State.setTile_dspNext (s : State) (t : Nat) (x : Tile) : (s.setTile t x).dspNext = s.dspNext := rfl
@[simp] theorem State.setTile_fences (s : State) (t : Nat) (x : Tile) : (s.setTile t x).fences = s.fences := rfl
@[simp] theorem State.setTile_noc (s : State) (t : Nat) (x : Tile) : (s.setTile t x).noc = s.noc := rfl
@[simp] theorem State.setTile_errs (s : State) (t : Nat) (x : Tile) : (s.setTile t x).errs = s.errs := rfl
@[simp] theorem State.setTile_stats (s : State) (t : Nat) (x : Tile) : (s.setTile t x).stats = s.stats := rfl
@[simp] theorem State.setTile_ctrs (s : State) (t : Nat) (x : Tile) : (s.setTile t x).ctrs = s.ctrs := rfl
@[simp] theorem State.setTile_evrings (s : State) (t : Nat) (x : Tile) : (s.setTile t x).evrings = s.evrings := rfl
@[simp] theorem State.setTile_trc (s : State) (t : Nat) (x : Tile) : (s.setTile t x).trc = s.trc := rfl
@[simp] theorem State.setTile_fatal (s : State) (t : Nat) (x : Tile) : (s.setTile t x).fatal = s.fatal := rfl
@[simp] theorem State.setTile_thm (s : State) (t : Nat) (x : Tile) : (s.setTile t x).thm = s.thm := rfl
@[simp] theorem State.setTile_fuses (s : State) (t : Nat) (x : Tile) : (s.setTile t x).fuses = s.fuses := rfl
@[simp] theorem State.setTile_flash (s : State) (t : Nat) (x : Tile) : (s.setTile t x).flash = s.flash := rfl
@[simp] theorem State.setTile_boot (s : State) (t : Nat) (x : Tile) : (s.setTile t x).boot = s.boot := rfl
@[simp] theorem State.setTile_cores (s : State) (t : Nat) (x : Tile) : (s.setTile t x).cores = s.cores := rfl
@[simp] theorem State.setTile_ports (s : State) (t : Nat) (x : Tile) : (s.setTile t x).ports = s.ports := rfl
@[simp] theorem State.setTile_fab (s : State) (t : Nat) (x : Tile) : (s.setTile t x).fab = s.fab := rfl
@[simp] theorem State.setTile_collIn (s : State) (t : Nat) (x : Tile) : (s.setTile t x).collIn = s.collIn := rfl
@[simp] theorem State.setTile_colls (s : State) (t : Nat) (x : Tile) : (s.setTile t x).colls = s.colls := rfl
@[simp] theorem State.setTile_groups (s : State) (t : Nat) (x : Tile) : (s.setTile t x).groups = s.groups := rfl
@[simp] theorem State.setTile_opseqs (s : State) (t : Nat) (x : Tile) : (s.setTile t x).opseqs = s.opseqs := rfl
@[simp] theorem State.setTile_eth (s : State) (t : Nat) (x : Tile) : (s.setTile t x).eth = s.eth := rfl
@[simp] theorem State.setTile_stch (s : State) (t : Nat) (x : Tile) : (s.setTile t x).stch = s.stch := rfl
@[simp] theorem State.setTile_pwr (s : State) (t : Nat) (x : Tile) : (s.setTile t x).pwr = s.pwr := rfl
@[simp] theorem State.setTile_timeBase (s : State) (t : Nat) (x : Tile) : (s.setTile t x).timeBase = s.timeBase := rfl
@[simp] theorem State.setTile_mesh (s : State) (t : Nat) (x : Tile) : (s.setTile t x).mesh = s.mesh := rfl
@[simp] theorem State.setTile_snap (s : State) (t : Nat) (x : Tile) : (s.setTile t x).snap = s.snap := rfl
@[simp] theorem State.setTile_slab (s : State) (t : Nat) (x : Tile) (u : Nat) : (s.setTile t x).slab u = s.slab u := rfl
@[simp] theorem State.setTile_fn (s : State) (t : Nat) (x : Tile) (u : Nat) : (s.setTile t x).fn u = s.fn u := rfl
@[simp] theorem State.setTile_ring (s : State) (t : Nat) (x : Tile) (u : Nat) : (s.setTile t x).ring u = s.ring u := rfl
@[simp] theorem State.setTile_fence (s : State) (t : Nat) (x : Tile) (u : Nat) : (s.setTile t x).fence u = s.fence u := rfl
@[simp] theorem State.setTile_core (s : State) (t : Nat) (x : Tile) (u : Nat) : (s.setTile t x).core u = s.core u := rfl
@[simp] theorem State.setTile_err (s : State) (t : Nat) (x : Tile) (c : Blk) (u : Nat) : (s.setTile t x).err c u = s.err c u := rfl
@[simp] theorem State.setTile_stat (s : State) (t : Nat) (x : Tile) (c : Blk) (u : Nat) : (s.setTile t x).stat c u = s.stat c u := rfl
theorem State.setTile_tile (s : State) (t : Nat) (x : Tile) (u : Nat) : (s.setTile t x).tile u = if t = u then x else s.tile u :=
  SMap.get_set _ _ _ _ _
@[simp] theorem State.setTile_tile_self (s : State) (t : Nat) (x : Tile) : (s.setTile t x).tile t = x := SMap.get_set_self _ _ _ _
@[simp] theorem State.setSlab_pending (s : State) (t : Nat) (x : Slab) : (s.setSlab t x).pending = s.pending := rfl
@[simp] theorem State.setSlab_freeCtr (s : State) (t : Nat) (x : Slab) : (s.setSlab t x).freeCtr = s.freeCtr := rfl
@[simp] theorem State.setSlab_timeNs (s : State) (t : Nat) (x : Slab) : (s.setSlab t x).timeNs = s.timeNs := rfl
@[simp] theorem State.setSlab_tiles (s : State) (t : Nat) (x : Slab) : (s.setSlab t x).tiles = s.tiles := rfl
@[simp] theorem State.setSlab_fns (s : State) (t : Nat) (x : Slab) : (s.setSlab t x).fns = s.fns := rfl
@[simp] theorem State.setSlab_rings (s : State) (t : Nat) (x : Slab) : (s.setSlab t x).rings = s.rings := rfl
@[simp] theorem State.setSlab_dspNext (s : State) (t : Nat) (x : Slab) : (s.setSlab t x).dspNext = s.dspNext := rfl
@[simp] theorem State.setSlab_fences (s : State) (t : Nat) (x : Slab) : (s.setSlab t x).fences = s.fences := rfl
@[simp] theorem State.setSlab_noc (s : State) (t : Nat) (x : Slab) : (s.setSlab t x).noc = s.noc := rfl
@[simp] theorem State.setSlab_errs (s : State) (t : Nat) (x : Slab) : (s.setSlab t x).errs = s.errs := rfl
@[simp] theorem State.setSlab_stats (s : State) (t : Nat) (x : Slab) : (s.setSlab t x).stats = s.stats := rfl
@[simp] theorem State.setSlab_ctrs (s : State) (t : Nat) (x : Slab) : (s.setSlab t x).ctrs = s.ctrs := rfl
@[simp] theorem State.setSlab_evrings (s : State) (t : Nat) (x : Slab) : (s.setSlab t x).evrings = s.evrings := rfl
@[simp] theorem State.setSlab_trc (s : State) (t : Nat) (x : Slab) : (s.setSlab t x).trc = s.trc := rfl
@[simp] theorem State.setSlab_fatal (s : State) (t : Nat) (x : Slab) : (s.setSlab t x).fatal = s.fatal := rfl
@[simp] theorem State.setSlab_thm (s : State) (t : Nat) (x : Slab) : (s.setSlab t x).thm = s.thm := rfl
@[simp] theorem State.setSlab_fuses (s : State) (t : Nat) (x : Slab) : (s.setSlab t x).fuses = s.fuses := rfl
@[simp] theorem State.setSlab_flash (s : State) (t : Nat) (x : Slab) : (s.setSlab t x).flash = s.flash := rfl
@[simp] theorem State.setSlab_boot (s : State) (t : Nat) (x : Slab) : (s.setSlab t x).boot = s.boot := rfl
@[simp] theorem State.setSlab_cores (s : State) (t : Nat) (x : Slab) : (s.setSlab t x).cores = s.cores := rfl
@[simp] theorem State.setSlab_ports (s : State) (t : Nat) (x : Slab) : (s.setSlab t x).ports = s.ports := rfl
@[simp] theorem State.setSlab_fab (s : State) (t : Nat) (x : Slab) : (s.setSlab t x).fab = s.fab := rfl
@[simp] theorem State.setSlab_collIn (s : State) (t : Nat) (x : Slab) : (s.setSlab t x).collIn = s.collIn := rfl
@[simp] theorem State.setSlab_colls (s : State) (t : Nat) (x : Slab) : (s.setSlab t x).colls = s.colls := rfl
@[simp] theorem State.setSlab_groups (s : State) (t : Nat) (x : Slab) : (s.setSlab t x).groups = s.groups := rfl
@[simp] theorem State.setSlab_opseqs (s : State) (t : Nat) (x : Slab) : (s.setSlab t x).opseqs = s.opseqs := rfl
@[simp] theorem State.setSlab_eth (s : State) (t : Nat) (x : Slab) : (s.setSlab t x).eth = s.eth := rfl
@[simp] theorem State.setSlab_stch (s : State) (t : Nat) (x : Slab) : (s.setSlab t x).stch = s.stch := rfl
@[simp] theorem State.setSlab_pwr (s : State) (t : Nat) (x : Slab) : (s.setSlab t x).pwr = s.pwr := rfl
@[simp] theorem State.setSlab_timeBase (s : State) (t : Nat) (x : Slab) : (s.setSlab t x).timeBase = s.timeBase := rfl
@[simp] theorem State.setSlab_mesh (s : State) (t : Nat) (x : Slab) : (s.setSlab t x).mesh = s.mesh := rfl
@[simp] theorem State.setSlab_snap (s : State) (t : Nat) (x : Slab) : (s.setSlab t x).snap = s.snap := rfl
@[simp] theorem State.setSlab_tile (s : State) (t : Nat) (x : Slab) (u : Nat) : (s.setSlab t x).tile u = s.tile u := rfl
@[simp] theorem State.setSlab_fn (s : State) (t : Nat) (x : Slab) (u : Nat) : (s.setSlab t x).fn u = s.fn u := rfl
@[simp] theorem State.setSlab_ring (s : State) (t : Nat) (x : Slab) (u : Nat) : (s.setSlab t x).ring u = s.ring u := rfl
@[simp] theorem State.setSlab_fence (s : State) (t : Nat) (x : Slab) (u : Nat) : (s.setSlab t x).fence u = s.fence u := rfl
@[simp] theorem State.setSlab_core (s : State) (t : Nat) (x : Slab) (u : Nat) : (s.setSlab t x).core u = s.core u := rfl
@[simp] theorem State.setSlab_err (s : State) (t : Nat) (x : Slab) (c : Blk) (u : Nat) : (s.setSlab t x).err c u = s.err c u := rfl
@[simp] theorem State.setSlab_stat (s : State) (t : Nat) (x : Slab) (c : Blk) (u : Nat) : (s.setSlab t x).stat c u = s.stat c u := rfl
theorem State.setSlab_slab (s : State) (t : Nat) (x : Slab) (u : Nat) : (s.setSlab t x).slab u = if t = u then x else s.slab u :=
  SMap.get_set _ _ _ _ _
@[simp] theorem State.setSlab_slab_self (s : State) (t : Nat) (x : Slab) : (s.setSlab t x).slab t = x := SMap.get_set_self _ _ _ _
@[simp] theorem State.setFn_pending (s : State) (t : Nat) (x : Fn) : (s.setFn t x).pending = s.pending := rfl
@[simp] theorem State.setFn_freeCtr (s : State) (t : Nat) (x : Fn) : (s.setFn t x).freeCtr = s.freeCtr := rfl
@[simp] theorem State.setFn_timeNs (s : State) (t : Nat) (x : Fn) : (s.setFn t x).timeNs = s.timeNs := rfl
@[simp] theorem State.setFn_tiles (s : State) (t : Nat) (x : Fn) : (s.setFn t x).tiles = s.tiles := rfl
@[simp] theorem State.setFn_slabs (s : State) (t : Nat) (x : Fn) : (s.setFn t x).slabs = s.slabs := rfl
@[simp] theorem State.setFn_rings (s : State) (t : Nat) (x : Fn) : (s.setFn t x).rings = s.rings := rfl
@[simp] theorem State.setFn_dspNext (s : State) (t : Nat) (x : Fn) : (s.setFn t x).dspNext = s.dspNext := rfl
@[simp] theorem State.setFn_fences (s : State) (t : Nat) (x : Fn) : (s.setFn t x).fences = s.fences := rfl
@[simp] theorem State.setFn_noc (s : State) (t : Nat) (x : Fn) : (s.setFn t x).noc = s.noc := rfl
@[simp] theorem State.setFn_errs (s : State) (t : Nat) (x : Fn) : (s.setFn t x).errs = s.errs := rfl
@[simp] theorem State.setFn_stats (s : State) (t : Nat) (x : Fn) : (s.setFn t x).stats = s.stats := rfl
@[simp] theorem State.setFn_ctrs (s : State) (t : Nat) (x : Fn) : (s.setFn t x).ctrs = s.ctrs := rfl
@[simp] theorem State.setFn_evrings (s : State) (t : Nat) (x : Fn) : (s.setFn t x).evrings = s.evrings := rfl
@[simp] theorem State.setFn_trc (s : State) (t : Nat) (x : Fn) : (s.setFn t x).trc = s.trc := rfl
@[simp] theorem State.setFn_fatal (s : State) (t : Nat) (x : Fn) : (s.setFn t x).fatal = s.fatal := rfl
@[simp] theorem State.setFn_thm (s : State) (t : Nat) (x : Fn) : (s.setFn t x).thm = s.thm := rfl
@[simp] theorem State.setFn_fuses (s : State) (t : Nat) (x : Fn) : (s.setFn t x).fuses = s.fuses := rfl
@[simp] theorem State.setFn_flash (s : State) (t : Nat) (x : Fn) : (s.setFn t x).flash = s.flash := rfl
@[simp] theorem State.setFn_boot (s : State) (t : Nat) (x : Fn) : (s.setFn t x).boot = s.boot := rfl
@[simp] theorem State.setFn_cores (s : State) (t : Nat) (x : Fn) : (s.setFn t x).cores = s.cores := rfl
@[simp] theorem State.setFn_ports (s : State) (t : Nat) (x : Fn) : (s.setFn t x).ports = s.ports := rfl
@[simp] theorem State.setFn_fab (s : State) (t : Nat) (x : Fn) : (s.setFn t x).fab = s.fab := rfl
@[simp] theorem State.setFn_collIn (s : State) (t : Nat) (x : Fn) : (s.setFn t x).collIn = s.collIn := rfl
@[simp] theorem State.setFn_colls (s : State) (t : Nat) (x : Fn) : (s.setFn t x).colls = s.colls := rfl
@[simp] theorem State.setFn_groups (s : State) (t : Nat) (x : Fn) : (s.setFn t x).groups = s.groups := rfl
@[simp] theorem State.setFn_opseqs (s : State) (t : Nat) (x : Fn) : (s.setFn t x).opseqs = s.opseqs := rfl
@[simp] theorem State.setFn_eth (s : State) (t : Nat) (x : Fn) : (s.setFn t x).eth = s.eth := rfl
@[simp] theorem State.setFn_stch (s : State) (t : Nat) (x : Fn) : (s.setFn t x).stch = s.stch := rfl
@[simp] theorem State.setFn_pwr (s : State) (t : Nat) (x : Fn) : (s.setFn t x).pwr = s.pwr := rfl
@[simp] theorem State.setFn_timeBase (s : State) (t : Nat) (x : Fn) : (s.setFn t x).timeBase = s.timeBase := rfl
@[simp] theorem State.setFn_mesh (s : State) (t : Nat) (x : Fn) : (s.setFn t x).mesh = s.mesh := rfl
@[simp] theorem State.setFn_snap (s : State) (t : Nat) (x : Fn) : (s.setFn t x).snap = s.snap := rfl
@[simp] theorem State.setFn_tile (s : State) (t : Nat) (x : Fn) (u : Nat) : (s.setFn t x).tile u = s.tile u := rfl
@[simp] theorem State.setFn_slab (s : State) (t : Nat) (x : Fn) (u : Nat) : (s.setFn t x).slab u = s.slab u := rfl
@[simp] theorem State.setFn_ring (s : State) (t : Nat) (x : Fn) (u : Nat) : (s.setFn t x).ring u = s.ring u := rfl
@[simp] theorem State.setFn_fence (s : State) (t : Nat) (x : Fn) (u : Nat) : (s.setFn t x).fence u = s.fence u := rfl
@[simp] theorem State.setFn_core (s : State) (t : Nat) (x : Fn) (u : Nat) : (s.setFn t x).core u = s.core u := rfl
@[simp] theorem State.setFn_err (s : State) (t : Nat) (x : Fn) (c : Blk) (u : Nat) : (s.setFn t x).err c u = s.err c u := rfl
@[simp] theorem State.setFn_stat (s : State) (t : Nat) (x : Fn) (c : Blk) (u : Nat) : (s.setFn t x).stat c u = s.stat c u := rfl
theorem State.setFn_fn (s : State) (t : Nat) (x : Fn) (u : Nat) : (s.setFn t x).fn u = if t = u then x else s.fn u :=
  SMap.get_set _ _ _ _ _
@[simp] theorem State.setFn_fn_self (s : State) (t : Nat) (x : Fn) : (s.setFn t x).fn t = x := SMap.get_set_self _ _ _ _
@[simp] theorem State.setRing_pending (s : State) (t : Nat) (x : Ring) : (s.setRing t x).pending = s.pending := rfl
@[simp] theorem State.setRing_freeCtr (s : State) (t : Nat) (x : Ring) : (s.setRing t x).freeCtr = s.freeCtr := rfl
@[simp] theorem State.setRing_timeNs (s : State) (t : Nat) (x : Ring) : (s.setRing t x).timeNs = s.timeNs := rfl
@[simp] theorem State.setRing_tiles (s : State) (t : Nat) (x : Ring) : (s.setRing t x).tiles = s.tiles := rfl
@[simp] theorem State.setRing_slabs (s : State) (t : Nat) (x : Ring) : (s.setRing t x).slabs = s.slabs := rfl
@[simp] theorem State.setRing_fns (s : State) (t : Nat) (x : Ring) : (s.setRing t x).fns = s.fns := rfl
@[simp] theorem State.setRing_dspNext (s : State) (t : Nat) (x : Ring) : (s.setRing t x).dspNext = s.dspNext := rfl
@[simp] theorem State.setRing_fences (s : State) (t : Nat) (x : Ring) : (s.setRing t x).fences = s.fences := rfl
@[simp] theorem State.setRing_noc (s : State) (t : Nat) (x : Ring) : (s.setRing t x).noc = s.noc := rfl
@[simp] theorem State.setRing_errs (s : State) (t : Nat) (x : Ring) : (s.setRing t x).errs = s.errs := rfl
@[simp] theorem State.setRing_stats (s : State) (t : Nat) (x : Ring) : (s.setRing t x).stats = s.stats := rfl
@[simp] theorem State.setRing_ctrs (s : State) (t : Nat) (x : Ring) : (s.setRing t x).ctrs = s.ctrs := rfl
@[simp] theorem State.setRing_evrings (s : State) (t : Nat) (x : Ring) : (s.setRing t x).evrings = s.evrings := rfl
@[simp] theorem State.setRing_trc (s : State) (t : Nat) (x : Ring) : (s.setRing t x).trc = s.trc := rfl
@[simp] theorem State.setRing_fatal (s : State) (t : Nat) (x : Ring) : (s.setRing t x).fatal = s.fatal := rfl
@[simp] theorem State.setRing_thm (s : State) (t : Nat) (x : Ring) : (s.setRing t x).thm = s.thm := rfl
@[simp] theorem State.setRing_fuses (s : State) (t : Nat) (x : Ring) : (s.setRing t x).fuses = s.fuses := rfl
@[simp] theorem State.setRing_flash (s : State) (t : Nat) (x : Ring) : (s.setRing t x).flash = s.flash := rfl
@[simp] theorem State.setRing_boot (s : State) (t : Nat) (x : Ring) : (s.setRing t x).boot = s.boot := rfl
@[simp] theorem State.setRing_cores (s : State) (t : Nat) (x : Ring) : (s.setRing t x).cores = s.cores := rfl
@[simp] theorem State.setRing_ports (s : State) (t : Nat) (x : Ring) : (s.setRing t x).ports = s.ports := rfl
@[simp] theorem State.setRing_fab (s : State) (t : Nat) (x : Ring) : (s.setRing t x).fab = s.fab := rfl
@[simp] theorem State.setRing_collIn (s : State) (t : Nat) (x : Ring) : (s.setRing t x).collIn = s.collIn := rfl
@[simp] theorem State.setRing_colls (s : State) (t : Nat) (x : Ring) : (s.setRing t x).colls = s.colls := rfl
@[simp] theorem State.setRing_groups (s : State) (t : Nat) (x : Ring) : (s.setRing t x).groups = s.groups := rfl
@[simp] theorem State.setRing_opseqs (s : State) (t : Nat) (x : Ring) : (s.setRing t x).opseqs = s.opseqs := rfl
@[simp] theorem State.setRing_eth (s : State) (t : Nat) (x : Ring) : (s.setRing t x).eth = s.eth := rfl
@[simp] theorem State.setRing_stch (s : State) (t : Nat) (x : Ring) : (s.setRing t x).stch = s.stch := rfl
@[simp] theorem State.setRing_pwr (s : State) (t : Nat) (x : Ring) : (s.setRing t x).pwr = s.pwr := rfl
@[simp] theorem State.setRing_timeBase (s : State) (t : Nat) (x : Ring) : (s.setRing t x).timeBase = s.timeBase := rfl
@[simp] theorem State.setRing_mesh (s : State) (t : Nat) (x : Ring) : (s.setRing t x).mesh = s.mesh := rfl
@[simp] theorem State.setRing_snap (s : State) (t : Nat) (x : Ring) : (s.setRing t x).snap = s.snap := rfl
@[simp] theorem State.setRing_tile (s : State) (t : Nat) (x : Ring) (u : Nat) : (s.setRing t x).tile u = s.tile u := rfl
@[simp] theorem State.setRing_slab (s : State) (t : Nat) (x : Ring) (u : Nat) : (s.setRing t x).slab u = s.slab u := rfl
@[simp] theorem State.setRing_fn (s : State) (t : Nat) (x : Ring) (u : Nat) : (s.setRing t x).fn u = s.fn u := rfl
@[simp] theorem State.setRing_fence (s : State) (t : Nat) (x : Ring) (u : Nat) : (s.setRing t x).fence u = s.fence u := rfl
@[simp] theorem State.setRing_core (s : State) (t : Nat) (x : Ring) (u : Nat) : (s.setRing t x).core u = s.core u := rfl
@[simp] theorem State.setRing_err (s : State) (t : Nat) (x : Ring) (c : Blk) (u : Nat) : (s.setRing t x).err c u = s.err c u := rfl
@[simp] theorem State.setRing_stat (s : State) (t : Nat) (x : Ring) (c : Blk) (u : Nat) : (s.setRing t x).stat c u = s.stat c u := rfl
theorem State.setRing_ring (s : State) (t : Nat) (x : Ring) (u : Nat) : (s.setRing t x).ring u = if t = u then x else s.ring u :=
  SMap.get_set _ _ _ _ _
@[simp] theorem State.setRing_ring_self (s : State) (t : Nat) (x : Ring) : (s.setRing t x).ring t = x := SMap.get_set_self _ _ _ _
@[simp] theorem State.setFence_pending (s : State) (t : Nat) (x : W64) : (s.setFence t x).pending = s.pending := rfl
@[simp] theorem State.setFence_freeCtr (s : State) (t : Nat) (x : W64) : (s.setFence t x).freeCtr = s.freeCtr := rfl
@[simp] theorem State.setFence_timeNs (s : State) (t : Nat) (x : W64) : (s.setFence t x).timeNs = s.timeNs := rfl
@[simp] theorem State.setFence_tiles (s : State) (t : Nat) (x : W64) : (s.setFence t x).tiles = s.tiles := rfl
@[simp] theorem State.setFence_slabs (s : State) (t : Nat) (x : W64) : (s.setFence t x).slabs = s.slabs := rfl
@[simp] theorem State.setFence_fns (s : State) (t : Nat) (x : W64) : (s.setFence t x).fns = s.fns := rfl
@[simp] theorem State.setFence_rings (s : State) (t : Nat) (x : W64) : (s.setFence t x).rings = s.rings := rfl
@[simp] theorem State.setFence_dspNext (s : State) (t : Nat) (x : W64) : (s.setFence t x).dspNext = s.dspNext := rfl
@[simp] theorem State.setFence_noc (s : State) (t : Nat) (x : W64) : (s.setFence t x).noc = s.noc := rfl
@[simp] theorem State.setFence_errs (s : State) (t : Nat) (x : W64) : (s.setFence t x).errs = s.errs := rfl
@[simp] theorem State.setFence_stats (s : State) (t : Nat) (x : W64) : (s.setFence t x).stats = s.stats := rfl
@[simp] theorem State.setFence_ctrs (s : State) (t : Nat) (x : W64) : (s.setFence t x).ctrs = s.ctrs := rfl
@[simp] theorem State.setFence_evrings (s : State) (t : Nat) (x : W64) : (s.setFence t x).evrings = s.evrings := rfl
@[simp] theorem State.setFence_trc (s : State) (t : Nat) (x : W64) : (s.setFence t x).trc = s.trc := rfl
@[simp] theorem State.setFence_fatal (s : State) (t : Nat) (x : W64) : (s.setFence t x).fatal = s.fatal := rfl
@[simp] theorem State.setFence_thm (s : State) (t : Nat) (x : W64) : (s.setFence t x).thm = s.thm := rfl
@[simp] theorem State.setFence_fuses (s : State) (t : Nat) (x : W64) : (s.setFence t x).fuses = s.fuses := rfl
@[simp] theorem State.setFence_flash (s : State) (t : Nat) (x : W64) : (s.setFence t x).flash = s.flash := rfl
@[simp] theorem State.setFence_boot (s : State) (t : Nat) (x : W64) : (s.setFence t x).boot = s.boot := rfl
@[simp] theorem State.setFence_cores (s : State) (t : Nat) (x : W64) : (s.setFence t x).cores = s.cores := rfl
@[simp] theorem State.setFence_ports (s : State) (t : Nat) (x : W64) : (s.setFence t x).ports = s.ports := rfl
@[simp] theorem State.setFence_fab (s : State) (t : Nat) (x : W64) : (s.setFence t x).fab = s.fab := rfl
@[simp] theorem State.setFence_collIn (s : State) (t : Nat) (x : W64) : (s.setFence t x).collIn = s.collIn := rfl
@[simp] theorem State.setFence_colls (s : State) (t : Nat) (x : W64) : (s.setFence t x).colls = s.colls := rfl
@[simp] theorem State.setFence_groups (s : State) (t : Nat) (x : W64) : (s.setFence t x).groups = s.groups := rfl
@[simp] theorem State.setFence_opseqs (s : State) (t : Nat) (x : W64) : (s.setFence t x).opseqs = s.opseqs := rfl
@[simp] theorem State.setFence_eth (s : State) (t : Nat) (x : W64) : (s.setFence t x).eth = s.eth := rfl
@[simp] theorem State.setFence_stch (s : State) (t : Nat) (x : W64) : (s.setFence t x).stch = s.stch := rfl
@[simp] theorem State.setFence_pwr (s : State) (t : Nat) (x : W64) : (s.setFence t x).pwr = s.pwr := rfl
@[simp] theorem State.setFence_timeBase (s : State) (t : Nat) (x : W64) : (s.setFence t x).timeBase = s.timeBase := rfl
@[simp] theorem State.setFence_mesh (s : State) (t : Nat) (x : W64) : (s.setFence t x).mesh = s.mesh := rfl
@[simp] theorem State.setFence_snap (s : State) (t : Nat) (x : W64) : (s.setFence t x).snap = s.snap := rfl
@[simp] theorem State.setFence_tile (s : State) (t : Nat) (x : W64) (u : Nat) : (s.setFence t x).tile u = s.tile u := rfl
@[simp] theorem State.setFence_slab (s : State) (t : Nat) (x : W64) (u : Nat) : (s.setFence t x).slab u = s.slab u := rfl
@[simp] theorem State.setFence_fn (s : State) (t : Nat) (x : W64) (u : Nat) : (s.setFence t x).fn u = s.fn u := rfl
@[simp] theorem State.setFence_ring (s : State) (t : Nat) (x : W64) (u : Nat) : (s.setFence t x).ring u = s.ring u := rfl
@[simp] theorem State.setFence_core (s : State) (t : Nat) (x : W64) (u : Nat) : (s.setFence t x).core u = s.core u := rfl
@[simp] theorem State.setFence_err (s : State) (t : Nat) (x : W64) (c : Blk) (u : Nat) : (s.setFence t x).err c u = s.err c u := rfl
@[simp] theorem State.setFence_stat (s : State) (t : Nat) (x : W64) (c : Blk) (u : Nat) : (s.setFence t x).stat c u = s.stat c u := rfl
theorem State.setFence_fence (s : State) (t : Nat) (x : W64) (u : Nat) : (s.setFence t x).fence u = if t = u then x else s.fence u :=
  SMap.get_set _ _ _ _ _
@[simp] theorem State.setFence_fence_self (s : State) (t : Nat) (x : W64) : (s.setFence t x).fence t = x := SMap.get_set_self _ _ _ _
@[simp] theorem State.setCore_pending (s : State) (t : Nat) (x : HCore) : (s.setCore t x).pending = s.pending := rfl
@[simp] theorem State.setCore_freeCtr (s : State) (t : Nat) (x : HCore) : (s.setCore t x).freeCtr = s.freeCtr := rfl
@[simp] theorem State.setCore_timeNs (s : State) (t : Nat) (x : HCore) : (s.setCore t x).timeNs = s.timeNs := rfl
@[simp] theorem State.setCore_tiles (s : State) (t : Nat) (x : HCore) : (s.setCore t x).tiles = s.tiles := rfl
@[simp] theorem State.setCore_slabs (s : State) (t : Nat) (x : HCore) : (s.setCore t x).slabs = s.slabs := rfl
@[simp] theorem State.setCore_fns (s : State) (t : Nat) (x : HCore) : (s.setCore t x).fns = s.fns := rfl
@[simp] theorem State.setCore_rings (s : State) (t : Nat) (x : HCore) : (s.setCore t x).rings = s.rings := rfl
@[simp] theorem State.setCore_dspNext (s : State) (t : Nat) (x : HCore) : (s.setCore t x).dspNext = s.dspNext := rfl
@[simp] theorem State.setCore_fences (s : State) (t : Nat) (x : HCore) : (s.setCore t x).fences = s.fences := rfl
@[simp] theorem State.setCore_noc (s : State) (t : Nat) (x : HCore) : (s.setCore t x).noc = s.noc := rfl
@[simp] theorem State.setCore_errs (s : State) (t : Nat) (x : HCore) : (s.setCore t x).errs = s.errs := rfl
@[simp] theorem State.setCore_stats (s : State) (t : Nat) (x : HCore) : (s.setCore t x).stats = s.stats := rfl
@[simp] theorem State.setCore_ctrs (s : State) (t : Nat) (x : HCore) : (s.setCore t x).ctrs = s.ctrs := rfl
@[simp] theorem State.setCore_evrings (s : State) (t : Nat) (x : HCore) : (s.setCore t x).evrings = s.evrings := rfl
@[simp] theorem State.setCore_trc (s : State) (t : Nat) (x : HCore) : (s.setCore t x).trc = s.trc := rfl
@[simp] theorem State.setCore_fatal (s : State) (t : Nat) (x : HCore) : (s.setCore t x).fatal = s.fatal := rfl
@[simp] theorem State.setCore_thm (s : State) (t : Nat) (x : HCore) : (s.setCore t x).thm = s.thm := rfl
@[simp] theorem State.setCore_fuses (s : State) (t : Nat) (x : HCore) : (s.setCore t x).fuses = s.fuses := rfl
@[simp] theorem State.setCore_flash (s : State) (t : Nat) (x : HCore) : (s.setCore t x).flash = s.flash := rfl
@[simp] theorem State.setCore_boot (s : State) (t : Nat) (x : HCore) : (s.setCore t x).boot = s.boot := rfl
@[simp] theorem State.setCore_ports (s : State) (t : Nat) (x : HCore) : (s.setCore t x).ports = s.ports := rfl
@[simp] theorem State.setCore_fab (s : State) (t : Nat) (x : HCore) : (s.setCore t x).fab = s.fab := rfl
@[simp] theorem State.setCore_collIn (s : State) (t : Nat) (x : HCore) : (s.setCore t x).collIn = s.collIn := rfl
@[simp] theorem State.setCore_colls (s : State) (t : Nat) (x : HCore) : (s.setCore t x).colls = s.colls := rfl
@[simp] theorem State.setCore_groups (s : State) (t : Nat) (x : HCore) : (s.setCore t x).groups = s.groups := rfl
@[simp] theorem State.setCore_opseqs (s : State) (t : Nat) (x : HCore) : (s.setCore t x).opseqs = s.opseqs := rfl
@[simp] theorem State.setCore_eth (s : State) (t : Nat) (x : HCore) : (s.setCore t x).eth = s.eth := rfl
@[simp] theorem State.setCore_stch (s : State) (t : Nat) (x : HCore) : (s.setCore t x).stch = s.stch := rfl
@[simp] theorem State.setCore_pwr (s : State) (t : Nat) (x : HCore) : (s.setCore t x).pwr = s.pwr := rfl
@[simp] theorem State.setCore_timeBase (s : State) (t : Nat) (x : HCore) : (s.setCore t x).timeBase = s.timeBase := rfl
@[simp] theorem State.setCore_mesh (s : State) (t : Nat) (x : HCore) : (s.setCore t x).mesh = s.mesh := rfl
@[simp] theorem State.setCore_snap (s : State) (t : Nat) (x : HCore) : (s.setCore t x).snap = s.snap := rfl
@[simp] theorem State.setCore_tile (s : State) (t : Nat) (x : HCore) (u : Nat) : (s.setCore t x).tile u = s.tile u := rfl
@[simp] theorem State.setCore_slab (s : State) (t : Nat) (x : HCore) (u : Nat) : (s.setCore t x).slab u = s.slab u := rfl
@[simp] theorem State.setCore_fn (s : State) (t : Nat) (x : HCore) (u : Nat) : (s.setCore t x).fn u = s.fn u := rfl
@[simp] theorem State.setCore_ring (s : State) (t : Nat) (x : HCore) (u : Nat) : (s.setCore t x).ring u = s.ring u := rfl
@[simp] theorem State.setCore_fence (s : State) (t : Nat) (x : HCore) (u : Nat) : (s.setCore t x).fence u = s.fence u := rfl
@[simp] theorem State.setCore_err (s : State) (t : Nat) (x : HCore) (c : Blk) (u : Nat) : (s.setCore t x).err c u = s.err c u := rfl
@[simp] theorem State.setCore_stat (s : State) (t : Nat) (x : HCore) (c : Blk) (u : Nat) : (s.setCore t x).stat c u = s.stat c u := rfl
theorem State.setCore_core (s : State) (t : Nat) (x : HCore) (u : Nat) : (s.setCore t x).core u = if t = u then x else s.core u :=
  SMap.get_set _ _ _ _ _
@[simp] theorem State.setCore_core_self (s : State) (t : Nat) (x : HCore) : (s.setCore t x).core t = x := SMap.get_set_self _ _ _ _
@[simp] theorem State.setErr_pending (s : State) (b : Blk) (t : Nat) (x : ErrRegs) : (s.setErr b t x).pending = s.pending := rfl
@[simp] theorem State.setErr_freeCtr (s : State) (b : Blk) (t : Nat) (x : ErrRegs) : (s.setErr b t x).freeCtr = s.freeCtr := rfl
@[simp] theorem State.setErr_timeNs (s : State) (b : Blk) (t : Nat) (x : ErrRegs) : (s.setErr b t x).timeNs = s.timeNs := rfl
@[simp] theorem State.setErr_tiles (s : State) (b : Blk) (t : Nat) (x : ErrRegs) : (s.setErr b t x).tiles = s.tiles := rfl
@[simp] theorem State.setErr_slabs (s : State) (b : Blk) (t : Nat) (x : ErrRegs) : (s.setErr b t x).slabs = s.slabs := rfl
@[simp] theorem State.setErr_fns (s : State) (b : Blk) (t : Nat) (x : ErrRegs) : (s.setErr b t x).fns = s.fns := rfl
@[simp] theorem State.setErr_rings (s : State) (b : Blk) (t : Nat) (x : ErrRegs) : (s.setErr b t x).rings = s.rings := rfl
@[simp] theorem State.setErr_dspNext (s : State) (b : Blk) (t : Nat) (x : ErrRegs) : (s.setErr b t x).dspNext = s.dspNext := rfl
@[simp] theorem State.setErr_fences (s : State) (b : Blk) (t : Nat) (x : ErrRegs) : (s.setErr b t x).fences = s.fences := rfl
@[simp] theorem State.setErr_noc (s : State) (b : Blk) (t : Nat) (x : ErrRegs) : (s.setErr b t x).noc = s.noc := rfl
@[simp] theorem State.setErr_stats (s : State) (b : Blk) (t : Nat) (x : ErrRegs) : (s.setErr b t x).stats = s.stats := rfl
@[simp] theorem State.setErr_ctrs (s : State) (b : Blk) (t : Nat) (x : ErrRegs) : (s.setErr b t x).ctrs = s.ctrs := rfl
@[simp] theorem State.setErr_evrings (s : State) (b : Blk) (t : Nat) (x : ErrRegs) : (s.setErr b t x).evrings = s.evrings := rfl
@[simp] theorem State.setErr_trc (s : State) (b : Blk) (t : Nat) (x : ErrRegs) : (s.setErr b t x).trc = s.trc := rfl
@[simp] theorem State.setErr_fatal (s : State) (b : Blk) (t : Nat) (x : ErrRegs) : (s.setErr b t x).fatal = s.fatal := rfl
@[simp] theorem State.setErr_thm (s : State) (b : Blk) (t : Nat) (x : ErrRegs) : (s.setErr b t x).thm = s.thm := rfl
@[simp] theorem State.setErr_fuses (s : State) (b : Blk) (t : Nat) (x : ErrRegs) : (s.setErr b t x).fuses = s.fuses := rfl
@[simp] theorem State.setErr_flash (s : State) (b : Blk) (t : Nat) (x : ErrRegs) : (s.setErr b t x).flash = s.flash := rfl
@[simp] theorem State.setErr_boot (s : State) (b : Blk) (t : Nat) (x : ErrRegs) : (s.setErr b t x).boot = s.boot := rfl
@[simp] theorem State.setErr_cores (s : State) (b : Blk) (t : Nat) (x : ErrRegs) : (s.setErr b t x).cores = s.cores := rfl
@[simp] theorem State.setErr_ports (s : State) (b : Blk) (t : Nat) (x : ErrRegs) : (s.setErr b t x).ports = s.ports := rfl
@[simp] theorem State.setErr_fab (s : State) (b : Blk) (t : Nat) (x : ErrRegs) : (s.setErr b t x).fab = s.fab := rfl
@[simp] theorem State.setErr_collIn (s : State) (b : Blk) (t : Nat) (x : ErrRegs) : (s.setErr b t x).collIn = s.collIn := rfl
@[simp] theorem State.setErr_colls (s : State) (b : Blk) (t : Nat) (x : ErrRegs) : (s.setErr b t x).colls = s.colls := rfl
@[simp] theorem State.setErr_groups (s : State) (b : Blk) (t : Nat) (x : ErrRegs) : (s.setErr b t x).groups = s.groups := rfl
@[simp] theorem State.setErr_opseqs (s : State) (b : Blk) (t : Nat) (x : ErrRegs) : (s.setErr b t x).opseqs = s.opseqs := rfl
@[simp] theorem State.setErr_eth (s : State) (b : Blk) (t : Nat) (x : ErrRegs) : (s.setErr b t x).eth = s.eth := rfl
@[simp] theorem State.setErr_stch (s : State) (b : Blk) (t : Nat) (x : ErrRegs) : (s.setErr b t x).stch = s.stch := rfl
@[simp] theorem State.setErr_pwr (s : State) (b : Blk) (t : Nat) (x : ErrRegs) : (s.setErr b t x).pwr = s.pwr := rfl
@[simp] theorem State.setErr_timeBase (s : State) (b : Blk) (t : Nat) (x : ErrRegs) : (s.setErr b t x).timeBase = s.timeBase := rfl
@[simp] theorem State.setErr_mesh (s : State) (b : Blk) (t : Nat) (x : ErrRegs) : (s.setErr b t x).mesh = s.mesh := rfl
@[simp] theorem State.setErr_snap (s : State) (b : Blk) (t : Nat) (x : ErrRegs) : (s.setErr b t x).snap = s.snap := rfl
@[simp] theorem State.setErr_tile (s : State) (b : Blk) (t : Nat) (x : ErrRegs) (u : Nat) : (s.setErr b t x).tile u = s.tile u := rfl
@[simp] theorem State.setErr_slab (s : State) (b : Blk) (t : Nat) (x : ErrRegs) (u : Nat) : (s.setErr b t x).slab u = s.slab u := rfl
@[simp] theorem State.setErr_fn (s : State) (b : Blk) (t : Nat) (x : ErrRegs) (u : Nat) : (s.setErr b t x).fn u = s.fn u := rfl
@[simp] theorem State.setErr_ring (s : State) (b : Blk) (t : Nat) (x : ErrRegs) (u : Nat) : (s.setErr b t x).ring u = s.ring u := rfl
@[simp] theorem State.setErr_fence (s : State) (b : Blk) (t : Nat) (x : ErrRegs) (u : Nat) : (s.setErr b t x).fence u = s.fence u := rfl
@[simp] theorem State.setErr_core (s : State) (b : Blk) (t : Nat) (x : ErrRegs) (u : Nat) : (s.setErr b t x).core u = s.core u := rfl
@[simp] theorem State.setErr_stat (s : State) (b : Blk) (t : Nat) (x : ErrRegs) (c : Blk) (u : Nat) : (s.setErr b t x).stat c u = s.stat c u := rfl
theorem State.setErr_err (s : State) (b : Blk) (t : Nat) (x : ErrRegs) (c : Blk) (u : Nat) :
    (s.setErr b t x).err c u = if instKey b t = instKey c u then x else s.err c u := SMap.get_set _ _ _ _ _
@[simp] theorem State.setErr_err_self (s : State) (b : Blk) (t : Nat) (x : ErrRegs) : (s.setErr b t x).err b t = x := SMap.get_set_self _ _ _ _
@[simp] theorem State.setStat_pending (s : State) (b : Blk) (t : Nat) (x : W32) : (s.setStat b t x).pending = s.pending := rfl
@[simp] theorem State.setStat_freeCtr (s : State) (b : Blk) (t : Nat) (x : W32) : (s.setStat b t x).freeCtr = s.freeCtr := rfl
@[simp] theorem State.setStat_timeNs (s : State) (b : Blk) (t : Nat) (x : W32) : (s.setStat b t x).timeNs = s.timeNs := rfl
@[simp] theorem State.setStat_tiles (s : State) (b : Blk) (t : Nat) (x : W32) : (s.setStat b t x).tiles = s.tiles := rfl
@[simp] theorem State.setStat_slabs (s : State) (b : Blk) (t : Nat) (x : W32) : (s.setStat b t x).slabs = s.slabs := rfl
@[simp] theorem State.setStat_fns (s : State) (b : Blk) (t : Nat) (x : W32) : (s.setStat b t x).fns = s.fns := rfl
@[simp] theorem State.setStat_rings (s : State) (b : Blk) (t : Nat) (x : W32) : (s.setStat b t x).rings = s.rings := rfl
@[simp] theorem State.setStat_dspNext (s : State) (b : Blk) (t : Nat) (x : W32) : (s.setStat b t x).dspNext = s.dspNext := rfl
@[simp] theorem State.setStat_fences (s : State) (b : Blk) (t : Nat) (x : W32) : (s.setStat b t x).fences = s.fences := rfl
@[simp] theorem State.setStat_noc (s : State) (b : Blk) (t : Nat) (x : W32) : (s.setStat b t x).noc = s.noc := rfl
@[simp] theorem State.setStat_errs (s : State) (b : Blk) (t : Nat) (x : W32) : (s.setStat b t x).errs = s.errs := rfl
@[simp] theorem State.setStat_ctrs (s : State) (b : Blk) (t : Nat) (x : W32) : (s.setStat b t x).ctrs = s.ctrs := rfl
@[simp] theorem State.setStat_evrings (s : State) (b : Blk) (t : Nat) (x : W32) : (s.setStat b t x).evrings = s.evrings := rfl
@[simp] theorem State.setStat_trc (s : State) (b : Blk) (t : Nat) (x : W32) : (s.setStat b t x).trc = s.trc := rfl
@[simp] theorem State.setStat_fatal (s : State) (b : Blk) (t : Nat) (x : W32) : (s.setStat b t x).fatal = s.fatal := rfl
@[simp] theorem State.setStat_thm (s : State) (b : Blk) (t : Nat) (x : W32) : (s.setStat b t x).thm = s.thm := rfl
@[simp] theorem State.setStat_fuses (s : State) (b : Blk) (t : Nat) (x : W32) : (s.setStat b t x).fuses = s.fuses := rfl
@[simp] theorem State.setStat_flash (s : State) (b : Blk) (t : Nat) (x : W32) : (s.setStat b t x).flash = s.flash := rfl
@[simp] theorem State.setStat_boot (s : State) (b : Blk) (t : Nat) (x : W32) : (s.setStat b t x).boot = s.boot := rfl
@[simp] theorem State.setStat_cores (s : State) (b : Blk) (t : Nat) (x : W32) : (s.setStat b t x).cores = s.cores := rfl
@[simp] theorem State.setStat_ports (s : State) (b : Blk) (t : Nat) (x : W32) : (s.setStat b t x).ports = s.ports := rfl
@[simp] theorem State.setStat_fab (s : State) (b : Blk) (t : Nat) (x : W32) : (s.setStat b t x).fab = s.fab := rfl
@[simp] theorem State.setStat_collIn (s : State) (b : Blk) (t : Nat) (x : W32) : (s.setStat b t x).collIn = s.collIn := rfl
@[simp] theorem State.setStat_colls (s : State) (b : Blk) (t : Nat) (x : W32) : (s.setStat b t x).colls = s.colls := rfl
@[simp] theorem State.setStat_groups (s : State) (b : Blk) (t : Nat) (x : W32) : (s.setStat b t x).groups = s.groups := rfl
@[simp] theorem State.setStat_opseqs (s : State) (b : Blk) (t : Nat) (x : W32) : (s.setStat b t x).opseqs = s.opseqs := rfl
@[simp] theorem State.setStat_eth (s : State) (b : Blk) (t : Nat) (x : W32) : (s.setStat b t x).eth = s.eth := rfl
@[simp] theorem State.setStat_stch (s : State) (b : Blk) (t : Nat) (x : W32) : (s.setStat b t x).stch = s.stch := rfl
@[simp] theorem State.setStat_pwr (s : State) (b : Blk) (t : Nat) (x : W32) : (s.setStat b t x).pwr = s.pwr := rfl
@[simp] theorem State.setStat_timeBase (s : State) (b : Blk) (t : Nat) (x : W32) : (s.setStat b t x).timeBase = s.timeBase := rfl
@[simp] theorem State.setStat_mesh (s : State) (b : Blk) (t : Nat) (x : W32) : (s.setStat b t x).mesh = s.mesh := rfl
@[simp] theorem State.setStat_snap (s : State) (b : Blk) (t : Nat) (x : W32) : (s.setStat b t x).snap = s.snap := rfl
@[simp] theorem State.setStat_tile (s : State) (b : Blk) (t : Nat) (x : W32) (u : Nat) : (s.setStat b t x).tile u = s.tile u := rfl
@[simp] theorem State.setStat_slab (s : State) (b : Blk) (t : Nat) (x : W32) (u : Nat) : (s.setStat b t x).slab u = s.slab u := rfl
@[simp] theorem State.setStat_fn (s : State) (b : Blk) (t : Nat) (x : W32) (u : Nat) : (s.setStat b t x).fn u = s.fn u := rfl
@[simp] theorem State.setStat_ring (s : State) (b : Blk) (t : Nat) (x : W32) (u : Nat) : (s.setStat b t x).ring u = s.ring u := rfl
@[simp] theorem State.setStat_fence (s : State) (b : Blk) (t : Nat) (x : W32) (u : Nat) : (s.setStat b t x).fence u = s.fence u := rfl
@[simp] theorem State.setStat_core (s : State) (b : Blk) (t : Nat) (x : W32) (u : Nat) : (s.setStat b t x).core u = s.core u := rfl
@[simp] theorem State.setStat_err (s : State) (b : Blk) (t : Nat) (x : W32) (c : Blk) (u : Nat) : (s.setStat b t x).err c u = s.err c u := rfl
theorem State.setStat_stat (s : State) (b : Blk) (t : Nat) (x : W32) (c : Blk) (u : Nat) :
    (s.setStat b t x).stat c u = if instKey b t = instKey c u then x else s.stat c u := SMap.get_set _ _ _ _ _
@[simp] theorem State.setStat_stat_self (s : State) (b : Blk) (t : Nat) (x : W32) : (s.setStat b t x).stat b t = x := SMap.get_set_self _ _ _ _
@[simp] theorem Tile.setTally_owner (y : Tile) (i : Nat) (v : W32) : (y.setTally i v).owner = y.owner := rfl
@[simp] theorem Tile.setTally_seq (y : Tile) (i : Nat) (v : W32) : (y.setTally i v).seq = y.seq := rfl
@[simp] theorem Tile.setTally_wait (y : Tile) (i : Nat) (v : W32) : (y.setTally i v).wait = y.wait := rfl
@[simp] theorem Tile.setTally_pc (y : Tile) (i : Nat) (v : W32) : (y.setTally i v).pc = y.pc := rfl
@[simp] theorem Tile.setTally_regs (y : Tile) (i : Nat) (v : W32) : (y.setTally i v).regs = y.regs := rfl
@[simp] theorem Tile.setTally_faultPc (y : Tile) (i : Nat) (v : W32) : (y.setTally i v).faultPc = y.faultPc := rfl
@[simp] theorem Tile.setTally_dseq (y : Tile) (i : Nat) (v : W32) : (y.setTally i v).dseq = y.dseq := rfl
@[simp] theorem Tile.setTally_larg (y : Tile) (i : Nat) (v : W32) : (y.setTally i v).larg = y.larg := rfl
@[simp] theorem Tile.setTally_argsHeld (y : Tile) (i : Nat) (v : W32) : (y.setTally i v).argsHeld = y.argsHeld := rfl
@[simp] theorem Tile.setTally_lacks (y : Tile) (i : Nat) (v : W32) : (y.setTally i v).lacks = y.lacks := rfl
@[simp] theorem Tile.setTally_halts (y : Tile) (i : Nat) (v : W32) : (y.setTally i v).halts = y.halts := rfl
@[simp] theorem Tile.setTally_image (y : Tile) (i : Nat) (v : W32) : (y.setTally i v).image = y.image := rfl
@[simp] theorem Tile.setTally_slots (y : Tile) (i : Nat) (v : W32) : (y.setTally i v).slots = y.slots := rfl
@[simp] theorem Tile.setTally_mem (y : Tile) (i : Nat) (v : W32) : (y.setTally i v).mem = y.mem := rfl
@[simp] theorem Tile.setTally_poison (y : Tile) (i : Nat) (v : W32) : (y.setTally i v).poison = y.poison := rfl
@[simp] theorem Tile.setTally_eps (y : Tile) (i : Nat) (v : W32) : (y.setTally i v).eps = y.eps := rfl
@[simp] theorem Tile.setTally_opa (y : Tile) (i : Nat) (v : W32) : (y.setTally i v).opa = y.opa := rfl
@[simp] theorem Tile.setTally_ve (y : Tile) (i : Nat) (v : W32) : (y.setTally i v).ve = y.ve := rfl
@[simp] theorem Tile.setTally_gus (y : Tile) (i : Nat) (v : W32) : (y.setTally i v).gus = y.gus := rfl
@[simp] theorem Tile.setTally_pw (y : Tile) (i : Nat) (v : W32) : (y.setTally i v).pw = y.pw := rfl
@[simp] theorem Tile.setTally_dma (y : Tile) (i : Nat) (v : W32) : (y.setTally i v).dma = y.dma := rfl
@[simp] theorem Tile.setTally_bank0 (y : Tile) (i : Nat) (v : W32) : (y.setTally i v).bank0 = y.bank0 := rfl
@[simp] theorem Tile.setTally_bank1 (y : Tile) (i : Nat) (v : W32) : (y.setTally i v).bank1 = y.bank1 := rfl
@[simp] theorem Tile.setTally_forceQueued (y : Tile) (i : Nat) (v : W32) : (y.setTally i v).forceQueued = y.forceQueued := rfl
@[simp] theorem Tile.setTally_firstPass (y : Tile) (i : Nat) (v : W32) : (y.setTally i v).firstPass = y.firstPass := rfl
@[simp] theorem Tile.setTally_lastQueued (y : Tile) (i : Nat) (v : W32) : (y.setTally i v).lastQueued = y.lastQueued := rfl
@[simp] theorem Tile.setTally_plb (y : Tile) (i : Nat) (v : W32) : (y.setTally i v).plb = y.plb := rfl
@[simp] theorem Tile.setTally_patterns (y : Tile) (i : Nat) (v : W32) : (y.setTally i v).patterns = y.patterns := rfl
@[simp] theorem Tile.setTally_retired (y : Tile) (i : Nat) (v : W32) : (y.setTally i v).retired = y.retired := rfl
@[simp] theorem Tile.setTally_gated (y : Tile) (i : Nat) (v : W32) : (y.setTally i v).gated = y.gated := rfl
@[simp] theorem Tile.setTally_resync (y : Tile) (i : Nat) (v : W32) : (y.setTally i v).resync = y.resync := rfl
@[simp] theorem Tile.setTally_tally24 (y : Tile) (i : Nat) (v : W32) : (y.setTally i v).tally24 = y.tally24 := rfl
@[simp] theorem Tile.setTally_retireReq (y : Tile) (i : Nat) (v : W32) : (y.setTally i v).retireReq = y.retireReq := rfl
@[simp] theorem Tile.setTally_seqFault (y : Tile) (i : Nat) (v : W32) : (y.setTally i v).seqFault = y.seqFault := rfl
@[simp] theorem Tile.setEp_owner (y : Tile) (i : Nat) (v : Endpoint) : (y.setEp i v).owner = y.owner := rfl
@[simp] theorem Tile.setEp_seq (y : Tile) (i : Nat) (v : Endpoint) : (y.setEp i v).seq = y.seq := rfl
@[simp] theorem Tile.setEp_wait (y : Tile) (i : Nat) (v : Endpoint) : (y.setEp i v).wait = y.wait := rfl
@[simp] theorem Tile.setEp_pc (y : Tile) (i : Nat) (v : Endpoint) : (y.setEp i v).pc = y.pc := rfl
@[simp] theorem Tile.setEp_regs (y : Tile) (i : Nat) (v : Endpoint) : (y.setEp i v).regs = y.regs := rfl
@[simp] theorem Tile.setEp_faultPc (y : Tile) (i : Nat) (v : Endpoint) : (y.setEp i v).faultPc = y.faultPc := rfl
@[simp] theorem Tile.setEp_dseq (y : Tile) (i : Nat) (v : Endpoint) : (y.setEp i v).dseq = y.dseq := rfl
@[simp] theorem Tile.setEp_larg (y : Tile) (i : Nat) (v : Endpoint) : (y.setEp i v).larg = y.larg := rfl
@[simp] theorem Tile.setEp_argsHeld (y : Tile) (i : Nat) (v : Endpoint) : (y.setEp i v).argsHeld = y.argsHeld := rfl
@[simp] theorem Tile.setEp_lacks (y : Tile) (i : Nat) (v : Endpoint) : (y.setEp i v).lacks = y.lacks := rfl
@[simp] theorem Tile.setEp_halts (y : Tile) (i : Nat) (v : Endpoint) : (y.setEp i v).halts = y.halts := rfl
@[simp] theorem Tile.setEp_image (y : Tile) (i : Nat) (v : Endpoint) : (y.setEp i v).image = y.image := rfl
@[simp] theorem Tile.setEp_slots (y : Tile) (i : Nat) (v : Endpoint) : (y.setEp i v).slots = y.slots := rfl
@[simp] theorem Tile.setEp_mem (y : Tile) (i : Nat) (v : Endpoint) : (y.setEp i v).mem = y.mem := rfl
@[simp] theorem Tile.setEp_poison (y : Tile) (i : Nat) (v : Endpoint) : (y.setEp i v).poison = y.poison := rfl
@[simp] theorem Tile.setEp_tallies (y : Tile) (i : Nat) (v : Endpoint) : (y.setEp i v).tallies = y.tallies := rfl
@[simp] theorem Tile.setEp_opa (y : Tile) (i : Nat) (v : Endpoint) : (y.setEp i v).opa = y.opa := rfl
@[simp] theorem Tile.setEp_ve (y : Tile) (i : Nat) (v : Endpoint) : (y.setEp i v).ve = y.ve := rfl
@[simp] theorem Tile.setEp_gus (y : Tile) (i : Nat) (v : Endpoint) : (y.setEp i v).gus = y.gus := rfl
@[simp] theorem Tile.setEp_pw (y : Tile) (i : Nat) (v : Endpoint) : (y.setEp i v).pw = y.pw := rfl
@[simp] theorem Tile.setEp_dma (y : Tile) (i : Nat) (v : Endpoint) : (y.setEp i v).dma = y.dma := rfl
@[simp] theorem Tile.setEp_bank0 (y : Tile) (i : Nat) (v : Endpoint) : (y.setEp i v).bank0 = y.bank0 := rfl
@[simp] theorem Tile.setEp_bank1 (y : Tile) (i : Nat) (v : Endpoint) : (y.setEp i v).bank1 = y.bank1 := rfl
@[simp] theorem Tile.setEp_forceQueued (y : Tile) (i : Nat) (v : Endpoint) : (y.setEp i v).forceQueued = y.forceQueued := rfl
@[simp] theorem Tile.setEp_firstPass (y : Tile) (i : Nat) (v : Endpoint) : (y.setEp i v).firstPass = y.firstPass := rfl
@[simp] theorem Tile.setEp_lastQueued (y : Tile) (i : Nat) (v : Endpoint) : (y.setEp i v).lastQueued = y.lastQueued := rfl
@[simp] theorem Tile.setEp_plb (y : Tile) (i : Nat) (v : Endpoint) : (y.setEp i v).plb = y.plb := rfl
@[simp] theorem Tile.setEp_patterns (y : Tile) (i : Nat) (v : Endpoint) : (y.setEp i v).patterns = y.patterns := rfl
@[simp] theorem Tile.setEp_retired (y : Tile) (i : Nat) (v : Endpoint) : (y.setEp i v).retired = y.retired := rfl
@[simp] theorem Tile.setEp_gated (y : Tile) (i : Nat) (v : Endpoint) : (y.setEp i v).gated = y.gated := rfl
@[simp] theorem Tile.setEp_resync (y : Tile) (i : Nat) (v : Endpoint) : (y.setEp i v).resync = y.resync := rfl
@[simp] theorem Tile.setEp_tally24 (y : Tile) (i : Nat) (v : Endpoint) : (y.setEp i v).tally24 = y.tally24 := rfl
@[simp] theorem Tile.setEp_retireReq (y : Tile) (i : Nat) (v : Endpoint) : (y.setEp i v).retireReq = y.retireReq := rfl
@[simp] theorem Tile.setEp_seqFault (y : Tile) (i : Nat) (v : Endpoint) : (y.setEp i v).seqFault = y.seqFault := rfl
@[simp] theorem Tile.setReg_owner (y : Tile) (r : BitVec 5) (v : W64) : (y.setReg r v).owner = y.owner := by
  unfold Tile.setReg; split <;> rfl
@[simp] theorem Tile.setReg_seq (y : Tile) (r : BitVec 5) (v : W64) : (y.setReg r v).seq = y.seq := by
  unfold Tile.setReg; split <;> rfl
@[simp] theorem Tile.setReg_wait (y : Tile) (r : BitVec 5) (v : W64) : (y.setReg r v).wait = y.wait := by
  unfold Tile.setReg; split <;> rfl
@[simp] theorem Tile.setReg_pc (y : Tile) (r : BitVec 5) (v : W64) : (y.setReg r v).pc = y.pc := by
  unfold Tile.setReg; split <;> rfl
@[simp] theorem Tile.setReg_faultPc (y : Tile) (r : BitVec 5) (v : W64) : (y.setReg r v).faultPc = y.faultPc := by
  unfold Tile.setReg; split <;> rfl
@[simp] theorem Tile.setReg_dseq (y : Tile) (r : BitVec 5) (v : W64) : (y.setReg r v).dseq = y.dseq := by
  unfold Tile.setReg; split <;> rfl
@[simp] theorem Tile.setReg_larg (y : Tile) (r : BitVec 5) (v : W64) : (y.setReg r v).larg = y.larg := by
  unfold Tile.setReg; split <;> rfl
@[simp] theorem Tile.setReg_argsHeld (y : Tile) (r : BitVec 5) (v : W64) : (y.setReg r v).argsHeld = y.argsHeld := by
  unfold Tile.setReg; split <;> rfl
@[simp] theorem Tile.setReg_lacks (y : Tile) (r : BitVec 5) (v : W64) : (y.setReg r v).lacks = y.lacks := by
  unfold Tile.setReg; split <;> rfl
@[simp] theorem Tile.setReg_halts (y : Tile) (r : BitVec 5) (v : W64) : (y.setReg r v).halts = y.halts := by
  unfold Tile.setReg; split <;> rfl
@[simp] theorem Tile.setReg_image (y : Tile) (r : BitVec 5) (v : W64) : (y.setReg r v).image = y.image := by
  unfold Tile.setReg; split <;> rfl
@[simp] theorem Tile.setReg_slots (y : Tile) (r : BitVec 5) (v : W64) : (y.setReg r v).slots = y.slots := by
  unfold Tile.setReg; split <;> rfl
@[simp] theorem Tile.setReg_mem (y : Tile) (r : BitVec 5) (v : W64) : (y.setReg r v).mem = y.mem := by
  unfold Tile.setReg; split <;> rfl
@[simp] theorem Tile.setReg_poison (y : Tile) (r : BitVec 5) (v : W64) : (y.setReg r v).poison = y.poison := by
  unfold Tile.setReg; split <;> rfl
@[simp] theorem Tile.setReg_tallies (y : Tile) (r : BitVec 5) (v : W64) : (y.setReg r v).tallies = y.tallies := by
  unfold Tile.setReg; split <;> rfl
@[simp] theorem Tile.setReg_eps (y : Tile) (r : BitVec 5) (v : W64) : (y.setReg r v).eps = y.eps := by
  unfold Tile.setReg; split <;> rfl
@[simp] theorem Tile.setReg_opa (y : Tile) (r : BitVec 5) (v : W64) : (y.setReg r v).opa = y.opa := by
  unfold Tile.setReg; split <;> rfl
@[simp] theorem Tile.setReg_ve (y : Tile) (r : BitVec 5) (v : W64) : (y.setReg r v).ve = y.ve := by
  unfold Tile.setReg; split <;> rfl
@[simp] theorem Tile.setReg_gus (y : Tile) (r : BitVec 5) (v : W64) : (y.setReg r v).gus = y.gus := by
  unfold Tile.setReg; split <;> rfl
@[simp] theorem Tile.setReg_pw (y : Tile) (r : BitVec 5) (v : W64) : (y.setReg r v).pw = y.pw := by
  unfold Tile.setReg; split <;> rfl
@[simp] theorem Tile.setReg_dma (y : Tile) (r : BitVec 5) (v : W64) : (y.setReg r v).dma = y.dma := by
  unfold Tile.setReg; split <;> rfl
@[simp] theorem Tile.setReg_bank0 (y : Tile) (r : BitVec 5) (v : W64) : (y.setReg r v).bank0 = y.bank0 := by
  unfold Tile.setReg; split <;> rfl
@[simp] theorem Tile.setReg_bank1 (y : Tile) (r : BitVec 5) (v : W64) : (y.setReg r v).bank1 = y.bank1 := by
  unfold Tile.setReg; split <;> rfl
@[simp] theorem Tile.setReg_forceQueued (y : Tile) (r : BitVec 5) (v : W64) : (y.setReg r v).forceQueued = y.forceQueued := by
  unfold Tile.setReg; split <;> rfl
@[simp] theorem Tile.setReg_firstPass (y : Tile) (r : BitVec 5) (v : W64) : (y.setReg r v).firstPass = y.firstPass := by
  unfold Tile.setReg; split <;> rfl
@[simp] theorem Tile.setReg_lastQueued (y : Tile) (r : BitVec 5) (v : W64) : (y.setReg r v).lastQueued = y.lastQueued := by
  unfold Tile.setReg; split <;> rfl
@[simp] theorem Tile.setReg_plb (y : Tile) (r : BitVec 5) (v : W64) : (y.setReg r v).plb = y.plb := by
  unfold Tile.setReg; split <;> rfl
@[simp] theorem Tile.setReg_patterns (y : Tile) (r : BitVec 5) (v : W64) : (y.setReg r v).patterns = y.patterns := by
  unfold Tile.setReg; split <;> rfl
@[simp] theorem Tile.setReg_retired (y : Tile) (r : BitVec 5) (v : W64) : (y.setReg r v).retired = y.retired := by
  unfold Tile.setReg; split <;> rfl
@[simp] theorem Tile.setReg_gated (y : Tile) (r : BitVec 5) (v : W64) : (y.setReg r v).gated = y.gated := by
  unfold Tile.setReg; split <;> rfl
@[simp] theorem Tile.setReg_resync (y : Tile) (r : BitVec 5) (v : W64) : (y.setReg r v).resync = y.resync := by
  unfold Tile.setReg; split <;> rfl
@[simp] theorem Tile.setReg_tally24 (y : Tile) (r : BitVec 5) (v : W64) : (y.setReg r v).tally24 = y.tally24 := by
  unfold Tile.setReg; split <;> rfl
@[simp] theorem Tile.setReg_retireReq (y : Tile) (r : BitVec 5) (v : W64) : (y.setReg r v).retireReq = y.retireReq := by
  unfold Tile.setReg; split <;> rfl
@[simp] theorem Tile.setReg_seqFault (y : Tile) (r : BitVec 5) (v : W64) : (y.setReg r v).seqFault = y.seqFault := by
  unfold Tile.setReg; split <;> rfl
@[simp] theorem Tile.write_owner (y : Tile) (a : Nat) (bs : List Byte) (p : Bool) : (y.write a bs p).owner = y.owner := by
  unfold Tile.write; split <;> rfl
@[simp] theorem Tile.write_seq (y : Tile) (a : Nat) (bs : List Byte) (p : Bool) : (y.write a bs p).seq = y.seq := by
  unfold Tile.write; split <;> rfl
@[simp] theorem Tile.write_wait (y : Tile) (a : Nat) (bs : List Byte) (p : Bool) : (y.write a bs p).wait = y.wait := by
  unfold Tile.write; split <;> rfl
@[simp] theorem Tile.write_pc (y : Tile) (a : Nat) (bs : List Byte) (p : Bool) : (y.write a bs p).pc = y.pc := by
  unfold Tile.write; split <;> rfl
@[simp] theorem Tile.write_regs (y : Tile) (a : Nat) (bs : List Byte) (p : Bool) : (y.write a bs p).regs = y.regs := by
  unfold Tile.write; split <;> rfl
@[simp] theorem Tile.write_faultPc (y : Tile) (a : Nat) (bs : List Byte) (p : Bool) : (y.write a bs p).faultPc = y.faultPc := by
  unfold Tile.write; split <;> rfl
@[simp] theorem Tile.write_dseq (y : Tile) (a : Nat) (bs : List Byte) (p : Bool) : (y.write a bs p).dseq = y.dseq := by
  unfold Tile.write; split <;> rfl
@[simp] theorem Tile.write_larg (y : Tile) (a : Nat) (bs : List Byte) (p : Bool) : (y.write a bs p).larg = y.larg := by
  unfold Tile.write; split <;> rfl
@[simp] theorem Tile.write_argsHeld (y : Tile) (a : Nat) (bs : List Byte) (p : Bool) : (y.write a bs p).argsHeld = y.argsHeld := by
  unfold Tile.write; split <;> rfl
@[simp] theorem Tile.write_lacks (y : Tile) (a : Nat) (bs : List Byte) (p : Bool) : (y.write a bs p).lacks = y.lacks := by
  unfold Tile.write; split <;> rfl
@[simp] theorem Tile.write_halts (y : Tile) (a : Nat) (bs : List Byte) (p : Bool) : (y.write a bs p).halts = y.halts := by
  unfold Tile.write; split <;> rfl
@[simp] theorem Tile.write_image (y : Tile) (a : Nat) (bs : List Byte) (p : Bool) : (y.write a bs p).image = y.image := by
  unfold Tile.write; split <;> rfl
@[simp] theorem Tile.write_tallies (y : Tile) (a : Nat) (bs : List Byte) (p : Bool) : (y.write a bs p).tallies = y.tallies := by
  unfold Tile.write; split <;> rfl
@[simp] theorem Tile.write_eps (y : Tile) (a : Nat) (bs : List Byte) (p : Bool) : (y.write a bs p).eps = y.eps := by
  unfold Tile.write; split <;> rfl
@[simp] theorem Tile.write_opa (y : Tile) (a : Nat) (bs : List Byte) (p : Bool) : (y.write a bs p).opa = y.opa := by
  unfold Tile.write; split <;> rfl
@[simp] theorem Tile.write_ve (y : Tile) (a : Nat) (bs : List Byte) (p : Bool) : (y.write a bs p).ve = y.ve := by
  unfold Tile.write; split <;> rfl
@[simp] theorem Tile.write_gus (y : Tile) (a : Nat) (bs : List Byte) (p : Bool) : (y.write a bs p).gus = y.gus := by
  unfold Tile.write; split <;> rfl
@[simp] theorem Tile.write_pw (y : Tile) (a : Nat) (bs : List Byte) (p : Bool) : (y.write a bs p).pw = y.pw := by
  unfold Tile.write; split <;> rfl
@[simp] theorem Tile.write_dma (y : Tile) (a : Nat) (bs : List Byte) (p : Bool) : (y.write a bs p).dma = y.dma := by
  unfold Tile.write; split <;> rfl
@[simp] theorem Tile.write_bank0 (y : Tile) (a : Nat) (bs : List Byte) (p : Bool) : (y.write a bs p).bank0 = y.bank0 := by
  unfold Tile.write; split <;> rfl
@[simp] theorem Tile.write_bank1 (y : Tile) (a : Nat) (bs : List Byte) (p : Bool) : (y.write a bs p).bank1 = y.bank1 := by
  unfold Tile.write; split <;> rfl
@[simp] theorem Tile.write_forceQueued (y : Tile) (a : Nat) (bs : List Byte) (p : Bool) : (y.write a bs p).forceQueued = y.forceQueued := by
  unfold Tile.write; split <;> rfl
@[simp] theorem Tile.write_firstPass (y : Tile) (a : Nat) (bs : List Byte) (p : Bool) : (y.write a bs p).firstPass = y.firstPass := by
  unfold Tile.write; split <;> rfl
@[simp] theorem Tile.write_lastQueued (y : Tile) (a : Nat) (bs : List Byte) (p : Bool) : (y.write a bs p).lastQueued = y.lastQueued := by
  unfold Tile.write; split <;> rfl
@[simp] theorem Tile.write_plb (y : Tile) (a : Nat) (bs : List Byte) (p : Bool) : (y.write a bs p).plb = y.plb := by
  unfold Tile.write; split <;> rfl
@[simp] theorem Tile.write_patterns (y : Tile) (a : Nat) (bs : List Byte) (p : Bool) : (y.write a bs p).patterns = y.patterns := by
  unfold Tile.write; split <;> rfl
@[simp] theorem Tile.write_retired (y : Tile) (a : Nat) (bs : List Byte) (p : Bool) : (y.write a bs p).retired = y.retired := by
  unfold Tile.write; split <;> rfl
@[simp] theorem Tile.write_gated (y : Tile) (a : Nat) (bs : List Byte) (p : Bool) : (y.write a bs p).gated = y.gated := by
  unfold Tile.write; split <;> rfl
@[simp] theorem Tile.write_resync (y : Tile) (a : Nat) (bs : List Byte) (p : Bool) : (y.write a bs p).resync = y.resync := by
  unfold Tile.write; split <;> rfl
@[simp] theorem Tile.write_tally24 (y : Tile) (a : Nat) (bs : List Byte) (p : Bool) : (y.write a bs p).tally24 = y.tally24 := by
  unfold Tile.write; split <;> rfl
@[simp] theorem Tile.write_retireReq (y : Tile) (a : Nat) (bs : List Byte) (p : Bool) : (y.write a bs p).retireReq = y.retireReq := by
  unfold Tile.write; split <;> rfl
@[simp] theorem Tile.write_seqFault (y : Tile) (a : Nat) (bs : List Byte) (p : Bool) : (y.write a bs p).seqFault = y.seqFault := by
  unfold Tile.write; split <;> rfl

/-- A register after a write: s0 takes none and reads 0 (R94). -/
theorem Tile.setReg_reg (y : Tile) (r q : BitVec 5) (v : W64) :
    (y.setReg r v).reg q = if r = q ∧ r ≠ 0 then v else y.reg q := by
  unfold Tile.setReg Tile.reg
  by_cases hr : r = 0
  · rw [if_pos hr, if_neg (c := r = q ∧ r ≠ 0) (fun h => h.2 hr)]
  · rw [if_neg hr]
    by_cases hq : q = 0
    · rw [if_pos hq, if_pos hq, if_neg (fun h => hr (h.1.trans hq))]
    · rw [if_neg hq, if_neg hq, SMap.get_set]
      by_cases hrq : r = q
      · subst hrq; rw [if_pos rfl, if_pos ⟨rfl, hr⟩]
      · rw [if_neg (fun h => hrq (BitVec.eq_of_toNat_eq h)), if_neg (fun h => hrq h.1)]

theorem Tile.setTally_tally (y : Tile) (i j : Nat) (v : W32) :
    (y.setTally i v).tally j = if i = j then v else y.tally j := SMap.get_set _ _ _ _ _

theorem Tile.setEp_ep (y : Tile) (i j : Nat) (v : Endpoint) :
    (y.setEp i v).ep j = if i = j then v else y.ep j := SMap.get_set _ _ _ _ _

theorem Tile.setEng_eng (y : Tile) (p q : EngQ) (e : Eng) : (y.setEng p e).eng q = if p = q then e else y.eng q := by
  cases p <;> cases q <;> rfl

theorem State.onTile_tile (s : State) (t u : Nat) (f : Tile → Tile) :
    (s.onTile t f).tile u = if t = u then f (s.tile u) else s.tile u := by
  unfold State.onTile; rw [State.setTile_tile]; split
  · subst_vars; rfl
  · rfl

/-- Counting an event changes the counters alone. -/
theorem State.count_eq (s : State) (b : Blk) (i e u f n : Nat) : ∃ c, s.count b i e u f n = { s with ctrs := c } := by
  unfold State.count; split
  · exact ⟨s.ctrs, rfl⟩
  · exact ⟨_, rfl⟩

theorem State.countT_eq (s : State) (b : Blk) (t e u n : Nat) : ∃ c, s.countT b t e u n = { s with ctrs := c } :=
  State.count_eq s b t e u _ n

end Sys2Proof.Machine
end

