-- ==== Sys2Proof/Laws/Memory.lean ====
section
/-! SUPPORT. The memory operations keep the canonical form, and what is read after a write. -/

namespace Sys2Proof.Machine

theorem putBytes_wf (m : SMap Byte) (a : Nat) (bs : List Byte) (h : Memory.wf m) : Memory.wf (putBytes m a bs) := by
  induction bs generalizing m a with
  | nil => exact h
  | cons b bs ih => exact ih _ _ (SMap.wf_set _ _ _ _ h)

theorem markLines_wf (p : SMap Bool) (a n : Nat) (x : Bool) (h : SMap.wf false p) : SMap.wf false (markLines p a n x) := by
  unfold markLines
  split
  · exact h
  · generalize List.range _ = l
    induction l generalizing p with
    | nil => exact h
    | cons i l ih =>
      refine ih _ ?_
      dsimp only
      split
      · exact SMap.wf_set _ _ _ _ h
      · split
        · exact SMap.wf_set _ _ _ _ h
        · exact h

/-- A byte written is read back, and every other byte is as before. -/
theorem putBytes_get (m : SMap Byte) (a i : Nat) (bs : List Byte) :
    (putBytes m a bs).get 0 i = if a ≤ i ∧ i < a + bs.length then bs.getD (i - a) 0 else m.get 0 i := by
  induction bs generalizing m a with
  | nil => rw [putBytes, if_neg (by simp only [List.length_nil]; omega)]
  | cons b bs ih =>
    rw [putBytes, ih, SMap.get_set]
    simp only [List.length_cons]
    by_cases h : a = i
    · subst h
      have h1 : ¬(a + 1 ≤ a ∧ a < a + 1 + bs.length) := by omega
      have h2 : a ≤ a ∧ a < a + (bs.length + 1) := by omega
      simp [h1]
    · by_cases h3 : a + 1 ≤ i ∧ i < a + 1 + bs.length
      · have h4 : a ≤ i ∧ i < a + (bs.length + 1) := by omega
        obtain ⟨k, hk⟩ : ∃ k, i - a = k + 1 := ⟨i - a - 1, by omega⟩
        have hk' : i - (a + 1) = k := by omega
        rw [if_pos h3, if_pos h4, hk, hk']
        simp
      · have h4 : ¬(a ≤ i ∧ i < a + (bs.length + 1)) := by omega
        rw [if_neg h3, if_neg h4, if_neg h]

theorem Tile.write_memWf (x : Tile) (a : Nat) (bs : List Byte) (p : Bool) (h : x.memWf) : (x.write a bs p).memWf := by
  obtain ⟨h1, h2, h3⟩ := h
  unfold Tile.write
  split
  · exact ⟨h1, putBytes_wf _ _ _ h2, h3⟩
  · exact ⟨putBytes_wf _ _ _ h1, h2, markLines_wf _ _ _ _ h3⟩

theorem State.setTile_memWf (s : State) (t : Nat) (x : Tile) (h : s.memWf) (hx : x.memWf) : (s.setTile t x).memWf := by
  refine ⟨fun u => ?_, h.2⟩
  show ((s.setTile t x).tile u).memWf
  rw [State.setTile_tile]; split
  · exact hx
  · exact h.1 u

theorem State.setSlab_memWf (s : State) (t : Nat) (b : Slab) (h : s.memWf) (hb : b.memWf) : (s.setSlab t b).memWf := by
  refine ⟨h.1, fun u => ?_⟩
  show ((s.setSlab t b).slab u).memWf
  rw [State.setSlab_slab]; split
  · exact hb
  · exact h.2 u

theorem reset_memWf : State.reset.memWf :=
  ⟨fun _ => ⟨rfl, rfl, rfl⟩, fun _ => ⟨rfl, rfl, rfl⟩⟩

/-- A byte of the tile store, the operand cache or the buffers after a write there. -/
theorem Tile.write_byte (x : Tile) (a i : Nat) (bs : List Byte) (p : Bool) (ha : a + bs.length ≤ 0xA00000) (hi : i < 0xA00000) :
    (x.write a bs p).byte i = if a ≤ i ∧ i < a + bs.length then bs.getD (i - a) 0 else x.byte i := by
  unfold Tile.write Tile.byte
  have h1 : ¬ 0xD00000 ≤ a := by omega
  have h2 : ¬(0xC00000 ≤ i ∧ i < 0xC40000) := by omega
  have h3 : ¬(0xD00000 ≤ i ∧ i < 0xD00400) := by omega
  have h4 : ¬(0xA00000 ≤ i ∧ i < 0xA28000) := by omega
  simp only [h1, h2, h3, h4, if_false]
  exact putBytes_get _ _ _ _

theorem toLe_length (n v : Nat) : (toLe n v).length = n := by
  induction n generalizing v with
  | zero => rfl
  | succ n ih => simp [toLe, ih]

/-- The bytes of a value read as the value modulo its width. -/
theorem leVal_toLe (n v : Nat) : leVal (toLe n v) = v % 256 ^ n := by
  induction n generalizing v with
  | zero => simp [toLe, leVal, Nat.mod_one]
  | succ n ih =>
    simp only [toLe, leVal, ih, BitVec.toNat_ofNat]
    rw [show 256 ^ (n + 1) = 256 * 256 ^ n from Nat.pow_succ', Nat.mod_mul]

theorem State.memWf.tile {s : State} (h : s.memWf) (t : Nat) : (s.tile t).memWf := h.1 t
theorem State.memWf.slab {s : State} (h : s.memWf) (t : Nat) : (s.slab t).memWf := h.2 t

theorem foldl_memWf {β : Type} (f : State → β → State) (h : ∀ s b, s.memWf → (f s b).memWf) (l : List β) (s : State)
    (hs : s.memWf) : (l.foldl f s).memWf := by
  induction l generalizing s with
  | nil => exact hs
  | cons b l ih => exact ih _ (h _ _ hs)

theorem foldl_fst_memWf {α β : Type} (f : State × α → β → State × α) (h : ∀ p b, p.1.memWf → (f p b).1.memWf)
    (l : List β) (p : State × α) (hp : p.1.memWf) : (l.foldl f p).1.memWf := by
  induction l generalizing p with
  | nil => exact hp
  | cons b l ih => exact ih _ (h _ _ hp)

/-- The tile that a VE descriptor writes is canonical. -/
def VeAcc.memWf (a : VeAcc) : Prop := a.x.memWf

theorem foldl_ve_memWf {β : Type} (f : VeAcc → β → VeAcc) (h : ∀ x b, x.memWf → (f x b).memWf) (l : List β) (x : VeAcc)
    (hx : x.memWf) : (l.foldl f x).memWf := by
  induction l generalizing x with
  | nil => exact hx
  | cons b l ih => exact ih _ (h _ _ hx)

theorem foldl_ve_fst_memWf {α β : Type} (f : VeAcc × α → β → VeAcc × α) (h : ∀ p b, p.1.memWf → (f p b).1.memWf)
    (l : List β) (p : VeAcc × α) (hp : p.1.memWf) : (l.foldl f p).1.memWf := by
  induction l generalizing p with
  | nil => exact hp
  | cons b l ih => exact ih _ (h _ _ hp)

theorem foldl_tile_memWf {β : Type} (f : Tile → β → Tile) (h : ∀ x b, x.memWf → (f x b).memWf) (l : List β) (x : Tile)
    (hx : x.memWf) : (l.foldl f x).memWf := by
  induction l generalizing x with
  | nil => exact hx
  | cons b l ih => exact ih _ (h _ _ hx)

end Sys2Proof.Machine
end

