-- ==== Sys2Proof/Laws/Sequencer.lean ====
section
/-! SUPPORT. What an instruction of a tile sequencer does once its own conditions hold. -/

namespace Sys2Proof.Machine

/-- Retiring after a write of the tile. -/
theorem retired_setTile (s : State) (t : TileId) (x : Tile) (npc : Nat) :
    Retired s t x npc ((s.setTile t x).retire t npc) := by
  have hm : ∀ (m : SMap Nat) (k j : Nat), (m.modify 0 k (fun v => (v + 1) % 2 ^ 48)).get 0 j =
      if j = k then (m.get 0 j + 1) % 2 ^ 48 else m.get 0 j := by
    intro m k j
    rw [SMap.get_modify]
    by_cases h : k = j
    · rw [if_pos h, if_pos h.symm]
    · rw [if_neg h, if_neg (fun h2 => h h2.symm)]
  have hy : ((s.setTile t x).onTile t (fun x => { x with pc := npc, wait := .none })).tile t =
      { x with pc := npc, wait := .none } := by
    rw [State.onTile_tile, if_pos rfl, State.setTile_tile_self]
  have hu : ∀ u, u ≠ t.val →
      ((s.setTile t x).onTile t (fun x => { x with pc := npc, wait := .none })).tile u = s.tile u := by
    intro u hu
    rw [State.onTile_tile, if_neg (fun h => hu h.symm), State.setTile_tile, if_neg (fun h => hu h.symm)]
  have ho : ((s.setTile t x).onTile t (fun x => { x with pc := npc, wait := .none })).ownerOr0 t = x.owner.getD 0 := by
    unfold State.ownerOr0; rw [hy]
  have hc : (s.setTile t x).retire t npc =
      { (s.setTile t x).onTile t (fun x => { x with pc := npc, wait := .none }) with
          ctrs := s.ctrs.modify 0 (ctrKey .tseq t 1 0 (x.owner.getD 0)) (fun v => (v + 1) % 2 ^ 48) } := by
    unfold State.retire State.countT State.count
    rw [ho, if_neg (by decide)]
    rfl
  rw [hc]
  exact ⟨hy, hu, rfl, fun k => hm _ _ _⟩

/-- The instruction that the word at the PC of a running sequencer encodes. -/
theorem State.seqStep_runs (s : State) (t : TileId) (w : Nat) (f : State → Tile → SeqOut) (h : Runs s t w) :
    s.seqStep t w f = s.finish t (f s (s.tile t)) := by
  unfold State.seqStep
  rw [if_pos h.1, h.2.1, if_neg (by simp [h.2.2]), if_pos rfl]

/-- A word that the sequencer does not implement raises ILLEGAL, whatever instruction is commanded. -/
theorem State.seqStep_illegal (s : State) (t : TileId) (w : Nat) (f : State → Tile → SeqOut) (h : s.seqReady t = true)
    (hw : seqWordOk (s.tile t).word = false) : s.seqStep t w f = s.seqError t 1 := by
  unfold State.seqStep
  rw [if_pos h, if_pos (by simp [hw])]

/-- An instruction that goes on to an address of program memory retires. -/
theorem State.finish_go (s s' : State) (t : Nat) (npc : Int) (h : InProgram npc) :
    s.finish t (.go s' npc) = s'.retire t npc.toNat := by
  unfold State.finish
  exact if_pos h

/-- An instruction that waits does so at its own PC. -/
theorem State.finish_wait (s : State) (t : Nat) (w : Wait) : s.finish t (.wait w) = s.waits t w := rfl

/-- An instruction that writes a register and goes on with the next word. -/
theorem State.seqStep_wrReg (s : State) (t : TileId) (w : Nat) (rd : BitVec 5) (v : State → Tile → W64) (h : Runs s t w)
    (hp : (s.tile t).pc + 4 < 262144) :
    Retired s t ((s.tile t).setReg rd (v s (s.tile t))) ((s.tile t).pc + 4) (s.seqStep t w (wrReg t rd v)) := by
  rw [State.seqStep_runs s t w _ h]
  unfold wrReg
  rw [State.finish_go _ _ _ _ ⟨by omega, by omega⟩]
  exact retired_setTile s t _ _

/-- An instruction that writes the tile and goes on to a program address. -/
theorem State.seqStep_go (s : State) (t : TileId) (w : Nat) (f : State → Tile → SeqOut) (x : Tile) (npc : Int) (h : Runs s t w)
    (hf : f s (s.tile t) = .go (s.setTile t x) npc) (hp : InProgram npc) :
    Retired s t x npc.toNat (s.seqStep t w f) := by
  rw [State.seqStep_runs s t w _ h, hf, State.finish_go _ _ _ _ hp]
  exact retired_setTile s t _ _

end Sys2Proof.Machine
end

