-- ==== Sys2Proof/Laws/KeptBase.lean ====
section
/-! SUPPORT. The fields that few commands change, and how folds keep them. -/

namespace Sys2Proof.Machine

/-- The queue, the fuses, the operator key, the boot epoch, the latched fatal cause, the signature blocks and the next
signature, and the tag area with its write count: only a few commands change one of them. -/
def State.fixed (s : State) :
    List Instr × Fuses × Option (BitVec 256) × W32 × Nat × Nat × Nat × SMap Byte × Nat :=
  (s.pending, s.fuses, s.thm.opKey, s.thm.bootEpoch, s.fatal.cause, s.flash.sigBlock, s.boot.nextSig, s.flash.tag,
    s.flash.writeCount)

/-- A command that goes on and keeps those fields. -/
def NextFixed (o : Host.Outcome State Fault Refusal) (s : State) : Prop := ∃ t, o = .next t ∧ t.fixed = s.fixed

theorem foldl_fixed {β : Type} (f : State → β → State) (h : ∀ s b, (f s b).fixed = s.fixed) (l : List β) (s : State) :
    (l.foldl f s).fixed = s.fixed := by
  induction l generalizing s with
  | nil => rfl
  | cons b l ih => simp [List.foldl_cons, ih, h]

theorem foldl_fst_fixed {α β : Type} (f : State × α → β → State × α) (h : ∀ p b, (f p b).1.fixed = p.1.fixed)
    (l : List β) (p : State × α) : (l.foldl f p).1.fixed = p.1.fixed := by
  induction l generalizing p with
  | nil => rfl
  | cons b l ih => simp [List.foldl_cons, ih, h]

end Sys2Proof.Machine
end

