-- ==== Sys2Proof/Laws/KeptOps.lean ====
section
/-! SUPPORT. Shared operations keep the queue, the fuses, the operator key, the boot epoch, the latched cause, the signature blocks and the tag area. -/

namespace Sys2Proof.Machine

theorem State.setTile_fixed : ∀ a0 a1 a2, (State.setTile a0 a1 a2).fixed = a0.fixed := by
  intros; rfl
theorem State.setSlab_fixed : ∀ a0 a1 a2, (State.setSlab a0 a1 a2).fixed = a0.fixed := by
  intros; rfl
theorem State.setFn_fixed : ∀ a0 a1 a2, (State.setFn a0 a1 a2).fixed = a0.fixed := by
  intros; rfl
theorem State.setRing_fixed : ∀ a0 a1 a2, (State.setRing a0 a1 a2).fixed = a0.fixed := by
  intros; rfl
theorem State.setFence_fixed : ∀ a0 a1 a2, (State.setFence a0 a1 a2).fixed = a0.fixed := by
  intros; rfl
theorem State.setCore_fixed : ∀ a0 a1 a2, (State.setCore a0 a1 a2).fixed = a0.fixed := by
  intros; rfl
theorem State.setErr_fixed : ∀ a0 a1 a2 a3, (State.setErr a0 a1 a2 a3).fixed = a0.fixed := by
  intros; rfl
theorem State.setStat_fixed : ∀ a0 a1 a2 a3, (State.setStat a0 a1 a2 a3).fixed = a0.fixed := by
  intros; rfl
theorem State.onTile_fixed : ∀ a0 a1 a2, (State.onTile a0 a1 a2).fixed = a0.fixed := by
  intros; rfl
theorem State.onSlab_fixed : ∀ a0 a1 a2, (State.onSlab a0 a1 a2).fixed = a0.fixed := by
  intros; rfl
theorem State.onFn_fixed : ∀ a0 a1 a2, (State.onFn a0 a1 a2).fixed = a0.fixed := by
  intros; rfl
theorem State.onRing_fixed : ∀ a0 a1 a2, (State.onRing a0 a1 a2).fixed = a0.fixed := by
  intros; rfl
theorem State.onCore_fixed : ∀ a0 a1 a2, (State.onCore a0 a1 a2).fixed = a0.fixed := by
  intros; rfl
theorem State.orStat_fixed : ∀ a0 a1 a2 a3, (State.orStat a0 a1 a2 a3).fixed = a0.fixed := by
  intros; rfl
theorem State.statIf_fixed : ∀ a0 a1 a2 a3 a4, (State.statIf a0 a1 a2 a3 a4).fixed = a0.fixed := by
  intro a0 a1 a2 a3 a4; unfold State.statIf; grind only [State.fixed, foldl_fixed, foldl_fst_fixed, State.orStat_fixed]
theorem State.count_fixed : ∀ a0 a1 a2 a3 a4 a5 a6, (State.count a0 a1 a2 a3 a4 a5 a6).fixed = a0.fixed := by
  intro a0 a1 a2 a3 a4 a5 a6; unfold State.count; grind only [State.fixed, foldl_fixed, foldl_fst_fixed]
theorem State.countT_fixed : ∀ a0 a1 a2 a3 a4 a5, (State.countT a0 a1 a2 a3 a4 a5).fixed = a0.fixed := by
  intro a0 a1 a2 a3 a4 a5; unfold State.countT; grind only [State.fixed, foldl_fixed, foldl_fst_fixed, State.count_fixed]
theorem State.fresh_fixed : ∀ a0, (State.fresh a0).2.fixed = a0.fixed := by
  intros; rfl
theorem State.traceAll_fixed : ∀ a0 a1, (State.traceAll a0 a1).fixed = a0.fixed := by
  intro a0 a1; unfold State.traceAll; grind only [State.fixed, foldl_fixed, foldl_fst_fixed, State.onFn_fixed,
      State.count_fixed]
theorem State.event_fixed : ∀ a0 a1 a2 a3 a4 a5 a6, (State.event a0 a1 a2 a3 a4 a5 a6).fixed = a0.fixed := by
  intro a0 a1 a2 a3 a4 a5 a6; unfold State.event; grind only [State.fixed, foldl_fixed, foldl_fst_fixed,
      State.onTile_fixed, State.traceAll_fixed]
theorem State.sendUdp_fixed : ∀ a0 a1 a2, (State.sendUdp a0 a1 a2).fixed = a0.fixed := by
  intro a0 a1 a2; unfold State.sendUdp; grind only [State.fixed, foldl_fixed, foldl_fst_fixed, State.count_fixed,
      State.event_fixed]
theorem State.notify_fixed : ∀ a0 a1 a2 a3, (State.notify a0 a1 a2 a3).fixed = a0.fixed := by
  intro a0 a1 a2 a3; unfold State.notify; grind only [State.fixed, foldl_fixed, foldl_fst_fixed, State.onFn_fixed,
      State.sendUdp_fixed]
theorem State.triggerTack_fixed : ∀ a0 a1 a2, (State.triggerTack a0 a1 a2).fixed = a0.fixed := by
  intro a0 a1 a2; unfold State.triggerTack; grind only [State.fixed, foldl_fixed, foldl_fst_fixed, State.event_fixed]
theorem State.latchFatal_fixed : ∀ a0 a1 a2 a3, (State.latchFatal a0 a1 a2 a3).fixed = a0.fixed := by
  intro a0 a1 a2 a3; unfold State.latchFatal; grind only [State.fixed, foldl_fixed, foldl_fst_fixed]
theorem State.charge_fixed : ∀ a0 a1 a2, (State.charge a0 a1 a2).fixed = a0.fixed := by
  intro a0 a1 a2; unfold State.charge; grind only [State.fixed, foldl_fixed, foldl_fst_fixed, State.onFn_fixed]
theorem State.retireTally_fixed : ∀ a0 a1 a2 a3, (State.retireTally a0 a1 a2 a3).fixed = a0.fixed := by
  intro a0 a1 a2 a3; unfold State.retireTally; grind only [State.fixed, foldl_fixed, foldl_fst_fixed,
      State.onTile_fixed, State.event_fixed, State.charge_fixed]
theorem State.raise_fixed : ∀ a0 a1 a2 a3 a4 a5, (State.raise a0 a1 a2 a3 a4 a5).fixed = a0.fixed := by
  intro a0 a1 a2 a3 a4 a5; unfold State.raise; grind only [State.fixed, foldl_fixed, foldl_fst_fixed,
      State.setErr_fixed, State.event_fixed, State.triggerTack_fixed, State.charge_fixed, State.retireTally_fixed]
theorem State.raiseT_fixed : ∀ a0 a1 a2 a3, (State.raiseT a0 a1 a2 a3).fixed = a0.fixed := by
  intro a0 a1 a2 a3; unfold State.raiseT; grind only [State.fixed, foldl_fixed, foldl_fst_fixed, State.raise_fixed]
theorem State.dropPlb_fixed : ∀ a0 a1, (State.dropPlb a0 a1).fixed = a0.fixed := by
  intro a0 a1; unfold State.dropPlb; grind only [State.fixed, foldl_fixed, foldl_fst_fixed, State.onTile_fixed]
theorem State.retireEnter_fixed : ∀ a0 a1 a2, (State.retireEnter a0 a1 a2).fixed = a0.fixed := by
  intro a0 a1 a2; unfold State.retireEnter; grind only [State.fixed, foldl_fixed, foldl_fst_fixed, State.setSlab_fixed,
      State.notify_fixed, State.dropPlb_fixed]
theorem State.retirePage_fixed : ∀ a0 a1 a2, (State.retirePage a0 a1 a2).fixed = a0.fixed := by
  intro a0 a1 a2; unfold State.retirePage; grind only [State.fixed, foldl_fixed, foldl_fst_fixed, State.raise_fixed,
      State.retireEnter_fixed]
theorem State.readCw_fixed : ∀ a0 a1 a2 a3, (State.readCw a0 a1 a2 a3).1.fixed = a0.fixed := by
  intro a0 a1 a2 a3; unfold State.readCw; grind only [State.fixed, foldl_fixed, foldl_fst_fixed, State.setSlab_fixed,
      State.setErr_fixed, State.orStat_fixed, State.count_fixed, State.raise_fixed, State.retireEnter_fixed,
      State.retirePage_fixed]
theorem State.readCws_fixed : ∀ a0 a1 a2 a3, (State.readCws a0 a1 a2 a3).1.fixed = a0.fixed := by
  intro a0 a1 a2 a3; fun_induction State.readCws a0 a1 a2 a3 <;> grind [State.fixed, foldl_fixed, foldl_fst_fixed,
      State.readCw_fixed]
theorem State.slabRead_fixed : ∀ a0 a1 a2 a3, (State.slabRead a0 a1 a2 a3).1.fixed = a0.fixed := by
  intro a0 a1 a2 a3; unfold State.slabRead; grind only [State.fixed, foldl_fixed, foldl_fst_fixed, State.readCws_fixed]
theorem State.writeCw_fixed : ∀ a0 a1 a2 a3 a4 a5, (State.writeCw a0 a1 a2 a3 a4 a5).fixed = a0.fixed := by
  intro a0 a1 a2 a3 a4 a5; unfold State.writeCw; grind only [State.fixed, foldl_fixed, foldl_fst_fixed,
      State.setSlab_fixed, State.statIf_fixed, State.readCw_fixed]
theorem State.slabWriteFuel_fixed : ∀ a0 a1 a2 a3 a4 a5, (State.slabWriteFuel a0 a1 a2 a3 a4 a5).fixed = a0.fixed := by
  intro a0 a1 a2 a3 a4 a5; fun_induction State.slabWriteFuel a0 a1 a2 a3 a4 a5 <;> grind [State.fixed, foldl_fixed,
      foldl_fst_fixed, State.writeCw_fixed]
theorem State.slabWrite_fixed : ∀ a0 a1 a2 a3 a4, (State.slabWrite a0 a1 a2 a3 a4).fixed = a0.fixed := by
  intro a0 a1 a2 a3 a4; unfold State.slabWrite; grind only [State.fixed, foldl_fixed, foldl_fst_fixed,
      State.slabWriteFuel_fixed]
theorem State.readPieces_fixed : ∀ a0 a1, (State.readPieces a0 a1).1.fixed = a0.fixed := by
  intro a0 a1; fun_induction State.readPieces a0 a1 <;> grind [State.fixed, foldl_fixed, foldl_fst_fixed,
      State.slabRead_fixed]
theorem State.writePieces_fixed : ∀ a0 a1 a2 a3, (State.writePieces a0 a1 a2 a3).fixed = a0.fixed := by
  intro a0 a1 a2 a3; fun_induction State.writePieces a0 a1 a2 a3 <;> grind [State.fixed, foldl_fixed, foldl_fst_fixed,
      State.slabWrite_fixed]
theorem State.reportRefused_fixed : ∀ a0 a1 a2, (State.reportRefused a0 a1 a2).fixed = a0.fixed := by
  intro a0 a1 a2; unfold State.reportRefused; grind only [State.fixed, foldl_fixed, foldl_fst_fixed, State.count_fixed,
      State.raise_fixed]
theorem State.poisonPieces_fixed : ∀ a0 a1, (State.poisonPieces a0 a1).fixed = a0.fixed := by
  intro a0 a1; fun_induction State.poisonPieces a0 a1 <;> grind [State.fixed, foldl_fixed, foldl_fst_fixed,
      State.slabWrite_fixed]
theorem State.setPort_fixed : ∀ a0 a1 a2, (State.setPort a0 a1 a2).fixed = a0.fixed := by
  intros; rfl
theorem State.onPort_fixed : ∀ a0 a1 a2, (State.onPort a0 a1 a2).fixed = a0.fixed := by
  intros; rfl
theorem State.portGo_fixed : ∀ a0 a1 a2, (State.portGo a0 a1 a2).fixed = a0.fixed := by
  intro a0 a1 a2; unfold State.portGo; grind only [State.fixed, foldl_fixed, foldl_fst_fixed, State.event_fixed,
      State.onPort_fixed]
theorem State.enqueue_fixed : ∀ a0 a1 a2 a3, (State.enqueue a0 a1 a2 a3).fixed = a0.fixed := by
  intro a0 a1 a2 a3; unfold State.enqueue; grind only [State.fixed, foldl_fixed, foldl_fst_fixed, State.count_fixed,
      State.onPort_fixed]
theorem State.fabSend_fixed : ∀ a0 a1 a2, (State.fabSend a0 a1 a2).1.fixed = a0.fixed := by
  intro a0 a1 a2; unfold State.fabSend; grind only [State.fixed, foldl_fixed, foldl_fst_fixed, State.enqueue_fixed]
theorem State.sendNotice_fixed : ∀ a0 a1 a2 a3, (State.sendNotice a0 a1 a2 a3).1.fixed = a0.fixed := by
  intro a0 a1 a2 a3; unfold State.sendNotice; grind only [State.fixed, foldl_fixed, foldl_fst_fixed, State.count_fixed,
      State.enqueue_fixed]
theorem State.deliverChannel_fixed : ∀ a0 a1 a2, (State.deliverChannel a0 a1 a2).fixed = a0.fixed := by
  intro a0 a1; unfold State.deliverChannel; grind only [State.fixed, foldl_fixed, foldl_fst_fixed, State.count_fixed]
theorem State.deliverColl_fixed : ∀ a0 a1 a2, (State.deliverColl a0 a1 a2).fixed = a0.fixed := by
  intro a0 a1 a2; unfold State.deliverColl; grind only [State.fixed, foldl_fixed, foldl_fst_fixed]
theorem State.deliver_fixed : ∀ a0 a1 a2, (State.deliver a0 a1 a2).fixed = a0.fixed := by
  intro a0 a1 a2; unfold State.deliver; grind only [State.fixed, foldl_fixed, foldl_fst_fixed, State.count_fixed,
      State.sendNotice_fixed, State.deliverChannel_fixed, State.deliverColl_fixed]
theorem State.discard_fixed : ∀ a0 a1 a2 a3, (State.discard a0 a1 a2 a3).fixed = a0.fixed := by
  intro a0 a1 a2 a3; unfold State.discard; grind only [State.fixed, foldl_fixed, foldl_fst_fixed, State.count_fixed,
      State.sendNotice_fixed, State.deliver_fixed]
theorem State.forward_fixed : ∀ a0 a1 a2, (State.forward a0 a1 a2).fixed = a0.fixed := by
  intro a0 a1 a2; unfold State.forward; grind only [State.fixed, foldl_fixed, foldl_fst_fixed, State.enqueue_fixed,
      State.deliver_fixed, State.discard_fixed]
theorem State.sendRemote_fixed : ∀ a0 a1 a2 a3 a4 a5 a6 a7 a8,
      (State.sendRemote a0 a1 a2 a3 a4 a5 a6 a7 a8).1.fixed = a0.fixed := by
  intro a0 a1 a2 a3 a4 a5 a6 a7 a8; unfold State.sendRemote; grind only [State.fixed, foldl_fixed, foldl_fst_fixed,
      State.fabSend_fixed, State.deliver_fixed]
theorem State.sendAll_fixed : ∀ a0 a1 a2 a3 a4 a5 a6, (State.sendAll a0 a1 a2 a3 a4 a5 a6).1.fixed = a0.fixed := by
  intro a0 a1 a2 a3 a4 a5 a6; fun_induction State.sendAll a0 a1 a2 a3 a4 a5 a6 <;> grind [State.fixed, foldl_fixed,
      foldl_fst_fixed, State.count_fixed, State.sendRemote_fixed]
theorem State.chSend_fixed : ∀ a0 a1 a2 a3, (State.chSend a0 a1 a2 a3).1.fixed = a0.fixed := by
  intro a0 a1 a2 a3; unfold State.chSend; grind only [State.fixed, foldl_fixed, foldl_fst_fixed, State.sendAll_fixed]
theorem State.chanErr_fixed : ∀ a0 a1 a2, (State.chanErr a0 a1 a2).fixed = a0.fixed := by
  intro a0 a1 a2; unfold State.chanErr; grind only [State.fixed, foldl_fixed, foldl_fst_fixed, State.raiseT_fixed]
theorem State.chSendOrLost_fixed : ∀ a0 a1 a2 a3, (State.chSendOrLost a0 a1 a2 a3).fixed = a0.fixed := by
  intro a0 a1 a2 a3; unfold State.chSendOrLost; grind only [State.fixed, foldl_fixed, foldl_fst_fixed,
      State.chSend_fixed, State.chanErr_fixed]
theorem State.getLinesFuel_fixed : ∀ a0 a1 a2 a3 a4 a5 a6, (State.getLinesFuel a0 a1 a2 a3 a4 a5 a6).1.fixed = a0.fixed := by
  intro a0 a1 a2 a3 a4 a5 a6; fun_induction State.getLinesFuel a0 a1 a2 a3 a4 a5 a6 <;> grind [State.fixed,
      foldl_fixed, foldl_fst_fixed, State.slabRead_fixed]
theorem State.getLines_fixed : ∀ a0 a1 a2 a3 a4 a5, (State.getLines a0 a1 a2 a3 a4 a5).1.fixed = a0.fixed := by
  intro a0 a1 a2 a3 a4 a5; unfold State.getLines; grind only [State.fixed, foldl_fixed, foldl_fst_fixed,
      State.getLinesFuel_fixed]
theorem State.putLinesFuel_fixed : ∀ a0 a1 a2 a3 a4 a5 a6 a7,
      (State.putLinesFuel a0 a1 a2 a3 a4 a5 a6 a7).fixed = a0.fixed := by
  intro a0 a1 a2 a3 a4 a5 a6 a7; fun_induction State.putLinesFuel a0 a1 a2 a3 a4 a5 a6 a7 <;> grind [State.fixed,
      foldl_fixed, foldl_fst_fixed, State.onTile_fixed, State.writeCw_fixed]
theorem State.putLines_fixed : ∀ a0 a1 a2 a3 a4 a5 a6, (State.putLines a0 a1 a2 a3 a4 a5 a6).fixed = a0.fixed := by
  intro a0 a1 a2 a3 a4 a5 a6; unfold State.putLines; grind only [State.fixed, foldl_fixed, foldl_fst_fixed,
      State.putLinesFuel_fixed]

end Sys2Proof.Machine
end

