-- ==== Sys2Proof/Laws/KeptTile.lean ====
section
/-! SUPPORT. Operations of the tile keep the same fields. -/

namespace Sys2Proof.Machine

theorem State.seqGoto_fixed : ∀ a0 a1 a2, (State.seqGoto a0 a1 a2).fixed = a0.fixed := by
  intro a0 a1 a2; unfold State.seqGoto; grind only [State.fixed, foldl_fixed, foldl_fst_fixed, State.onTile_fixed,
      State.event_fixed]
theorem State.seqError_fixed : ∀ a0 a1 a2, (State.seqError a0 a1 a2).fixed = a0.fixed := by
  intro a0 a1 a2; unfold State.seqError; grind only [State.fixed, foldl_fixed, foldl_fst_fixed, State.onTile_fixed,
      State.raiseT_fixed]
theorem State.retire_fixed : ∀ a0 a1 a2, (State.retire a0 a1 a2).fixed = a0.fixed := by
  intros; rfl
def SeqOut.Keeps (o : SeqOut) (s : State) : Prop :=
  match o with
  | .go s' _ => s'.fixed = s.fixed
  | .wait _ => True
  | .fault s' _ => s'.fixed = s.fixed
theorem State.finish_fixed (s : State) (t : Nat) (o : SeqOut) (h : o.Keeps s) : (s.finish t o).fixed = s.fixed := by
  unfold State.finish; cases o <;> grind [SeqOut.Keeps, State.retire_fixed, State.seqError_fixed, State.onTile_fixed,
      State.seqGoto_fixed]
theorem State.seqStep_fixed (s : State) (t : Nat) (w : Nat) (f : State → Tile → SeqOut)
    (h : ∀ s x, (f s x).Keeps s) : (s.seqStep t w f).fixed = s.fixed := by
  unfold State.seqStep; grind [State.finish_fixed, State.seqError_fixed]
theorem wrReg_keeps (t : Nat) (rd : BitVec 5) (v : State → Tile → W64) (s : State) (x : Tile) : (wrReg t rd v s x).Keeps s := rfl
theorem aluOp_fixed : ∀ t rd rs1 rs2 fn f s, (aluOp t rd rs1 rs2 fn f s).fixed = s.fixed := by
  intros; exact State.seqStep_fixed _ _ _ _ (wrReg_keeps _ _ _)
theorem immOp_fixed : ∀ t f l op s, (immOp t f l op s).fixed = s.fixed := by
  intros; exact State.seqStep_fixed _ _ _ _ (wrReg_keeps _ _ _)
theorem shiOp_fixed : ∀ t rd rs1 hi kind sh f s, (shiOp t rd rs1 hi kind sh f s).fixed = s.fixed := by
  intros; exact State.seqStep_fixed _ _ _ _ (wrReg_keeps _ _ _)
theorem branchOp_fixed : ∀ t f n c s, (branchOp t f n c s).fixed = s.fixed := by
  intros; refine State.seqStep_fixed _ _ _ _ (fun s x => ?_)
  grind [SeqOut.Keeps, State.setTile_fixed]
theorem loadOp_fixed : ∀ t f c n s, (loadOp t f c n s).fixed = s.fixed := by
  intros; refine State.seqStep_fixed _ _ _ _ (fun s x => ?_)
  grind [SeqOut.Keeps, State.setTile_fixed]
theorem storeOp_fixed : ∀ t f c n s, (storeOp t f c n s).fixed = s.fixed := by
  intros; refine State.seqStep_fixed _ _ _ _ (fun s x => ?_)
  grind [SeqOut.Keeps, State.setTile_fixed]
theorem State.seqResume_fixed (s : State) (t : Nat) (f : Wait → Option (State → Tile → SeqOut))
    (h : ∀ w g, f w = some g → ∀ s x, (g s x).Keeps s) : (s.seqResume t f).fixed = s.fixed := by
  unfold State.seqResume; dsimp only
  split
  · split
    · rfl
    · rename_i g hg
      have hk := h _ g hg
      have h3 : ((s.seqGoto t .running).onTile t (fun x => { x with wait := .none })).fixed = s.fixed := by
        rw [State.onTile_fixed, State.seqGoto_fixed]
      split
      · rfl
      · rw [State.finish_fixed _ _ _ (hk _ _), h3]
  · rfl
theorem State.launchTile_fixed : ∀ a0 a1 a2, (State.launchTile a0 a1 a2).fixed = a0.fixed := by
  intro a0 a1 a2; unfold State.launchTile; grind only [State.fixed, foldl_fixed, foldl_fst_fixed, State.onTile_fixed,
      State.seqGoto_fixed]
theorem State.deliverOne_fixed : ∀ a0 a1 a2 a3, (State.deliverOne a0 a1 a2 a3).fixed = a0.fixed := by
  intro a0 a1 a2 a3; unfold State.deliverOne; grind only [State.fixed, foldl_fixed, foldl_fst_fixed,
      State.onRing_fixed, State.deliver_fixed, State.launchTile_fixed]
theorem State.lackTile_fixed : ∀ a0 a1, (State.lackTile a0 a1).fixed = a0.fixed := by
  intro a0 a1; unfold State.lackTile; grind only [State.fixed, foldl_fixed, foldl_fst_fixed, State.setTile_fixed,
      State.deliverOne_fixed]
theorem State.arrive_fixed (s : State) (t ep : Nat) (k : ChKind → Bool) (f : State → Endpoint → ChPkt → State)
    (h : ∀ s e p, (f s e p).fixed = s.fixed) : (State.arrive s t ep k f).fixed = s.fixed := by
  unfold State.arrive; grind [State.fixed, State.chanErr_fixed]
theorem landMsg_fixed : ∀ a0 a1 a2 a3 a4 a5, (landMsg a0 a1 a2 a3 a4 a5).fixed = a5.fixed := by
  intros; rfl
theorem State.writeWindow_fixed : ∀ a0 a1 a2 a3 a4, (State.writeWindow a0 a1 a2 a3 a4).fixed = a0.fixed := by
  intro a0 a1 a2 a3 a4; unfold State.writeWindow; grind only [State.fixed, foldl_fixed, foldl_fst_fixed,
      State.putLines_fixed]
theorem State.noticeAt_fixed : ∀ a0 a1 a2, (State.noticeAt a0 a1 a2).fixed = a0.fixed := by
  intro a0 a1 a2; unfold State.noticeAt; grind only [State.fixed, foldl_fixed, foldl_fst_fixed, State.chanErr_fixed]
theorem State.copyRows_fixed : ∀ a0 a1 a2 a3 a4 a5 a6, (State.copyRows a0 a1 a2 a3 a4 a5 a6).1.fixed = a0.fixed := by
  intro a0 a1 a2 a3 a4 a5 a6; fun_induction State.copyRows a0 a1 a2 a3 a4 a5 a6 <;> grind [State.fixed, foldl_fixed,
      foldl_fst_fixed, State.getLines_fixed, State.putLines_fixed]
theorem State.engStep_fixed (s : State) (t : Nat) (q : EngQ) (ok : Desc → Bool) (f : State → Run → State)
    (h : ∀ s r, (f s r).fixed = s.fixed) : (State.engStep s t q ok f).fixed = s.fixed := by
  unfold State.engStep; grind [State.fixed]
theorem State.engDone_fixed : ∀ a0 a1 a2, (State.engDone a0 a1 a2).fixed = a0.fixed := by
  intros; rfl
theorem State.countDma_fixed : ∀ a0 a1 a2, (State.countDma a0 a1 a2).fixed = a0.fixed := by
  intro a0 a1 a2; unfold State.countDma; grind only [State.fixed, foldl_fixed, foldl_fst_fixed, State.countT_fixed]
theorem State.dmaStep_fixed (s : State) (t op : Nat) (f : State → Run → DmaD → State)
    (h : ∀ s r d, (f s r d).fixed = s.fixed) : (State.dmaStep s t op f).fixed = s.fixed := by
  unfold State.dmaStep
  refine State.engStep_fixed _ _ _ _ _ (fun s r => ?_)
  split
  · rfl
  · split
    · exact h _ _ _
    · rw [State.onTile_fixed, State.raiseT_fixed]
      exact foldl_fixed _ (fun s c => State.reportRefused_fixed _ _ _) _ _
theorem State.sendRows_fixed : ∀ a0 a1 a2 a3 a4, (State.sendRows a0 a1 a2 a3 a4).1.fixed = a0.fixed := by
  intro a0 a1 a2 a3 a4; fun_induction State.sendRows a0 a1 a2 a3 a4 <;> grind [State.fixed, foldl_fixed,
      foldl_fst_fixed, State.chSend_fixed, State.getLines_fixed]
theorem State.selEvents_fixed : ∀ a0 a1 a2 a3 a4 a5, (State.selEvents a0 a1 a2 a3 a4 a5).fixed = a0.fixed := by
  intro a0 a1 a2 a3 a4 a5; unfold State.selEvents; grind only [State.fixed, foldl_fixed, foldl_fst_fixed,
      State.orStat_fixed, State.countT_fixed]
theorem State.opaRow_fixed : ∀ a0 a1 a2 a3 a4 a5 a6 a7, (State.opaRow a0 a1 a2 a3 a4 a5 a6 a7).fixed = a0.fixed := by
  intro a0 a1 a2 a3 a4 a5 a6; unfold State.opaRow; grind only [State.fixed, foldl_fixed, foldl_fst_fixed,
      State.setTile_fixed, State.raiseT_fixed, State.selEvents_fixed]
theorem State.opaBegin_fixed : ∀ a0 a1 a2 a3 a4 a5, (State.opaBegin a0 a1 a2 a3 a4 a5).fixed = a0.fixed := by
  intro a0 a1 a2 a3 a4 a5; unfold State.opaBegin; grind only [State.fixed, foldl_fixed, foldl_fst_fixed,
      State.setTile_fixed, State.countT_fixed, State.fresh_fixed, State.selEvents_fixed]
theorem State.opaRun_fixed : ∀ a0 a1 a2, (State.opaRun a0 a1 a2).fixed = a0.fixed := by
  intro a0 a1 a2; unfold State.opaRun; grind only [State.fixed, foldl_fixed, foldl_fst_fixed, State.onTile_fixed,
      State.opaRow_fixed, State.opaBegin_fixed]
theorem State.countDrained_fixed : ∀ a0 a1, (State.countDrained a0 a1).fixed = a0.fixed := by
  intro a0 a1; unfold State.countDrained; grind only [State.fixed, foldl_fixed, foldl_fst_fixed, State.onFn_fixed]
theorem State.signalEng_fixed : ∀ a0 a1 a2, (State.signalEng a0 a1 a2).fixed = a0.fixed := by
  intro a0 a1 a2; unfold State.signalEng; grind only [State.fixed, foldl_fixed, foldl_fst_fixed, State.onTile_fixed,
      State.countDrained_fixed]
theorem State.fmtEvents_fixed : ∀ a0 a1 a2 a3 a4, (State.fmtEvents a0 a1 a2 a3 a4).fixed = a0.fixed := by
  intro a0 a1 a2 a3 a4; unfold State.fmtEvents; grind only [State.fixed, foldl_fixed, foldl_fst_fixed, State.countT_fixed]
theorem State.raiseMany_fixed : ∀ a0 a1 a2 a3 a4, (State.raiseMany a0 a1 a2 a3 a4).fixed = a0.fixed := by
  intro a0 a1 a2 a3 a4; fun_induction State.raiseMany a0 a1 a2 a3 a4 <;> grind [State.fixed, foldl_fixed,
      foldl_fst_fixed, State.raiseT_fixed]
theorem State.sfuCounts_fixed : ∀ a0 a1 a2, (State.sfuCounts a0 a1 a2).fixed = a0.fixed := by
  intro a0 a1 a2; unfold State.sfuCounts; grind only [State.fixed, foldl_fixed, foldl_fst_fixed, State.orStat_fixed,
      State.countT_fixed]
theorem State.veFinish_fixed : ∀ a0 a1 a2 a3 a4, (State.veFinish a0 a1 a2 a3 a4).fixed = a0.fixed := by
  intro a0 a1 a2 a3 a4; unfold State.veFinish; grind only [State.fixed, foldl_fixed, foldl_fst_fixed,
      State.setTile_fixed, State.orStat_fixed, State.countT_fixed, State.fmtEvents_fixed, State.raiseMany_fixed,
      State.sfuCounts_fixed]
theorem State.veVectors_fixed : ∀ a0 a1 a2 a3, (State.veVectors a0 a1 a2 a3).fixed = a0.fixed := by
  intro a0 a1 a2 a3; unfold State.veVectors; grind only [State.fixed, foldl_fixed, foldl_fst_fixed,
      State.engDone_fixed, State.veFinish_fixed]
theorem State.veRows_fixed : ∀ a0 a1 a2 a3, (State.veRows a0 a1 a2 a3).fixed = a0.fixed := by
  intro a0 a1 a2 a3; unfold State.veRows; grind only [State.fixed, foldl_fixed, foldl_fst_fixed, State.engDone_fixed,
      State.veFinish_fixed]
theorem State.sfuRun_fixed : ∀ a0 a1 a2 a3 a4, (State.sfuRun a0 a1 a2 a3 a4).fixed = a0.fixed := by
  intro a0 a1 a2 a3 a4; unfold State.sfuRun; grind only [State.fixed, foldl_fixed, foldl_fst_fixed,
      State.setTile_fixed, State.orStat_fixed, State.engDone_fixed, State.fmtEvents_fixed, State.raiseMany_fixed,
      State.sfuCounts_fixed]
theorem State.sfuFn_fixed : ∀ s t op, (State.sfuFn s t op).fixed = s.fixed := by
  intros; exact State.engStep_fixed _ _ _ _ _ (fun _ _ => State.sfuRun_fixed _ _ _ _ _)
theorem State.walkRead_fixed : ∀ a0 a1 a2 a3 a4, (State.walkRead a0 a1 a2 a3 a4).1.fixed = a0.fixed := by
  intro a0 a1 a2 a3 a4; unfold State.walkRead; grind only [State.fixed, foldl_fixed, foldl_fst_fixed, State.readPieces_fixed]
theorem State.walkTable_fixed : ∀ a0 a1 a2 a3 a4 a5, (State.walkTable a0 a1 a2 a3 a4 a5).1.fixed = a0.fixed := by
  intro a0 a1 a2 a3 a4 a5; unfold State.walkTable; grind only [State.fixed, foldl_fixed, foldl_fst_fixed,
      State.onTile_fixed, State.walkRead_fixed]
theorem State.lookUp_fixed : ∀ a0 a1 a2 a3 a4 a5, (State.lookUp a0 a1 a2 a3 a4 a5).1.fixed = a0.fixed := by
  intro a0 a1 a2 a3 a4 a5; unfold State.lookUp; grind only [State.fixed, foldl_fixed, foldl_fst_fixed,
      State.onTile_fixed, State.countT_fixed, State.fresh_fixed, State.walkTable_fixed]
theorem State.resolveRead_fixed : ∀ a0 a1 a2 a3 a4 a5 a6 a7,
      (State.resolveRead a0 a1 a2 a3 a4 a5 a6 a7).1.fixed = a0.fixed := by
  intro a0 a1 a2 a3 a4 a5 a6 a7; unfold State.resolveRead; grind only [State.fixed, foldl_fixed, foldl_fst_fixed,
      State.lookUp_fixed]
theorem State.resolveAppend_fixed : ∀ a0 a1 a2 a3 a4 a5, (State.resolveAppend a0 a1 a2 a3 a4 a5).1.fixed = a0.fixed := by
  intro a0 a1 a2 a3 a4 a5; unfold State.resolveAppend; grind only [State.fixed, foldl_fixed, foldl_fst_fixed,
      State.count_fixed, State.lookUp_fixed]
theorem State.pwReport_fixed : ∀ a0 a1 a2 a3 a4 a5 a6 a7, (State.pwReport a0 a1 a2 a3 a4 a5 a6 a7).fixed = a0.fixed := by
  intro a0 a1 a2 a3 a4 a5 a6 a7; unfold State.pwReport; grind only [State.fixed, foldl_fixed, foldl_fst_fixed,
      State.orStat_fixed, State.countT_fixed, State.event_fixed, State.notify_fixed, State.raise_fixed]
theorem State.walkWrite_fixed : ∀ a0 a1 a2 a3 a4, (State.walkWrite a0 a1 a2 a3 a4).fixed = a0.fixed := by
  intro a0 a1 a2 a3 a4; unfold State.walkWrite; grind only [State.fixed, foldl_fixed, foldl_fst_fixed,
      State.writePieces_fixed]
theorem State.pwEvents_fixed : ∀ a0 a1 a2, (State.pwEvents a0 a1 a2).fixed = a0.fixed := by
  intro a0 a1 a2; unfold State.pwEvents; grind only [State.fixed, foldl_fixed, foldl_fst_fixed, State.orStat_fixed,
      State.fmtEvents_fixed]
theorem State.putLeaf_fixed : ∀ a0 a1 a2 a3 a4 a5 a6 a7 a8, (State.putLeaf a0 a1 a2 a3 a4 a5 a6 a7 a8).fixed = a0.fixed := by
  intro a0 a1 a2 a3 a4 a5; unfold State.putLeaf; grind only [State.fixed, foldl_fixed, foldl_fst_fixed,
      State.onTile_fixed, State.walkWrite_fixed]
theorem State.pageWrite_fixed : ∀ a0 a1 a2 a3 a4 a5, (State.pageWrite a0 a1 a2 a3 a4 a5).fixed = a0.fixed := by
  intro a0 a1 a2 a3 a4 a5; unfold State.pageWrite; grind only [State.fixed, foldl_fixed, foldl_fst_fixed,
      State.walkWrite_fixed]
theorem State.appendRow_fixed : ∀ a0 a1 a2 a3 a4 a5 a6, (State.appendRow a0 a1 a2 a3 a4 a5 a6).fixed = a0.fixed := by
  intro a0 a1 a2 a3 a4 a5 a6; unfold State.appendRow; grind only [State.fixed, foldl_fixed, foldl_fst_fixed,
      State.onTile_fixed, State.count_fixed, State.resolveAppend_fixed, State.pwReport_fixed, State.pwEvents_fixed,
      State.putLeaf_fixed, State.pageWrite_fixed]
theorem State.pwInvalidate_fixed : ∀ a0 a1, (State.pwInvalidate a0 a1).fixed = a0.fixed := by
  intro a0 a1; unfold State.pwInvalidate; (repeat (first | refine State.engStep_fixed _ _ _ _ _ (fun s r => ?_)))
  all_goals grind [State.fixed, foldl_fixed, foldl_fst_fixed, State.onTile_fixed, State.engDone_fixed]
theorem State.pageRowVals_fixed : ∀ a0 a1 a2 a3 a4 a5 a6 a7 a8,
      (State.pageRowVals a0 a1 a2 a3 a4 a5 a6 a7 a8).1.fixed = a0.fixed := by
  intro a0 a1 a2 a3 a4 a5 a6 a7 a8; unfold State.pageRowVals; grind only [State.fixed, foldl_fixed, foldl_fst_fixed,
      State.getLines_fixed]
theorem State.readToken_fixed : ∀ a0 a1 a2 a3 a4 a5 a6, (State.readToken a0 a1 a2 a3 a4 a5 a6).1.fixed = a0.fixed := by
  intro a0 a1 a2 a3 a4 a5 a6; unfold State.readToken; grind only [State.fixed, foldl_fixed, foldl_fst_fixed,
      State.count_fixed, State.pageRowVals_fixed]
theorem State.readPages_fixed : ∀ a0 a1 a2 a3 a4 a5 a6 a7, (State.readPages a0 a1 a2 a3 a4 a5 a6 a7).1.fixed = a0.fixed := by
  intro a0 a1 a2 a3 a4 a5 a6 a7; fun_induction State.readPages a0 a1 a2 a3 a4 a5 a6 a7 <;> grind [State.fixed,
      foldl_fixed, foldl_fst_fixed, State.orStat_fixed, State.count_fixed, State.countT_fixed, State.resolveRead_fixed,
      State.pwReport_fixed, State.readToken_fixed]
theorem State.endRow_fixed : ∀ a0 a1 a2 a3 a4 a5, (State.endRow a0 a1 a2 a3 a4 a5).fixed = a0.fixed := by
  intro a0 a1 a2 a3 a4 a5; unfold State.endRow; grind only [State.fixed, foldl_fixed, foldl_fst_fixed,
      State.onTile_fixed, State.orStat_fixed, State.countT_fixed, State.raiseMany_fixed, State.sfuCounts_fixed]
theorem State.gusAlign_fixed : ∀ a0 a1 a2 a3 a4 a5, (State.gusAlign a0 a1 a2 a3 a4 a5).fixed = a0.fixed := by
  intro a0 a1 a2 a3 a4 a5; unfold State.gusAlign; grind only [State.fixed, foldl_fixed, foldl_fst_fixed,
      State.selEvents_fixed]
theorem State.kvAlign_fixed : ∀ a0 a1 a2 a3, (State.kvAlign a0 a1 a2 a3).fixed = a0.fixed := by
  intro a0 a1 a2 a3; unfold State.kvAlign; grind only [State.fixed, foldl_fixed, foldl_fst_fixed, State.count_fixed,
      State.selEvents_fixed]
theorem State.gusSteps_fixed : ∀ a0 a1 a2 a3, (State.gusSteps a0 a1 a2 a3).fixed = a0.fixed := by
  intro a0 a1 a2 a3; unfold State.gusSteps; grind only [State.fixed, foldl_fixed, foldl_fst_fixed, State.countT_fixed]
theorem State.readSlot_fixed : ∀ a0 a1 a2 a3 a4, (State.readSlot a0 a1 a2 a3 a4).1.fixed = a0.fixed := by
  intro a0 a1 a2 a3 a4; unfold State.readSlot; grind only [State.fixed, foldl_fixed, foldl_fst_fixed,
      State.orStat_fixed, State.readPages_fixed, State.kvAlign_fixed]
theorem State.attendRow_fixed : ∀ a0 a1 a2 a3 a4 a5 a6, (State.attendRow a0 a1 a2 a3 a4 a5 a6).fixed = a0.fixed := by
  intro a0 a1 a2 a3 a4 a5; unfold State.attendRow; grind only [State.fixed, foldl_fixed, foldl_fst_fixed,
      State.endRow_fixed, State.gusAlign_fixed]
theorem State.gusStep_fixed (s : State) (t op : Nat) (f : State → GusD → SMap Int → State)
    (h : ∀ s d q, (f s d q).fixed = s.fixed) : (State.gusStep s t op f).fixed = s.fixed := by
  unfold State.gusStep
  refine State.engStep_fixed _ _ _ _ _ (fun s r => ?_)
  grind [State.engDone_fixed, State.onTile_fixed]
theorem State.rebaseRow_fixed : ∀ a0 a1 a2 a3, (State.rebaseRow a0 a1 a2 a3).fixed = a0.fixed := by
  intro a0 a1 a2 a3; unfold State.rebaseRow; grind only [State.fixed, foldl_fixed, foldl_fst_fixed, State.onTile_fixed,
      State.orStat_fixed, State.countT_fixed, State.raiseT_fixed, State.raiseMany_fixed]
theorem State.finaliseRow_fixed : ∀ a0 a1 a2 a3, (State.finaliseRow a0 a1 a2 a3).fixed = a0.fixed := by
  intro a0 a1 a2 a3; unfold State.finaliseRow; grind only [State.fixed, foldl_fixed, foldl_fst_fixed,
      State.setTile_fixed, State.orStat_fixed, State.raiseMany_fixed]
theorem State.recomputeRow_fixed : ∀ a0 a1 a2 a3 a4 a5 a6 a7,
      (State.recomputeRow a0 a1 a2 a3 a4 a5 a6 a7).fixed = a0.fixed := by
  intro a0 a1 a2 a3 a4 a5 a6; unfold State.recomputeRow; grind only [State.fixed, foldl_fixed, foldl_fst_fixed,
      State.onTile_fixed, State.orStat_fixed, State.countT_fixed, State.raiseMany_fixed, State.sfuCounts_fixed,
      State.gusAlign_fixed]
theorem State.checkDesc_fixed : ∀ a0 a1 a2 a3, (State.checkDesc a0 a1 a2 a3).1.fixed = a0.fixed := by
  intro a0 a1 a2 a3; unfold State.checkDesc; grind only [State.fixed, foldl_fixed, foldl_fst_fixed, State.raise_fixed,
      State.raiseT_fixed, State.reportRefused_fixed, State.chanErr_fixed]
theorem State.startDesc_fixed : ∀ a0 a1 a2 a3, (State.startDesc a0 a1 a2 a3).fixed = a0.fixed := by
  intro a0 a1 a2 a3; unfold State.startDesc; grind only [State.fixed, foldl_fixed, foldl_fst_fixed, State.onTile_fixed,
      State.checkDesc_fixed]

end Sys2Proof.Machine
end

