-- ==== Sys2Proof/Laws/KeptPackage.lean ====
section
/-! SUPPORT. Operations of the package blocks keep the same fields. -/

namespace Sys2Proof.Machine

theorem State.putColl_fixed : ∀ a0 a1, (State.putColl a0 a1).fixed = a0.fixed := by
  intros; rfl
theorem State.raiseColl_fixed : ∀ a0 a1 a2 a3, (State.raiseColl a0 a1 a2 a3).fixed = a0.fixed := by
  intro a0 a1 a2 a3; unfold State.raiseColl; grind only [State.fixed, foldl_fixed, foldl_fst_fixed, State.raise_fixed]
theorem State.collAbort_fixed : ∀ a0 a1 a2, (State.collAbort a0 a1 a2).fixed = a0.fixed := by
  intro a0 a1 a2; unfold State.collAbort; grind only [State.fixed, foldl_fixed, foldl_fst_fixed, State.count_fixed,
      State.putColl_fixed, State.raiseColl_fixed]
theorem State.rackSend_fixed : ∀ a0 a1 a2, (State.rackSend a0 a1 a2).1.fixed = a0.fixed := by
  intro a0 a1 a2; unfold State.rackSend; grind only [State.fixed, foldl_fixed, foldl_fst_fixed, State.enqueue_fixed]
theorem State.collSend1_fixed : ∀ a0 a1 a2, (State.collSend1 a0 a1 a2).1.fixed = a0.fixed := by
  intro a0 a1 a2; unfold State.collSend1; grind only [State.fixed, foldl_fixed, foldl_fst_fixed, State.fabSend_fixed,
      State.rackSend_fixed]
theorem State.collFlushList_fixed : ∀ a0 a1 a2, (State.collFlushList a0 a1 a2).1.fixed = a0.fixed := by
  intro a0 a1 a2; fun_induction State.collFlushList a0 a1 a2 <;> grind [State.fixed, foldl_fixed, foldl_fst_fixed,
      State.collSend1_fixed]
theorem State.collFlush_fixed : ∀ a0 a1, (State.collFlush a0 a1).fixed = a0.fixed := by
  intro a0 a1; unfold State.collFlush; grind only [State.fixed, foldl_fixed, foldl_fst_fixed, State.putColl_fixed,
      State.collAbort_fixed, State.collFlushList_fixed]
theorem State.collGrant_fixed : ∀ a0 a1 a2 a3 a4 a5, (State.collGrant a0 a1 a2 a3 a4 a5).1.fixed = a0.fixed := by
  intro a0 a1 a2 a3 a4 a5; unfold State.collGrant; grind only [State.fixed, foldl_fixed, foldl_fst_fixed,
      State.fabSend_fixed]
theorem State.collResidue_fixed : ∀ a0 a1 a2, (State.collResidue a0 a1 a2).1.fixed = a0.fixed := by
  intro a0 a1 a2; unfold State.collResidue; grind only [State.fixed, foldl_fixed, foldl_fst_fixed, State.count_fixed,
      State.raiseColl_fixed]
theorem State.collConsume_fixed : ∀ a0 a1 a2 a3 a4, (State.collConsume a0 a1 a2 a3 a4).1.fixed = a0.fixed := by
  intro a0 a1 a2 a3 a4; unfold State.collConsume; grind only [State.fixed, foldl_fixed, foldl_fst_fixed,
      State.putColl_fixed, State.collGrant_fixed]
theorem State.collConsumeAll_fixed : ∀ a0 a1 a2 a3, (State.collConsumeAll a0 a1 a2 a3).1.fixed = a0.fixed := by
  intro a0 a1 a2 a3; fun_induction State.collConsumeAll a0 a1 a2 a3 <;> grind [State.fixed, foldl_fixed,
      foldl_fst_fixed, State.collConsume_fixed]
theorem State.collFail_fixed : ∀ a0 a1 a2 a3, (State.collFail a0 a1 a2 a3).1.fixed = a0.fixed := by
  intro a0 a1 a2 a3; unfold State.collFail; grind only [State.fixed, foldl_fixed, foldl_fst_fixed, State.count_fixed,
      State.reportRefused_fixed, State.raiseColl_fixed]
theorem State.collWrite_fixed : ∀ a0 a1 a2 a3 a4 a5, (State.collWrite a0 a1 a2 a3 a4 a5).1.fixed = a0.fixed := by
  intro a0 a1 a2 a3 a4 a5; unfold State.collWrite; grind only [State.fixed, foldl_fixed, foldl_fst_fixed,
      State.statIf_fixed, State.putLines_fixed, State.collFail_fixed]
theorem State.collAdvance_fixed : ∀ a0 a1 a2, (State.collAdvance a0 a1 a2).fixed = a0.fixed := by
  intro a0 a1 a2; unfold State.collAdvance; grind only [State.fixed, foldl_fixed, foldl_fst_fixed, State.count_fixed,
      State.putColl_fixed, State.collAbort_fixed, State.collFlush_fixed, State.collResidue_fixed,
      State.collConsumeAll_fixed, State.collWrite_fixed]
theorem State.collCut_fixed : ∀ a0 a1, (State.collCut a0 a1).fixed = a0.fixed := by
  intro a0 a1; unfold State.collCut; grind only [State.fixed, foldl_fixed, foldl_fst_fixed, State.fabSend_fixed,
      State.putLines_fixed]
theorem State.collStop_fixed : ∀ a0 a1, (State.collStop a0 a1).1.fixed = a0.fixed := by
  intro a0 a1; unfold State.collStop; grind only [State.fixed, foldl_fixed, foldl_fst_fixed, State.collCut_fixed]
theorem State.cutWindow_fixed : ∀ a0 a1 a2 a3 a4, (State.cutWindow a0 a1 a2 a3 a4).fixed = a0.fixed := by
  intro a0 a1 a2 a3 a4; unfold State.cutWindow; grind only [State.fixed, foldl_fixed, foldl_fst_fixed,
      State.writeWindow_fixed]
theorem State.cutRun_fixed : ∀ a0 a1 a2 a3, (State.cutRun a0 a1 a2 a3).fixed = a0.fixed := by
  intro a0 a1 a2 a3; unfold State.cutRun; grind only [State.fixed, foldl_fixed, foldl_fst_fixed, State.onTile_fixed,
      State.putLines_fixed, State.pwInvalidate_fixed, State.cutWindow_fixed]
theorem State.cutFlight_fixed : ∀ a0 a1, (State.cutFlight a0 a1).fixed = a0.fixed := by
  intro a0 a1; unfold State.cutFlight; grind only [State.fixed, foldl_fixed, foldl_fst_fixed, State.cutWindow_fixed]
theorem State.cutRemote_fixed : ∀ a0 a1, (State.cutRemote a0 a1).fixed = a0.fixed := by
  intro a0 a1; unfold State.cutRemote; grind only [State.fixed, foldl_fixed, foldl_fst_fixed, State.sendNotice_fixed]
theorem State.cutEng_fixed : ∀ a0 a1 a2 a3, (State.cutEng a0 a1 a2 a3).fixed = a0.fixed := by
  intro a0 a1 a2 a3; unfold State.cutEng; grind only [State.fixed, foldl_fixed, foldl_fst_fixed, State.onTile_fixed,
      State.onFn_fixed, State.cutRun_fixed]
theorem State.cutCmd_fixed : ∀ a0 a1 a2, (State.cutCmd a0 a1 a2).1.fixed = a0.fixed := by
  intro a0 a1 a2; unfold State.cutCmd; grind only [State.fixed, foldl_fixed, foldl_fst_fixed, State.putLines_fixed]
theorem State.cutRing_fixed : ∀ a0 a1 a2, (State.cutRing a0 a1 a2).fixed = a0.fixed := by
  intro a0 a1 a2; unfold State.cutRing; grind only [State.fixed, foldl_fixed, foldl_fst_fixed, State.onFn_fixed,
      State.onRing_fixed, State.cutCmd_fixed]
theorem State.cutAll_fixed : ∀ a0 a1, (State.cutAll a0 a1).fixed = a0.fixed := by
  intro a0 a1; unfold State.cutAll; grind only [State.fixed, foldl_fixed, foldl_fst_fixed, State.cutFlight_fixed,
      State.cutEng_fixed, State.cutRing_fixed]
theorem State.discardTile_fixed : ∀ a0 a1 a2, (State.discardTile a0 a1 a2).fixed = a0.fixed := by
  intros; rfl
theorem State.beginStop_fixed : ∀ a0 a1 a2 a3, (State.beginStop a0 a1 a2 a3).fixed = a0.fixed := by
  intro a0 a1 a2 a3; unfold State.beginStop; grind only [State.fixed, foldl_fixed, foldl_fst_fixed, State.onFn_fixed,
      State.onRing_fixed, State.onCore_fixed, State.charge_fixed, State.collStop_fixed, State.cutRemote_fixed,
      State.cutAll_fixed, State.discardTile_fixed]
theorem State.loadTile_fixed : ∀ a0 a1, (State.loadTile a0 a1).fixed = a0.fixed := by
  intro a0 a1; unfold State.loadTile; grind only [State.fixed, foldl_fixed, foldl_fst_fixed, State.onTile_fixed,
      State.seqGoto_fixed]
theorem State.cacheFlush_fixed : ∀ a0 a1 a2, (State.cacheFlush a0 a1 a2).fixed = a0.fixed := by
  intro a0 a1 a2; unfold State.cacheFlush; grind only [State.fixed, foldl_fixed, foldl_fst_fixed, State.onCore_fixed,
      State.writePieces_fixed, State.reportRefused_fixed]
theorem State.endStop_fixed : ∀ a0 a1, (State.endStop a0 a1).fixed = a0.fixed := by
  intro a0 a1; unfold State.endStop; grind only [State.fixed, foldl_fixed, foldl_fst_fixed, State.onFn_fixed,
      State.onRing_fixed, State.notify_fixed, State.dropPlb_fixed, State.cutFlight_fixed, State.loadTile_fixed,
      State.cacheFlush_fixed]
theorem State.startFn_fixed : ∀ a0 a1, (State.startFn a0 a1).fixed = a0.fixed := by
  intro a0 a1; unfold State.startFn; grind only [State.fixed, foldl_fixed, foldl_fst_fixed, State.setFence_fixed,
      State.onTile_fixed, State.onFn_fixed, State.onRing_fixed, State.onCore_fixed, State.charge_fixed,
      State.seqGoto_fixed, State.loadTile_fixed]
theorem State.resetCore_fixed : ∀ a0 a1 a2, (State.resetCore a0 a1 a2).fixed = a0.fixed := by
  intros; rfl
theorem State.withdrawTile_fixed : ∀ a0 a1, (State.withdrawTile a0 a1).fixed = a0.fixed := by
  intro a0 a1; unfold State.withdrawTile; grind only [State.fixed, foldl_fixed, foldl_fst_fixed, State.setTile_fixed,
      State.onSlab_fixed, State.onFn_fixed]
theorem State.closeConns_fixed : ∀ a0 a1, (State.closeConns a0 a1).fixed = a0.fixed := by
  intros; rfl
theorem State.destroyFn_fixed : ∀ a0 a1, (State.destroyFn a0 a1).fixed = a0.fixed := by
  intro a0 a1; unfold State.destroyFn; grind only [State.fixed, foldl_fixed, foldl_fst_fixed, State.setFn_fixed,
      State.setRing_fixed, State.setFence_fixed, State.onSlab_fixed, State.resetCore_fixed, State.withdrawTile_fixed,
      State.closeConns_fixed]
theorem State.chainOwn_fixed : ∀ a0 a1 a2 a3, (State.chainOwn a0 a1 a2 a3).fixed = a0.fixed := by
  intro a0 a1 a2 a3; unfold State.chainOwn; grind only [State.fixed, foldl_fixed, foldl_fst_fixed, State.count_fixed,
      State.raise_fixed]
theorem State.boardEvent_fixed : ∀ a0 a1, (State.boardEvent a0 a1).fixed = a0.fixed := by
  intro a0 a1; unfold State.boardEvent; grind only [State.fixed, foldl_fixed, foldl_fst_fixed, State.chainOwn_fixed]
theorem State.sendMsg_fixed : ∀ a0 a1 a2, (State.sendMsg a0 a1 a2).fixed = a0.fixed := by
  intro a0 a1 a2; unfold State.sendMsg; grind only [State.fixed, foldl_fixed, foldl_fst_fixed, State.onCore_fixed,
      State.sendUdp_fixed, State.chainOwn_fixed]
theorem State.reply_fixed : ∀ a0 a1 a2 a3, (State.reply a0 a1 a2 a3).fixed = a0.fixed := by
  intro a0 a1 a2 a3; unfold State.reply; grind only [State.fixed, foldl_fixed, foldl_fst_fixed, State.onFn_fixed,
      State.count_fixed, State.sendMsg_fixed]
theorem State.judge_fixed (s : State) (r : Req) (conds : List (Bool × Nat)) (f : State → State)
    (h : ∀ s, (f s).fixed = s.fixed) : (State.judge s r conds f).fixed = s.fixed := by
  unfold State.judge; grind [State.fixed, State.reply_fixed]
theorem State.commandIf_fixed (s : State) (code : Nat) (want : Req → Bool) (f : State → Req → State)
    (h : ∀ s r, (f s r).fixed = s.fixed) : (State.commandIf s code want f).fixed = s.fixed := by
  unfold State.commandIf; grind [State.fixed]
theorem State.command_fixed (s : State) (code : Nat) (f : State → Req → State)
    (h : ∀ s r, (f s r).fixed = s.fixed) : (State.command s code f).fixed = s.fixed := State.commandIf_fixed _ _ _ _ h
theorem State.accept_fixed : ∀ a0 a1, (State.accept a0 a1).fixed = a0.fixed := by
  intro a0 a1; unfold State.accept; grind only [State.fixed, foldl_fixed, foldl_fst_fixed, State.reply_fixed]
theorem State.dropMsg_fixed : ∀ a0, (State.dropMsg a0).fixed = a0.fixed := by
  intros; rfl
theorem State.receiveMsg_fixed : ∀ a0 a1 a2, (State.receiveMsg a0 a1 a2).fixed = a0.fixed := by
  intro a0 a1 a2; unfold State.receiveMsg; grind only [State.fixed, foldl_fixed, foldl_fst_fixed, State.setFn_fixed,
      State.count_fixed, State.sendMsg_fixed, State.reply_fixed, State.accept_fixed, State.dropMsg_fixed]
theorem State.winRead_fixed : ∀ a0 a1 a2 a3, (State.winRead a0 a1 a2 a3).1.fixed = a0.fixed := by
  intro a0 a1 a2 a3; unfold State.winRead; grind only [State.fixed, foldl_fixed, foldl_fst_fixed, State.readPieces_fixed]
theorem State.winWrite_fixed : ∀ a0 a1 a2 a3, (State.winWrite a0 a1 a2 a3).fixed = a0.fixed := by
  intro a0 a1 a2 a3; unfold State.winWrite; grind only [State.fixed, foldl_fixed, foldl_fst_fixed, State.writePieces_fixed]
theorem State.readImage_fixed : ∀ a0 a1 a2 a3 a4, (State.readImage a0 a1 a2 a3 a4).1.fixed = a0.fixed := by
  intro a0 a1 a2 a3 a4; unfold State.readImage; grind only [State.fixed, foldl_fixed, foldl_fst_fixed,
      State.command_fixed, State.winRead_fixed]
theorem State.holdLong_fixed : ∀ a0 a1 a2 a3 a4, (State.holdLong a0 a1 a2 a3 a4).fixed = a0.fixed := by
  intros; rfl
theorem State.setDom_fixed : ∀ a0 a1 a2, (State.setDom a0 a1 a2).fixed = a0.fixed := by
  intros; rfl
theorem State.onDom_fixed : ∀ a0 a1 a2, (State.onDom a0 a1 a2).fixed = a0.fixed := by
  intros; rfl
theorem State.accrue_fixed : ∀ a0, (State.accrue a0).fixed = a0.fixed := by
  intros; rfl
theorem State.pwrStep_fixed (s : State) (f : State → State)
    (h : ∀ s, (f s).fixed = s.fixed) : (State.pwrStep s f).fixed = s.fixed := by
  unfold State.pwrStep; grind [State.fixed, foldl_fixed, State.accrue_fixed, State.event_fixed, State.boardEvent_fixed]
theorem State.lowerGrants_fixed : ∀ s0 n l s, (State.lowerGrants s0 n l s).fixed = s.fixed := by
  intro s0 n; induction n with
  | zero => intros; rfl
  | succ n ih => intro l s; cases l with
    | nil => rfl
    | cons c cs => simp only [State.lowerGrants]; rw [ih]; exact State.onDom_fixed _ _ _
theorem State.commandOps_fixed : ∀ a0, (State.commandOps a0).fixed = a0.fixed := by
  intro a0; unfold State.commandOps; grind only [State.fixed, foldl_fixed, foldl_fst_fixed, State.reply_fixed,
      State.setDom_fixed]
theorem State.giveTile_fixed : ∀ a0 a1 a2 a3 a4, (State.giveTile a0 a1 a2 a3 a4).fixed = a0.fixed := by
  intro a0 a1 a2 a3 a4; unfold State.giveTile; grind only [State.fixed, foldl_fixed, foldl_fst_fixed,
      State.setTile_fixed, State.onSlab_fixed]
theorem State.setWindow_fixed : ∀ a0 a1 a2 a3 a4, (State.setWindow a0 a1 a2 a3 a4).fixed = a0.fixed := by
  intro a0 a1 a2 a3 a4; unfold State.setWindow; grind only [State.fixed, foldl_fixed, foldl_fst_fixed,
      State.onSlab_fixed, State.onFn_fixed]
theorem State.setSpread_fixed : ∀ a0 a1 a2 a3, (State.setSpread a0 a1 a2 a3).fixed = a0.fixed := by
  intro a0 a1 a2 a3; unfold State.setSpread; grind only [State.fixed, foldl_fixed, foldl_fst_fixed, State.onSlab_fixed]
theorem State.startService_fixed : ∀ a0 a1, (State.startService a0 a1).fixed = a0.fixed := by
  intro a0 a1; unfold State.startService; grind only [State.fixed, foldl_fixed, foldl_fst_fixed, State.setFn_fixed,
      State.onFn_fixed, State.startFn_fixed, State.onDom_fixed, State.giveTile_fixed, State.setWindow_fixed,
      State.setSpread_fixed]
theorem State.startServices_fixed : ∀ a0, (State.startServices a0).fixed = a0.fixed := by
  intro a0; unfold State.startServices; grind only [State.fixed, foldl_fixed, foldl_fst_fixed, State.startService_fixed]
theorem State.recordFault_fixed : ∀ a0 a1, (State.recordFault a0 a1).fixed = a0.fixed := by
  intro a0 a1; unfold State.recordFault; (repeat (first | with_reducible refine State.command_fixed _ _ _ (fun s r => ?_))); all_goals grind [State.fixed, foldl_fixed, foldl_fst_fixed]
theorem State.finishLong_fixed : ∀ a0 a1 a2 a3 a4, (State.finishLong a0 a1 a2 a3 a4).fixed = a0.fixed := by
  intro a0 a1 a2 a3 a4; unfold State.finishLong; grind only [State.fixed, foldl_fixed, foldl_fst_fixed,
      State.reply_fixed, State.command_fixed]
theorem State.serviceStopped_fixed : ∀ a0 a1, (State.serviceStopped a0 a1).fixed = a0.fixed := by
  intro a0 a1; unfold State.serviceStopped; grind only [State.fixed, foldl_fixed, foldl_fst_fixed,
      State.destroyFn_fixed, State.finishLong_fixed]
theorem State.assign_fixed (s : State) (kind : Nat) (fields : List (Nat × Nat)) (u b c d : State → Req → Nat → Bool) (f : State → Req → Nat → State)
    (h : ∀ s r n, (f s r n).fixed = s.fixed) : (State.assign s kind fields u b c d f).fixed = s.fixed := by
  unfold State.assign
  refine State.commandIf_fixed _ _ _ _ (fun s r => ?_)
  exact State.judge_fixed _ _ _ _ (fun s => h s r _)
theorem State.tagCw_fixed : ∀ a0 a1 a2 a3, (State.tagCw a0 a1 a2 a3).fixed = a0.fixed := by
  intro a0 a1 a2 a3; unfold State.tagCw; grind only [State.fixed, foldl_fixed, foldl_fst_fixed, State.onSlab_fixed,
      State.readCw_fixed]
theorem State.fenceLatch_fixed : ∀ a0 a1, (State.fenceLatch a0 a1).fixed = a0.fixed := by
  intro a0 a1; unfold State.fenceLatch; grind only [State.fixed, foldl_fixed, foldl_fst_fixed, State.onRing_fixed,
      State.onCore_fixed]
theorem State.signalFence_fixed : ∀ a0 a1 a2 a3 a4, (State.signalFence a0 a1 a2 a3 a4).fixed = a0.fixed := by
  intro a0 a1 a2 a3 a4; unfold State.signalFence; grind only [State.fixed, foldl_fixed, foldl_fst_fixed,
      State.setFence_fixed, State.fenceLatch_fixed]
theorem State.govMode_fixed : ∀ a0 a1, (State.govMode a0 a1).fixed = a0.fixed := by
  intro a0 a1; unfold State.govMode; grind only [State.fixed, foldl_fixed, foldl_fst_fixed, State.event_fixed]
theorem State.paceRule_fixed : ∀ a0 a1 a2, (State.paceRule a0 a1 a2).fixed = a0.fixed := by
  intro a0 a1 a2; unfold State.paceRule; grind only [State.fixed, foldl_fixed, foldl_fst_fixed, State.fresh_fixed,
      State.setDom_fixed]
theorem State.shortfallReport_fixed : ∀ a0 a1 a2, (State.shortfallReport a0 a1 a2).fixed = a0.fixed := by
  intro a0 a1 a2; unfold State.shortfallReport; grind only [State.fixed, foldl_fixed, foldl_fst_fixed, State.notify_fixed]
theorem State.stepTime_fixed : ∀ a0 a1, (State.stepTime a0 a1).fixed = a0.fixed := by
  intros; rfl
theorem State.timeGo_fixed : ∀ a0, (State.timeGo a0).fixed = a0.fixed := by
  intro a0; unfold State.timeGo; grind only [State.fixed, foldl_fixed, foldl_fst_fixed, State.event_fixed,
      State.stepTime_fixed]
theorem State.inject_fixed : ∀ a0 a1 a2 a3, (State.inject a0 a1 a2 a3).fixed = a0.fixed := by
  intro a0 a1 a2 a3; unfold State.inject; grind only [State.fixed, foldl_fixed, foldl_fst_fixed,
      State.latchFatal_fixed, State.raise_fixed]
theorem State.writeErrCtl_fixed : ∀ a0 a1 a2 a3, (State.writeErrCtl a0 a1 a2 a3).fixed = a0.fixed := by
  intro a0 a1 a2 a3; unfold State.writeErrCtl; grind only [State.fixed, foldl_fixed, foldl_fst_fixed,
      State.setErr_fixed, State.inject_fixed]
theorem State.clearErr_fixed : ∀ a0 a1 a2 a3, (State.clearErr a0 a1 a2 a3).fixed = a0.fixed := by
  intros; rfl
theorem State.fenceAll_fixed : ∀ a0, (State.fenceAll a0).fixed = a0.fixed := by
  intro a0; unfold State.fenceAll; grind only [State.fixed, foldl_fixed, foldl_fst_fixed, State.onPort_fixed,
      State.portGo_fixed]
theorem State.recordFatal_fixed : ∀ a0, (State.recordFatal a0).fixed = a0.fixed := by
  intro a0; unfold State.recordFatal; grind only [State.fixed, foldl_fixed, foldl_fst_fixed]
theorem State.setHalves_fixed : ∀ a0 a1 a2 a3, (State.setHalves a0 a1 a2 a3).fixed = a0.fixed := by
  intros; rfl
theorem State.retireTile_fixed : ∀ a0 a1, (State.retireTile a0 a1).fixed = a0.fixed := by
  intro a0 a1; unfold State.retireTile; grind only [State.fixed, foldl_fixed, foldl_fst_fixed, State.setTile_fixed,
      State.notify_fixed]
theorem State.setSlot_fixed : ∀ a0 a1 a2, (State.setSlot a0 a1 a2).fixed = a0.fixed := by
  intro a0 a1 a2; unfold State.setSlot; grind only [State.fixed, foldl_fixed, foldl_fst_fixed]
theorem State.onSlot_fixed : ∀ a0 a1 a2, (State.onSlot a0 a1 a2).fixed = a0.fixed := by
  intro a0 a1 a2; unfold State.onSlot; grind only [State.fixed, foldl_fixed, foldl_fst_fixed, State.setSlot_fixed]
theorem State.resetPackage_fixed : ∀ a0, (State.resetPackage a0).fixed = a0.fixed := by
  intros; rfl
theorem State.doReset_fixed : ∀ a0, (State.doReset a0).fixed = a0.fixed := by
  intro a0; unfold State.doReset; grind only [State.fixed, foldl_fixed, foldl_fst_fixed, State.resetPackage_fixed]
theorem State.pickSlot_fixed : ∀ a0 a1, (State.pickSlot a0 a1).1.fixed = a0.fixed := by
  intro a0 a1; unfold State.pickSlot; grind only [State.fixed, foldl_fixed, foldl_fst_fixed, State.onSlot_fixed]
theorem State.failTile_fixed : ∀ a0 a1, (State.failTile a0 a1).fixed = a0.fixed := by
  intro a0 a1; unfold State.failTile; grind only [State.fixed, foldl_fixed, foldl_fst_fixed, State.setTile_fixed]
theorem State.haltBoot_fixed : ∀ a0 a1 a2 a3, (State.haltBoot a0 a1 a2 a3).fixed = a0.fixed := by
  intros; rfl
theorem State.selfTest_fixed : ∀ a0 a1, (State.selfTest a0 a1).fixed = a0.fixed := by
  intro a0 a1; unfold State.selfTest; grind only [State.fixed, foldl_fixed, foldl_fst_fixed, State.onSlab_fixed,
      State.fresh_fixed, State.raise_fixed, State.retirePage_fixed, State.setHalves_fixed, State.failTile_fixed]
theorem State.trainAll_fixed : ∀ a0 a1, (State.trainAll a0 a1).fixed = a0.fixed := by
  intro a0 a1; unfold State.trainAll; grind only [State.fixed, foldl_fixed, foldl_fst_fixed, State.portGo_fixed]
theorem State.powerOff_fixed : ∀ a0 a1 a2, (State.powerOff a0 a1 a2).fixed = a0.fixed := by
  intro a0 a1 a2; unfold State.powerOff; grind only [State.fixed, foldl_fixed, foldl_fst_fixed, State.onPort_fixed]
theorem State.raiseDsp_fixed : ∀ a0 a1 a2, (State.raiseDsp a0 a1 a2).fixed = a0.fixed := by
  intro a0 a1 a2; unfold State.raiseDsp; grind only [State.fixed, foldl_fixed, foldl_fst_fixed, State.raise_fixed]
theorem State.doorbell_fixed : ∀ a0 a1 a2, (State.doorbell a0 a1 a2).1.fixed = a0.fixed := by
  intro a0 a1 a2; unfold State.doorbell; grind only [State.fixed, foldl_fixed, foldl_fst_fixed, State.setRing_fixed,
      State.count_fixed, State.raiseDsp_fixed]
theorem State.coreAns_fixed : ∀ a0 a1 a2, (State.coreAns a0 a1 a2).fixed = a0.fixed := by
  intros; rfl
theorem State.answer_fixed : ∀ a0 a1 a2, (State.answer a0 a1 a2).fixed = a0.fixed := by
  intro a0 a1 a2; unfold State.answer; grind only [State.fixed, foldl_fixed, foldl_fst_fixed, State.count_fixed,
      State.doorbell_fixed]
theorem State.rdmaDoorbell_fixed : ∀ a0 a1 a2 a3 a4, (State.rdmaDoorbell a0 a1 a2 a3 a4).fixed = a0.fixed := by
  intro a0 a1 a2 a3 a4; unfold State.rdmaDoorbell; grind only [State.fixed, foldl_fixed, foldl_fst_fixed,
      State.count_fixed, State.doorbell_fixed, State.answer_fixed]
theorem State.fetchRing_fixed : ∀ a0 a1, (State.fetchRing a0 a1).fixed = a0.fixed := by
  intro a0 a1; unfold State.fetchRing; grind only [State.fixed, foldl_fixed, foldl_fst_fixed, State.onRing_fixed,
      State.readPieces_fixed, State.reportRefused_fixed, State.raiseDsp_fixed]
theorem State.onCmd_fixed : ∀ a0 a1 a2 a3, (State.onCmd a0 a1 a2 a3).fixed = a0.fixed := by
  intros; rfl
theorem State.runCmd_fixed (s : State) (r op : Nat) (f : State → RCmd → State)
    (h : ∀ s c, (f s c).fixed = s.fixed) : (State.runCmd s r op f).fixed = s.fixed := by
  unfold State.runCmd; grind [State.fixed, State.onCmd_fixed]
theorem State.completeCmd_fixed : ∀ a0 a1 a2, (State.completeCmd a0 a1 a2).fixed = a0.fixed := by
  intros; rfl
theorem State.signalCmd_fixed : ∀ a0 a1 a2, (State.signalCmd a0 a1 a2).fixed = a0.fixed := by
  intro a0 a1 a2; unfold State.signalCmd; grind only [State.fixed, foldl_fixed, foldl_fst_fixed, State.onFn_fixed,
      State.onRing_fixed, State.count_fixed, State.signalFence_fixed, State.onCmd_fixed]
theorem State.advanceDone_fixed : ∀ a0 a1 a2, (State.advanceDone a0 a1 a2).fixed = a0.fixed := by
  intro a0 a1; unfold State.advanceDone; grind only [State.fixed, foldl_fixed, foldl_fst_fixed, State.setRing_fixed,
      State.writePieces_fixed, State.reportRefused_fixed, State.raiseDsp_fixed]
theorem State.finishCmd_fixed : ∀ a0 a1 a2, (State.finishCmd a0 a1 a2).fixed = a0.fixed := by
  intro a0 a1 a2; unfold State.finishCmd; grind only [State.fixed, foldl_fixed, foldl_fst_fixed,
      State.reportRefused_fixed, State.raiseDsp_fixed, State.onCmd_fixed, State.signalCmd_fixed, State.advanceDone_fixed]
theorem State.coreFence_fixed : ∀ a0 a1 a2 a3 a4, (State.coreFence a0 a1 a2 a3 a4).fixed = a0.fixed := by
  intro a0 a1 a2 a3 a4; unfold State.coreFence; grind only [State.fixed, foldl_fixed, foldl_fst_fixed,
      State.signalFence_fixed, State.coreAns_fixed]
theorem State.loadGroup_fixed : ∀ a0 a1 a2 a3, (State.loadGroup a0 a1 a2 a3).1.fixed = a0.fixed := by
  intro a0 a1 a2 a3; unfold State.loadGroup; grind only [State.fixed, foldl_fixed, foldl_fst_fixed, State.readPieces_fixed]
theorem State.collStart_fixed : ∀ a0 a1 a2 a3, (State.collStart a0 a1 a2 a3).fixed = a0.fixed := by
  intro a0 a1 a2 a3; unfold State.collStart; grind only [State.fixed, foldl_fixed, foldl_fst_fixed, State.raise_fixed,
      State.reportRefused_fixed, State.loadGroup_fixed]
theorem State.collPart_fixed : ∀ a0 a1 a2 a3 a4, (State.collPart a0 a1 a2 a3 a4).1.fixed = a0.fixed := by
  intro a0 a1 a2 a3 a4; unfold State.collPart; grind only [State.fixed, foldl_fixed, foldl_fst_fixed,
      State.statIf_fixed, State.getLines_fixed, State.collResidue_fixed, State.collFail_fixed]
theorem State.collLocal_fixed : ∀ a0 a1 a2, (State.collLocal a0 a1 a2).1.fixed = a0.fixed := by
  intro a0 a1 a2; unfold State.collLocal; grind only [State.fixed, foldl_fixed, foldl_fst_fixed,
      State.collResidue_fixed, State.collPart_fixed]
theorem State.collPlace_fixed : ∀ a0 a1 a2 a3 a4, (State.collPlace a0 a1 a2 a3 a4).1.fixed = a0.fixed := by
  intro a0 a1 a2 a3 a4; unfold State.collPlace; grind only [State.fixed, foldl_fixed, foldl_fst_fixed, State.collWrite_fixed]
theorem State.collFeed_fixed : ∀ a0 a1 a2, (State.collFeed a0 a1 a2).1.fixed = a0.fixed := by
  intro a0 a1 a2; unfold State.collFeed; grind only [State.fixed, foldl_fixed, foldl_fst_fixed, State.collLocal_fixed,
      State.collPlace_fixed]
theorem State.collGrantAll_fixed : ∀ a0 a1, (State.collGrantAll a0 a1).1.fixed = a0.fixed := by
  intro a0 a1; unfold State.collGrantAll; grind only [State.fixed, foldl_fixed, foldl_fst_fixed, State.fabSend_fixed,
      State.putColl_fixed]
theorem State.collAdvanceAll_fixed : ∀ a0 a1 a2 a3, (State.collAdvanceAll a0 a1 a2 a3).fixed = a0.fixed := by
  intro a0 a1 a2 a3; fun_induction State.collAdvanceAll a0 a1 a2 a3 <;> grind [State.fixed, foldl_fixed,
      foldl_fst_fixed, State.collAdvance_fixed]
theorem State.collFlushOf_fixed : ∀ a0 a1 a2, (State.collFlushOf a0 a1 a2).fixed = a0.fixed := by
  intro a0 a1 a2; unfold State.collFlushOf; grind only [State.fixed, foldl_fixed, foldl_fst_fixed, State.collFlush_fixed]
theorem State.collRun_fixed : ∀ a0 a1, (State.collRun a0 a1).fixed = a0.fixed := by
  intro a0 a1; unfold State.collRun; grind only [State.fixed, foldl_fixed, foldl_fst_fixed, State.putColl_fixed,
      State.collFeed_fixed, State.collGrantAll_fixed, State.collAdvanceAll_fixed, State.collFlushOf_fixed]
theorem State.collBegin_fixed : ∀ a0 a1, (State.collBegin a0 a1).1.fixed = a0.fixed := by
  intros; rfl
theorem State.takeColl_fixed (s : State) (ok : FPkt → Bool) (f : State → FPkt → State)
    (h : ∀ s p, (f s p).fixed = s.fixed) : (State.takeColl s ok f).fixed = s.fixed := by
  unfold State.takeColl; grind [State.fixed]
theorem State.collValue_fixed : ∀ a0 a1 a2, (State.collValue a0 a1 a2).1.fixed = a0.fixed := by
  intro a0 a1 a2; unfold State.collValue; grind only [State.fixed, foldl_fixed, foldl_fst_fixed, State.statIf_fixed,
      State.collResidue_fixed]
theorem State.collData_fixed : ∀ a0 a1 a2 a3 a4, (State.collData a0 a1 a2 a3 a4).fixed = a0.fixed := by
  intro a0 a1 a2 a3 a4; unfold State.collData; grind only [State.fixed, foldl_fixed, foldl_fst_fixed,
      State.putColl_fixed, State.collFlush_fixed, State.collConsume_fixed, State.collPlace_fixed]
theorem State.noticeDrop_fixed : ∀ a0 a1, (State.noticeDrop a0 a1).fixed = a0.fixed := by
  intros; rfl
theorem State.slabField_fixed : ∀ a0 a1 a2 a3 a4, (State.slabField a0 a1 a2 a3 a4).fixed = a0.fixed := by
  intro a0 a1 a2 a3 a4; unfold State.slabField; grind only [State.fixed, foldl_fixed, foldl_fst_fixed,
      State.getLines_fixed, State.putLines_fixed]
theorem State.groupRecord_fixed : ∀ a0 a1 a2, (State.groupRecord a0 a1 a2).fixed = a0.fixed := by
  intro a0 a1 a2; unfold State.groupRecord; grind only [State.fixed, foldl_fixed, foldl_fst_fixed, State.command_fixed,
      State.slabField_fixed]
theorem State.skelistUdp_fixed : ∀ a0 a1 a2 a3, (State.skelistUdp a0 a1 a2 a3).fixed = a0.fixed := by
  intro a0 a1 a2 a3; unfold State.skelistUdp; grind only [State.fixed, foldl_fixed, foldl_fst_fixed, State.receiveMsg_fixed]
theorem State.submitMailbox_fixed : ∀ a0 a1, (State.submitMailbox a0 a1).fixed = a0.fixed := by
  intro a0 a1; unfold State.submitMailbox; grind only [State.fixed, foldl_fixed, foldl_fst_fixed, State.onCore_fixed,
      State.reply_fixed, State.accept_fixed, State.dropMsg_fixed]
theorem State.ethOut_fixed : ∀ a0 a1, (State.ethOut a0 a1).fixed = a0.fixed := by
  intros; rfl
theorem State.ethSend_fixed : ∀ a0 a1 a2, (State.ethSend a0 a1 a2).fixed = a0.fixed := by
  intro a0 a1 a2; unfold State.ethSend; grind only [State.fixed, foldl_fixed, foldl_fst_fixed, State.ethOut_fixed]
theorem State.ethRelease_fixed : ∀ a0, (State.ethRelease a0).fixed = a0.fixed := by
  intro a0; unfold State.ethRelease; grind only [State.fixed, foldl_fixed, foldl_fst_fixed, State.count_fixed,
      State.ethOut_fixed]
theorem State.pfcSend_fixed : ∀ a0 a1 a2, (State.pfcSend a0 a1 a2).fixed = a0.fixed := by
  intros; rfl
theorem State.pfcBuffers_fixed : ∀ a0 a1, (State.pfcBuffers a0 a1).fixed = a0.fixed := by
  intro a0 a1; unfold State.pfcBuffers; grind only [State.fixed, foldl_fixed, foldl_fst_fixed, State.pfcSend_fixed]
theorem State.ethDrop_fixed : ∀ a0 a1, (State.ethDrop a0 a1).fixed = a0.fixed := by
  intros; rfl
theorem State.ipSend_fixed : ∀ a0 a1 a2 a3 a4 a5 a6 a7, (State.ipSend a0 a1 a2 a3 a4 a5 a6 a7).fixed = a0.fixed := by
  intro a0 a1 a2 a3 a4 a5 a6 a7; unfold State.ipSend; grind only [State.fixed, foldl_fixed, foldl_fst_fixed,
      State.fresh_fixed, State.ethSend_fixed]
theorem State.routerAdv_fixed : ∀ a0 a1 a2, (State.routerAdv a0 a1 a2).fixed = a0.fixed := by
  intro a0 a1 a2; fun_induction State.routerAdv a0 a1 a2 <;> grind [State.fixed, foldl_fixed, foldl_fst_fixed]
theorem State.dhcpSend_fixed : ∀ a0 a1 a2 a3, (State.dhcpSend a0 a1 a2 a3).fixed = a0.fixed := by
  intro a0 a1 a2 a3; unfold State.dhcpSend; grind only [State.fixed, foldl_fixed, foldl_fst_fixed, State.ipSend_fixed]
theorem State.dhcpStart_fixed : ∀ a0, (State.dhcpStart a0).fixed = a0.fixed := by
  intro a0; unfold State.dhcpStart; grind only [State.fixed, foldl_fixed, foldl_fst_fixed, State.fresh_fixed,
      State.dhcpSend_fixed]
theorem State.dhcpIn_fixed : ∀ a0 a1, (State.dhcpIn a0 a1).fixed = a0.fixed := by
  intro a0 a1; unfold State.dhcpIn; grind only [State.fixed, foldl_fixed, foldl_fst_fixed, State.dhcpSend_fixed,
      State.dhcpStart_fixed]
theorem State.ethIcmp_fixed : ∀ a0 a1 a2, (State.ethIcmp a0 a1 a2).fixed = a0.fixed := by
  intro a0 a1 a2; unfold State.ethIcmp; grind only [State.fixed, foldl_fixed, foldl_fst_fixed, State.ipSend_fixed,
      State.routerAdv_fixed]
theorem State.ethArp_fixed : ∀ a0 a1, (State.ethArp a0 a1).fixed = a0.fixed := by
  intro a0 a1; unfold State.ethArp; grind only [State.fixed, foldl_fixed, foldl_fst_fixed, State.ethSend_fixed]
theorem State.fqFill_fixed : ∀ a0 a1 a2 a3, (State.fqFill a0 a1 a2 a3).1.fixed = a0.fixed := by
  intro a0 a1 a2 a3; unfold State.fqFill; grind only [State.fixed, foldl_fixed, foldl_fst_fixed, State.onCore_fixed,
      State.writePieces_fixed, State.reportRefused_fixed]
theorem State.ethUdp_fixed : ∀ a0 a1 a2, (State.ethUdp a0 a1 a2).fixed = a0.fixed := by
  intro a0 a1 a2; unfold State.ethUdp; grind only [State.fixed, foldl_fixed, foldl_fst_fixed, State.ethDrop_fixed,
      State.fqFill_fixed]
theorem State.txOne_fixed : ∀ a0 a1 a2, (State.txOne a0 a1 a2).fixed = a0.fixed := by
  intro a0 a1 a2; unfold State.txOne; grind only [State.fixed, foldl_fixed, foldl_fst_fixed, State.onCore_fixed,
      State.readPieces_fixed, State.reportRefused_fixed, State.ethSend_fixed, State.ethDrop_fixed]
theorem State.txPump_fixed : ∀ a0 a1 a2 a3, (State.txPump a0 a1 a2 a3).fixed = a0.fixed := by
  intro a0 a1 a2 a3; fun_induction State.txPump a0 a1 a2 a3 <;> grind [State.fixed, foldl_fixed, foldl_fst_fixed,
      State.txOne_fixed]
theorem State.txPumpAll_fixed : ∀ a0, (State.txPumpAll a0).fixed = a0.fixed := by
  intro a0; unfold State.txPumpAll; grind only [State.fixed, foldl_fixed, foldl_fst_fixed, State.txPump_fixed]
theorem State.ethResume_fixed : ∀ a0, (State.ethResume a0).fixed = a0.fixed := by
  intro a0; unfold State.ethResume; grind only [State.fixed, foldl_fixed, foldl_fst_fixed, State.ethRelease_fixed,
      State.txPumpAll_fixed]
theorem State.fqTxTail_fixed : ∀ a0 a1 a2 a3, (State.fqTxTail a0 a1 a2 a3).fixed = a0.fixed := by
  intro a0 a1 a2 a3; unfold State.fqTxTail; grind only [State.fixed, foldl_fixed, foldl_fst_fixed, State.onCore_fixed,
      State.txPump_fixed]
theorem State.fqRxTail_fixed : ∀ a0 a1 a2, (State.fqRxTail a0 a1 a2).fixed = a0.fixed := by
  intros; rfl
theorem State.fqPort_fixed : ∀ a0 a1 a2 a3 a4, (State.fqPort a0 a1 a2 a3 a4).fixed = a0.fixed := by
  intros; rfl
theorem State.rdmaNak_fixed : ∀ a0 a1 a2 a3, (State.rdmaNak a0 a1 a2 a3).fixed = a0.fixed := by
  intro a0 a1 a2 a3; unfold State.rdmaNak; grind only [State.fixed, foldl_fixed, foldl_fst_fixed, State.count_fixed,
      State.answer_fixed]
theorem State.rdmaConn_fixed (s : State) (q : Nat) (f : State → Conn → State)
    (h : ∀ s k, (f s k).fixed = s.fixed) : (State.rdmaConn s q f).fixed = s.fixed := by
  unfold State.rdmaConn; grind [State.fixed]
theorem State.setConn_fixed : ∀ a0 a1 a2, (State.setConn a0 a1 a2).fixed = a0.fixed := by
  intros; rfl
theorem State.cnpIn_fixed : ∀ a0 a1 a2, (State.cnpIn a0 a1 a2).fixed = a0.fixed := by
  intros; rfl
theorem State.congested_fixed : ∀ a0 a1 a2, (State.congested a0 a1 a2).fixed = a0.fixed := by
  intro a0 a1 a2; unfold State.congested; grind only [State.fixed, foldl_fixed, foldl_fst_fixed, State.count_fixed,
      State.setConn_fixed]
theorem State.roce_fixed : ∀ a0 a1, (State.roce a0 a1).fixed = a0.fixed := by
  intro a0 a1; unfold State.roce; (repeat (first | with_reducible refine State.rdmaConn_fixed _ _ _ (fun s k => ?_)))
  all_goals grind [State.fixed, foldl_fixed, foldl_fst_fixed, State.rdmaNak_fixed, State.cnpIn_fixed, State.congested_fixed]
theorem State.ethUdpIn_fixed : ∀ a0 a1 a2, (State.ethUdpIn a0 a1 a2).fixed = a0.fixed := by
  intro a0 a1 a2; unfold State.ethUdpIn; grind only [State.fixed, foldl_fixed, foldl_fst_fixed, State.skelistUdp_fixed,
      State.dhcpIn_fixed, State.ethUdp_fixed, State.roce_fixed]
theorem State.ethFrame_fixed : ∀ a0 a1, (State.ethFrame a0 a1).fixed = a0.fixed := by
  intro a0 a1; unfold State.ethFrame; dsimp only; (repeat' split)
  all_goals (first | rfl | simp only [foldl_fixed, foldl_fst_fixed, State.count_fixed, State.ethDrop_fixed,
      State.ethIcmp_fixed, State.ethArp_fixed, State.ethUdpIn_fixed])
theorem State.writeUse_fixed : ∀ a0 a1, (State.writeUse a0 a1).fixed = a0.fixed := by
  intros; rfl
theorem State.leaveService_fixed : ∀ a0 a1 a2, (State.leaveService a0 a1 a2).fixed = a0.fixed := by
  intro a0 a1 a2; unfold State.leaveService; grind only [State.fixed, foldl_fixed, foldl_fst_fixed, State.raise_fixed,
      State.onPort_fixed, State.portGo_fixed, State.discard_fixed]
theorem State.enterService_fixed : ∀ a0 a1 a2 a3 a4, (State.enterService a0 a1 a2 a3 a4).fixed = a0.fixed := by
  intro a0 a1 a2 a3 a4; unfold State.enterService; grind only [State.fixed, foldl_fixed, foldl_fst_fixed,
      State.raise_fixed, State.onPort_fixed, State.portGo_fixed]
theorem State.cachedStore_fixed : ∀ a0 a1 a2 a3 a4, (State.cachedStore a0 a1 a2 a3 a4).fixed = a0.fixed := by
  intro a0 a1 a2 a3 a4; unfold State.cachedStore; grind only [State.fixed, foldl_fixed, foldl_fst_fixed, State.onCore_fixed]
theorem State.cacheMay_fixed : ∀ a0 a1 a2, (State.cacheMay a0 a1 a2).fixed = a0.fixed := by
  intro a0 a1 a2; unfold State.cacheMay; grind only [State.fixed, foldl_fixed, foldl_fst_fixed, State.fresh_fixed,
      State.cacheFlush_fixed]
theorem State.cachedLoad_fixed : ∀ a0 a1 a2 a3 a4 a5, (State.cachedLoad a0 a1 a2 a3 a4 a5).1.fixed = a0.fixed := by
  intro a0 a1 a2 a3 a4 a5; unfold State.cachedLoad; grind only [State.fixed, foldl_fixed, foldl_fst_fixed,
      State.onCore_fixed, State.readPieces_fixed]
theorem State.coreSlab_fixed : ∀ a0 a1 a2 a3 a4 a5 a6 a7, (State.coreSlab a0 a1 a2 a3 a4 a5 a6 a7).fixed = a0.fixed := by
  intro a0 a1 a2 a3 a4 a5 a6 a7; unfold State.coreSlab; grind only [State.fixed, foldl_fixed, foldl_fst_fixed,
      State.readPieces_fixed, State.writePieces_fixed, State.reportRefused_fixed, State.coreAns_fixed,
      State.cachedStore_fixed, State.cacheMay_fixed, State.cachedLoad_fixed]
theorem State.coreReg_fixed (s : State) (c o n size image : Nat) (w : Bool) (v : Nat) (f : State → Nat → State)
    (h : ∀ s v, (f s v).fixed = s.fixed) : (State.coreReg s c o n size image w v f).fixed = s.fixed := by
  unfold State.coreReg; grind [State.fixed, State.coreAns_fixed]
theorem State.writeWatch_fixed : ∀ a0 a1 a2 a3 a4, (State.writeWatch a0 a1 a2 a3 a4).fixed = a0.fixed := by
  intros; rfl
theorem State.writeMbCtl_fixed : ∀ a0 a1 a2, (State.writeMbCtl a0 a1 a2).fixed = a0.fixed := by
  intro a0 a1 a2; unfold State.writeMbCtl; grind only [State.fixed, foldl_fixed, foldl_fst_fixed, State.onCore_fixed,
      State.submitMailbox_fixed]
theorem State.coreMailbox_fixed : ∀ a0 a1 a2 a3 a4 a5, (State.coreMailbox a0 a1 a2 a3 a4 a5).fixed = a0.fixed := by
  intro a0 a1 a2 a3 a4 a5; unfold State.coreMailbox; dsimp only
  (repeat' (first | refine State.coreReg_fixed _ _ _ _ _ _ _ _ _ (fun s v => ?_) | split))
  all_goals grind [State.fixed, foldl_fixed, foldl_fst_fixed, State.onCore_fixed, State.reply_fixed,
      State.coreAns_fixed, State.writeMbCtl_fixed]
theorem State.coreFrames_fixed : ∀ a0 a1 a2 a3 a4 a5 a6, (State.coreFrames a0 a1 a2 a3 a4 a5 a6).fixed = a0.fixed := by
  intro a0 a1 a2 a3 a4 a5 a6; unfold State.coreFrames; dsimp only
  (repeat' (first | refine State.coreReg_fixed _ _ _ _ _ _ _ _ _ (fun s v => ?_) | split))
  all_goals grind [State.fixed, foldl_fixed, foldl_fst_fixed, State.onCore_fixed, State.doorbell_fixed,
      State.fqTxTail_fixed, State.fqRxTail_fixed, State.fqPort_fixed, State.coreAns_fixed]
theorem State.coreDoorbell_fixed : ∀ s f c o n w v, (State.coreDoorbell s f c o n w v).fixed = s.fixed := by
  intros; unfold State.coreDoorbell; split
  · exact State.coreAns_fixed _ _ _
  · split
    · split
      · rw [State.coreAns_fixed, State.doorbell_fixed]
      · exact State.coreAns_fixed _ _ _
    · exact State.coreReg_fixed _ _ _ _ _ _ _ _ _ (fun _ _ => rfl)
theorem State.coreFenceAt_fixed : ∀ a0 a1 a2 a3 a4 a5 a6 a7,
      (State.coreFenceAt a0 a1 a2 a3 a4 a5 a6 a7).fixed = a0.fixed := by
  intro a0 a1 a2 a3 a4 a5 a6 a7; unfold State.coreFenceAt; grind only [State.fixed, foldl_fixed, foldl_fst_fixed,
      State.signalFence_fixed, State.coreAns_fixed]
theorem State.coreTime_fixed : ∀ a0 a1 a2 a3 a4 a5, (State.coreTime a0 a1 a2 a3 a4 a5).fixed = a0.fixed := by
  intro a0 a1 a2 a3 a4 a5; unfold State.coreTime; (repeat (first | refine State.coreReg_fixed _ _ _ _ _ _ _ _ _ (fun s v => ?_))); all_goals grind [State.fixed, foldl_fixed, foldl_fst_fixed]
theorem State.coreAccess_fixed : ∀ a0 a1 a2 a3 a4 a5 a6, (State.coreAccess a0 a1 a2 a3 a4 a5 a6).fixed = a0.fixed := by
  intro a0 a1 a2 a3 a4 a5 a6; unfold State.coreAccess; dsimp only
  (repeat' (first | with_reducible refine State.coreReg_fixed _ _ _ _ _ _ _ _ _ (fun s v => ?_) | split))
  all_goals grind [State.fixed, foldl_fixed, foldl_fst_fixed, State.coreAns_fixed, State.coreSlab_fixed,
      State.writeWatch_fixed, State.coreMailbox_fixed, State.coreFrames_fixed, State.coreDoorbell_fixed,
      State.coreFenceAt_fixed, State.coreTime_fixed]
theorem State.onPflag_fixed : ∀ a0 a1 a2, (State.onPflag a0 a1 a2).fixed = a0.fixed := by
  intros; rfl
theorem State.endTransition_fixed : ∀ a0 a1 a2, (State.endTransition a0 a1 a2).fixed = a0.fixed := by
  intro a0 a1 a2; unfold State.endTransition; grind only [State.fixed, foldl_fixed, foldl_fst_fixed, State.reply_fixed,
      State.onPflag_fixed]
theorem State.loadImage_fixed : ∀ a0 a1 a2, (State.loadImage a0 a1 a2).fixed = a0.fixed := by
  intro a0 a1 a2; unfold State.loadImage; grind only [State.fixed, foldl_fixed, foldl_fst_fixed, State.onTile_fixed,
      State.seqGoto_fixed]
theorem State.setPattern_fixed : ∀ a0 a1 a2 a3, (State.setPattern a0 a1 a2 a3).fixed = a0.fixed := by
  intro a0 a1 a2 a3; unfold State.setPattern; grind only [State.fixed, foldl_fixed, foldl_fst_fixed,
      State.onTile_fixed, State.onFn_fixed]
theorem State.countTrace_fixed : ∀ a0 a1 a2, (State.countTrace a0 a1 a2).fixed = a0.fixed := by
  intro a0 a1 a2; unfold State.countTrace; grind only [State.fixed, foldl_fixed, foldl_fst_fixed, State.count_fixed]
theorem State.traceWrite_fixed : ∀ a0 a1 a2 a3, (State.traceWrite a0 a1 a2 a3).1.fixed = a0.fixed := by
  intro a0 a1 a2 a3; unfold State.traceWrite; grind only [State.fixed, foldl_fixed, foldl_fst_fixed, State.writePieces_fixed]
theorem State.traceRecord_fixed : ∀ a0 a1 a2, (State.traceRecord a0 a1 a2).fixed = a0.fixed := by
  intro a0 a1 a2; unfold State.traceRecord; grind only [State.fixed, foldl_fixed, foldl_fst_fixed, State.onFn_fixed,
      State.count_fixed, State.raise_fixed, State.countTrace_fixed, State.traceWrite_fixed]
theorem State.traceGrams_fixed : ∀ a0 a1 a2 a3, (State.traceGrams a0 a1 a2 a3).fixed = a0.fixed := by
  intro a0 a1 a2 a3; fun_induction State.traceGrams a0 a1 a2 a3 <;> grind [State.fixed, foldl_fixed, foldl_fst_fixed,
      State.onFn_fixed, State.count_fixed, State.countTrace_fixed]
theorem State.traceFlush_fixed : ∀ a0 a1, (State.traceFlush a0 a1).fixed = a0.fixed := by
  intro a0 a1; unfold State.traceFlush; grind only [State.fixed, foldl_fixed, foldl_fst_fixed, State.onFn_fixed,
      State.raise_fixed, State.traceWrite_fixed, State.traceRecord_fixed, State.traceGrams_fixed]
theorem State.clearStat_fixed : ∀ a0 a1 a2 a3, (State.clearStat a0 a1 a2 a3).fixed = a0.fixed := by
  intro a0 a1 a2 a3; unfold State.clearStat; grind only [State.fixed, foldl_fixed, foldl_fst_fixed, State.setStat_fixed]
theorem State.writeLnkSys_fixed : ∀ a0 a1, (State.writeLnkSys a0 a1).fixed = a0.fixed := by
  intros; rfl
theorem State.writeReg_fixed : ∀ a0 a1 a2, (State.writeReg a0 a1 a2).fixed = a0.fixed := by
  intro a0 a1 a2; unfold State.writeReg; (repeat (first | with_reducible refine State.command_fixed _ _ _ (fun s r => ?_))); all_goals grind [State.fixed, foldl_fixed, foldl_fst_fixed, State.setFence_fixed, State.onTile_fixed, State.onSlab_fixed, State.onFn_fixed, State.onRing_fixed, State.writeErrCtl_fixed, State.clearErr_fixed, State.doorbell_fixed, State.writeWatch_fixed, State.writeMbCtl_fixed, State.clearStat_fixed, State.writeLnkSys_fixed]
theorem State.chainDrop_fixed : ∀ a0 a1, (State.chainDrop a0 a1).fixed = a0.fixed := by
  intro a0 a1; unfold State.chainDrop; grind only [State.fixed, foldl_fixed, foldl_fst_fixed, State.count_fixed,
      State.raise_fixed]
theorem State.chainForward_fixed : ∀ a0 a1, (State.chainForward a0 a1).fixed = a0.fixed := by
  intros; rfl
theorem State.takeFrame_fixed (s : State) (ok : List Byte → Bool) (f : State → List Byte → State)
    (h : ∀ s b, (f s b).fixed = s.fixed) : (State.takeFrame s ok f).fixed = s.fixed := by
  unfold State.takeFrame; grind [State.fixed]
theorem State.chainReply_fixed : ∀ a0 a1 a2, (State.chainReply a0 a1 a2).fixed = a0.fixed := by
  intro a0 a1 a2; unfold State.chainReply; grind only [State.fixed, foldl_fixed, foldl_fst_fixed, State.chainOwn_fixed]
theorem State.boardWarn_fixed : ∀ a0 a1 a2, (State.boardWarn a0 a1 a2).fixed = a0.fixed := by
  intro a0 a1 a2; unfold State.boardWarn; dsimp only; (repeat (first | refine State.pwrStep_fixed _ _ (fun s => ?_) | refine State.takeFrame_fixed _ _ _ (fun s b => ?_) | split)); all_goals grind [State.fixed, foldl_fixed, foldl_fst_fixed]
theorem State.chainRefuse_fixed : ∀ a0 a1, (State.chainRefuse a0 a1).fixed = a0.fixed := by
  intro a0 a1; unfold State.chainRefuse; grind only [State.fixed, foldl_fixed, foldl_fst_fixed, State.reply_fixed,
      State.command_fixed, State.answer_fixed]
theorem State.tackEvent_fixed : ∀ a0 a1, (State.tackEvent a0 a1).fixed = a0.fixed := by
  intro a0 a1; unfold State.tackEvent; grind only [State.fixed, foldl_fixed, foldl_fst_fixed, State.event_fixed]
theorem State.replayLog_fixed : ∀ a0 a1 a2, (State.replayLog a0 a1 a2).fixed = a0.fixed := by
  intro a0 a1 a2; unfold State.replayLog; grind only [State.fixed, foldl_fixed, foldl_fst_fixed, State.forward_fixed]
theorem State.resumeTack_fixed : ∀ a0, (State.resumeTack a0).fixed = a0.fixed := by
  intro a0; unfold State.resumeTack; grind only [State.fixed, foldl_fixed, foldl_fst_fixed, State.onTile_fixed,
      State.reply_fixed, State.tackEvent_fixed, State.replayLog_fixed]
theorem State.askResume_fixed : ∀ a0, (State.askResume a0).fixed = a0.fixed := by
  intro a0; unfold State.askResume; grind only [State.fixed, foldl_fixed, foldl_fst_fixed, State.resumeTack_fixed]

/-- Raising FLOOR changes the fuses alone. -/
theorem State.raiseFloor_fixed (s t : State) (k : Nat) (h : s.fixed = t.fixed) :
    (s.raiseFloor k).fixed = (t.raiseFloor k).fixed := by
  simp only [State.fixed, Prod.mk.injEq] at h
  simp [State.fixed, State.raiseFloor, h]

theorem State.raiseFloor_zero (s : State) : (s.raiseFloor 0).fixed = s.fixed := by
  simp [State.fixed, State.raiseFloor]

theorem State.commitSlot_fixed (s : State) (n : Nat) : ∃ k, (s.commitSlot n).fixed = (s.raiseFloor k).fixed := by
  refine ⟨_, State.raiseFloor_fixed _ _ _ ?_⟩
  rw [State.onSlot_fixed, State.onSlot_fixed]

theorem State.takeSig_fixed (s : State) : s.takeSig.fixed =
    ({ s with flash := { s.flash with sigBlock := if s.boot.nextSig / 4096 ≥ s.flash.sigBlock then s.boot.nextSig / 4096 + 1
                                                  else s.flash.sigBlock },
              boot := { s.boot with nextSig := s.boot.nextSig + 1 } } : State).fixed := by
  unfold State.takeSig; split <;> rfl

/-- What order 5 changes of the kept fields: the boot epoch and the next signature. -/
def State.firmwareUp (s : State) : State :=
  { s with thm := { s.thm with bootEpoch := s.thm.bootEpoch + 1 }, boot := { s.boot with nextSig := s.flash.sigBlock * 4096 } }

theorem State.bootFirmware_fixed (s : State) : s.bootFirmware.fixed = s.firmwareUp.fixed := by
  unfold State.bootFirmware
  rw [foldl_fixed _ (fun s l => State.setHalves_fixed _ _ _ _), foldl_fixed _ (fun s p => ?_),
    foldl_fixed _ (fun s t => State.setTile_fixed _ _ _)]
  · rfl
  · dsimp only; split <;> rfl

theorem State.bootFinish_fixed (s : State) (o : Bool) : ∃ k, (s.bootFinish o).fixed = (s.raiseFloor k).fixed := by
  unfold State.bootFinish
  simp only [State.boardEvent_fixed, State.startServices_fixed, State.trainAll_fixed]
  split
  · exact State.commitSlot_fixed s _
  · exact ⟨0, (State.raiseFloor_zero s).symm⟩

/-- Reset to factory keys (BOOT_MODE 2): what it changes of the kept fields. -/
def State.factoryKeys (s : State) : State :=
  { s with thm := { s.thm with opKey := none }, flash := { s.flash with tag := s.flash.tag.modify 0 6 (· &&& 0xFE) } }

theorem State.firmwareUp_congr (s t : State) (h : s.fixed = t.fixed) : s.firmwareUp.fixed = t.firmwareUp.fixed := by
  simp only [State.fixed, Prod.mk.injEq] at h
  simp [State.fixed, State.firmwareUp, h]

theorem State.factoryKeys_congr (s t : State) (h : s.fixed = t.fixed) : s.factoryKeys.fixed = t.factoryKeys.fixed := by
  simp only [State.fixed, Prod.mk.injEq] at h
  simp [State.fixed, State.factoryKeys, h]

theorem State.recover_fixed (s : State) (m : Nat) :
    (s.recover m).fixed = (if m = 2 then s.factoryKeys else s).fixed := by
  unfold State.recover; split <;> rfl

/-- A boot halts before order 4 with nothing of these changed, or at order 4 with the keys that RECOVERY leaves, or firmware
starts with them, and FLOOR may rise. -/
theorem State.bootRun_fixed (s : State) (m : Nat) (x : SelfTest) : (s.bootRun m x).fixed = s.fixed ∨
    (s.bootRun m x).fixed = (if m = 2 then s.factoryKeys else s).fixed ∨
    ∃ k, (s.bootRun m x).fixed = ((if m = 2 then s.factoryKeys else s).firmwareUp.raiseFloor k).fixed := by
  unfold State.bootRun; dsimp only
  split
  · exact .inl rfl
  · split
    · exact .inl rfl
    · right
      have hp : (State.pickSlot (State.recover { s with boot := { s.boot with order := 3, mode := m, modeBad := decide (m = 3) } } m)
          (decide (m = 1))).1.fixed = (if m = 2 then s.factoryKeys else s).fixed := by
        rw [State.pickSlot_fixed, State.recover_fixed]; split <;> rfl
      revert hp
      generalize State.pickSlot _ _ = p
      obtain ⟨s1, pick⟩ := p
      intro h1
      dsimp only at h1
      cases pick with
      | none => exact .inl (by rw [← h1]; rfl)
      | some n =>
        have hk : ({ s1 with boot := { s1.boot with slot := n } }.bootFirmware).fixed =
            (if m = 2 then s.factoryKeys else s).firmwareUp.fixed := by
          rw [State.bootFirmware_fixed]
          exact State.firmwareUp_congr _ _ h1
        right
        cases hu : x.unitFail with
        | some b =>
          simp only [State.haltBoot_fixed]
          exact ⟨0, hk.trans (State.raiseFloor_zero _).symm⟩
        | none =>
          obtain ⟨k, h⟩ := State.bootFinish_fixed (({ s1 with boot := { s1.boot with slot := n } }.bootFirmware).selfTest x) (!x.noOscillator)
          refine ⟨k, h.trans (State.raiseFloor_fixed _ _ _ ?_)⟩
          rw [State.selfTest_fixed]; exact hk

end Sys2Proof.Machine
end

