-- ==== Sys2Proof/Laws/KeptCommands.lean ====
section
/-! SUPPORT. Commands keep the same fields, but for those that the spec lets change one. -/

namespace Sys2Proof.Machine

theorem execAluAdd_fixed : ∀ a0 a1 a2 a3 a4, NextFixed (execAluAdd a0 a1 a2 a3 a4) a4 := by
  intros; refine ⟨_, rfl, ?_⟩; (simp only [aluOp_fixed]; done)
theorem execAluSub_fixed : ∀ a0 a1 a2 a3 a4, NextFixed (execAluSub a0 a1 a2 a3 a4) a4 := by
  intros; refine ⟨_, rfl, ?_⟩; (simp only [aluOp_fixed]; done)
theorem execAluAnd_fixed : ∀ a0 a1 a2 a3 a4, NextFixed (execAluAnd a0 a1 a2 a3 a4) a4 := by
  intros; refine ⟨_, rfl, ?_⟩; (simp only [aluOp_fixed]; done)
theorem execAluOr_fixed : ∀ a0 a1 a2 a3 a4, NextFixed (execAluOr a0 a1 a2 a3 a4) a4 := by
  intros; refine ⟨_, rfl, ?_⟩; (simp only [aluOp_fixed]; done)
theorem execAluXor_fixed : ∀ a0 a1 a2 a3 a4, NextFixed (execAluXor a0 a1 a2 a3 a4) a4 := by
  intros; refine ⟨_, rfl, ?_⟩; (simp only [aluOp_fixed]; done)
theorem execAluSll_fixed : ∀ a0 a1 a2 a3 a4, NextFixed (execAluSll a0 a1 a2 a3 a4) a4 := by
  intros; refine ⟨_, rfl, ?_⟩; (simp only [aluOp_fixed]; done)
theorem execAluSrl_fixed : ∀ a0 a1 a2 a3 a4, NextFixed (execAluSrl a0 a1 a2 a3 a4) a4 := by
  intros; refine ⟨_, rfl, ?_⟩; (simp only [aluOp_fixed]; done)
theorem execAluSra_fixed : ∀ a0 a1 a2 a3 a4, NextFixed (execAluSra a0 a1 a2 a3 a4) a4 := by
  intros; refine ⟨_, rfl, ?_⟩; (simp only [aluOp_fixed]; done)
theorem execAluMul_fixed : ∀ a0 a1 a2 a3 a4, NextFixed (execAluMul a0 a1 a2 a3 a4) a4 := by
  intros; refine ⟨_, rfl, ?_⟩; (simp only [aluOp_fixed]; done)
theorem execAluMulhu_fixed : ∀ a0 a1 a2 a3 a4, NextFixed (execAluMulhu a0 a1 a2 a3 a4) a4 := by
  intros; refine ⟨_, rfl, ?_⟩; (simp only [aluOp_fixed]; done)
theorem execAluMulh_fixed : ∀ a0 a1 a2 a3 a4, NextFixed (execAluMulh a0 a1 a2 a3 a4) a4 := by
  intros; refine ⟨_, rfl, ?_⟩; (simp only [aluOp_fixed]; done)
theorem execAluSlt_fixed : ∀ a0 a1 a2 a3 a4, NextFixed (execAluSlt a0 a1 a2 a3 a4) a4 := by
  intros; refine ⟨_, rfl, ?_⟩; (simp only [aluOp_fixed]; done)
theorem execAluSltu_fixed : ∀ a0 a1 a2 a3 a4, NextFixed (execAluSltu a0 a1 a2 a3 a4) a4 := by
  intros; refine ⟨_, rfl, ?_⟩; (simp only [aluOp_fixed]; done)
theorem execAluMin_fixed : ∀ a0 a1 a2 a3 a4, NextFixed (execAluMin a0 a1 a2 a3 a4) a4 := by
  intros; refine ⟨_, rfl, ?_⟩; (simp only [aluOp_fixed]; done)
theorem execAluMax_fixed : ∀ a0 a1 a2 a3 a4, NextFixed (execAluMax a0 a1 a2 a3 a4) a4 := by
  intros; refine ⟨_, rfl, ?_⟩; (simp only [aluOp_fixed]; done)
theorem execAluSext32_fixed : ∀ a0 a1 a2 a3 a4, NextFixed (execAluSext32 a0 a1 a2 a3 a4) a4 := by
  intros; refine ⟨_, rfl, ?_⟩; (simp only [aluOp_fixed]; done)
theorem execAddi_fixed : ∀ a0 a1 a2, NextFixed (execAddi a0 a1 a2) a2 := by
  intros; refine ⟨_, rfl, ?_⟩; (simp only [immOp_fixed]; done)
theorem execAndi_fixed : ∀ a0 a1 a2, NextFixed (execAndi a0 a1 a2) a2 := by
  intros; refine ⟨_, rfl, ?_⟩; (simp only [immOp_fixed]; done)
theorem execOri_fixed : ∀ a0 a1 a2, NextFixed (execOri a0 a1 a2) a2 := by
  intros; refine ⟨_, rfl, ?_⟩; (simp only [immOp_fixed]; done)
theorem execXori_fixed : ∀ a0 a1 a2, NextFixed (execXori a0 a1 a2) a2 := by
  intros; refine ⟨_, rfl, ?_⟩; (simp only [immOp_fixed]; done)
theorem execSlti_fixed : ∀ a0 a1 a2, NextFixed (execSlti a0 a1 a2) a2 := by
  intros; refine ⟨_, rfl, ?_⟩; (simp only [immOp_fixed]; done)
theorem execLui_fixed : ∀ a0 a1 a2, NextFixed (execLui a0 a1 a2) a2 := by
  intros; refine ⟨_, rfl, ?_⟩; (simp only [immOp_fixed]; done)
theorem execShiSll_fixed : ∀ a0 a1 a2 a3 a4 a5, NextFixed (execShiSll a0 a1 a2 a3 a4 a5) a5 := by
  intros; refine ⟨_, rfl, ?_⟩; (simp only [shiOp_fixed]; done)
theorem execShiSrl_fixed : ∀ a0 a1 a2 a3 a4 a5, NextFixed (execShiSrl a0 a1 a2 a3 a4 a5) a5 := by
  intros; refine ⟨_, rfl, ?_⟩; (simp only [shiOp_fixed]; done)
theorem execShiSra_fixed : ∀ a0 a1 a2 a3 a4 a5, NextFixed (execShiSra a0 a1 a2 a3 a4 a5) a5 := by
  intros; refine ⟨_, rfl, ?_⟩; (simp only [shiOp_fixed]; done)
theorem execBeq_fixed : ∀ a0 a1 a2, NextFixed (execBeq a0 a1 a2) a2 := by
  intros; refine ⟨_, rfl, ?_⟩; (simp only [branchOp_fixed]; done)
theorem execBne_fixed : ∀ a0 a1 a2, NextFixed (execBne a0 a1 a2) a2 := by
  intros; refine ⟨_, rfl, ?_⟩; (simp only [branchOp_fixed]; done)
theorem execBlt_fixed : ∀ a0 a1 a2, NextFixed (execBlt a0 a1 a2) a2 := by
  intros; refine ⟨_, rfl, ?_⟩; (simp only [branchOp_fixed]; done)
theorem execBge_fixed : ∀ a0 a1 a2, NextFixed (execBge a0 a1 a2) a2 := by
  intros; refine ⟨_, rfl, ?_⟩; (simp only [branchOp_fixed]; done)
theorem execBltu_fixed : ∀ a0 a1 a2, NextFixed (execBltu a0 a1 a2) a2 := by
  intros; refine ⟨_, rfl, ?_⟩; (simp only [branchOp_fixed]; done)
theorem execBgeu_fixed : ∀ a0 a1 a2, NextFixed (execBgeu a0 a1 a2) a2 := by
  intros; refine ⟨_, rfl, ?_⟩; (simp only [branchOp_fixed]; done)
theorem execJal_fixed : ∀ a0 a1 a2 a3, NextFixed (execJal a0 a1 a2 a3) a3 := by
  intro a0 a1 a2 a3; refine ⟨_, rfl,
      ?_⟩; (repeat (first | with_reducible refine State.seqStep_fixed _ _ _ _ (fun s x => ?_)))
  all_goals grind [SeqOut.Keeps, State.fixed, foldl_fixed, foldl_fst_fixed, State.setTile_fixed]
theorem execJalr_fixed : ∀ a0 a1 a2, NextFixed (execJalr a0 a1 a2) a2 := by
  intro a0 a1 a2; refine ⟨_, rfl,
      ?_⟩; (repeat (first | with_reducible refine State.seqStep_fixed _ _ _ _ (fun s x => ?_)))
  all_goals grind [SeqOut.Keeps, State.fixed, foldl_fixed, foldl_fst_fixed, State.setTile_fixed]
theorem execLb_fixed : ∀ a0 a1 a2, NextFixed (execLb a0 a1 a2) a2 := by
  intros; refine ⟨_, rfl, ?_⟩; (simp only [loadOp_fixed]; done)
theorem execLh_fixed : ∀ a0 a1 a2, NextFixed (execLh a0 a1 a2) a2 := by
  intros; refine ⟨_, rfl, ?_⟩; (simp only [loadOp_fixed]; done)
theorem execLw_fixed : ∀ a0 a1 a2, NextFixed (execLw a0 a1 a2) a2 := by
  intros; refine ⟨_, rfl, ?_⟩; (simp only [loadOp_fixed]; done)
theorem execLd_fixed : ∀ a0 a1 a2, NextFixed (execLd a0 a1 a2) a2 := by
  intros; refine ⟨_, rfl, ?_⟩; (simp only [loadOp_fixed]; done)
theorem execSb_fixed : ∀ a0 a1 a2, NextFixed (execSb a0 a1 a2) a2 := by
  intros; refine ⟨_, rfl, ?_⟩; (simp only [storeOp_fixed]; done)
theorem execSh_fixed : ∀ a0 a1 a2, NextFixed (execSh a0 a1 a2) a2 := by
  intros; refine ⟨_, rfl, ?_⟩; (simp only [storeOp_fixed]; done)
theorem execSw_fixed : ∀ a0 a1 a2, NextFixed (execSw a0 a1 a2) a2 := by
  intros; refine ⟨_, rfl, ?_⟩; (simp only [storeOp_fixed]; done)
theorem execSd_fixed : ∀ a0 a1 a2, NextFixed (execSd a0 a1 a2) a2 := by
  intros; refine ⟨_, rfl, ?_⟩; (simp only [storeOp_fixed]; done)
theorem execSld_fixed : ∀ a0 a1 a2, NextFixed (execSld a0 a1 a2) a2 := by
  intro a0 a1 a2; refine ⟨_, rfl,
      ?_⟩; (repeat (first | with_reducible refine State.seqStep_fixed _ _ _ _ (fun s x => ?_)))
  all_goals grind [SeqOut.Keeps, State.fixed, foldl_fixed, foldl_fst_fixed, State.setTile_fixed,
      State.readPieces_fixed, State.reportRefused_fixed]
theorem execSst_fixed : ∀ a0 a1 a2, NextFixed (execSst a0 a1 a2) a2 := by
  intro a0 a1 a2; refine ⟨_, rfl,
      ?_⟩; (repeat (first | with_reducible refine State.seqStep_fixed _ _ _ _ (fun s x => ?_)))
  all_goals grind [SeqOut.Keeps, State.fixed, foldl_fixed, foldl_fst_fixed, State.writePieces_fixed,
      State.reportRefused_fixed]
theorem execDsw_fixed : ∀ a0 a1 a2, NextFixed (execDsw a0 a1 a2) a2 := by
  intro a0 a1 a2; refine ⟨_, rfl,
      ?_⟩; (repeat (first | with_reducible refine State.seqStep_fixed _ _ _ _ (fun s x => ?_)))
  all_goals grind [SeqOut.Keeps, State.fixed, foldl_fixed, foldl_fst_fixed, State.setTile_fixed]
theorem execDld_fixed : ∀ a0 a1 a2, NextFixed (execDld a0 a1 a2) a2 := by
  intro a0 a1 a2; refine ⟨_, rfl,
      ?_⟩; (repeat (first | with_reducible refine State.seqStep_fixed _ _ _ _ (fun s x => ?_)))
  all_goals grind [SeqOut.Keeps, State.fixed, foldl_fixed, foldl_fst_fixed, State.setTile_fixed]
theorem dissTry_keeps (t n : Nat) (s : State) (x : Tile) : (dissTry t n s x).Keeps s := by
  unfold dissTry; dsimp only; (repeat' split) <;> (simp only [SeqOut.Keeps, State.countT_fixed, State.setTile_fixed])
theorem execDiss_fixed (t : TileId) (f : IFields) (s : State) : NextFixed (execDiss t f s) s :=
  ⟨_, rfl, State.seqStep_fixed _ _ _ _ (dissTry_keeps _ _)⟩
theorem execDissQueueEntryFreed_fixed (t : TileId) (s : State) : NextFixed (execDissQueueEntryFreed t s) s := by
  refine ⟨_, rfl, State.seqResume_fixed _ _ _ (fun w g h => ?_)⟩
  cases w <;> simp at h; subst h; exact dissTry_keeps _ _
theorem msendTry_keeps (t n : Nat) (a b : W64) (s : State) (x : Tile) : (msendTry t n a b s x).Keeps s := by
  unfold msendTry; dsimp only; (repeat' split) <;> grind [SeqOut.Keeps, State.chSend_fixed, State.onTile_fixed]
theorem execMsend_fixed (t : TileId) (f : RFields) (s : State) : NextFixed (execMsend t f s) s :=
  ⟨_, rfl, State.seqStep_fixed _ _ _ _ (fun s x => msendTry_keeps _ _ _ _ s x)⟩
theorem execMsendCreditTaken_fixed (t : TileId) (s : State) : NextFixed (execMsendCreditTaken t s) s := by
  refine ⟨_, rfl, State.seqResume_fixed _ _ _ (fun w g h => ?_)⟩
  cases w <;> simp at h; subst h; exact msendTry_keeps _ _ _ _
theorem mrecvTry_keeps (t n : Nat) (rd : BitVec 5) (s : State) (x : Tile) : (mrecvTry t n rd s x).Keeps s := by
  unfold mrecvTry; dsimp only; (repeat' split) <;> (simp only [SeqOut.Keeps, State.setTile_fixed])
theorem execMrecv_fixed (t : TileId) (f : RFields) (s : State) : NextFixed (execMrecv t f s) s :=
  ⟨_, rfl, State.seqStep_fixed _ _ _ _ (mrecvTry_keeps _ _ _)⟩
theorem execMrecvMessageReturned_fixed (t : TileId) (s : State) : NextFixed (execMrecvMessageReturned t s) s := by
  refine ⟨_, rfl, State.seqResume_fixed _ _ _ (fun w g h => ?_)⟩
  cases w <;> simp at h; subst h; exact mrecvTry_keeps _ _ _
theorem execMtry_fixed (t : TileId) (f : RFields) (s : State) : NextFixed (execMtry t f s) s := by
  refine ⟨_, rfl, State.seqStep_fixed _ _ _ _ (fun s x => ?_)⟩
  have h := mrecvTry_keeps t f.fn.toNat f.rd s x
  split
  · exact State.setTile_fixed _ _ _
  · exact h
theorem sendGo_keeps (t n : Nat) (b : ChBody) (g : Endpoint → Endpoint) (s : State) (x : Tile) : (sendGo t n b g s x).Keeps s := by
  unfold sendGo; split <;> grind [SeqOut.Keeps, State.chSend_fixed, State.onTile_fixed]
theorem execMfree_fixed (t : TileId) (f : RFields) (s : State) : NextFixed (execMfree t f s) s := by
  refine ⟨_, rfl, State.seqStep_fixed _ _ _ _ (fun s x => ?_)⟩
  dsimp only; split
  · rfl
  · exact sendGo_keeps _ _ _ _ _ _
theorem execChcfg_fixed : ∀ a0 a1 a2, NextFixed (execChcfg a0 a1 a2) a2 := by
  intro a0 a1 a2; refine ⟨_, rfl,
      ?_⟩; (repeat (first | with_reducible refine State.seqStep_fixed _ _ _ _ (fun s x => ?_)))
  all_goals grind [SeqOut.Keeps, State.fixed, foldl_fixed, foldl_fst_fixed, State.setTile_fixed]
theorem execCharm_fixed (t : TileId) (f : RFields) (s : State) : NextFixed (execCharm t f s) s := by
  refine ⟨_, rfl, State.seqStep_fixed _ _ _ _ (fun s x => ?_)⟩
  dsimp only; split
  · rfl
  · split
    · exact sendGo_keeps _ _ _ _ _ _
    · exact sendGo_keeps _ _ _ _ _ _
    · rfl
theorem twaitTry_keeps (n : Nat) (v : W32) (s : State) (x : Tile) : (twaitTry n v s x).Keeps s := by
  unfold twaitTry; split <;> simp only [SeqOut.Keeps]
theorem execTwait_fixed (t : TileId) (f : RFields) (s : State) : NextFixed (execTwait t f s) s :=
  ⟨_, rfl, State.seqStep_fixed _ _ _ _ (fun s x => twaitTry_keeps _ _ s x)⟩
theorem execTallyWaitRelease_fixed (t : TileId) (s : State) : NextFixed (execTallyWaitRelease t s) s := by
  refine ⟨_, rfl, State.seqResume_fixed _ _ _ (fun w g h => ?_)⟩
  cases w <;> simp at h; subst h; exact twaitTry_keeps _ _
theorem execTsig_fixed : ∀ a0 a1 a2, NextFixed (execTsig a0 a1 a2) a2 := by
  intro a0 a1 a2; refine ⟨_, rfl,
      ?_⟩; (repeat (first | with_reducible refine State.seqStep_fixed _ _ _ _ (fun s x => ?_)))
  all_goals grind [SeqOut.Keeps, State.fixed, foldl_fixed, foldl_fst_fixed, State.setTile_fixed]
theorem execTset_fixed : ∀ a0 a1 a2, NextFixed (execTset a0 a1 a2) a2 := by
  intro a0 a1 a2; refine ⟨_, rfl,
      ?_⟩; (repeat (first | with_reducible refine State.seqStep_fixed _ _ _ _ (fun s x => ?_)))
  all_goals grind [SeqOut.Keeps, State.fixed, foldl_fixed, foldl_fst_fixed, State.setTile_fixed]
theorem execTrd_fixed (t : TileId) (f : RFields) (s : State) : NextFixed (execTrd t f s) s :=
  ⟨_, rfl, State.seqStep_fixed _ _ _ _ (wrReg_keeps _ _ _)⟩
theorem execRdsys_fixed : ∀ a0 a1 a2, NextFixed (execRdsys a0 a1 a2) a2 := by
  intro a0 a1 a2; refine ⟨_, rfl,
      ?_⟩; (repeat (first | with_reducible refine State.seqStep_fixed _ _ _ _ (fun s x => ?_)))
  all_goals grind [SeqOut.Keeps, State.fixed, foldl_fixed, foldl_fst_fixed, State.setTile_fixed]
theorem execWrsysDseq_fixed : ∀ a0 a1 a2 a3 a4, NextFixed (execWrsysDseq a0 a1 a2 a3 a4) a4 := by
  intro a0 a1 a2 a3 a4; refine ⟨_, rfl,
      ?_⟩; (repeat (first | with_reducible refine State.seqStep_fixed _ _ _ _ (fun s x => ?_)))
  all_goals grind [SeqOut.Keeps, State.fixed, foldl_fixed, foldl_fst_fixed, State.setTile_fixed]
theorem execWrsysLack_fixed : ∀ a0 a1 a2 a3 a4, NextFixed (execWrsysLack a0 a1 a2 a3 a4) a4 := by
  intro a0 a1 a2 a3 a4; refine ⟨_, rfl,
      ?_⟩; (repeat (first | with_reducible refine State.seqStep_fixed _ _ _ _ (fun s x => ?_)))
  all_goals grind [SeqOut.Keeps, State.fixed, foldl_fixed, foldl_fst_fixed, State.lackTile_fixed]
theorem execFence_fixed : ∀ a0 a1 a2 a3 a4, NextFixed (execFence a0 a1 a2 a3 a4) a4 := by
  intro a0 a1 a2 a3 a4; refine ⟨_, rfl,
      ?_⟩; (repeat (first | with_reducible refine State.seqStep_fixed _ _ _ _ (fun s x => ?_)))
  all_goals grind [SeqOut.Keeps, State.fixed, foldl_fixed, foldl_fst_fixed]
theorem execEvpost_fixed : ∀ a0 a1 a2 a3 a4, NextFixed (execEvpost a0 a1 a2 a3 a4) a4 := by
  intro a0 a1 a2 a3 a4; refine ⟨_, rfl,
      ?_⟩; (repeat (first | with_reducible refine State.seqStep_fixed _ _ _ _ (fun s x => ?_)))
  all_goals grind [SeqOut.Keeps, State.fixed, foldl_fixed, foldl_fst_fixed, State.event_fixed]
theorem execHalt_fixed : ∀ a0 a1 a2, NextFixed (execHalt a0 a1 a2) a2 := by
  intro a0 a1 a2; refine ⟨_, rfl,
      ?_⟩; (repeat (first | with_reducible refine State.seqStep_fixed _ _ _ _ (fun s x => ?_)))
  all_goals grind [SeqOut.Keeps, State.fixed, foldl_fixed, foldl_fst_fixed, State.onTile_fixed, State.seqGoto_fixed]
theorem execChanMsgArrive_fixed : ∀ a0 a1 a2, NextFixed (execChanMsgArrive a0 a1 a2) a2 := by
  intro a0 a1 a2; refine ⟨_, rfl,
      ?_⟩; (repeat (first | with_reducible refine State.arrive_fixed _ _ _ _ _ (fun s e p => ?_)))
  all_goals grind [State.fixed, foldl_fixed, foldl_fst_fixed, State.onTile_fixed, landMsg_fixed]
theorem execChanBulkArrive_fixed : ∀ a0 a1 a2, NextFixed (execChanBulkArrive a0 a1 a2) a2 := by
  intro a0 a1 a2; refine ⟨_, rfl,
      ?_⟩; (repeat (first | with_reducible refine State.arrive_fixed _ _ _ _ _ (fun s e p => ?_)))
  all_goals grind [State.fixed, foldl_fixed, foldl_fst_fixed, State.onTile_fixed, State.countT_fixed,
      State.raiseT_fixed, State.reportRefused_fixed, State.chSendOrLost_fixed, State.writeWindow_fixed]
theorem execChanGrantArrive_fixed : ∀ a0 a1 a2, NextFixed (execChanGrantArrive a0 a1 a2) a2 := by
  intro a0 a1 a2; refine ⟨_, rfl,
      ?_⟩; (repeat (first | with_reducible refine State.arrive_fixed _ _ _ _ _ (fun s e p => ?_)))
  all_goals grind [State.fixed, foldl_fixed, foldl_fst_fixed, State.onTile_fixed]
theorem execBulkAckArrive_fixed : ∀ a0 a1, NextFixed (execBulkAckArrive a0 a1) a1 := by
  intro a0 a1; refine ⟨_, rfl,
      ?_⟩; dsimp only; (repeat' (first | with_reducible refine State.arrive_fixed _ _ _ _ _ (fun s e p => ?_) | split)); all_goals (first | rfl | grind [State.fixed, foldl_fixed, foldl_fst_fixed, State.onTile_fixed])
theorem execChanCreditArrive_fixed : ∀ a0 a1 a2, NextFixed (execChanCreditArrive a0 a1 a2) a2 := by
  intro a0 a1 a2; refine ⟨_, rfl,
      ?_⟩; (repeat (first | with_reducible refine State.arrive_fixed _ _ _ _ _ (fun s e p => ?_)))
  all_goals grind [State.fixed, foldl_fixed, foldl_fst_fixed, State.onTile_fixed]
theorem execStopNoticeArrive_fixed : ∀ a0 a1, NextFixed (execStopNoticeArrive a0 a1) a1 := by
  intros; refine ⟨_, rfl, ?_⟩; (simp only [State.noticeAt_fixed]; done)
theorem execDmaCopy_fixed : ∀ a0 a1, NextFixed (execDmaCopy a0 a1) a1 := by
  intro a0 a1; refine ⟨_, rfl,
      ?_⟩; (repeat (first | with_reducible refine State.dmaStep_fixed _ _ _ _ (fun s r d => ?_)))
  all_goals grind [State.fixed, foldl_fixed, foldl_fst_fixed, State.raiseT_fixed, State.copyRows_fixed,
      State.engDone_fixed, State.countDma_fixed]
theorem execDmaFill_fixed : ∀ a0 a1, NextFixed (execDmaFill a0 a1) a1 := by
  intro a0 a1; refine ⟨_, rfl,
      ?_⟩; (repeat (first | with_reducible refine State.dmaStep_fixed _ _ _ _ (fun s r d => ?_)))
  all_goals grind [State.fixed, foldl_fixed, foldl_fst_fixed, State.putLines_fixed, State.engDone_fixed,
      State.countDma_fixed]
theorem execDmaBulkSend_fixed : ∀ a0 a1, NextFixed (execDmaBulkSend a0 a1) a1 := by
  intro a0 a1; refine ⟨_, rfl,
      ?_⟩; (repeat (first | with_reducible refine State.dmaStep_fixed _ _ _ _ (fun s r d => ?_)))
  all_goals grind [State.fixed, foldl_fixed, foldl_fst_fixed, State.onTile_fixed, State.raiseT_fixed,
      State.chanErr_fixed, State.countDma_fixed, State.sendRows_fixed]
theorem execOpaPass_fixed : ∀ a0 a1, NextFixed (execOpaPass a0 a1) a1 := by
  intro a0 a1; refine ⟨_, rfl,
      ?_⟩; (repeat (first | with_reducible refine State.engStep_fixed _ _ _ _ _ (fun s r => ?_)))
  all_goals grind [State.fixed, foldl_fixed, foldl_fst_fixed, State.opaRun_fixed]
theorem execOpaRowStart_fixed : ∀ a0 a1 a2, NextFixed (execOpaRowStart a0 a1 a2) a2 := by
  intro a0 a1 a2; refine ⟨_, rfl,
      ?_⟩; (repeat (first | with_reducible refine State.engStep_fixed _ _ _ _ _ (fun s r => ?_)))
  all_goals grind [State.fixed, foldl_fixed, foldl_fst_fixed, State.opaRun_fixed]
theorem execOpaPassComplete_fixed : ∀ a0 a1, NextFixed (execOpaPassComplete a0 a1) a1 := by
  intro a0 a1; unfold execOpaPassComplete; refine ⟨_, rfl, ?_⟩
  grind only [State.fixed, foldl_fixed, foldl_fst_fixed, State.countT_fixed, State.signalEng_fixed]
theorem execVeCvt_fixed : ∀ a0 a1, NextFixed (execVeCvt a0 a1) a1 := by
  intro a0 a1; refine ⟨_, rfl,
      ?_⟩; (repeat (first | with_reducible refine State.engStep_fixed _ _ _ _ _ (fun s r => ?_)))
  all_goals grind [State.fixed, foldl_fixed, foldl_fst_fixed, State.veVectors_fixed]
theorem execVeAdd_fixed : ∀ a0 a1, NextFixed (execVeAdd a0 a1) a1 := by
  intro a0 a1; refine ⟨_, rfl,
      ?_⟩; (repeat (first | with_reducible refine State.engStep_fixed _ _ _ _ _ (fun s r => ?_)))
  all_goals grind [State.fixed, foldl_fixed, foldl_fst_fixed, State.veVectors_fixed]
theorem execVeSub_fixed : ∀ a0 a1, NextFixed (execVeSub a0 a1) a1 := by
  intro a0 a1; refine ⟨_, rfl,
      ?_⟩; (repeat (first | with_reducible refine State.engStep_fixed _ _ _ _ _ (fun s r => ?_)))
  all_goals grind [State.fixed, foldl_fixed, foldl_fst_fixed, State.veVectors_fixed]
theorem execVeMul_fixed : ∀ a0 a1, NextFixed (execVeMul a0 a1) a1 := by
  intro a0 a1; refine ⟨_, rfl,
      ?_⟩; (repeat (first | with_reducible refine State.engStep_fixed _ _ _ _ _ (fun s r => ?_)))
  all_goals grind [State.fixed, foldl_fixed, foldl_fst_fixed, State.veVectors_fixed]
theorem execVeMuladd_fixed : ∀ a0 a1, NextFixed (execVeMuladd a0 a1) a1 := by
  intro a0 a1; refine ⟨_, rfl,
      ?_⟩; (repeat (first | with_reducible refine State.engStep_fixed _ _ _ _ _ (fun s r => ?_)))
  all_goals grind [State.fixed, foldl_fixed, foldl_fst_fixed, State.veVectors_fixed]
theorem execVeMax_fixed : ∀ a0 a1, NextFixed (execVeMax a0 a1) a1 := by
  intro a0 a1; refine ⟨_, rfl,
      ?_⟩; (repeat (first | with_reducible refine State.engStep_fixed _ _ _ _ _ (fun s r => ?_)))
  all_goals grind [State.fixed, foldl_fixed, foldl_fst_fixed, State.veVectors_fixed]
theorem execVeMin_fixed : ∀ a0 a1, NextFixed (execVeMin a0 a1) a1 := by
  intro a0 a1; refine ⟨_, rfl,
      ?_⟩; (repeat (first | with_reducible refine State.engStep_fixed _ _ _ _ _ (fun s r => ?_)))
  all_goals grind [State.fixed, foldl_fixed, foldl_fst_fixed, State.veVectors_fixed]
theorem execVeMuls_fixed : ∀ a0 a1, NextFixed (execVeMuls a0 a1) a1 := by
  intro a0 a1; refine ⟨_, rfl,
      ?_⟩; (repeat (first | with_reducible refine State.engStep_fixed _ _ _ _ _ (fun s r => ?_)))
  all_goals grind [State.fixed, foldl_fixed, foldl_fst_fixed, State.veVectors_fixed]
theorem execVeRsum_fixed : ∀ a0 a1, NextFixed (execVeRsum a0 a1) a1 := by
  intro a0 a1; refine ⟨_, rfl,
      ?_⟩; (repeat (first | with_reducible refine State.engStep_fixed _ _ _ _ _ (fun s r => ?_)))
  all_goals grind [State.fixed, foldl_fixed, foldl_fst_fixed, State.veRows_fixed]
theorem execVeRmax_fixed : ∀ a0 a1, NextFixed (execVeRmax a0 a1) a1 := by
  intro a0 a1; refine ⟨_, rfl,
      ?_⟩; (repeat (first | with_reducible refine State.engStep_fixed _ _ _ _ _ (fun s r => ?_)))
  all_goals grind [State.fixed, foldl_fixed, foldl_fst_fixed, State.veRows_fixed]
theorem execVeRmin_fixed : ∀ a0 a1, NextFixed (execVeRmin a0 a1) a1 := by
  intro a0 a1; refine ⟨_, rfl,
      ?_⟩; (repeat (first | with_reducible refine State.engStep_fixed _ _ _ _ _ (fun s r => ?_)))
  all_goals grind [State.fixed, foldl_fixed, foldl_fst_fixed, State.veRows_fixed]
theorem execVeLnorm_fixed : ∀ a0 a1, NextFixed (execVeLnorm a0 a1) a1 := by
  intro a0 a1; refine ⟨_, rfl,
      ?_⟩; (repeat (first | with_reducible refine State.engStep_fixed _ _ _ _ _ (fun s r => ?_)))
  all_goals grind [State.fixed, foldl_fixed, foldl_fst_fixed, State.veRows_fixed]
theorem execVeRmsnorm_fixed : ∀ a0 a1, NextFixed (execVeRmsnorm a0 a1) a1 := by
  intro a0 a1; refine ⟨_, rfl,
      ?_⟩; (repeat (first | with_reducible refine State.engStep_fixed _ _ _ _ _ (fun s r => ?_)))
  all_goals grind [State.fixed, foldl_fixed, foldl_fst_fixed, State.veRows_fixed]
theorem execVeRope_fixed : ∀ a0 a1, NextFixed (execVeRope a0 a1) a1 := by
  intro a0 a1; refine ⟨_, rfl,
      ?_⟩; (repeat (first | with_reducible refine State.engStep_fixed _ _ _ _ _ (fun s r => ?_)))
  all_goals grind [State.fixed, foldl_fixed, foldl_fst_fixed, State.veVectors_fixed]
theorem execVeGather_fixed : ∀ a0 a1, NextFixed (execVeGather a0 a1) a1 := by
  intro a0 a1; refine ⟨_, rfl,
      ?_⟩; (repeat (first | with_reducible refine State.engStep_fixed _ _ _ _ _ (fun s r => ?_)))
  all_goals grind [State.fixed, foldl_fixed, foldl_fst_fixed, State.veVectors_fixed]
theorem execVePermute_fixed : ∀ a0 a1, NextFixed (execVePermute a0 a1) a1 := by
  intro a0 a1; refine ⟨_, rfl,
      ?_⟩; (repeat (first | with_reducible refine State.engStep_fixed _ _ _ _ _ (fun s r => ?_)))
  all_goals grind [State.fixed, foldl_fixed, foldl_fst_fixed, State.veVectors_fixed]
theorem execVeTopk_fixed : ∀ a0 a1, NextFixed (execVeTopk a0 a1) a1 := by
  intro a0 a1; refine ⟨_, rfl,
      ?_⟩; (repeat (first | with_reducible refine State.engStep_fixed _ _ _ _ _ (fun s r => ?_)))
  all_goals grind [State.fixed, foldl_fixed, foldl_fst_fixed, State.veRows_fixed]
theorem execVeArgmax_fixed : ∀ a0 a1, NextFixed (execVeArgmax a0 a1) a1 := by
  intro a0 a1; refine ⟨_, rfl,
      ?_⟩; (repeat (first | with_reducible refine State.engStep_fixed _ _ _ _ _ (fun s r => ?_)))
  all_goals grind [State.fixed, foldl_fixed, foldl_fst_fixed, State.veRows_fixed]
theorem execVeSample_fixed : ∀ a0 a1, NextFixed (execVeSample a0 a1) a1 := by
  intro a0 a1; refine ⟨_, rfl,
      ?_⟩; (repeat (first | with_reducible refine State.engStep_fixed _ _ _ _ _ (fun s r => ?_)))
  all_goals grind [State.fixed, foldl_fixed, foldl_fst_fixed, State.veRows_fixed]
theorem execVeSeamAdd_fixed : ∀ a0 a1, NextFixed (execVeSeamAdd a0 a1) a1 := by
  intro a0 a1; refine ⟨_, rfl,
      ?_⟩; (repeat (first | with_reducible refine State.engStep_fixed _ _ _ _ _ (fun s r => ?_)))
  all_goals grind [State.fixed, foldl_fixed, foldl_fst_fixed, State.veVectors_fixed]
theorem execVeSeamCvt_fixed : ∀ a0 a1, NextFixed (execVeSeamCvt a0 a1) a1 := by
  intro a0 a1; refine ⟨_, rfl,
      ?_⟩; (repeat (first | with_reducible refine State.engStep_fixed _ _ _ _ _ (fun s r => ?_)))
  all_goals grind [State.fixed, foldl_fixed, foldl_fst_fixed, State.veVectors_fixed]
theorem execVeAccRead_fixed : ∀ a0 a1, NextFixed (execVeAccRead a0 a1) a1 := by
  intro a0 a1; refine ⟨_, rfl,
      ?_⟩; (repeat (first | with_reducible refine State.engStep_fixed _ _ _ _ _ (fun s r => ?_)))
  all_goals grind [State.fixed, foldl_fixed, foldl_fst_fixed, State.onTile_fixed, State.engDone_fixed,
      State.raiseMany_fixed, State.veFinish_fixed]
theorem execSfuExp2_fixed : ∀ a0 a1, NextFixed (execSfuExp2 a0 a1) a1 := by
  intros; refine ⟨_, rfl, ?_⟩; (simp only [State.sfuFn_fixed]; done)
theorem execSfuLog2_fixed : ∀ a0 a1, NextFixed (execSfuLog2 a0 a1) a1 := by
  intros; refine ⟨_, rfl, ?_⟩; (simp only [State.sfuFn_fixed]; done)
theorem execSfuReciprocal_fixed : ∀ a0 a1, NextFixed (execSfuReciprocal a0 a1) a1 := by
  intros; refine ⟨_, rfl, ?_⟩; (simp only [State.sfuFn_fixed]; done)
theorem execSfuRsqrt_fixed : ∀ a0 a1, NextFixed (execSfuRsqrt a0 a1) a1 := by
  intros; refine ⟨_, rfl, ?_⟩; (simp only [State.sfuFn_fixed]; done)
theorem execSfuSqrt_fixed : ∀ a0 a1, NextFixed (execSfuSqrt a0 a1) a1 := by
  intros; refine ⟨_, rfl, ?_⟩; (simp only [State.sfuFn_fixed]; done)
theorem execSfuTanh_fixed : ∀ a0 a1, NextFixed (execSfuTanh a0 a1) a1 := by
  intros; refine ⟨_, rfl, ?_⟩; (simp only [State.sfuFn_fixed]; done)
theorem execSfuSigmoid_fixed : ∀ a0 a1, NextFixed (execSfuSigmoid a0 a1) a1 := by
  intros; refine ⟨_, rfl, ?_⟩; (simp only [State.sfuFn_fixed]; done)
theorem execSfuErf_fixed : ∀ a0 a1, NextFixed (execSfuErf a0 a1) a1 := by
  intros; refine ⟨_, rfl, ?_⟩; (simp only [State.sfuFn_fixed]; done)
theorem execSfuGelu_fixed : ∀ a0 a1, NextFixed (execSfuGelu a0 a1) a1 := by
  intros; refine ⟨_, rfl, ?_⟩; (simp only [State.sfuFn_fixed]; done)
theorem execSfuSilu_fixed : ∀ a0 a1, NextFixed (execSfuSilu a0 a1) a1 := by
  intros; refine ⟨_, rfl, ?_⟩; (simp only [State.sfuFn_fixed]; done)
theorem execSfuSin_fixed : ∀ a0 a1, NextFixed (execSfuSin a0 a1) a1 := by
  intros; refine ⟨_, rfl, ?_⟩; (simp only [State.sfuFn_fixed]; done)
theorem execSfuCos_fixed : ∀ a0 a1, NextFixed (execSfuCos a0 a1) a1 := by
  intros; refine ⟨_, rfl, ?_⟩; (simp only [State.sfuFn_fixed]; done)
theorem execSfuPattern_fixed : ∀ a0 a1, NextFixed (execSfuPattern a0 a1) a1 := by
  intro a0 a1; refine ⟨_, rfl,
      ?_⟩; (repeat (first | with_reducible refine State.engStep_fixed _ _ _ _ _ (fun s r => ?_)))
  all_goals grind [State.fixed, foldl_fixed, foldl_fst_fixed, State.sfuRun_fixed]
theorem execPwAppend_fixed : ∀ a0 a1, NextFixed (execPwAppend a0 a1) a1 := by
  intro a0 a1; refine ⟨_, rfl,
      ?_⟩; (repeat (first | with_reducible refine State.engStep_fixed _ _ _ _ _ (fun s r => ?_)))
  all_goals grind [State.fixed, foldl_fixed, foldl_fst_fixed, State.onTile_fixed, State.engDone_fixed, State.appendRow_fixed]
theorem execPwInvalidate_fixed : ∀ a0 a1, NextFixed (execPwInvalidate a0 a1) a1 := by
  intros; refine ⟨_, rfl, ?_⟩; (simp only [State.pwInvalidate_fixed]; done)
theorem execGusAcquire_fixed : ∀ a0 a1, NextFixed (execGusAcquire a0 a1) a1 := by
  intro a0 a1; unfold execGusAcquire; refine ⟨_, rfl, ?_⟩; grind only [State.fixed, foldl_fixed, foldl_fst_fixed,
      State.setTile_fixed]
theorem execGusAttend_fixed : ∀ a0 a1, NextFixed (execGusAttend a0 a1) a1 := by
  intro a0 a1; refine ⟨_, rfl,
      ?_⟩; (repeat (first | with_reducible refine State.gusStep_fixed _ _ _ _ (fun s d => ?_)))
  all_goals grind [State.fixed, foldl_fixed, foldl_fst_fixed, State.countT_fixed, State.gusSteps_fixed,
      State.readSlot_fixed, State.attendRow_fixed]
theorem execGusRebase_fixed : ∀ a0 a1, NextFixed (execGusRebase a0 a1) a1 := by
  intro a0 a1; refine ⟨_, rfl,
      ?_⟩; (repeat (first | with_reducible refine State.gusStep_fixed _ _ _ _ (fun s d => ?_)))
  all_goals grind [State.fixed, foldl_fixed, foldl_fst_fixed, State.rebaseRow_fixed]
theorem execGusFinalise_fixed : ∀ a0 a1, NextFixed (execGusFinalise a0 a1) a1 := by
  intro a0 a1; refine ⟨_, rfl,
      ?_⟩; (repeat (first | with_reducible refine State.gusStep_fixed _ _ _ _ (fun s d => ?_)))
  all_goals grind [State.fixed, foldl_fixed, foldl_fst_fixed, State.finaliseRow_fixed]
theorem execGusRecompute_fixed : ∀ a0 a1, NextFixed (execGusRecompute a0 a1) a1 := by
  intro a0 a1; refine ⟨_, rfl,
      ?_⟩; (repeat (first | with_reducible refine State.gusStep_fixed _ _ _ _ (fun s d => ?_)))
  all_goals grind [State.fixed, foldl_fixed, foldl_fst_fixed, State.countT_fixed, State.gusSteps_fixed,
      State.readSlot_fixed, State.recomputeRow_fixed]
theorem execDescStart_fixed : ∀ a0 a1 a2, NextFixed (execDescStart a0 a1 a2) a2 := by
  intro a0 a1 a2; unfold execDescStart; refine ⟨_, rfl, ?_⟩; grind only [State.fixed, foldl_fixed, foldl_fst_fixed,
      State.startDesc_fixed]
theorem execDescSignal_fixed : ∀ a0 a1 a2, NextFixed (execDescSignal a0 a1 a2) a2 := by
  intro a0 a1 a2; unfold execDescSignal; refine ⟨_, rfl, ?_⟩; grind only [State.fixed, foldl_fixed, foldl_fst_fixed,
      State.countT_fixed, State.signalEng_fixed]
theorem execFnCreate_fixed : ∀ a0, NextFixed (execFnCreate a0) a0 := by
  intro a0; refine ⟨_, rfl,
      ?_⟩; (repeat (first | with_reducible refine State.judge_fixed _ _ _ _ (fun s => ?_) | with_reducible refine State.command_fixed _ _ _ (fun s r => ?_))); all_goals grind [State.fixed, foldl_fixed, foldl_fst_fixed, State.setFn_fixed, State.reply_fixed]
theorem execFnDestroy_fixed : ∀ a0, NextFixed (execFnDestroy a0) a0 := by
  intro a0; refine ⟨_, rfl,
      ?_⟩; (repeat (first | with_reducible refine State.judge_fixed _ _ _ _ (fun s => ?_) | with_reducible refine State.command_fixed _ _ _ (fun s r => ?_))); all_goals grind [State.fixed, foldl_fixed, foldl_fst_fixed, State.destroyFn_fixed, State.reply_fixed]
theorem execFnStart_fixed : ∀ a0, NextFixed (execFnStart a0) a0 := by
  intro a0; refine ⟨_, rfl,
      ?_⟩; (repeat (first | with_reducible refine State.judge_fixed _ _ _ _ (fun s => ?_) | with_reducible refine State.command_fixed _ _ _ (fun s r => ?_))); all_goals grind [State.fixed, foldl_fixed, foldl_fst_fixed, State.startFn_fixed, State.reply_fixed]
theorem execFnStop_fixed : ∀ a0, NextFixed (execFnStop a0) a0 := by
  intro a0; refine ⟨_, rfl,
      ?_⟩; (repeat (first | with_reducible refine State.judge_fixed _ _ _ _ (fun s => ?_) | with_reducible refine State.command_fixed _ _ _ (fun s r => ?_))); all_goals grind [State.fixed, foldl_fixed, foldl_fst_fixed, State.onFn_fixed, State.charge_fixed, State.cutAll_fixed, State.beginStop_fixed, State.reply_fixed, State.recordFault_fixed]
theorem execFnFaultStop_fixed : ∀ a0 a1, NextFixed (execFnFaultStop a0 a1) a1 := by
  intro a0 a1; unfold execFnFaultStop; refine ⟨_, rfl, ?_⟩; grind only [State.fixed, foldl_fixed, foldl_fst_fixed,
      State.charge_fixed, State.beginStop_fixed, State.recordFault_fixed]
theorem execDrainLimitExpire_fixed : ∀ a0 a1, NextFixed (execDrainLimitExpire a0 a1) a1 := by
  intro a0 a1; unfold execDrainLimitExpire; refine ⟨_, rfl, ?_⟩
  grind only [State.fixed, foldl_fixed, foldl_fst_fixed, State.cutAll_fixed]
theorem execStopComplete_fixed : ∀ a0 a1, NextFixed (execStopComplete a0 a1) a1 := by
  intro a0 a1; unfold execStopComplete; refine ⟨_, rfl, ?_⟩; grind only [State.fixed, foldl_fixed, foldl_fst_fixed,
      State.cutAll_fixed, State.endStop_fixed, State.finishLong_fixed, State.serviceStopped_fixed]
theorem execFnAssignTiles_fixed : ∀ a0, NextFixed (execFnAssignTiles a0) a0 := by
  intro a0; refine ⟨_, rfl,
      ?_⟩; (repeat (first | with_reducible refine State.assign_fixed _ _ _ _ _ _ _ _ (fun s r n => ?_)))
  all_goals grind [State.fixed, foldl_fixed, foldl_fst_fixed, State.reply_fixed, State.giveTile_fixed]
theorem execFnAssignSpread_fixed : ∀ a0, NextFixed (execFnAssignSpread a0) a0 := by
  intro a0; refine ⟨_, rfl,
      ?_⟩; (repeat (first | with_reducible refine State.assign_fixed _ _ _ _ _ _ _ _ (fun s r n => ?_)))
  all_goals grind [State.fixed, foldl_fixed, foldl_fst_fixed, State.reply_fixed, State.setSpread_fixed]
theorem execFnAssignRings_fixed : ∀ a0, NextFixed (execFnAssignRings a0) a0 := by
  intro a0; refine ⟨_, rfl,
      ?_⟩; (repeat (first | with_reducible refine State.assign_fixed _ _ _ _ _ _ _ _ (fun s r n => ?_)))
  all_goals grind [State.fixed, foldl_fixed, foldl_fst_fixed, State.setRing_fixed, State.onFn_fixed, State.reply_fixed]
theorem execFnAssignFences_fixed : ∀ a0, NextFixed (execFnAssignFences a0) a0 := by
  intro a0; refine ⟨_, rfl,
      ?_⟩; (repeat (first | with_reducible refine State.assign_fixed _ _ _ _ _ _ _ _ (fun s r n => ?_)))
  all_goals grind [State.fixed, foldl_fixed, foldl_fst_fixed, State.onFn_fixed, State.reply_fixed]
theorem execFnAssignCores_fixed : ∀ a0, NextFixed (execFnAssignCores a0) a0 := by
  intro a0; refine ⟨_, rfl,
      ?_⟩; (repeat (first | with_reducible refine State.assign_fixed _ _ _ _ _ _ _ _ (fun s r n => ?_)))
  all_goals grind [State.fixed, foldl_fixed, foldl_fst_fixed, State.resetCore_fixed, State.reply_fixed]
theorem execFnAssignWindow_fixed : ∀ a0, NextFixed (execFnAssignWindow a0) a0 := by
  intro a0; refine ⟨_, rfl,
      ?_⟩; (repeat (first | with_reducible refine State.assign_fixed _ _ _ _ _ _ _ _ (fun s r n => ?_)))
  all_goals grind [State.fixed, foldl_fixed, foldl_fst_fixed, State.reply_fixed, State.setWindow_fixed]
theorem execFnAssignVtileMap_fixed : ∀ a0, NextFixed (execFnAssignVtileMap a0) a0 := by
  intro a0; refine ⟨_, rfl,
      ?_⟩; (repeat (first | with_reducible refine State.judge_fixed _ _ _ _ (fun s => ?_) | with_reducible refine State.commandIf_fixed _ _ _ _ (fun s r => ?_))); all_goals grind [State.fixed, foldl_fixed, foldl_fst_fixed, State.onFn_fixed, State.reply_fixed]
theorem execFnAssignSettings_fixed : ∀ a0, NextFixed (execFnAssignSettings a0) a0 := by
  intro a0; refine ⟨_, rfl,
      ?_⟩; (repeat (first | with_reducible refine State.assign_fixed _ _ _ _ _ _ _ _ (fun s r n => ?_)))
  all_goals grind [State.fixed, foldl_fixed, foldl_fst_fixed, State.onFn_fixed, State.reply_fixed]
theorem execDomainUngateDone_fixed : ∀ a0 a1, NextFixed (execDomainUngateDone a0 a1) a1 := by
  intro a0 a1; refine ⟨_, rfl,
      ?_⟩; dsimp only; (repeat' (first | with_reducible refine State.pwrStep_fixed _ _ (fun s => ?_) | split))
  all_goals (first | rfl | grind [State.fixed, foldl_fixed, foldl_fst_fixed, State.onTile_fixed, State.reply_fixed,
      State.setDom_fixed])
theorem execFnWithdraw_fixed : ∀ a0, NextFixed (execFnWithdraw a0) a0 := by
  intro a0; refine ⟨_, rfl,
      ?_⟩; (repeat (first | with_reducible refine State.judge_fixed _ _ _ _ (fun s => ?_) | with_reducible refine State.command_fixed _ _ _ (fun s r => ?_))); all_goals grind [State.fixed, foldl_fixed, foldl_fst_fixed, State.setRing_fixed, State.onSlab_fixed, State.onFn_fixed, State.resetCore_fixed, State.withdrawTile_fixed, State.reply_fixed, State.setWindow_fixed, State.setSpread_fixed]
theorem execFnQuery_fixed : ∀ a0, NextFixed (execFnQuery a0) a0 := by
  intro a0; refine ⟨_, rfl,
      ?_⟩; (repeat (first | with_reducible refine State.judge_fixed _ _ _ _ (fun s => ?_) | with_reducible refine State.command_fixed _ _ _ (fun s r => ?_))); all_goals grind [State.fixed, foldl_fixed, foldl_fst_fixed, State.reply_fixed]
theorem execPageRelease_fixed : ∀ a0, NextFixed (execPageRelease a0) a0 := by
  intro a0; refine ⟨_, rfl,
      ?_⟩; (repeat (first | with_reducible refine State.judge_fixed _ _ _ _ (fun s => ?_) | with_reducible refine State.command_fixed _ _ _ (fun s r => ?_))); all_goals grind [State.fixed, foldl_fixed, foldl_fst_fixed, State.onSlab_fixed, State.retire_fixed, State.reply_fixed]
theorem execSlabTag_fixed : ∀ a0, NextFixed (execSlabTag a0) a0 := by
  intro a0; refine ⟨_, rfl,
      ?_⟩; (repeat (first | with_reducible refine State.judge_fixed _ _ _ _ (fun s => ?_) | with_reducible refine State.command_fixed _ _ _ (fun s r => ?_))); all_goals grind [State.fixed, foldl_fixed, foldl_fst_fixed, State.reply_fixed, State.tagCw_fixed]
theorem execRingConfig_fixed : ∀ a0, NextFixed (execRingConfig a0) a0 := by
  intro a0; refine ⟨_, rfl,
      ?_⟩; (repeat (first | with_reducible refine State.judge_fixed _ _ _ _ (fun s => ?_) | with_reducible refine State.command_fixed _ _ _ (fun s r => ?_))); all_goals grind [State.fixed, foldl_fixed, foldl_fst_fixed, State.onRing_fixed, State.reply_fixed]
theorem execRingRead_fixed : ∀ a0, NextFixed (execRingRead a0) a0 := by
  intro a0; refine ⟨_, rfl,
      ?_⟩; (repeat (first | with_reducible refine State.judge_fixed _ _ _ _ (fun s => ?_) | with_reducible refine State.command_fixed _ _ _ (fun s r => ?_))); all_goals grind [State.fixed, foldl_fixed, foldl_fst_fixed, State.reply_fixed]
theorem execFenceRead_fixed : ∀ a0, NextFixed (execFenceRead a0) a0 := by
  intro a0; refine ⟨_, rfl,
      ?_⟩; (repeat (first | with_reducible refine State.judge_fixed _ _ _ _ (fun s => ?_) | with_reducible refine State.command_fixed _ _ _ (fun s r => ?_))); all_goals grind [State.fixed, foldl_fixed, foldl_fst_fixed, State.reply_fixed]
theorem execFenceWrite_fixed : ∀ a0, NextFixed (execFenceWrite a0) a0 := by
  intro a0; refine ⟨_, rfl,
      ?_⟩; (repeat (first | with_reducible refine State.judge_fixed _ _ _ _ (fun s => ?_) | with_reducible refine State.command_fixed _ _ _ (fun s r => ?_))); all_goals grind [State.fixed, foldl_fixed, foldl_fst_fixed, State.reply_fixed, State.signalFence_fixed]
theorem execStopRecord_fixed : ∀ a0, NextFixed (execStopRecord a0) a0 := by
  intro a0; refine ⟨_, rfl,
      ?_⟩; (repeat (first | with_reducible refine State.judge_fixed _ _ _ _ (fun s => ?_) | with_reducible refine State.command_fixed _ _ _ (fun s r => ?_))); all_goals grind [State.fixed, foldl_fixed, foldl_fst_fixed, State.reply_fixed]
theorem execServiceCfg_fixed : ∀ a0, NextFixed (execServiceCfg a0) a0 := by
  intro a0; refine ⟨_, rfl,
      ?_⟩; (repeat (first | with_reducible refine State.judge_fixed _ _ _ _ (fun s => ?_) | with_reducible refine State.command_fixed _ _ _ (fun s r => ?_))); all_goals grind [State.fixed, foldl_fixed, foldl_fst_fixed, State.beginStop_fixed, State.destroyFn_fixed, State.reply_fixed]
theorem execGovCapIteration_fixed : ∀ a0 a1, NextFixed (execGovCapIteration a0 a1) a1 := by
  intro a0 a1; refine ⟨_, rfl,
      ?_⟩; (repeat' (first | with_reducible refine State.pwrStep_fixed _ _ (fun s => ?_) | split))
  all_goals grind [State.fixed, foldl_fixed, foldl_fst_fixed, State.setDom_fixed, State.onDom_fixed,
      State.lowerGrants_fixed, State.commandOps_fixed]
theorem execRateLoopTick_fixed : ∀ a0 a1 a2, NextFixed (execRateLoopTick a0 a1 a2) a2 := by
  intro a0 a1 a2; unfold execRateLoopTick; refine ⟨_, rfl, ?_⟩
  grind only [State.fixed, foldl_fixed, foldl_fst_fixed, State.setDom_fixed]
theorem execGovMeasureWindow_fixed : ∀ a0 a1 a2, NextFixed (execGovMeasureWindow a0 a1 a2) a2 := by
  intro a0 a1 a2; refine ⟨_, rfl,
      ?_⟩; dsimp only; (repeat' (first | with_reducible refine State.pwrStep_fixed _ _ (fun s => ?_) | split))
  all_goals (first | rfl | grind [State.fixed, foldl_fixed, foldl_fst_fixed, State.raise_fixed, State.govMode_fixed])
theorem execPaceWindow_fixed : ∀ a0 a1 a2, NextFixed (execPaceWindow a0 a1 a2) a2 := by
  intro a0 a1 a2; refine ⟨_, rfl,
      ?_⟩; (repeat' (first | with_reducible refine State.pwrStep_fixed _ _ (fun s => ?_) | split))
  all_goals grind [State.fixed, foldl_fixed, foldl_fst_fixed, State.onDom_fixed, State.paceRule_fixed]
theorem execRegSetpointAck_fixed : ∀ a0 a1, NextFixed (execRegSetpointAck a0 a1) a1 := by
  intro a0 a1; unfold execRegSetpointAck; refine ⟨_, rfl, ?_⟩
  grind only [State.fixed, foldl_fixed, foldl_fst_fixed, State.onDom_fixed]
theorem execRegSlewEnd_fixed : ∀ a0 a1, NextFixed (execRegSlewEnd a0 a1) a1 := by
  intro a0 a1; unfold execRegSlewEnd; refine ⟨_, rfl, ?_⟩; grind only [State.fixed, foldl_fixed, foldl_fst_fixed,
      State.setDom_fixed]
theorem execDroopEngage_fixed : ∀ a0 a1, NextFixed (execDroopEngage a0 a1) a1 := by
  intro a0 a1; refine ⟨_, rfl,
      ?_⟩; (repeat' (first | with_reducible refine State.pwrStep_fixed _ _ (fun s => ?_) | split))
  all_goals grind [State.fixed, foldl_fixed, foldl_fst_fixed, State.onDom_fixed]
theorem execDroopRelease_fixed : ∀ a0 a1, NextFixed (execDroopRelease a0 a1) a1 := by
  intro a0 a1; refine ⟨_, rfl,
      ?_⟩; (repeat' (first | with_reducible refine State.pwrStep_fixed _ _ (fun s => ?_) | split))
  all_goals grind [State.fixed, foldl_fixed, foldl_fst_fixed, State.event_fixed, State.onDom_fixed]
theorem execShortfallEnter_fixed : ∀ a0 a1 a2, NextFixed (execShortfallEnter a0 a1 a2) a2 := by
  intro a0 a1 a2; unfold execShortfallEnter; refine ⟨_, rfl, ?_⟩
  grind only [State.fixed, foldl_fixed, foldl_fst_fixed, State.setDom_fixed, State.shortfallReport_fixed]
theorem execShortfallClear_fixed : ∀ a0 a1 a2, NextFixed (execShortfallClear a0 a1 a2) a2 := by
  intro a0 a1 a2; unfold execShortfallClear; refine ⟨_, rfl, ?_⟩
  grind only [State.fixed, foldl_fixed, foldl_fst_fixed, State.setDom_fixed, State.shortfallReport_fixed]
theorem execAgeingRecord_fixed : ∀ a0 a1, NextFixed (execAgeingRecord a0 a1) a1 := by
  intro a0 a1; unfold execAgeingRecord; refine ⟨_, rfl, ?_⟩; grind only [State.fixed, foldl_fixed, foldl_fst_fixed]
theorem execBrownout_fixed : ∀ a0 a1, NextFixed (execBrownout a0 a1) a1 := by
  intro a0 a1; unfold execBrownout; refine ⟨_, rfl, ?_⟩; grind only [State.fixed, foldl_fixed, foldl_fst_fixed,
      State.latchFatal_fixed, State.raise_fixed]
theorem execRegControlLoss_fixed : ∀ a0 a1, NextFixed (execRegControlLoss a0 a1) a1 := by
  intro a0 a1; unfold execRegControlLoss; refine ⟨_, rfl, ?_⟩
  grind only [State.fixed, foldl_fixed, foldl_fst_fixed, State.latchFatal_fixed, State.raise_fixed]
theorem execThermalThreshold_fixed : ∀ a0 a1 a2, NextFixed (execThermalThreshold a0 a1 a2) a2 := by
  intro a0 a1 a2; refine ⟨_, rfl,
      ?_⟩; (repeat' (first | with_reducible refine State.pwrStep_fixed _ _ (fun s => ?_) | split))
  all_goals grind [State.fixed, foldl_fixed, foldl_fst_fixed, State.onDom_fixed]
theorem execThermCeilingStep_fixed : ∀ a0 a1, NextFixed (execThermCeilingStep a0 a1) a1 := by
  intro a0 a1; refine ⟨_, rfl,
      ?_⟩; (repeat' (first | with_reducible refine State.pwrStep_fixed _ _ (fun s => ?_) | split))
  all_goals grind [State.fixed, foldl_fixed, foldl_fst_fixed, State.onDom_fixed]
theorem execThermtrip_fixed : ∀ a0 a1, NextFixed (execThermtrip a0 a1) a1 := by
  intro a0 a1; unfold execThermtrip; refine ⟨_, rfl, ?_⟩; grind only [State.fixed, foldl_fixed, foldl_fst_fixed,
      State.latchFatal_fixed, State.raise_fixed]
theorem execCurrentLimit_fixed : ∀ a0 a1 a2, NextFixed (execCurrentLimit a0 a1 a2) a2 := by
  intro a0 a1 a2; refine ⟨_, rfl,
      ?_⟩; (repeat' (first | with_reducible refine State.pwrStep_fixed _ _ (fun s => ?_) | split))
  all_goals grind [State.fixed, foldl_fixed, foldl_fst_fixed, State.onDom_fixed]
theorem execGrantLeaseExpire_fixed : ∀ a0, NextFixed (execGrantLeaseExpire a0) a0 := by
  intro a0; unfold execGrantLeaseExpire; refine ⟨_, rfl, ?_⟩; grind only [State.fixed, foldl_fixed, foldl_fst_fixed,
      State.notify_fixed]
theorem execDomainGate_fixed : ∀ a0 a1, NextFixed (execDomainGate a0 a1) a1 := by
  intro a0 a1; refine ⟨_, rfl,
      ?_⟩; dsimp only; (repeat' (first | with_reducible refine State.pwrStep_fixed _ _ (fun s => ?_) | split))
  all_goals (first | rfl | grind [State.fixed, foldl_fixed, foldl_fst_fixed, State.onTile_fixed, State.onDom_fixed])
theorem execPowerGrant_fixed : ∀ a0, NextFixed (execPowerGrant a0) a0 := by
  intro a0; refine ⟨_, rfl,
      ?_⟩; (repeat (first | with_reducible refine State.judge_fixed _ _ _ _ (fun s => ?_) | with_reducible refine State.command_fixed _ _ _ (fun s r => ?_))); all_goals grind [State.fixed, foldl_fixed, foldl_fst_fixed, State.reply_fixed]
theorem execPowerQuery_fixed : ∀ a0, NextFixed (execPowerQuery a0) a0 := by
  intro a0; refine ⟨_, rfl,
      ?_⟩; (repeat (first | with_reducible refine State.judge_fixed _ _ _ _ (fun s => ?_) | with_reducible refine State.command_fixed _ _ _ (fun s r => ?_))); all_goals grind [State.fixed, foldl_fixed, foldl_fst_fixed, State.reply_fixed]
theorem execTimerefLoss_fixed : ∀ a0, NextFixed (execTimerefLoss a0) a0 := by
  intro a0; unfold execTimerefLoss; refine ⟨_, rfl, ?_⟩; grind only [State.fixed, foldl_fixed, foldl_fst_fixed,
      State.raise_fixed, State.timeGo_fixed]
theorem execTimerefRestore_fixed : ∀ a0, NextFixed (execTimerefRestore a0) a0 := by
  intro a0; unfold execTimerefRestore; refine ⟨_, rfl, ?_⟩; grind only [State.fixed, foldl_fixed, foldl_fst_fixed,
      State.timeGo_fixed]
theorem execPpsEdge_fixed : ∀ a0, NextFixed (execPpsEdge a0) a0 := by
  intro a0; unfold execPpsEdge; refine ⟨_, rfl, ?_⟩; grind only [State.fixed, foldl_fixed, foldl_fst_fixed,
      State.timeGo_fixed]
theorem execPpsLoss_fixed : ∀ a0, NextFixed (execPpsLoss a0) a0 := by
  intro a0; unfold execPpsLoss; refine ⟨_, rfl, ?_⟩; grind only [State.fixed, foldl_fixed, foldl_fst_fixed,
      State.raise_fixed, State.timeGo_fixed]
theorem execPtpLoss_fixed : ∀ a0, NextFixed (execPtpLoss a0) a0 := by
  intro a0; unfold execPtpLoss; refine ⟨_, rfl, ?_⟩; grind only [State.fixed, foldl_fixed, foldl_fst_fixed,
      State.raise_fixed, State.timeGo_fixed]
theorem execPtpMessageReceive_fixed : ∀ a0 a1 a2 a3, NextFixed (execPtpMessageReceive a0 a1 a2 a3) a3 := by
  intro a0 a1 a2 a3; unfold execPtpMessageReceive; refine ⟨_, rfl, ?_⟩
  grind only [State.fixed, foldl_fixed, foldl_fst_fixed, State.timeGo_fixed]
theorem execLinkTimeOffset_fixed : ∀ a0 a1 a2 a3, NextFixed (execLinkTimeOffset a0 a1 a2 a3) a3 := by
  intro a0 a1 a2 a3; unfold execLinkTimeOffset; refine ⟨_, rfl, ?_⟩
  grind only [State.fixed, foldl_fixed, foldl_fst_fixed, State.onPort_fixed]
theorem execErrInject_fixed : ∀ a0 a1 a2 a3, NextFixed (execErrInject a0 a1 a2 a3) a3 := by
  intro a0 a1 a2 a3; unfold execErrInject; refine ⟨_, rfl, ?_⟩
  grind only [State.fixed, foldl_fixed, foldl_fst_fixed, State.writeErrCtl_fixed]
theorem execErrCountRead_fixed : ∀ a0 a1 a2, NextFixed (execErrCountRead a0 a1 a2) a2 := by
  intro a0 a1 a2; unfold execErrCountRead; refine ⟨_, rfl, ?_⟩
  grind only [State.fixed, foldl_fixed, foldl_fst_fixed, State.setErr_fixed]
theorem execFaultStatus_fixed : ∀ a0, NextFixed (execFaultStatus a0) a0 := by
  intro a0; refine ⟨_, rfl,
      ?_⟩; (repeat (first | with_reducible refine State.judge_fixed _ _ _ _ (fun s => ?_) | with_reducible refine State.command_fixed _ _ _ (fun s r => ?_))); all_goals grind [State.fixed, foldl_fixed, foldl_fst_fixed, State.reply_fixed]
theorem execErrClear_fixed : ∀ a0, NextFixed (execErrClear a0) a0 := by
  intro a0; refine ⟨_, rfl,
      ?_⟩; (repeat (first | with_reducible refine State.judge_fixed _ _ _ _ (fun s => ?_) | with_reducible refine State.command_fixed _ _ _ (fun s r => ?_))); all_goals grind [State.fixed, foldl_fixed, foldl_fst_fixed, State.reply_fixed, State.clearErr_fixed]
theorem execSafeStateEthernetIdle_fixed : ∀ a0, NextFixed (execSafeStateEthernetIdle a0) a0 := by
  intro a0; unfold execSafeStateEthernetIdle; refine ⟨_, rfl, ?_⟩; grind only [State.fixed, foldl_fixed, foldl_fst_fixed]
theorem execMeshCrcRetry_fixed : ∀ a0 a1 a2, NextFixed (execMeshCrcRetry a0 a1 a2) a2 := by
  intro a0 a1 a2; unfold execMeshCrcRetry; refine ⟨_, rfl, ?_⟩
  grind only [State.fixed, foldl_fixed, foldl_fst_fixed, State.count_fixed, State.raise_fixed]
theorem execMeshHalfDown_fixed : ∀ a0 a1 a2, NextFixed (execMeshHalfDown a0 a1 a2) a2 := by
  intro a0 a1 a2; unfold execMeshHalfDown; refine ⟨_, rfl, ?_⟩
  grind only [State.fixed, foldl_fixed, foldl_fst_fixed, State.raise_fixed, State.setHalves_fixed]
theorem execMeshLinkDown_fixed : ∀ a0 a1 a2, NextFixed (execMeshLinkDown a0 a1 a2) a2 := by
  intro a0 a1 a2; unfold execMeshLinkDown; refine ⟨_, rfl, ?_⟩
  grind only [State.fixed, foldl_fixed, foldl_fst_fixed, State.charge_fixed, State.raise_fixed, State.chanErr_fixed,
      State.setHalves_fixed]
theorem execPatrolScrubRead_fixed : ∀ a0 a1, NextFixed (execPatrolScrubRead a0 a1) a1 := by
  intro a0 a1; unfold execPatrolScrubRead; refine ⟨_, rfl, ?_⟩
  grind only [State.fixed, foldl_fixed, foldl_fst_fixed, State.onSlab_fixed, State.orStat_fixed, State.count_fixed,
      State.readCw_fixed]
theorem execTileRetire_fixed : ∀ a0 a1, NextFixed (execTileRetire a0 a1) a1 := by
  intro a0 a1; unfold execTileRetire; refine ⟨_, rfl, ?_⟩; grind only [State.fixed, foldl_fixed, foldl_fst_fixed,
      State.charge_fixed, State.beginStop_fixed, State.retireTile_fixed]
theorem execV3p3Rise_fixed : ∀ a0, NextFixed (execV3p3Rise a0) a0 := by
  intro a0; unfold execV3p3Rise; refine ⟨_, rfl, ?_⟩; grind only [State.fixed, foldl_fixed, foldl_fst_fixed]
theorem execSuppliesInRange_fixed : ∀ a0, NextFixed (execSuppliesInRange a0) a0 := by
  intro a0; unfold execSuppliesInRange; refine ⟨_, rfl, ?_⟩; grind only [State.fixed, foldl_fixed, foldl_fst_fixed,
      State.resetPackage_fixed]
theorem execTrialWatchdog_fixed : ∀ a0, NextFixed (execTrialWatchdog a0) a0 := by
  intro a0; unfold execTrialWatchdog; refine ⟨_, rfl, ?_⟩; grind only [State.fixed, foldl_fixed, foldl_fst_fixed,
      State.doReset_fixed]
theorem execResetNAssert_fixed : ∀ a0 a1, NextFixed (execResetNAssert a0 a1) a1 := by
  intro a0 a1; unfold execResetNAssert; refine ⟨_, rfl, ?_⟩; grind only [State.fixed, foldl_fixed, foldl_fst_fixed,
      State.doReset_fixed]
theorem execPowerDown_fixed : ∀ a0 a1 a2, NextFixed (execPowerDown a0 a1 a2) a2 := by
  intro a0 a1 a2; unfold execPowerDown; refine ⟨_, rfl, ?_⟩; grind only [State.fixed, foldl_fixed, foldl_fst_fixed,
      State.powerOff_fixed]
theorem execJtagImageWrite_fixed : ∀ a0 a1 a2 a3, NextFixed (execJtagImageWrite a0 a1 a2 a3) a3 := by
  intro a0 a1 a2 a3; unfold execJtagImageWrite; refine ⟨_, rfl, ?_⟩
  grind only [State.fixed, foldl_fixed, foldl_fst_fixed, State.onSlot_fixed]
theorem execRingDoorbell_fixed : ∀ a0 a1 a2 a3, NextFixed (execRingDoorbell a0 a1 a2 a3) a3 := by
  intro a0 a1 a2 a3; refine ⟨_, rfl,
      ?_⟩; (repeat (first | with_reducible refine State.command_fixed _ _ _ (fun s r => ?_)))
  all_goals grind [State.fixed, foldl_fixed, foldl_fst_fixed, State.doorbell_fixed, State.coreAns_fixed,
      State.rdmaDoorbell_fixed]
theorem execRingFetch_fixed : ∀ a0 a1, NextFixed (execRingFetch a0 a1) a1 := by
  intro a0 a1; unfold execRingFetch; refine ⟨_, rfl, ?_⟩; grind only [State.fixed, foldl_fixed, foldl_fst_fixed,
      State.fetchRing_fixed]
theorem execRingNop_fixed : ∀ a0 a1, NextFixed (execRingNop a0 a1) a1 := by
  intro a0 a1; refine ⟨_, rfl,
      ?_⟩; (repeat (first | with_reducible refine State.runCmd_fixed _ _ _ _ (fun s c => ?_)))
  all_goals grind [State.fixed, foldl_fixed, foldl_fst_fixed, State.completeCmd_fixed]
theorem execRingLaunch_fixed : ∀ a0 a1, NextFixed (execRingLaunch a0 a1) a1 := by
  intro a0 a1; refine ⟨_, rfl,
      ?_⟩; (repeat (first | with_reducible refine State.runCmd_fixed _ _ _ _ (fun s c => ?_)))
  all_goals grind [State.fixed, foldl_fixed, foldl_fst_fixed, State.deliver_fixed, State.deliverOne_fixed,
      State.onCmd_fixed, State.completeCmd_fixed]
theorem execRingLaunchComplete_fixed : ∀ a0 a1, NextFixed (execRingLaunchComplete a0 a1) a1 := by
  intro a0 a1; unfold execRingLaunchComplete; refine ⟨_, rfl, ?_⟩
  grind only [State.fixed, foldl_fixed, foldl_fst_fixed, State.completeCmd_fixed]
theorem execRingCopy_fixed : ∀ a0 a1, NextFixed (execRingCopy a0 a1) a1 := by
  intro a0 a1; refine ⟨_, rfl,
      ?_⟩; (repeat (first | with_reducible refine State.runCmd_fixed _ _ _ _ (fun s c => ?_)))
  all_goals grind [State.fixed, foldl_fixed, foldl_fst_fixed, State.reportRefused_fixed, State.copyRows_fixed,
      State.raiseDsp_fixed, State.completeCmd_fixed]
theorem execRingWait_fixed : ∀ a0 a1, NextFixed (execRingWait a0 a1) a1 := by
  intro a0 a1; refine ⟨_, rfl,
      ?_⟩; (repeat (first | with_reducible refine State.runCmd_fixed _ _ _ _ (fun s c => ?_)))
  all_goals grind [State.fixed, foldl_fixed, foldl_fst_fixed, State.completeCmd_fixed]
theorem execRingWaitRelease_fixed : ∀ a0 a1, NextFixed (execRingWaitRelease a0 a1) a1 := by
  intro a0 a1; unfold execRingWaitRelease; refine ⟨_, rfl, ?_⟩
  grind only [State.fixed, foldl_fixed, foldl_fst_fixed, State.completeCmd_fixed]
theorem execRingSignal_fixed : ∀ a0 a1, NextFixed (execRingSignal a0 a1) a1 := by
  intro a0 a1; refine ⟨_, rfl,
      ?_⟩; (repeat (first | with_reducible refine State.command_fixed _ _ _ (fun s r => ?_) | with_reducible refine State.runCmd_fixed _ _ _ _ (fun s c => ?_))); all_goals grind [State.fixed, foldl_fixed, foldl_fst_fixed, State.count_fixed, State.signalFence_fixed, State.completeCmd_fixed]
theorem execRingCommandComplete_fixed : ∀ a0 a1, NextFixed (execRingCommandComplete a0 a1) a1 := by
  intro a0 a1; unfold execRingCommandComplete; refine ⟨_, rfl, ?_⟩
  grind only [State.fixed, foldl_fixed, foldl_fst_fixed, State.finishCmd_fixed]
theorem execCoreFenceAdd_fixed : ∀ a0 a1 a2 a3, NextFixed (execCoreFenceAdd a0 a1 a2 a3) a3 := by
  intros; refine ⟨_, rfl, ?_⟩; (simp only [State.coreFence_fixed]; done)
theorem execCoreFenceSet_fixed : ∀ a0 a1 a2 a3, NextFixed (execCoreFenceSet a0 a1 a2 a3) a3 := by
  intros; refine ⟨_, rfl, ?_⟩; (simp only [State.coreFence_fixed]; done)
theorem execRingCollective_fixed : ∀ a0 a1, NextFixed (execRingCollective a0 a1) a1 := by
  intro a0 a1; refine ⟨_, rfl,
      ?_⟩; (repeat (first | with_reducible refine State.runCmd_fixed _ _ _ _ (fun s c => ?_)))
  all_goals grind [State.fixed, foldl_fixed, foldl_fst_fixed, State.collStart_fixed]
theorem execRingBarrier_fixed : ∀ a0 a1, NextFixed (execRingBarrier a0 a1) a1 := by
  intro a0 a1; refine ⟨_, rfl,
      ?_⟩; (repeat (first | with_reducible refine State.runCmd_fixed _ _ _ _ (fun s c => ?_)))
  all_goals grind [State.fixed, foldl_fixed, foldl_fst_fixed, State.collStart_fixed]
theorem execCollAdmit_fixed : ∀ a0, NextFixed (execCollAdmit a0) a0 := by
  intro a0; unfold execCollAdmit; refine ⟨_, rfl, ?_⟩; grind only [State.fixed, foldl_fixed, foldl_fst_fixed,
      State.collRun_fixed, State.collBegin_fixed]
theorem execCollPartReceive_fixed : ∀ a0 a1, NextFixed (execCollPartReceive a0 a1) a1 := by
  intro a0 a1; refine ⟨_, rfl,
      ?_⟩; (repeat (first | with_reducible refine State.takeColl_fixed _ _ _ (fun s p => ?_)))
  all_goals grind [State.fixed, foldl_fixed, foldl_fst_fixed, State.collAdvance_fixed, State.collValue_fixed,
      State.collData_fixed]
theorem execCollResultReceive_fixed : ∀ a0 a1, NextFixed (execCollResultReceive a0 a1) a1 := by
  intro a0 a1; refine ⟨_, rfl,
      ?_⟩; (repeat (first | with_reducible refine State.takeColl_fixed _ _ _ (fun s p => ?_)))
  all_goals grind [State.fixed, foldl_fixed, foldl_fst_fixed, State.putColl_fixed, State.collConsume_fixed,
      State.collAdvance_fixed, State.collValue_fixed]
theorem execCollDeclineReceive_fixed : ∀ a0 a1, NextFixed (execCollDeclineReceive a0 a1) a1 := by
  intro a0 a1; refine ⟨_, rfl,
      ?_⟩; (repeat (first | with_reducible refine State.takeColl_fixed _ _ _ (fun s p => ?_)))
  all_goals grind [State.fixed, foldl_fixed, foldl_fst_fixed, State.orStat_fixed, State.count_fixed,
      State.putColl_fixed, State.collGrant_fixed, State.collConsume_fixed, State.collAdvance_fixed]
theorem execCollGrantReceive_fixed : ∀ a0 a1, NextFixed (execCollGrantReceive a0 a1) a1 := by
  intro a0 a1; refine ⟨_, rfl,
      ?_⟩; (repeat (first | with_reducible refine State.takeColl_fixed _ _ _ (fun s p => ?_)))
  all_goals grind [State.fixed, foldl_fixed, foldl_fst_fixed, State.putColl_fixed, State.collFlush_fixed,
      State.noticeDrop_fixed]
theorem execCollNoticeReceive_fixed : ∀ a0 a1, NextFixed (execCollNoticeReceive a0 a1) a1 := by
  intro a0 a1; refine ⟨_, rfl,
      ?_⟩; (repeat (first | with_reducible refine State.takeColl_fixed _ _ _ (fun s p => ?_)))
  all_goals grind [State.fixed, foldl_fixed, foldl_fst_fixed, State.count_fixed, State.collAbort_fixed,
      State.noticeDrop_fixed]
theorem execCollTimeout_fixed : ∀ a0 a1 a2, NextFixed (execCollTimeout a0 a1 a2) a2 := by
  intro a0 a1 a2; unfold execCollTimeout; refine ⟨_, rfl, ?_⟩
  grind only [State.fixed, foldl_fixed, foldl_fst_fixed, State.collAbort_fixed]
theorem execCollComplete_fixed : ∀ a0 a1 a2, NextFixed (execCollComplete a0 a1 a2) a2 := by
  intro a0 a1 a2; unfold execCollComplete; refine ⟨_, rfl, ?_⟩
  grind only [State.fixed, foldl_fixed, foldl_fst_fixed, State.count_fixed, State.putColl_fixed, State.collFail_fixed,
      State.completeCmd_fixed, State.groupRecord_fixed]
theorem execUnreachableNoticeArrive_fixed : ∀ a0 a1, NextFixed (execUnreachableNoticeArrive a0 a1) a1 := by
  intro a0 a1; unfold execUnreachableNoticeArrive; refine ⟨_, rfl, ?_⟩
  grind only [State.fixed, foldl_fixed, foldl_fst_fixed, State.noticeAt_fixed, State.collAbort_fixed]
theorem execSkelistMessageReceive_fixed : ∀ a0 a1 a2, NextFixed (execSkelistMessageReceive a0 a1 a2) a2 := by
  intros; refine ⟨_, rfl, ?_⟩; (simp only [State.skelistUdp_fixed]; done)
theorem execMailboxGo_fixed : ∀ a0 a1, NextFixed (execMailboxGo a0 a1) a1 := by
  intro a0 a1; unfold execMailboxGo; refine ⟨_, rfl, ?_⟩; grind only [State.fixed, foldl_fixed, foldl_fst_fixed,
      State.submitMailbox_fixed]
theorem execIdentify_fixed : ∀ a0, NextFixed (execIdentify a0) a0 := by
  intro a0; refine ⟨_, rfl,
      ?_⟩; (repeat (first | with_reducible refine State.judge_fixed _ _ _ _ (fun s => ?_) | with_reducible refine State.command_fixed _ _ _ (fun s r => ?_))); all_goals grind [State.fixed, foldl_fixed, foldl_fst_fixed, State.reply_fixed]
theorem execTagRead_fixed : ∀ a0, NextFixed (execTagRead a0) a0 := by
  intro a0; refine ⟨_, rfl,
      ?_⟩; (repeat (first | with_reducible refine State.judge_fixed _ _ _ _ (fun s => ?_) | with_reducible refine State.command_fixed _ _ _ (fun s r => ?_))); all_goals grind [State.fixed, foldl_fixed, foldl_fst_fixed, State.reply_fixed]
theorem execFwStage_fixed : ∀ a0, NextFixed (execFwStage a0) a0 := by
  intro a0; refine ⟨_, rfl,
      ?_⟩; (repeat (first | with_reducible refine State.judge_fixed _ _ _ _ (fun s => ?_) | with_reducible refine State.command_fixed _ _ _ (fun s r => ?_))); all_goals grind [State.fixed, foldl_fixed, foldl_fst_fixed, State.reply_fixed, State.readImage_fixed, State.holdLong_fixed, State.setSlot_fixed, State.onSlot_fixed]
theorem execFwQuery_fixed : ∀ a0, NextFixed (execFwQuery a0) a0 := by
  intro a0; refine ⟨_, rfl,
      ?_⟩; (repeat (first | with_reducible refine State.judge_fixed _ _ _ _ (fun s => ?_) | with_reducible refine State.command_fixed _ _ _ (fun s r => ?_))); all_goals grind [State.fixed, foldl_fixed, foldl_fst_fixed, State.reply_fixed]
theorem execEthLinkUp_fixed : ∀ a0, NextFixed (execEthLinkUp a0) a0 := by
  intro a0; unfold execEthLinkUp; refine ⟨_, rfl, ?_⟩; grind only [State.fixed, foldl_fixed, foldl_fst_fixed,
      State.dhcpStart_fixed, State.ethResume_fixed]
theorem execEthLinkLoss_fixed : ∀ a0, NextFixed (execEthLinkLoss a0) a0 := by
  intro a0; unfold execEthLinkLoss; refine ⟨_, rfl, ?_⟩; grind only [State.fixed, foldl_fixed, foldl_fst_fixed]
theorem execEthHalfWidthFallback_fixed : ∀ a0, NextFixed (execEthHalfWidthFallback a0) a0 := by
  intro a0; unfold execEthHalfWidthFallback; refine ⟨_, rfl, ?_⟩; grind only [State.fixed, foldl_fixed, foldl_fst_fixed]
theorem execAddrDadComplete_fixed : ∀ a0 a1 a2, NextFixed (execAddrDadComplete a0 a1 a2) a2 := by
  intro a0 a1 a2; unfold execAddrDadComplete; refine ⟨_, rfl, ?_⟩
  grind only [State.fixed, foldl_fixed, foldl_fst_fixed, State.orStat_fixed]
theorem execPfcFrameReceive_fixed : ∀ a0 a1 a2, NextFixed (execPfcFrameReceive a0 a1 a2) a2 := by
  intro a0 a1 a2; unfold execPfcFrameReceive; refine ⟨_, rfl, ?_⟩
  grind only [State.fixed, foldl_fixed, foldl_fst_fixed, State.ethResume_fixed]
theorem execCnpReceive_fixed : ∀ a0 a1, NextFixed (execCnpReceive a0 a1) a1 := by
  intro a0 a1; refine ⟨_, rfl,
      ?_⟩; (repeat (first | with_reducible refine State.rdmaConn_fixed _ _ _ (fun s k => ?_)))
  all_goals grind [State.fixed, foldl_fixed, foldl_fst_fixed, State.cnpIn_fixed]
theorem execCnpRateRaise_fixed (qpn : BitVec 24) (s : State) : NextFixed (execCnpRateRaise qpn s) s := by
  refine ⟨_, rfl, State.rdmaConn_fixed _ _ _ (fun s k => ?_)⟩
  cases k.cnpGot with
  | none => rfl
  | some t => simp only; split <;> simp only [State.setConn_fixed]
theorem execEthFrameReceive_fixed : ∀ a0 a1 a2, NextFixed (execEthFrameReceive a0 a1 a2) a2 := by
  intro a0 a1 a2; unfold execEthFrameReceive; refine ⟨_, rfl, ?_⟩
  grind only [State.fixed, foldl_fixed, foldl_fst_fixed, State.raise_fixed, State.pfcBuffers_fixed,
      State.ethDrop_fixed, State.ethFrame_fixed]
theorem execWinConnect_fixed : ∀ a0, NextFixed (execWinConnect a0) a0 := by
  intro a0; refine ⟨_, rfl,
      ?_⟩; (repeat (first | with_reducible refine State.judge_fixed _ _ _ _ (fun s => ?_) | with_reducible refine State.command_fixed _ _ _ (fun s r => ?_))); all_goals grind [State.fixed, foldl_fixed, foldl_fst_fixed, State.reply_fixed]
theorem execWinClose_fixed : ∀ a0, NextFixed (execWinClose a0) a0 := by
  intro a0; refine ⟨_, rfl,
      ?_⟩; (repeat (first | with_reducible refine State.judge_fixed _ _ _ _ (fun s => ?_) | with_reducible refine State.command_fixed _ _ _ (fun s r => ?_))); all_goals grind [State.fixed, foldl_fixed, foldl_fst_fixed, State.reply_fixed]
theorem execRdmaWrite_fixed : ∀ a0 a1 a2 a3 a4, NextFixed (execRdmaWrite a0 a1 a2 a3 a4) a4 := by
  intro a0 a1 a2 a3 a4; refine ⟨_, rfl,
      ?_⟩; (repeat (first | with_reducible refine State.rdmaConn_fixed _ _ _ (fun s k => ?_)))
  all_goals grind [State.fixed, foldl_fixed, foldl_fst_fixed, State.count_fixed, State.writePieces_fixed,
      State.answer_fixed, State.rdmaDoorbell_fixed, State.rdmaNak_fixed]
theorem execRdmaRead_fixed : ∀ a0 a1 a2 a3 a4, NextFixed (execRdmaRead a0 a1 a2 a3 a4) a4 := by
  intro a0 a1 a2 a3 a4; refine ⟨_, rfl,
      ?_⟩; (repeat (first | with_reducible refine State.rdmaConn_fixed _ _ _ (fun s k => ?_)))
  all_goals grind [State.fixed, foldl_fixed, foldl_fst_fixed, State.count_fixed, State.readPieces_fixed,
      State.answer_fixed, State.rdmaNak_fixed]
theorem execRdmaSend_fixed : ∀ a0 a1 a2, NextFixed (execRdmaSend a0 a1 a2) a2 := by
  intro a0 a1 a2; refine ⟨_, rfl,
      ?_⟩; (repeat (first | with_reducible refine State.rdmaConn_fixed _ _ _ (fun s k => ?_)))
  all_goals grind [State.fixed, foldl_fixed, foldl_fst_fixed, State.answer_fixed, State.fqFill_fixed, State.rdmaNak_fixed]
theorem execFqTxTailWrite_fixed : ∀ a0 a1 a2, NextFixed (execFqTxTailWrite a0 a1 a2) a2 := by
  intro a0 a1 a2; unfold execFqTxTailWrite; refine ⟨_, rfl, ?_⟩
  grind only [State.fixed, foldl_fixed, foldl_fst_fixed, State.fqTxTail_fixed]
theorem execFqRxTailWrite_fixed : ∀ a0 a1 a2, NextFixed (execFqRxTailWrite a0 a1 a2) a2 := by
  intro a0 a1 a2; unfold execFqRxTailWrite; refine ⟨_, rfl, ?_⟩
  grind only [State.fixed, foldl_fixed, foldl_fst_fixed, State.fqRxTail_fixed]
theorem execFqPortWrite_fixed : ∀ a0 a1 a2 a3, NextFixed (execFqPortWrite a0 a1 a2 a3) a3 := by
  intro a0 a1 a2 a3; unfold execFqPortWrite; refine ⟨_, rfl, ?_⟩
  grind only [State.fixed, foldl_fixed, foldl_fst_fixed, State.fqPort_fixed]
theorem execPeerWrite_fixed : ∀ a0, NextFixed (execPeerWrite a0) a0 := by
  intro a0; refine ⟨_, rfl,
      ?_⟩; (repeat (first | with_reducible refine State.judge_fixed _ _ _ _ (fun s => ?_) | with_reducible refine State.command_fixed _ _ _ (fun s r => ?_))); all_goals grind [State.fixed, foldl_fixed, foldl_fst_fixed, State.onFn_fixed, State.reply_fixed]
theorem execSliceSet_fixed : ∀ a0, NextFixed (execSliceSet a0) a0 := by
  intro a0; refine ⟨_, rfl,
      ?_⟩; (repeat (first | with_reducible refine State.judge_fixed _ _ _ _ (fun s => ?_) | with_reducible refine State.command_fixed _ _ _ (fun s r => ?_))); all_goals grind [State.fixed, foldl_fixed, foldl_fst_fixed, State.onFn_fixed, State.reply_fixed]
theorem execRouteWrite_fixed : ∀ a0, NextFixed (execRouteWrite a0) a0 := by
  intro a0; refine ⟨_, rfl,
      ?_⟩; (repeat (first | with_reducible refine State.judge_fixed _ _ _ _ (fun s => ?_) | with_reducible refine State.command_fixed _ _ _ (fun s r => ?_))); all_goals grind [State.fixed, foldl_fixed, foldl_fst_fixed, State.reply_fixed, State.writeUse_fixed]
theorem execRouteRead_fixed : ∀ a0, NextFixed (execRouteRead a0) a0 := by
  intro a0; refine ⟨_, rfl,
      ?_⟩; (repeat (first | with_reducible refine State.judge_fixed _ _ _ _ (fun s => ?_) | with_reducible refine State.command_fixed _ _ _ (fun s r => ?_))); all_goals grind [State.fixed, foldl_fixed, foldl_fst_fixed, State.reply_fixed]
theorem execLnkLinkUp_fixed : ∀ a0 a1 a2 a3, NextFixed (execLnkLinkUp a0 a1 a2 a3) a3 := by
  intro a0 a1 a2 a3; unfold execLnkLinkUp; refine ⟨_, rfl, ?_⟩
  grind only [State.fixed, foldl_fixed, foldl_fst_fixed, State.raise_fixed, State.onPort_fixed, State.portGo_fixed,
      State.leaveService_fixed, State.enterService_fixed]
theorem execLnkReplay_fixed : ∀ a0 a1 a2 a3, NextFixed (execLnkReplay a0 a1 a2 a3) a3 := by
  intro a0 a1 a2 a3; unfold execLnkReplay; refine ⟨_, rfl, ?_⟩
  grind only [State.fixed, foldl_fixed, foldl_fst_fixed, State.count_fixed, State.raise_fixed, State.onPort_fixed]
theorem execLnkRetrain_fixed : ∀ a0 a1 a2, NextFixed (execLnkRetrain a0 a1 a2) a2 := by
  intro a0 a1 a2; unfold execLnkRetrain; refine ⟨_, rfl, ?_⟩; grind only [State.fixed, foldl_fixed, foldl_fst_fixed,
      State.raise_fixed, State.portGo_fixed]
theorem execLnkRetrainTimeout_fixed : ∀ a0 a1, NextFixed (execLnkRetrainTimeout a0 a1) a1 := by
  intro a0 a1; unfold execLnkRetrainTimeout; refine ⟨_, rfl, ?_⟩
  grind only [State.fixed, foldl_fixed, foldl_fst_fixed, State.leaveService_fixed]
theorem execLnkDownRetry_fixed : ∀ a0 a1, NextFixed (execLnkDownRetry a0 a1) a1 := by
  intro a0 a1; unfold execLnkDownRetry; refine ⟨_, rfl, ?_⟩; grind only [State.fixed, foldl_fixed, foldl_fst_fixed,
      State.portGo_fixed]
theorem execFenceOrderedSetReceive_fixed : ∀ a0 a1, NextFixed (execFenceOrderedSetReceive a0 a1) a1 := by
  intro a0 a1; unfold execFenceOrderedSetReceive; refine ⟨_, rfl, ?_⟩
  grind only [State.fixed, foldl_fixed, foldl_fst_fixed, State.leaveService_fixed]
theorem execPortLeaveService_fixed : ∀ a0 a1, NextFixed (execPortLeaveService a0 a1) a1 := by
  intro a0 a1; unfold execPortLeaveService; refine ⟨_, rfl, ?_⟩
  grind only [State.fixed, foldl_fixed, foldl_fst_fixed, State.leaveService_fixed]
theorem execFabricPacketReceive_fixed : ∀ a0 a1 a2 a3, NextFixed (execFabricPacketReceive a0 a1 a2 a3) a3 := by
  intro a0 a1 a2 a3; unfold execFabricPacketReceive; refine ⟨_, rfl, ?_⟩
  grind only [State.fixed, foldl_fixed, foldl_fst_fixed, State.count_fixed, State.forward_fixed]
theorem execPacketAged_fixed : ∀ a0 a1 a2, NextFixed (execPacketAged a0 a1 a2) a2 := by
  intro a0 a1 a2; unfold execPacketAged; refine ⟨_, rfl, ?_⟩; grind only [State.fixed, foldl_fixed, foldl_fst_fixed,
      State.raise_fixed, State.onPort_fixed, State.discard_fixed]
theorem execLnkSysUseWrite_fixed : ∀ a0 a1, NextFixed (execLnkSysUseWrite a0 a1) a1 := by
  intro a0 a1; unfold execLnkSysUseWrite; refine ⟨_, rfl, ?_⟩
  grind only [State.fixed, foldl_fixed, foldl_fst_fixed, State.count_fixed, State.writeUse_fixed]
theorem execLnkControlFlitReceive_fixed : ∀ a0 a1 a2 a3, NextFixed (execLnkControlFlitReceive a0 a1 a2 a3) a3 := by
  intro a0 a1 a2 a3; unfold execLnkControlFlitReceive; refine ⟨_, rfl, ?_⟩
  grind only [State.fixed, foldl_fixed, foldl_fst_fixed, State.onPort_fixed]
theorem execHcoreAccess_fixed : ∀ a0 a1 a2 a3 a4 a5, NextFixed (execHcoreAccess a0 a1 a2 a3 a4 a5) a5 := by
  intro a0 a1 a2 a3 a4 a5; unfold execHcoreAccess; refine ⟨_, rfl, ?_⟩
  grind only [State.fixed, foldl_fixed, foldl_fst_fixed, State.coreAccess_fixed]
theorem execWinFlags_fixed : ∀ a0, NextFixed (execWinFlags a0) a0 := by
  intro a0; refine ⟨_, rfl,
      ?_⟩; (repeat (first | with_reducible refine State.judge_fixed _ _ _ _ (fun s => ?_) | with_reducible refine State.command_fixed _ _ _ (fun s r => ?_))); all_goals grind [State.fixed, foldl_fixed, foldl_fst_fixed, State.onPflag_fixed]
theorem execWinTransitionComplete_fixed : ∀ a0 a1, NextFixed (execWinTransitionComplete a0 a1) a1 := by
  intro a0 a1; unfold execWinTransitionComplete; refine ⟨_, rfl, ?_⟩
  grind only [State.fixed, foldl_fixed, foldl_fst_fixed, State.endTransition_fixed]
theorem execWinTransitionTimeout_fixed : ∀ a0 a1, NextFixed (execWinTransitionTimeout a0 a1) a1 := by
  intro a0 a1; unfold execWinTransitionTimeout; refine ⟨_, rfl, ?_⟩
  grind only [State.fixed, foldl_fixed, foldl_fst_fixed, State.endTransition_fixed]
theorem execWinQuery_fixed : ∀ a0, NextFixed (execWinQuery a0) a0 := by
  intro a0; refine ⟨_, rfl,
      ?_⟩; (repeat (first | with_reducible refine State.judge_fixed _ _ _ _ (fun s => ?_) | with_reducible refine State.command_fixed _ _ _ (fun s r => ?_))); all_goals grind [State.fixed, foldl_fixed, foldl_fst_fixed, State.reply_fixed]
theorem execTileLoad_fixed (s : State) : NextFixed (execTileLoad s) s := by
  refine ⟨_, rfl, State.command_fixed _ _ _ (fun s r => ?_)⟩
  dsimp only
  rw [State.judge_fixed, State.readImage_fixed]
  intro s; rw [State.holdLong_fixed]; split
  · exact foldl_fixed _ (fun s t => State.loadImage_fixed s t _) _ _
  · rfl
theorem execHcoreLoad_fixed (s : State) : NextFixed (execHcoreLoad s) s := by
  refine ⟨_, rfl, State.command_fixed _ _ _ (fun s r => ?_)⟩
  dsimp only
  refine State.judge_fixed _ _ _ _ (fun s => ?_)
  rw [State.judge_fixed, State.readImage_fixed]
  intro s; rw [State.holdLong_fixed, foldl_fixed, State.writePieces_fixed]
  intro s c; exact State.onCore_fixed _ _ _
theorem execPatternLoad_fixed (s : State) : NextFixed (execPatternLoad s) s := by
  refine ⟨_, rfl, State.command_fixed _ _ _ (fun s r => ?_)⟩
  dsimp only
  refine State.judge_fixed _ _ _ _ (fun s => ?_)
  rw [State.judge_fixed, State.readImage_fixed]
  intro s; split
  · rw [State.holdLong_fixed]; exact foldl_fixed _ (fun s t => State.onTile_fixed _ _ _) _ _
  · rfl
theorem execPatternUnload_fixed : ∀ a0, NextFixed (execPatternUnload a0) a0 := by
  intro a0; refine ⟨_, rfl,
      ?_⟩; (repeat (first | with_reducible refine State.judge_fixed _ _ _ _ (fun s => ?_) | with_reducible refine State.command_fixed _ _ _ (fun s r => ?_))); all_goals grind [State.fixed, foldl_fixed, foldl_fst_fixed, State.reply_fixed, State.setPattern_fixed]
theorem execPatternQuery_fixed : ∀ a0, NextFixed (execPatternQuery a0) a0 := by
  intro a0; refine ⟨_, rfl,
      ?_⟩; (repeat (first | with_reducible refine State.judge_fixed _ _ _ _ (fun s => ?_) | with_reducible refine State.command_fixed _ _ _ (fun s r => ?_))); all_goals grind [State.fixed, foldl_fixed, foldl_fst_fixed, State.reply_fixed]
theorem execLongCommandComplete_fixed : ∀ a0 a1, NextFixed (execLongCommandComplete a0 a1) a1 := by
  intro a0 a1; unfold execLongCommandComplete; refine ⟨_, rfl, ?_⟩
  grind only [State.fixed, foldl_fixed, foldl_fst_fixed, State.reply_fixed]
theorem execCountersRead_fixed : ∀ a0, NextFixed (execCountersRead a0) a0 := by
  intro a0; refine ⟨_, rfl,
      ?_⟩; (repeat (first | with_reducible refine State.judge_fixed _ _ _ _ (fun s => ?_) | with_reducible refine State.command_fixed _ _ _ (fun s r => ?_))); all_goals grind [State.fixed, foldl_fixed, foldl_fst_fixed, State.reply_fixed]
theorem execEventSubscribe_fixed : ∀ a0, NextFixed (execEventSubscribe a0) a0 := by
  intro a0; refine ⟨_, rfl,
      ?_⟩; (repeat (first | with_reducible refine State.judge_fixed _ _ _ _ (fun s => ?_) | with_reducible refine State.command_fixed _ _ _ (fun s r => ?_))); all_goals grind [State.fixed, foldl_fixed, foldl_fst_fixed, State.onFn_fixed, State.event_fixed, State.reply_fixed]
theorem execEventsRead_fixed : ∀ a0, NextFixed (execEventsRead a0) a0 := by
  intro a0; refine ⟨_, rfl,
      ?_⟩; (repeat (first | with_reducible refine State.judge_fixed _ _ _ _ (fun s => ?_) | with_reducible refine State.command_fixed _ _ _ (fun s r => ?_))); all_goals grind [State.fixed, foldl_fixed, foldl_fst_fixed, State.reply_fixed]
theorem execTraceFlush_fixed : ∀ a0 a1, NextFixed (execTraceFlush a0 a1) a1 := by
  intros; refine ⟨_, rfl, ?_⟩; (simp only [State.traceFlush_fixed]; done)
theorem execTraceCfg_fixed : ∀ a0, NextFixed (execTraceCfg a0) a0 := by
  intro a0; refine ⟨_, rfl,
      ?_⟩; (repeat (first | with_reducible refine State.judge_fixed _ _ _ _ (fun s => ?_) | with_reducible refine State.command_fixed _ _ _ (fun s r => ?_))); all_goals grind [State.fixed, foldl_fixed, foldl_fst_fixed, State.onFn_fixed, State.reply_fixed, State.traceFlush_fixed]
theorem execRegisterWrite_fixed : ∀ a0 a1 a2, NextFixed (execRegisterWrite a0 a1 a2) a2 := by
  intro a0 a1 a2; unfold execRegisterWrite; refine ⟨_, rfl, ?_⟩
  grind only [State.fixed, foldl_fixed, foldl_fst_fixed, State.writeReg_fixed]
theorem execStchFrameReceive_fixed : ∀ a0 a1 a2, NextFixed (execStchFrameReceive a0 a1 a2) a2 := by
  intro a0 a1 a2; unfold execStchFrameReceive; refine ⟨_, rfl, ?_⟩
  grind only [State.fixed, foldl_fixed, foldl_fst_fixed, State.chainDrop_fixed, State.chainForward_fixed]
theorem execEnumFrame_fixed : ∀ a0, NextFixed (execEnumFrame a0) a0 := by
  intro a0; refine ⟨_, rfl, ?_⟩; (repeat (first | with_reducible refine State.takeFrame_fixed _ _ _ (fun s b => ?_)))
  all_goals grind [State.fixed, foldl_fixed, foldl_fst_fixed, State.chainForward_fixed]
theorem execPing_fixed : ∀ a0, NextFixed (execPing a0) a0 := by
  intro a0; refine ⟨_, rfl, ?_⟩; (repeat (first | with_reducible refine State.takeFrame_fixed _ _ _ (fun s b => ?_)))
  all_goals grind [State.fixed, foldl_fixed, foldl_fst_fixed, State.reply_fixed, State.chainReply_fixed]
theorem execResetReq_fixed : ∀ a0, NextFixed (execResetReq a0) a0 := by
  intro a0; refine ⟨_, rfl, ?_⟩; (repeat (first | with_reducible refine State.takeFrame_fixed _ _ _ (fun s b => ?_)))
  all_goals grind [State.fixed, foldl_fixed, foldl_fst_fixed, State.doReset_fixed, State.chainReply_fixed]
theorem execPowerWarn_fixed : ∀ a0, NextFixed (execPowerWarn a0) a0 := by
  intros; refine ⟨_, rfl, ?_⟩; (simp only [State.boardWarn_fixed]; done)
theorem execPowerWarnClear_fixed : ∀ a0, NextFixed (execPowerWarnClear a0) a0 := by
  intro a0; refine ⟨_, rfl, ?_⟩; (repeat (first | with_reducible refine State.command_fixed _ _ _ (fun s r => ?_)))
  all_goals grind [State.fixed, foldl_fixed, foldl_fst_fixed, State.boardWarn_fixed]
theorem execStchSkelist_fixed : ∀ a0, NextFixed (execStchSkelist a0) a0 := by
  intro a0; refine ⟨_, rfl, ?_⟩; (repeat (first | with_reducible refine State.takeFrame_fixed _ _ _ (fun s b => ?_)))
  all_goals grind [State.fixed, foldl_fixed, foldl_fst_fixed, State.dropMsg_fixed, State.receiveMsg_fixed,
      State.chainRefuse_fixed]
theorem execUpstreamLost_fixed : ∀ a0, NextFixed (execUpstreamLost a0) a0 := by
  intro a0; unfold execUpstreamLost; refine ⟨_, rfl, ?_⟩; grind only [State.fixed, foldl_fixed, foldl_fst_fixed,
      State.boardEvent_fixed]
theorem execUpstreamLostRepeat_fixed : ∀ a0, NextFixed (execUpstreamLostRepeat a0) a0 := by
  intro a0; unfold execUpstreamLostRepeat; refine ⟨_, rfl, ?_⟩
  grind only [State.fixed, foldl_fixed, foldl_fst_fixed, State.boardEvent_fixed]
theorem execStchCharacterReceive_fixed : ∀ a0 a1 a2, NextFixed (execStchCharacterReceive a0 a1 a2) a2 := by
  intro a0 a1 a2; unfold execStchCharacterReceive; refine ⟨_, rfl, ?_⟩
  grind only [State.fixed, foldl_fixed, foldl_fst_fixed]
theorem execStchNullSend_fixed : ∀ a0, NextFixed (execStchNullSend a0) a0 := by
  intro a0; unfold execStchNullSend; refine ⟨_, rfl, ?_⟩; grind only [State.fixed, foldl_fixed, foldl_fst_fixed]
theorem execTack_fixed : ∀ a0, NextFixed (execTack a0) a0 := by
  intro a0; refine ⟨_, rfl,
      ?_⟩; (repeat (first | with_reducible refine State.judge_fixed _ _ _ _ (fun s => ?_) | with_reducible refine State.command_fixed _ _ _ (fun s r => ?_))); all_goals grind [State.fixed, foldl_fixed, foldl_fst_fixed, State.triggerTack_fixed]
theorem execTackNFall_fixed : ∀ a0, NextFixed (execTackNFall a0) a0 := by
  intro a0; unfold execTackNFall; refine ⟨_, rfl, ?_⟩; grind only [State.fixed, foldl_fixed, foldl_fst_fixed,
      State.triggerTack_fixed]
theorem execTackNRise_fixed : ∀ a0, NextFixed (execTackNRise a0) a0 := by
  intro a0; unfold execTackNRise; refine ⟨_, rfl, ?_⟩; grind only [State.fixed, foldl_fixed, foldl_fst_fixed]
theorem execTackMarkerReceive_fixed : ∀ a0 a1, NextFixed (execTackMarkerReceive a0 a1) a1 := by
  intro a0 a1; unfold execTackMarkerReceive; refine ⟨_, rfl, ?_⟩
  grind only [State.fixed, foldl_fixed, foldl_fst_fixed, State.triggerTack_fixed]
theorem execTackHeld_fixed : ∀ a0, NextFixed (execTackHeld a0) a0 := by
  intro a0; unfold execTackHeld; refine ⟨_, rfl, ?_⟩; grind only [State.fixed, foldl_fixed, foldl_fst_fixed,
      State.raise_fixed, State.finishLong_fixed, State.tackEvent_fixed, State.resumeTack_fixed]
theorem execTackResume_fixed : ∀ a0, NextFixed (execTackResume a0) a0 := by
  intro a0; refine ⟨_, rfl,
      ?_⟩; (repeat (first | with_reducible refine State.judge_fixed _ _ _ _ (fun s => ?_) | with_reducible refine State.command_fixed _ _ _ (fun s r => ?_))); all_goals grind [State.fixed, foldl_fixed, foldl_fst_fixed, State.reply_fixed, State.askResume_fixed]
theorem execResumeMarkerReceive_fixed : ∀ a0 a1, NextFixed (execResumeMarkerReceive a0 a1) a1 := by
  intro a0 a1; unfold execResumeMarkerReceive; refine ⟨_, rfl, ?_⟩
  grind only [State.fixed, foldl_fixed, foldl_fst_fixed, State.askResume_fixed]
theorem execTackLogRead_fixed : ∀ a0, NextFixed (execTackLogRead a0) a0 := by
  intro a0; refine ⟨_, rfl,
      ?_⟩; (repeat (first | with_reducible refine State.judge_fixed _ _ _ _ (fun s => ?_) | with_reducible refine State.command_fixed _ _ _ (fun s r => ?_))); all_goals grind [State.fixed, foldl_fixed, foldl_fst_fixed, State.reply_fixed]

/-- FATAL_ENTRY keeps all of them but the cause, and that where one is latched. -/
theorem execFatalEntry_fixed (s : State) : ∃ t, execFatalEntry s = .next t ∧
    t.fixed = ({ s with fatal := { s.fatal with cause := if s.fatal.cause = 0 then s.fatal.pendingCause else s.fatal.cause } } : State).fixed := by
  refine ⟨_, rfl, ?_⟩
  by_cases h2 : s.fatal.cause = 0
  · by_cases h : s.fatal.pendingCause = 0
    · simp [h, h2, State.fixed]
    · simp only [h, h2, ne_eq, not_false_eq_true, decide_true, Bool.and_self, if_true]
      rw [State.recordFatal_fixed, State.boardEvent_fixed, State.fenceAll_fixed]
      have ha := State.accrue_fixed s
      simp only [State.fixed, Prod.mk.injEq] at ha
      simp [State.fixed, State.latchCause, ha]
  · simp [h2, State.fixed]

theorem execFatalLatchClear_fixed (a b : Nat) (s : State) : ∃ t, execFatalLatchClear a b s = .next t ∧
    (t.fixed = s.fixed ∨ t.fixed = ({ s with fatal := {} } : State).fixed) := by
  refine ⟨_, rfl, ?_⟩
  split
  · right
    have h := State.powerOff_fixed s false false
    simp only [State.fixed, Prod.mk.injEq] at h ⊢
    simp [h]
  · exact .inl rfl

theorem execBootSequence_fixed (m : BitVec 2) (x : SelfTest) (s : State) : ∃ t, execBootSequence m x s = .next t ∧
    (t.fixed = s.fixed ∨ t.fixed = (if m.toNat = 2 then s.factoryKeys else s).fixed ∨
      ∃ k, t.fixed = ((if m.toNat = 2 then s.factoryKeys else s).firmwareUp.raiseFloor k).fixed) := by
  refine ⟨_, rfl, ?_⟩
  split
  · exact State.bootRun_fixed s _ x
  · exact .inl rfl

/-- What a served command does of the kept fields is what its body does. -/
theorem State.command_cases (P : State → State → Prop) (s : State) (code : Nat) (f : State → Req → State)
    (h0 : ∀ s t : State, t.fixed = s.fixed → P s t)
    (hc : ∀ s s' t : State, s'.fixed = s.fixed → P s' t → P s t)
    (hf : ∀ s r, P s (f s r)) : P s (s.command code f) := by
  unfold State.command State.commandIf
  split
  · rename_i r q _
    split
    · exact hc _ { s with thm := { s.thm with queue := q } } _ rfl (hf _ _)
    · exact h0 _ _ rfl
  · exact h0 _ _ rfl

theorem State.judge_cases (P : State → State → Prop) (s : State) (r : Req) (conds : List (Bool × Nat)) (f : State → State)
    (h0 : ∀ s t : State, t.fixed = s.fixed → P s t) (hf : P s (f s)) : P s (s.judge r conds f) := by
  unfold State.judge
  split
  · exact h0 _ _ (State.reply_fixed _ _ _ _)
  · exact hf

theorem execFwActivate_fixed (s : State) : ∃ t, execFwActivate s = .next t ∧ ∃ k, t.fixed = (s.raiseFloor k).fixed := by
  refine ⟨_, rfl, ?_⟩
  refine State.command_cases (fun s t => ∃ k, t.fixed = (s.raiseFloor k).fixed) _ _ _ ?_ ?_ (fun s r => ?_)
  · intro s t h; exact ⟨0, h.trans (State.raiseFloor_zero s).symm⟩
  · intro s s' t h ⟨k, hk⟩; exact ⟨k, hk.trans (State.raiseFloor_fixed _ _ _ h)⟩
  · refine State.judge_cases (fun s t => ∃ k, t.fixed = (s.raiseFloor k).fixed) _ _ _ _ ?_ ?_
    · intro s t h; exact ⟨0, h.trans (State.raiseFloor_zero s).symm⟩
    · split
      · simp only [State.reply_fixed]
        split
        · exact ⟨0, (State.raiseFloor_zero s).symm⟩
        · exact State.commitSlot_fixed s _
      · refine ⟨0, ?_⟩
        rw [State.doReset_fixed, State.reply_fixed, State.setSlot_fixed, State.raiseFloor_zero]

/-- QUOTE takes one signature or none. -/
theorem execQuote_fixed (s : State) : ∃ t, execQuote s = .next t ∧ (t.fixed = s.fixed ∨ t.fixed = s.takeSig.fixed) := by
  have tk : ∀ s s' : State, s.fixed = s'.fixed → s.takeSig.fixed = s'.takeSig.fixed := by
    intro s s' h
    simp only [State.takeSig_fixed]
    simp only [State.fixed, Prod.mk.injEq] at h
    simp [State.fixed, h]
  refine ⟨_, rfl, ?_⟩
  refine State.command_cases (fun s t => t.fixed = s.fixed ∨ t.fixed = s.takeSig.fixed) _ _ _ ?_ ?_ (fun s r => ?_)
  · intro s t h; exact .inl h
  · intro s s' t h hk
    exact hk.imp (·.trans h) (·.trans (tk _ _ h))
  · refine State.judge_cases (fun s t => t.fixed = s.fixed ∨ t.fixed = s.takeSig.fixed) _ _ _ _ ?_ ?_
    · intro s t h; exact .inl h
    · right; rw [State.holdLong_fixed, State.winWrite_fixed]

/-- CLAIM sets the operator key or keeps it. -/
theorem execClaim_fixed (s : State) : ∃ t, execClaim s = .next t ∧
    (t.fixed = s.fixed ∨ ∃ k, s.thm.opKey = none ∧ t.fixed = ({ s with thm := { s.thm with opKey := some k } } : State).fixed) := by
  refine ⟨_, rfl, ?_⟩
  unfold State.command State.commandIf
  split
  · rename_i r q _
    split
    · unfold State.judge; dsimp only
      split
      · exact .inl (State.reply_fixed _ _ _ _)
      · rename_i hn
        have hnone : s.thm.opKey = none := by
          have := List.find?_eq_none.mp hn (r.fn ≠ 0 || s.thm.opKey.isSome || r.key ≠ some s.fuses.claimKey, stDenied)
            (by simp [State.conditions])
          cases h : s.thm.opKey with
          | none => rfl
          | some k => simp [h] at this
        right
        refine ⟨State.unwrap { s with thm := { s.thm with queue := q } } r s.fuses.claimKey labelClaim 0 (r.payload.take 32),
          hnone, ?_⟩
        rw [State.startServices_fixed]
        have h1 := State.onFn_fixed (State.reply { s with thm := { s.thm with queue := q } } r stOk []) 0
          (fun x => { x with lastSeq := 0, accepted := [] })
        rw [State.reply_fixed] at h1
        simp only [State.fixed, Prod.mk.injEq] at h1 ⊢
        simp only [h1, and_self, and_true, true_and]
    · exact .inl rfl
  · exact .inl rfl

/-- REKEY sets the operator key or keeps it. -/
theorem execRekey_fixed (s : State) : ∃ t, execRekey s = .next t ∧
    (t.fixed = s.fixed ∨ ∃ k, t.fixed = ({ s with thm := { s.thm with opKey := some k } } : State).fixed) := by
  refine ⟨_, rfl, ?_⟩
  refine State.command_cases (fun s t => t.fixed = s.fixed ∨ ∃ k, t.fixed = ({ s with thm := { s.thm with opKey := some k } } : State).fixed)
    _ _ _ ?_ ?_ (fun s r => ?_)
  · intro s t h; exact .inl h
  · intro s s' t h hk
    refine hk.imp (·.trans h) (fun ⟨k, hk⟩ => ⟨k, hk.trans ?_⟩)
    simp only [State.fixed, Prod.mk.injEq] at h ⊢
    simp [h]
  · refine State.judge_cases (fun s t => t.fixed = s.fixed ∨ ∃ k, t.fixed = ({ s with thm := { s.thm with opKey := some k } } : State).fixed)
      _ _ _ _ ?_ ?_
    · intro s t h; exact .inl h
    · have h1 : ∀ f, (State.onFn ((s.reply r stOk []).closeConns (beAt r.payload 0 2)) (beAt r.payload 0 2) f).fixed = s.fixed := by
        intro f; rw [State.onFn_fixed, State.closeConns_fixed, State.reply_fixed]
      dsimp only
      generalize s.unwrap _ _ _ _ _ = k
      split
      · right
        refine ⟨k, ?_⟩
        have h2 := h1 (fun x => { x with key := k, lastSeq := 0, accepted := [] })
        simp only [State.fixed, Prod.mk.injEq] at h2 ⊢
        simp only [h2, and_self, and_true, true_and]
      · exact .inl (h1 _)

/-- A command that changes of these fields at most the tag area and its write count. -/
def TagOnly (s t : State) : Prop := ∃ g n, t.fixed = ({ s with flash := { s.flash with tag := g, writeCount := n } } : State).fixed

theorem tagOnly_of_fixed (s t : State) (h : t.fixed = s.fixed) : TagOnly s t := ⟨s.flash.tag, s.flash.writeCount, h⟩

theorem tagOnly_trans (s s' t : State) (h : s'.fixed = s.fixed) (ht : TagOnly s' t) : TagOnly s t := by
  obtain ⟨g, n, ht⟩ := ht
  refine ⟨g, n, ht.trans ?_⟩
  simp only [State.fixed, Prod.mk.injEq] at h ⊢
  simp [h]

theorem execTagWrite_fixed (s : State) : ∃ t, execTagWrite s = .next t ∧ TagOnly s t := by
  refine ⟨_, rfl, State.command_cases TagOnly _ _ _ tagOnly_of_fixed tagOnly_trans (fun s r => ?_)⟩
  refine State.judge_cases TagOnly _ _ _ _ tagOnly_of_fixed ?_
  exact ⟨_, _, State.reply_fixed _ _ _ _⟩

theorem execTagLock_fixed (s : State) : ∃ t, execTagLock s = .next t ∧ TagOnly s t := by
  refine ⟨_, rfl, State.command_cases TagOnly _ _ _ tagOnly_of_fixed tagOnly_trans (fun s r => ?_)⟩
  refine State.judge_cases TagOnly _ _ _ _ tagOnly_of_fixed ?_
  split
  · exact tagOnly_of_fixed _ _ (State.reply_fixed _ _ _ _)
  · exact ⟨_, _, State.reply_fixed _ _ _ _⟩

theorem execSetaddr_fixed (s : State) : ∃ t, execSetaddr s = .next t ∧ TagOnly s t := by
  refine ⟨_, rfl, ?_⟩
  unfold State.takeFrame
  split
  · split
    · rename_i b rest _
      refine tagOnly_trans _ { s with stch := { s.stch with inbox := rest } } _ rfl ?_
      dsimp only
      (repeat' split) <;> first
        | exact tagOnly_of_fixed _ _ (State.chainReply_fixed _ _ _)
        | exact ⟨_, _, State.chainReply_fixed _ _ _⟩
    · exact tagOnly_of_fixed _ _ rfl
  · exact tagOnly_of_fixed _ _ rfl

end Sys2Proof.Machine
end

