-- ==== Sys2Proof/Laws/Kept.lean ====
section
/-! SUPPORT. Every command keeps the fields of `State.fixed`, but for the ten that the spec lets change one. -/

namespace Sys2Proof.Machine

/-- The commands that may change one of the kept fields: the fatal latch (R483, R486), a boot (R513 to R523), FW_ACTIVATE
(R526), QUOTE (R530), the keys (R333), and the tag area (R382, R537). -/
def Instr.changesFixed : Instr → Bool
  | .fatalEntry | .fatalLatchClear _ _ | .bootSequence _ _ | .fwActivate | .quote | .claim | .rekey | .tagWrite
  | .tagLock | .setaddr => true
  | _ => false

theorem exec_fixed (i : Instr) (s : State) (h : Instr.changesFixed i = false) : NextFixed (exec i s) s := by
  cases i with
  | aluAdd t rd rs1 rs2 => exact execAluAdd_fixed t rd rs1 rs2 s
  | aluSub t rd rs1 rs2 => exact execAluSub_fixed t rd rs1 rs2 s
  | aluAnd t rd rs1 rs2 => exact execAluAnd_fixed t rd rs1 rs2 s
  | aluOr t rd rs1 rs2 => exact execAluOr_fixed t rd rs1 rs2 s
  | aluXor t rd rs1 rs2 => exact execAluXor_fixed t rd rs1 rs2 s
  | aluSll t rd rs1 rs2 => exact execAluSll_fixed t rd rs1 rs2 s
  | aluSrl t rd rs1 rs2 => exact execAluSrl_fixed t rd rs1 rs2 s
  | aluSra t rd rs1 rs2 => exact execAluSra_fixed t rd rs1 rs2 s
  | aluMul t rd rs1 rs2 => exact execAluMul_fixed t rd rs1 rs2 s
  | aluMulhu t rd rs1 rs2 => exact execAluMulhu_fixed t rd rs1 rs2 s
  | aluMulh t rd rs1 rs2 => exact execAluMulh_fixed t rd rs1 rs2 s
  | aluSlt t rd rs1 rs2 => exact execAluSlt_fixed t rd rs1 rs2 s
  | aluSltu t rd rs1 rs2 => exact execAluSltu_fixed t rd rs1 rs2 s
  | aluMin t rd rs1 rs2 => exact execAluMin_fixed t rd rs1 rs2 s
  | aluMax t rd rs1 rs2 => exact execAluMax_fixed t rd rs1 rs2 s
  | aluSext32 t rd rs1 rs2 => exact execAluSext32_fixed t rd rs1 rs2 s
  | addi t f => exact execAddi_fixed t f s
  | andi t f => exact execAndi_fixed t f s
  | ori t f => exact execOri_fixed t f s
  | xori t f => exact execXori_fixed t f s
  | slti t f => exact execSlti_fixed t f s
  | shiSll t rd rs1 hi sh => exact execShiSll_fixed t rd rs1 hi sh s
  | shiSrl t rd rs1 hi sh => exact execShiSrl_fixed t rd rs1 hi sh s
  | shiSra t rd rs1 hi sh => exact execShiSra_fixed t rd rs1 hi sh s
  | lui t f => exact execLui_fixed t f s
  | beq t f => exact execBeq_fixed t f s
  | bne t f => exact execBne_fixed t f s
  | blt t f => exact execBlt_fixed t f s
  | bge t f => exact execBge_fixed t f s
  | bltu t f => exact execBltu_fixed t f s
  | bgeu t f => exact execBgeu_fixed t f s
  | jal t rd off => exact execJal_fixed t rd off s
  | jalr t f => exact execJalr_fixed t f s
  | lb t f => exact execLb_fixed t f s
  | lh t f => exact execLh_fixed t f s
  | lw t f => exact execLw_fixed t f s
  | ld t f => exact execLd_fixed t f s
  | sb t f => exact execSb_fixed t f s
  | sh t f => exact execSh_fixed t f s
  | sw t f => exact execSw_fixed t f s
  | sd t f => exact execSd_fixed t f s
  | sld t f => exact execSld_fixed t f s
  | sst t f => exact execSst_fixed t f s
  | dsw t f => exact execDsw_fixed t f s
  | dld t f => exact execDld_fixed t f s
  | diss t f => exact execDiss_fixed t f s
  | dissQueueEntryFreed t => exact execDissQueueEntryFreed_fixed t s
  | msend t f => exact execMsend_fixed t f s
  | msendCreditTaken t => exact execMsendCreditTaken_fixed t s
  | mrecv t f => exact execMrecv_fixed t f s
  | mrecvMessageReturned t => exact execMrecvMessageReturned_fixed t s
  | mtry t f => exact execMtry_fixed t f s
  | mfree t f => exact execMfree_fixed t f s
  | chcfg t f => exact execChcfg_fixed t f s
  | charm t f => exact execCharm_fixed t f s
  | twait t f => exact execTwait_fixed t f s
  | tallyWaitRelease t => exact execTallyWaitRelease_fixed t s
  | tsig t f => exact execTsig_fixed t f s
  | tset t f => exact execTset_fixed t f s
  | trd t f => exact execTrd_fixed t f s
  | rdsys t f => exact execRdsys_fixed t f s
  | wrsysDseq t rd rs1 hi => exact execWrsysDseq_fixed t rd rs1 hi s
  | wrsysLack t rd rs1 hi => exact execWrsysLack_fixed t rd rs1 hi s
  | fence t rd rs1 rs2 => exact execFence_fixed t rd rs1 rs2 s
  | evpost t rd rs1 rs2 => exact execEvpost_fixed t rd rs1 rs2 s
  | halt t f => exact execHalt_fixed t f s
  | descStart t q => exact execDescStart_fixed t q s
  | descSignal t q => exact execDescSignal_fixed t q s
  | opaPass t => exact execOpaPass_fixed t s
  | opaRowStart t row => exact execOpaRowStart_fixed t row s
  | opaPassComplete t => exact execOpaPassComplete_fixed t s
  | veCvt t => exact execVeCvt_fixed t s
  | veAdd t => exact execVeAdd_fixed t s
  | veSub t => exact execVeSub_fixed t s
  | veMul t => exact execVeMul_fixed t s
  | veMuladd t => exact execVeMuladd_fixed t s
  | veMax t => exact execVeMax_fixed t s
  | veMin t => exact execVeMin_fixed t s
  | veMuls t => exact execVeMuls_fixed t s
  | veRsum t => exact execVeRsum_fixed t s
  | veRmax t => exact execVeRmax_fixed t s
  | veRmin t => exact execVeRmin_fixed t s
  | veLnorm t => exact execVeLnorm_fixed t s
  | veRmsnorm t => exact execVeRmsnorm_fixed t s
  | veRope t => exact execVeRope_fixed t s
  | veGather t => exact execVeGather_fixed t s
  | vePermute t => exact execVePermute_fixed t s
  | veTopk t => exact execVeTopk_fixed t s
  | veArgmax t => exact execVeArgmax_fixed t s
  | veSample t => exact execVeSample_fixed t s
  | veAccRead t => exact execVeAccRead_fixed t s
  | veSeamAdd t => exact execVeSeamAdd_fixed t s
  | veSeamCvt t => exact execVeSeamCvt_fixed t s
  | sfuExp2 t => exact execSfuExp2_fixed t s
  | sfuLog2 t => exact execSfuLog2_fixed t s
  | sfuReciprocal t => exact execSfuReciprocal_fixed t s
  | sfuRsqrt t => exact execSfuRsqrt_fixed t s
  | sfuSqrt t => exact execSfuSqrt_fixed t s
  | sfuTanh t => exact execSfuTanh_fixed t s
  | sfuSigmoid t => exact execSfuSigmoid_fixed t s
  | sfuErf t => exact execSfuErf_fixed t s
  | sfuGelu t => exact execSfuGelu_fixed t s
  | sfuSilu t => exact execSfuSilu_fixed t s
  | sfuSin t => exact execSfuSin_fixed t s
  | sfuCos t => exact execSfuCos_fixed t s
  | sfuPattern t => exact execSfuPattern_fixed t s
  | gusAttend t => exact execGusAttend_fixed t s
  | gusAcquire t => exact execGusAcquire_fixed t s
  | gusRebase t => exact execGusRebase_fixed t s
  | gusFinalise t => exact execGusFinalise_fixed t s
  | gusRecompute t => exact execGusRecompute_fixed t s
  | pwAppend t => exact execPwAppend_fixed t s
  | pwInvalidate t => exact execPwInvalidate_fixed t s
  | dmaCopy t => exact execDmaCopy_fixed t s
  | dmaBulkSend t => exact execDmaBulkSend_fixed t s
  | dmaFill t => exact execDmaFill_fixed t s
  | chanMsgArrive t ep => exact execChanMsgArrive_fixed t ep s
  | chanBulkArrive t ep => exact execChanBulkArrive_fixed t ep s
  | bulkAckArrive t => exact execBulkAckArrive_fixed t s
  | chanGrantArrive t ep => exact execChanGrantArrive_fixed t ep s
  | chanCreditArrive t ep => exact execChanCreditArrive_fixed t ep s
  | stopNoticeArrive t => exact execStopNoticeArrive_fixed t s
  | unreachableNoticeArrive t => exact execUnreachableNoticeArrive_fixed t s
  | skelistMessageReceive dgram way => exact execSkelistMessageReceive_fixed dgram way s
  | mailboxGo c => exact execMailboxGo_fixed c s
  | identify => exact execIdentify_fixed s
  | claim => exact absurd h (by simp [Instr.changesFixed])
  | rekey => exact absurd h (by simp [Instr.changesFixed])
  | serviceCfg => exact execServiceCfg_fixed s
  | quote => exact absurd h (by simp [Instr.changesFixed])
  | fnCreate => exact execFnCreate_fixed s
  | fnDestroy => exact execFnDestroy_fixed s
  | fnStart => exact execFnStart_fixed s
  | fnStop => exact execFnStop_fixed s
  | fnFaultStop f => exact execFnFaultStop_fixed f s
  | drainLimitExpire f => exact execDrainLimitExpire_fixed f s
  | stopComplete f => exact execStopComplete_fixed f s
  | fnAssignTiles => exact execFnAssignTiles_fixed s
  | fnAssignSpread => exact execFnAssignSpread_fixed s
  | fnAssignRings => exact execFnAssignRings_fixed s
  | fnAssignFences => exact execFnAssignFences_fixed s
  | fnAssignCores => exact execFnAssignCores_fixed s
  | fnAssignWindow => exact execFnAssignWindow_fixed s
  | fnAssignVtileMap => exact execFnAssignVtileMap_fixed s
  | fnAssignSettings => exact execFnAssignSettings_fixed s
  | domainUngateDone d => exact execDomainUngateDone_fixed d s
  | fnWithdraw => exact execFnWithdraw_fixed s
  | fnQuery => exact execFnQuery_fixed s
  | pageRelease => exact execPageRelease_fixed s
  | slabTag => exact execSlabTag_fixed s
  | ringConfig => exact execRingConfig_fixed s
  | ringRead => exact execRingRead_fixed s
  | fenceRead => exact execFenceRead_fixed s
  | fenceWrite => exact execFenceWrite_fixed s
  | winFlags => exact execWinFlags_fixed s
  | winTransitionComplete f => exact execWinTransitionComplete_fixed f s
  | winTransitionTimeout f => exact execWinTransitionTimeout_fixed f s
  | winQuery => exact execWinQuery_fixed s
  | winConnect => exact execWinConnect_fixed s
  | winClose => exact execWinClose_fixed s
  | tileLoad => exact execTileLoad_fixed s
  | hcoreLoad => exact execHcoreLoad_fixed s
  | patternLoad => exact execPatternLoad_fixed s
  | patternUnload => exact execPatternUnload_fixed s
  | patternQuery => exact execPatternQuery_fixed s
  | peerWrite => exact execPeerWrite_fixed s
  | sliceSet => exact execSliceSet_fixed s
  | routeWrite => exact execRouteWrite_fixed s
  | routeRead => exact execRouteRead_fixed s
  | powerGrant => exact execPowerGrant_fixed s
  | powerQuery => exact execPowerQuery_fixed s
  | countersRead => exact execCountersRead_fixed s
  | eventSubscribe => exact execEventSubscribe_fixed s
  | eventsRead => exact execEventsRead_fixed s
  | traceCfg => exact execTraceCfg_fixed s
  | tack => exact execTack_fixed s
  | tackResume => exact execTackResume_fixed s
  | tackLogRead => exact execTackLogRead_fixed s
  | faultStatus => exact execFaultStatus_fixed s
  | stopRecord => exact execStopRecord_fixed s
  | errClear => exact execErrClear_fixed s
  | tagRead => exact execTagRead_fixed s
  | tagWrite => exact absurd h (by simp [Instr.changesFixed])
  | tagLock => exact absurd h (by simp [Instr.changesFixed])
  | fwStage => exact execFwStage_fixed s
  | fwActivate => exact absurd h (by simp [Instr.changesFixed])
  | fwQuery => exact execFwQuery_fixed s
  | ringDoorbell src ring tail => exact execRingDoorbell_fixed src ring tail s
  | ringFetch q => exact execRingFetch_fixed q s
  | ringNop r => exact execRingNop_fixed r s
  | ringLaunch r => exact execRingLaunch_fixed r s
  | ringLaunchComplete r => exact execRingLaunchComplete_fixed r s
  | ringCopy r => exact execRingCopy_fixed r s
  | ringWait r => exact execRingWait_fixed r s
  | ringWaitRelease r => exact execRingWaitRelease_fixed r s
  | ringSignal r => exact execRingSignal_fixed r s
  | ringCollective r => exact execRingCollective_fixed r s
  | ringBarrier r => exact execRingBarrier_fixed r s
  | ringCommandComplete r => exact execRingCommandComplete_fixed r s
  | coreFenceAdd c idx value => exact execCoreFenceAdd_fixed c idx value s
  | coreFenceSet c idx value => exact execCoreFenceSet_fixed c idx value s
  | hcoreAccess c addr write log2Bytes value => exact execHcoreAccess_fixed c addr write log2Bytes value s
  | fqTxTailWrite c tail => exact execFqTxTailWrite_fixed c tail s
  | fqRxTailWrite c tail => exact execFqRxTailWrite_fixed c tail s
  | fqPortWrite c n value => exact execFqPortWrite_fixed c n value s
  | rdmaWrite qpn rkey va data => exact execRdmaWrite_fixed qpn rkey va data s
  | rdmaRead qpn rkey va len => exact execRdmaRead_fixed qpn rkey va len s
  | rdmaSend qpn data => exact execRdmaSend_fixed qpn data s
  | ethFrameReceive frame rx => exact execEthFrameReceive_fixed frame rx s
  | pfcFrameReceive enable pause => exact execPfcFrameReceive_fixed enable pause s
  | cnpReceive qpn => exact execCnpReceive_fixed qpn s
  | cnpRateRaise qpn => exact execCnpRateRaise_fixed qpn s
  | ethLinkUp => exact execEthLinkUp_fixed s
  | ethLinkLoss => exact execEthLinkLoss_fixed s
  | ethHalfWidthFallback => exact execEthHalfWidthFallback_fixed s
  | addrDadComplete addr ok => exact execAddrDadComplete_fixed addr ok s
  | ptpMessageReceive domain masterTime offset => exact execPtpMessageReceive_fixed domain masterTime offset s
  | stchFrameReceive frame codingOk => exact execStchFrameReceive_fixed frame codingOk s
  | enumFrame => exact execEnumFrame_fixed s
  | setaddr => exact absurd h (by simp [Instr.changesFixed])
  | ping => exact execPing_fixed s
  | resetReq => exact execResetReq_fixed s
  | powerWarn => exact execPowerWarn_fixed s
  | powerWarnClear => exact execPowerWarnClear_fixed s
  | stchSkelist => exact execStchSkelist_fixed s
  | upstreamLost => exact execUpstreamLost_fixed s
  | upstreamLostRepeat => exact execUpstreamLostRepeat_fixed s
  | lnkLinkUp p partner lanes => exact execLnkLinkUp_fixed p partner lanes s
  | fabricPacketReceive p vc packet => exact execFabricPacketReceive_fixed p vc packet s
  | lnkReplay p seq ok => exact execLnkReplay_fixed p seq ok s
  | lnkRetrain p cause => exact execLnkRetrain_fixed p cause s
  | lnkRetrainTimeout p => exact execLnkRetrainTimeout_fixed p s
  | lnkDownRetry p => exact execLnkDownRetry_fixed p s
  | fenceOrderedSetReceive p => exact execFenceOrderedSetReceive_fixed p s
  | portLeaveService p => exact execPortLeaveService_fixed p s
  | packetAged p vc => exact execPacketAged_fixed p vc s
  | lnkSysUseWrite use => exact execLnkSysUseWrite_fixed use s
  | collAdmit => exact execCollAdmit_fixed s
  | collPartReceive q => exact execCollPartReceive_fixed q s
  | collResultReceive q => exact execCollResultReceive_fixed q s
  | collDeclineReceive q => exact execCollDeclineReceive_fixed q s
  | collGrantReceive q => exact execCollGrantReceive_fixed q s
  | collNoticeReceive q => exact execCollNoticeReceive_fixed q s
  | collTimeout f group => exact execCollTimeout_fixed f group s
  | collComplete f group => exact execCollComplete_fixed f group s
  | govCapIteration estimateMw => exact execGovCapIteration_fixed estimateMw s
  | rateLoopTick d pacerMsteps => exact execRateLoopTick_fixed d pacerMsteps s
  | govMeasureWindow frameOk readingMw => exact execGovMeasureWindow_fixed frameOk readingMw s
  | paceWindow periods waits => exact execPaceWindow_fixed periods waits s
  | regSetpointAck d => exact execRegSetpointAck_fixed d s
  | regSlewEnd d => exact execRegSlewEnd_fixed d s
  | droopEngage d => exact execDroopEngage_fixed d s
  | droopRelease d => exact execDroopRelease_fixed d s
  | shortfallEnter d pacerMsteps => exact execShortfallEnter_fixed d pacerMsteps s
  | shortfallClear d pacerMsteps => exact execShortfallClear_fixed d pacerMsteps s
  | ageingRecord meanMv => exact execAgeingRecord_fixed meanMv s
  | brownout d => exact execBrownout_fixed d s
  | regControlLoss d => exact execRegControlLoss_fixed d s
  | thermalThreshold sensor temp => exact execThermalThreshold_fixed sensor temp s
  | thermCeilingStep d => exact execThermCeilingStep_fixed d s
  | thermtrip sensor => exact execThermtrip_fixed sensor s
  | currentLimit src deciAmps => exact execCurrentLimit_fixed src deciAmps s
  | grantLeaseExpire => exact execGrantLeaseExpire_fixed s
  | domainGate d => exact execDomainGate_fixed d s
  | timerefLoss => exact execTimerefLoss_fixed s
  | ppsEdge => exact execPpsEdge_fixed s
  | ppsLoss => exact execPpsLoss_fixed s
  | ptpLoss => exact execPtpLoss_fixed s
  | linkTimeOffset p partnerLocked offset => exact execLinkTimeOffset_fixed p partnerLocked offset s
  | errInject block inst value => exact execErrInject_fixed block inst value s
  | errCountRead block inst => exact execErrCountRead_fixed block inst s
  | fatalEntry => exact absurd h (by simp [Instr.changesFixed])
  | meshCrcRetry t d => exact execMeshCrcRetry_fixed t d s
  | meshHalfDown t d => exact execMeshHalfDown_fixed t d s
  | meshLinkDown t d => exact execMeshLinkDown_fixed t d s
  | patrolScrubRead t => exact execPatrolScrubRead_fixed t s
  | tileRetire t => exact execTileRetire_fixed t s
  | tackNFall => exact execTackNFall_fixed s
  | tackMarkerReceive c => exact execTackMarkerReceive_fixed c s
  | tackHeld => exact execTackHeld_fixed s
  | resumeMarkerReceive c => exact execResumeMarkerReceive_fixed c s
  | traceFlush f => exact execTraceFlush_fixed f s
  | v3p3Rise => exact execV3p3Rise_fixed s
  | suppliesInRange => exact execSuppliesInRange_fixed s
  | bootSequence _ _ => exact absurd h (by simp [Instr.changesFixed])
  | trialWatchdog => exact execTrialWatchdog_fixed s
  | resetNAssert heldNs => exact execResetNAssert_fixed heldNs s
  | powerDown vin12Mv v3p3Mv => exact execPowerDown_fixed vin12Mv v3p3Mv s
  | fatalLatchClear _ _ => exact absurd h (by simp [Instr.changesFixed])
  | jtagImageWrite slot offset data => exact execJtagImageWrite_fixed slot offset data s
  | registerWrite r value => exact execRegisterWrite_fixed r value s
  | longCommandComplete f => exact execLongCommandComplete_fixed f s
  | timerefRestore => exact execTimerefRestore_fixed s
  | tackNRise => exact execTackNRise_fixed s
  | stchCharacterReceive control c => exact execStchCharacterReceive_fixed control c s
  | stchNullSend => exact execStchNullSend_fixed s
  | lnkControlFlitReceive p ack credits => exact execLnkControlFlitReceive_fixed p ack credits s
  | safeStateEthernetIdle => exact execSafeStateEthernetIdle_fixed s

end Sys2Proof.Machine
end

