-- ==== Sys2Proof/Laws/MemOps.lean ====
section
/-! SUPPORT. Shared operations keep every memory canonical. -/

namespace Sys2Proof.Machine

theorem State.setFn_memWf : ∀ a0 a1 a2, State.memWf a0 → (State.setFn a0 a1 a2).memWf := by
  intro a0 a1 a2 h; exact h
theorem State.setRing_memWf : ∀ a0 a1 a2, State.memWf a0 → (State.setRing a0 a1 a2).memWf := by
  intro a0 a1 a2 h; exact h
theorem State.setFence_memWf : ∀ a0 a1 a2, State.memWf a0 → (State.setFence a0 a1 a2).memWf := by
  intro a0 a1 a2 h; exact h
theorem State.setCore_memWf : ∀ a0 a1 a2, State.memWf a0 → (State.setCore a0 a1 a2).memWf := by
  intro a0 a1 a2 h; exact h
theorem State.setErr_memWf : ∀ a0 a1 a2 a3, State.memWf a0 → (State.setErr a0 a1 a2 a3).memWf := by
  intro a0 a1 a2 a3 h; exact h
theorem State.setStat_memWf : ∀ a0 a1 a2 a3, State.memWf a0 → (State.setStat a0 a1 a2 a3).memWf := by
  intro a0 a1 a2 a3 h; exact h
theorem State.onTile_memWf (s : State) (t : Nat) (f : Tile → Tile) (hs : s.memWf) (h : ∀ x, x.memWf → (f x).memWf) :
    (s.onTile t f).memWf := State.setTile_memWf _ _ _ hs (h _ (hs.tile t))
theorem State.onSlab_memWf (s : State) (t : Nat) (f : Slab → Slab) (hs : s.memWf) (h : ∀ x, x.memWf → (f x).memWf) :
    (s.onSlab t f).memWf := State.setSlab_memWf _ _ _ hs (h _ (hs.slab t))
theorem State.onFn_memWf : ∀ a0 a1 a2, State.memWf a0 → (State.onFn a0 a1 a2).memWf := by
  intro a0 a1 a2 h; exact h
theorem State.onRing_memWf : ∀ a0 a1 a2, State.memWf a0 → (State.onRing a0 a1 a2).memWf := by
  intro a0 a1 a2 h; exact h
theorem State.onCore_memWf : ∀ a0 a1 a2, State.memWf a0 → (State.onCore a0 a1 a2).memWf := by
  intro a0 a1 a2 h; exact h
theorem State.orStat_memWf : ∀ a0 a1 a2 a3, State.memWf a0 → (State.orStat a0 a1 a2 a3).memWf := by
  intro a0 a1 a2 a3 h; exact h
theorem State.statIf_memWf : ∀ a0 a1 a2 a3 a4, State.memWf a0 → (State.statIf a0 a1 a2 a3 a4).memWf := by
  intro a0 a1 a2 a3 a4 h; unfold State.statIf; grind only [State.memWf, Tile.memWf, Slab.memWf, State.orStat_memWf]
theorem State.count_memWf : ∀ a0 a1 a2 a3 a4 a5 a6, State.memWf a0 → (State.count a0 a1 a2 a3 a4 a5 a6).memWf := by
  intro a0 a1 a2 a3 a4 a5 a6 h; unfold State.count; grind only [State.memWf, Tile.memWf, Slab.memWf]
theorem State.countT_memWf : ∀ a0 a1 a2 a3 a4 a5, State.memWf a0 → (State.countT a0 a1 a2 a3 a4 a5).memWf := by
  intro a0 a1 a2 a3 a4 a5 h; unfold State.countT; grind only [State.memWf, Tile.memWf, Slab.memWf, State.count_memWf]
theorem State.fresh_memWf : ∀ a0, State.memWf a0 → (State.fresh a0).2.memWf := by
  intro a0 h; exact h
theorem State.traceAll_memWf : ∀ a0 a1, State.memWf a0 → (State.traceAll a0 a1).memWf := by
  intro a0 a1 h; unfold State.traceAll; grind only [State.memWf, Tile.memWf, Slab.memWf, foldl_memWf, foldl_fst_memWf,
      foldl_tile_memWf, State.onFn_memWf, State.count_memWf]
theorem State.event_memWf : ∀ a0 a1 a2 a3 a4 a5 a6, State.memWf a0 → (State.event a0 a1 a2 a3 a4 a5 a6).memWf := by
  intro a0 a1 a2 a3 a4 a5 a6 h; unfold State.event; grind only [State.memWf, Tile.memWf, Slab.memWf, State.onTile,
      State.traceAll_memWf, State.setTile_memWf, State.memWf.tile]
theorem State.sendUdp_memWf : ∀ a0 a1 a2, State.memWf a0 → (State.sendUdp a0 a1 a2).memWf := by
  intro a0 a1 a2 h; unfold State.sendUdp; grind only [State.memWf, Tile.memWf, Slab.memWf, State.count_memWf,
      State.event_memWf]
theorem State.notify_memWf : ∀ a0 a1 a2 a3, State.memWf a0 → (State.notify a0 a1 a2 a3).memWf := by
  intro a0 a1 a2 a3 h; unfold State.notify; grind only [State.memWf, Tile.memWf, Slab.memWf, State.onFn_memWf,
      State.sendUdp_memWf]
theorem State.triggerTack_memWf : ∀ a0 a1 a2, State.memWf a0 → (State.triggerTack a0 a1 a2).memWf := by
  intro a0 a1 a2 h; unfold State.triggerTack; grind only [State.memWf, Tile.memWf, Slab.memWf, State.event_memWf]
theorem State.latchFatal_memWf : ∀ a0 a1 a2 a3, State.memWf a0 → (State.latchFatal a0 a1 a2 a3).memWf := by
  intro a0 a1 a2 a3 h; unfold State.latchFatal; grind only [State.memWf, Tile.memWf, Slab.memWf]
theorem State.charge_memWf : ∀ a0 a1 a2, State.memWf a0 → (State.charge a0 a1 a2).memWf := by
  intro a0 a1 a2 h; unfold State.charge; grind only [State.memWf, Tile.memWf, Slab.memWf, State.onFn_memWf]
theorem State.retireTally_memWf : ∀ a0 a1 a2 a3, State.memWf a0 → (State.retireTally a0 a1 a2 a3).memWf := by
  intro a0 a1 a2 a3 h; unfold State.retireTally; grind only [State.memWf, Tile.memWf, Slab.memWf, State.onTile,
      State.event_memWf, State.charge_memWf, State.setTile_memWf, State.memWf.tile]
theorem State.raise_memWf : ∀ a0 a1 a2 a3 a4 a5, State.memWf a0 → (State.raise a0 a1 a2 a3 a4 a5).memWf := by
  intro a0 a1 a2 a3 a4 a5 h; unfold State.raise; grind only [State.memWf, Tile.memWf, Slab.memWf, State.setErr_memWf,
      State.event_memWf, State.triggerTack_memWf, State.charge_memWf, State.retireTally_memWf]
theorem State.raiseT_memWf : ∀ a0 a1 a2 a3, State.memWf a0 → (State.raiseT a0 a1 a2 a3).memWf := by
  intro a0 a1 a2 a3 h; unfold State.raiseT; grind only [State.memWf, Tile.memWf, Slab.memWf, State.raise_memWf,
      State.memWf.tile]
theorem Tile.setTally_memWf : ∀ a0 a1 a2, Tile.memWf a0 → (Tile.setTally a0 a1 a2).memWf := by
  intro a0 a1 a2 h; exact h
theorem Tile.addTally_memWf : ∀ a0 a1 a2, Tile.memWf a0 → (Tile.addTally a0 a1 a2).memWf := by
  intro a0 a1 a2 h; exact h
theorem Tile.setEp_memWf : ∀ a0 a1 a2, Tile.memWf a0 → (Tile.setEp a0 a1 a2).memWf := by
  intro a0 a1 a2 h; exact h
theorem Tile.setBank_memWf : ∀ a0 a1 a2, Tile.memWf a0 → (Tile.setBank a0 a1 a2).memWf := by
  intro a0 a1 a2 h; unfold Tile.setBank; grind only [State.memWf, Tile.memWf, Slab.memWf]
theorem Tile.setEng_memWf : ∀ a0 a1 a2, Tile.memWf a0 → (Tile.setEng a0 a1 a2).memWf := by
  intro a0 a1 a2 h; unfold Tile.setEng; grind only [State.memWf, Tile.memWf, Slab.memWf]
theorem State.dropPlb_memWf : ∀ a0 a1, State.memWf a0 → (State.dropPlb a0 a1).memWf := by
  intro a0 a1 h; unfold State.dropPlb; grind only [State.memWf, Tile.memWf, Slab.memWf, foldl_memWf, foldl_fst_memWf,
      foldl_tile_memWf, State.onTile, State.setTile_memWf, State.memWf.tile]
theorem State.retireEnter_memWf : ∀ a0 a1 a2, State.memWf a0 → (State.retireEnter a0 a1 a2).memWf := by
  intro a0 a1 a2 h; unfold State.retireEnter; grind only [State.memWf, Tile.memWf, Slab.memWf, State.setSlab_memWf,
      State.notify_memWf, State.dropPlb_memWf, State.memWf.slab]
theorem State.retirePage_memWf : ∀ a0 a1 a2, State.memWf a0 → (State.retirePage a0 a1 a2).memWf := by
  intro a0 a1 a2 h; unfold State.retirePage; grind only [State.memWf, Tile.memWf, Slab.memWf, State.raise_memWf,
      State.retireEnter_memWf]
theorem State.readCw_memWf : ∀ a0 a1 a2 a3, State.memWf a0 → (State.readCw a0 a1 a2 a3).1.memWf := by
  intro a0 a1 a2 a3 h; unfold State.readCw; grind [State.memWf, Tile.memWf, Slab.memWf, TileMem.wf, SlabMem.wf,
      Memory.wf, SMap.wf_set, SMap.wf_modify, SMap.wf_filter, SMap.wf_nil, putBytes_wf, State.setSlab_memWf,
      State.setErr_memWf, State.orStat_memWf, State.count_memWf, State.raise_memWf, State.retireEnter_memWf,
      State.retirePage_memWf, State.memWf.slab]
theorem State.readCws_memWf : ∀ a0 a1 a2 a3, State.memWf a0 → (State.readCws a0 a1 a2 a3).1.memWf := by
  intro a0 a1 a2 a3 h; fun_induction State.readCws a0 a1 a2 a3 <;> grind [State.memWf, Tile.memWf, Slab.memWf,
      State.readCw_memWf]
theorem State.slabRead_memWf : ∀ a0 a1 a2 a3, State.memWf a0 → (State.slabRead a0 a1 a2 a3).1.memWf := by
  intro a0 a1 a2 a3 h; unfold State.slabRead; grind only [State.memWf, Tile.memWf, Slab.memWf, State.readCws_memWf]
theorem State.writeCw_memWf : ∀ a0 a1 a2 a3 a4 a5, State.memWf a0 → (State.writeCw a0 a1 a2 a3 a4 a5).memWf := by
  intro a0 a1 a2 a3 a4 a5 h; unfold State.writeCw; grind [State.memWf, Tile.memWf, Slab.memWf, TileMem.wf, SlabMem.wf,
      Memory.wf, SMap.wf_set, SMap.wf_modify, SMap.wf_filter, putBytes_wf, State.setSlab_memWf, State.statIf_memWf,
      State.readCw_memWf, State.memWf.slab]
theorem State.slabWriteFuel_memWf : ∀ a0 a1 a2 a3 a4 a5, State.memWf a0 → (State.slabWriteFuel a0 a1 a2 a3 a4 a5).memWf := by
  intro a0 a1 a2 a3 a4 a5 h; fun_induction State.slabWriteFuel a0 a1 a2 a3 a4 a5 <;> grind [State.memWf, Tile.memWf,
      Slab.memWf, State.writeCw_memWf]
theorem State.slabWrite_memWf : ∀ a0 a1 a2 a3 a4, State.memWf a0 → (State.slabWrite a0 a1 a2 a3 a4).memWf := by
  intro a0 a1 a2 a3 a4 h; unfold State.slabWrite; grind only [State.memWf, Tile.memWf, Slab.memWf, State.slabWriteFuel_memWf]
theorem State.readPieces_memWf : ∀ a0 a1, State.memWf a0 → (State.readPieces a0 a1).1.memWf := by
  intro a0 a1 h; fun_induction State.readPieces a0 a1 <;> grind [State.memWf, Tile.memWf, Slab.memWf, State.slabRead_memWf]
theorem State.writePieces_memWf : ∀ a0 a1 a2 a3, State.memWf a0 → (State.writePieces a0 a1 a2 a3).memWf := by
  intro a0 a1 a2 a3 h; fun_induction State.writePieces a0 a1 a2 a3 <;> grind [State.memWf, Tile.memWf, Slab.memWf,
      State.slabWrite_memWf]
theorem State.reportRefused_memWf : ∀ a0 a1 a2, State.memWf a0 → (State.reportRefused a0 a1 a2).memWf := by
  intro a0 a1 a2 h; unfold State.reportRefused; grind only [State.memWf, Tile.memWf, Slab.memWf, State.count_memWf,
      State.raise_memWf]
theorem State.poisonPieces_memWf : ∀ a0 a1, State.memWf a0 → (State.poisonPieces a0 a1).memWf := by
  intro a0 a1 h; fun_induction State.poisonPieces a0 a1 <;> grind [State.memWf, Tile.memWf, Slab.memWf,
      State.slabWrite_memWf]
theorem State.setPort_memWf : ∀ a0 a1 a2, State.memWf a0 → (State.setPort a0 a1 a2).memWf := by
  intro a0 a1 a2 h; exact h
theorem State.onPort_memWf : ∀ a0 a1 a2, State.memWf a0 → (State.onPort a0 a1 a2).memWf := by
  intro a0 a1 a2 h; exact h
theorem State.portGo_memWf : ∀ a0 a1 a2, State.memWf a0 → (State.portGo a0 a1 a2).memWf := by
  intro a0 a1 a2 h; unfold State.portGo; grind only [State.memWf, Tile.memWf, Slab.memWf, State.event_memWf,
      State.onPort_memWf]
theorem State.enqueue_memWf : ∀ a0 a1 a2 a3, State.memWf a0 → (State.enqueue a0 a1 a2 a3).memWf := by
  intro a0 a1 a2 a3 h; unfold State.enqueue; grind only [State.memWf, Tile.memWf, Slab.memWf, State.count_memWf,
      State.onPort_memWf]
theorem State.fabSend_memWf : ∀ a0 a1 a2, State.memWf a0 → (State.fabSend a0 a1 a2).1.memWf := by
  intro a0 a1 a2 h; unfold State.fabSend; grind only [State.memWf, Tile.memWf, Slab.memWf, State.enqueue_memWf]
theorem State.sendNotice_memWf : ∀ a0 a1 a2 a3, State.memWf a0 → (State.sendNotice a0 a1 a2 a3).1.memWf := by
  intro a0 a1 a2 a3 h; unfold State.sendNotice; grind only [State.memWf, Tile.memWf, Slab.memWf, State.count_memWf,
      State.enqueue_memWf]
theorem State.deliverChannel_memWf : ∀ a0 a1 a2, State.memWf a0 → (State.deliverChannel a0 a1 a2).memWf := by
  intro a0 a1 h; unfold State.deliverChannel; grind only [State.memWf, Tile.memWf, Slab.memWf, State.count_memWf,
      State.memWf.tile]
theorem State.deliverColl_memWf : ∀ a0 a1 a2, State.memWf a0 → (State.deliverColl a0 a1 a2).memWf := by
  intro a0 a1 a2 h; unfold State.deliverColl; grind only [State.memWf, Tile.memWf, Slab.memWf]
theorem State.deliver_memWf : ∀ a0 a1 a2, State.memWf a0 → (State.deliver a0 a1 a2).memWf := by
  intro a0 a1 a2 h; unfold State.deliver; grind only [State.memWf, Tile.memWf, Slab.memWf, State.count_memWf,
      State.sendNotice_memWf, State.deliverChannel_memWf, State.deliverColl_memWf]
theorem State.discard_memWf : ∀ a0 a1 a2 a3, State.memWf a0 → (State.discard a0 a1 a2 a3).memWf := by
  intro a0 a1 a2 a3 h; unfold State.discard; grind only [State.memWf, Tile.memWf, Slab.memWf, State.count_memWf,
      State.sendNotice_memWf, State.deliver_memWf]
theorem State.forward_memWf : ∀ a0 a1 a2, State.memWf a0 → (State.forward a0 a1 a2).memWf := by
  intro a0 a1 a2 h; unfold State.forward; grind only [State.memWf, Tile.memWf, Slab.memWf, State.enqueue_memWf,
      State.deliver_memWf, State.discard_memWf]
theorem State.sendRemote_memWf : ∀ a0 a1 a2 a3 a4 a5 a6 a7 a8,
      State.memWf a0 → (State.sendRemote a0 a1 a2 a3 a4 a5 a6 a7 a8).1.memWf := by
  intro a0 a1 a2 a3 a4 a5 a6 a7 a8 h; unfold State.sendRemote
  grind only [State.memWf, Tile.memWf, Slab.memWf, State.fabSend_memWf, State.deliver_memWf]
theorem State.sendAll_memWf : ∀ a0 a1 a2 a3 a4 a5 a6, State.memWf a0 → (State.sendAll a0 a1 a2 a3 a4 a5 a6).1.memWf := by
  intro a0 a1 a2 a3 a4 a5 a6 h; fun_induction State.sendAll a0 a1 a2 a3 a4 a5 a6 <;> grind [State.memWf, Tile.memWf,
      Slab.memWf, State.count_memWf, State.sendRemote_memWf]
theorem State.chSend_memWf : ∀ a0 a1 a2 a3, State.memWf a0 → (State.chSend a0 a1 a2 a3).1.memWf := by
  intro a0 a1 a2 a3 h; unfold State.chSend; grind only [State.memWf, Tile.memWf, Slab.memWf, State.sendAll_memWf,
      State.memWf.tile]
theorem State.chanErr_memWf : ∀ a0 a1 a2, State.memWf a0 → (State.chanErr a0 a1 a2).memWf := by
  intro a0 a1 a2 h; unfold State.chanErr; grind only [State.memWf, Tile.memWf, Slab.memWf, State.raiseT_memWf]
theorem State.chSendOrLost_memWf : ∀ a0 a1 a2 a3, State.memWf a0 → (State.chSendOrLost a0 a1 a2 a3).memWf := by
  intro a0 a1 a2 a3 h; unfold State.chSendOrLost; grind only [State.memWf, Tile.memWf, Slab.memWf, State.chSend_memWf,
      State.chanErr_memWf]
theorem State.getLinesFuel_memWf : ∀ a0 a1 a2 a3 a4 a5 a6,
      State.memWf a0 → (State.getLinesFuel a0 a1 a2 a3 a4 a5 a6).1.memWf := by
  intro a0 a1 a2 a3 a4 a5 a6 h; fun_induction State.getLinesFuel a0 a1 a2 a3 a4 a5 a6 <;> grind [State.memWf,
      Tile.memWf, Slab.memWf, State.slabRead_memWf, State.memWf.tile]
theorem State.getLines_memWf : ∀ a0 a1 a2 a3 a4 a5, State.memWf a0 → (State.getLines a0 a1 a2 a3 a4 a5).1.memWf := by
  intro a0 a1 a2 a3 a4 a5 h; unfold State.getLines; grind only [State.memWf, Tile.memWf, Slab.memWf,
      State.getLinesFuel_memWf]
theorem State.putLinesFuel_memWf : ∀ a0 a1 a2 a3 a4 a5 a6 a7,
      State.memWf a0 → (State.putLinesFuel a0 a1 a2 a3 a4 a5 a6 a7).memWf := by
  intro a0 a1 a2 a3 a4 a5 a6 a7 h; fun_induction State.putLinesFuel a0 a1 a2 a3 a4 a5 a6 a7 <;> grind [State.memWf,
      Tile.memWf, Slab.memWf, State.onTile, Tile.write_memWf, State.writeCw_memWf, State.setTile_memWf, State.memWf.tile]
theorem State.putLines_memWf : ∀ a0 a1 a2 a3 a4 a5 a6, State.memWf a0 → (State.putLines a0 a1 a2 a3 a4 a5 a6).memWf := by
  intro a0 a1 a2 a3 a4 a5 a6 h; unfold State.putLines; grind only [State.memWf, Tile.memWf, Slab.memWf,
      State.putLinesFuel_memWf]

end Sys2Proof.Machine
end

