-- ==== Sys2Proof/Laws/MemTile.lean ====
section
/-! SUPPORT. Operations of the tile keep every memory canonical. -/

namespace Sys2Proof.Machine

theorem State.seqGoto_memWf : ∀ a0 a1 a2, State.memWf a0 → (State.seqGoto a0 a1 a2).memWf := by
  intro a0 a1 a2 h; unfold State.seqGoto; grind only [State.memWf, Tile.memWf, Slab.memWf, State.onTile,
      State.event_memWf, State.setTile_memWf, State.memWf.tile]
theorem State.seqError_memWf : ∀ a0 a1 a2, State.memWf a0 → (State.seqError a0 a1 a2).memWf := by
  intro a0 a1 a2 h; unfold State.seqError; grind only [State.memWf, Tile.memWf, Slab.memWf, State.onTile,
      State.raiseT_memWf, State.setTile_memWf, State.memWf.tile]
theorem State.retire_memWf : ∀ a0 a1 a2, State.memWf a0 → (State.retire a0 a1 a2).memWf := by
  intro a0 a1 a2 h; unfold State.retire; grind only [State.memWf, Tile.memWf, Slab.memWf, State.onTile,
      State.countT_memWf, State.setTile_memWf, State.memWf.tile]
def SeqOut.MemWf (o : SeqOut) : Prop :=
  match o with
  | .go s' _ => s'.memWf
  | .wait _ => True
  | .fault s' _ => s'.memWf
theorem State.finish_memWf (s : State) (t : Nat) (o : SeqOut) (hs : s.memWf) (h : o.MemWf) : (s.finish t o).memWf := by
  unfold State.finish; cases o <;> grind [SeqOut.MemWf, State.retire_memWf, State.seqError_memWf, State.onTile,
      State.setTile_memWf, State.memWf.tile, Tile.memWf, State.seqGoto_memWf]
theorem State.seqStep_memWf (s : State) (t : Nat) (w : Nat) (f : State → Tile → SeqOut) (hs : s.memWf)
    (h : ∀ s x, s.memWf → x.memWf → (f s x).MemWf) : (s.seqStep t w f).memWf := by
  unfold State.seqStep; grind [State.finish_memWf, State.seqError_memWf, State.memWf.tile]
theorem Tile.setReg_memWf (x : Tile) (r : BitVec 5) (v : W64) (h : x.memWf) : (x.setReg r v).memWf := by
  unfold Tile.setReg; split <;> exact h
theorem wrReg_memWf (t : Nat) (rd : BitVec 5) (v : State → Tile → W64) (s : State) (x : Tile) (hs : s.memWf) (hx : x.memWf) :
    (wrReg t rd v s x).MemWf := State.setTile_memWf _ _ _ hs (Tile.setReg_memWf _ _ _ hx)
theorem aluOp_memWf : ∀ t rd rs1 rs2 fn f s, State.memWf s → (aluOp t rd rs1 rs2 fn f s).memWf := by
  intro t rd rs1 rs2 fn f s hs; exact State.seqStep_memWf _ _ _ _ hs (wrReg_memWf _ _ _)
theorem immOp_memWf : ∀ t f l op s, State.memWf s → (immOp t f l op s).memWf := by
  intro t f l op s hs; exact State.seqStep_memWf _ _ _ _ hs (wrReg_memWf _ _ _)
theorem shiOp_memWf : ∀ t rd rs1 hi kind sh f s, State.memWf s → (shiOp t rd rs1 hi kind sh f s).memWf := by
  intro t rd rs1 hi kind sh f s hs; exact State.seqStep_memWf _ _ _ _ hs (wrReg_memWf _ _ _)
theorem branchOp_memWf : ∀ t f n c s, State.memWf s → (branchOp t f n c s).memWf := by
  intro t f n c s hs; refine State.seqStep_memWf _ _ _ _ hs (fun s x hs hx => ?_)
  grind [SeqOut.MemWf, State.setTile_memWf, Tile.setReg_memWf, Tile.write_memWf]
theorem loadOp_memWf : ∀ t f c n s, State.memWf s → (loadOp t f c n s).memWf := by
  intro t f c n s hs; refine State.seqStep_memWf _ _ _ _ hs (fun s x hs hx => ?_)
  grind [SeqOut.MemWf, State.setTile_memWf, Tile.setReg_memWf, Tile.write_memWf]
theorem storeOp_memWf : ∀ t f c n s, State.memWf s → (storeOp t f c n s).memWf := by
  intro t f c n s hs; refine State.seqStep_memWf _ _ _ _ hs (fun s x hs hx => ?_)
  grind [SeqOut.MemWf, State.setTile_memWf, Tile.setReg_memWf, Tile.write_memWf]
theorem State.seqResume_memWf (s : State) (t : Nat) (f : Wait → Option (State → Tile → SeqOut)) (hs : s.memWf)
    (h : ∀ w g, f w = some g → ∀ s x, s.memWf → x.memWf → (g s x).MemWf) : (s.seqResume t f).memWf := by
  unfold State.seqResume; dsimp only
  split
  · split
    · exact hs
    · rename_i g hg
      have hk := h _ g hg
      have h3 : ((s.seqGoto t .running).onTile t (fun x => { x with wait := .none })).memWf :=
        State.onTile_memWf _ _ _ (State.seqGoto_memWf s t _ hs) (fun _ h => h)
      split
      · exact hs
      · exact State.finish_memWf _ _ _ h3 (hk _ _ h3 (h3.tile t))
  · exact hs
theorem State.launchTile_memWf : ∀ a0 a1 a2, State.memWf a0 → (State.launchTile a0 a1 a2).memWf := by
  intro a0 a1 a2 h; unfold State.launchTile; grind only [State.memWf, Tile.memWf, Slab.memWf, State.onTile,
      Tile.addTally_memWf, State.seqGoto_memWf, State.setTile_memWf, State.memWf.tile]
theorem State.deliverOne_memWf : ∀ a0 a1 a2 a3, State.memWf a0 → (State.deliverOne a0 a1 a2 a3).memWf := by
  intro a0 a1 a2 a3 h; unfold State.deliverOne; grind only [State.memWf, Tile.memWf, Slab.memWf, State.onRing_memWf,
      State.deliver_memWf, State.launchTile_memWf, State.memWf.tile]
theorem State.lackTile_memWf : ∀ a0 a1, State.memWf a0 → (State.lackTile a0 a1).memWf := by
  intro a0 a1 h; unfold State.lackTile; grind only [State.memWf, Tile.memWf, Slab.memWf, State.setTile_memWf,
      State.deliverOne_memWf, State.memWf.tile]
theorem State.arrive_memWf (s : State) (t ep : Nat) (k : ChKind → Bool) (f : State → Endpoint → ChPkt → State)
    (hs : s.memWf) (h : ∀ s e p, s.memWf → (f s e p).memWf) : (State.arrive s t ep k f).memWf := by
  unfold State.arrive; grind [State.memWf, State.chanErr_memWf]
theorem Tile.bump_memWf : ∀ a0 a1, Tile.memWf a0 → (Tile.bump a0 a1).memWf := by
  intro a0 a1 h; unfold Tile.bump; grind only [State.memWf, Tile.memWf, Slab.memWf, Tile.addTally_memWf]
theorem landMsg_memWf : ∀ a0 a1 a2 a3 a4 a5, State.memWf a5 → (landMsg a0 a1 a2 a3 a4 a5).memWf := by
  intro a0 a1 a2 a3 a4 a5 h; unfold landMsg; grind only [State.memWf, Tile.memWf, Slab.memWf, State.onTile,
      Tile.write_memWf, Tile.setEp_memWf, Tile.bump_memWf, State.setTile_memWf, State.memWf.tile]
theorem State.writeWindow_memWf : ∀ a0 a1 a2 a3 a4, State.memWf a0 → (State.writeWindow a0 a1 a2 a3 a4).memWf := by
  intro a0 a1 a2 a3 a4 h; unfold State.writeWindow; grind only [State.memWf, Tile.memWf, Slab.memWf,
      State.putLines_memWf, State.memWf.tile]
theorem State.noticeAt_memWf : ∀ a0 a1 a2, State.memWf a0 → (State.noticeAt a0 a1 a2).memWf := by
  intro a0 a1 a2 h; unfold State.noticeAt; grind only [State.memWf, Tile.memWf, Slab.memWf, State.chanErr_memWf,
      State.memWf.tile]
theorem State.copyRows_memWf : ∀ a0 a1 a2 a3 a4 a5 a6, State.memWf a0 → (State.copyRows a0 a1 a2 a3 a4 a5 a6).1.memWf := by
  intro a0 a1 a2 a3 a4 a5 a6 h; fun_induction State.copyRows a0 a1 a2 a3 a4 a5 a6 <;> grind [State.memWf, Tile.memWf,
      Slab.memWf, State.getLines_memWf, State.putLines_memWf]
theorem State.engStep_memWf (s : State) (t : Nat) (q : EngQ) (ok : Desc → Bool) (f : State → Run → State)
    (hs : s.memWf) (h : ∀ s r, s.memWf → (f s r).memWf) : (State.engStep s t q ok f).memWf := by
  unfold State.engStep; grind [State.memWf]
theorem State.engDone_memWf : ∀ a0 a1 a2, State.memWf a0 → (State.engDone a0 a1 a2).memWf := by
  intro a0 a1 a2 h; unfold State.engDone; grind only [State.memWf, Tile.memWf, Slab.memWf, State.onTile,
      Tile.setEng_memWf, State.setTile_memWf, State.memWf.tile]
theorem State.countDma_memWf : ∀ a0 a1 a2, State.memWf a0 → (State.countDma a0 a1 a2).memWf := by
  intro a0 a1 a2 h; unfold State.countDma; grind only [State.memWf, Tile.memWf, Slab.memWf, State.countT_memWf]
theorem State.dmaStep_memWf (s : State) (t op : Nat) (f : State → Run → DmaD → State)
    (hs : s.memWf) (h : ∀ s r d, s.memWf → (f s r d).memWf) : (State.dmaStep s t op f).memWf := by
  unfold State.dmaStep
  refine State.engStep_memWf _ _ _ _ _ hs (fun s r hs => ?_)
  split
  · exact hs
  · split
    · exact h _ _ _ hs
    · exact State.onTile_memWf _ _ _ (State.raiseT_memWf _ _ _ _ (foldl_memWf _ (fun s c h => State.reportRefused_memWf _ _ _ h) _ _ hs)) (fun _ h => h)
theorem State.sendRows_memWf : ∀ a0 a1 a2 a3 a4, State.memWf a0 → (State.sendRows a0 a1 a2 a3 a4).1.memWf := by
  intro a0 a1 a2 a3 a4 h; fun_induction State.sendRows a0 a1 a2 a3 a4 <;> grind [State.memWf, Tile.memWf, Slab.memWf,
      State.chSend_memWf, State.getLines_memWf]
theorem State.selEvents_memWf : ∀ a0 a1 a2 a3 a4 a5, State.memWf a0 → (State.selEvents a0 a1 a2 a3 a4 a5).memWf := by
  intro a0 a1 a2 a3 a4 a5 h; unfold State.selEvents; grind only [State.memWf, Tile.memWf, Slab.memWf,
      State.orStat_memWf, State.countT_memWf]
theorem State.opaRow_memWf : ∀ a0 a1 a2 a3 a4 a5 a6 a7, State.memWf a0 → (State.opaRow a0 a1 a2 a3 a4 a5 a6 a7).memWf := by
  intro a0 a1 a2 a3 a4 a5 a6 h; unfold State.opaRow; grind only [State.memWf, Tile.memWf, Slab.memWf, foldl_memWf,
      foldl_fst_memWf, foldl_tile_memWf, State.setTile_memWf, State.raiseT_memWf, Tile.setBank_memWf,
      State.selEvents_memWf, State.memWf.tile]
theorem Tile.commitPass_memWf : ∀ a0 a1 a2 a3 a4, Tile.memWf a0 → (Tile.commitPass a0 a1 a2 a3 a4).memWf := by
  intro a0 a1 a2 a3 h; unfold Tile.commitPass; grind only [State.memWf, Tile.memWf, Slab.memWf, foldl_memWf,
      foldl_fst_memWf, foldl_tile_memWf, Tile.setBank_memWf]
theorem State.opaBegin_memWf : ∀ a0 a1 a2 a3 a4 a5, State.memWf a0 → (State.opaBegin a0 a1 a2 a3 a4 a5).memWf := by
  intro a0 a1 a2 a3 a4 a5 h; unfold State.opaBegin; grind only [State.memWf, Tile.memWf, Slab.memWf, foldl_memWf,
      foldl_fst_memWf, foldl_tile_memWf, State.setTile_memWf, State.countT_memWf, State.fresh_memWf,
      State.selEvents_memWf, State.memWf.tile]
theorem State.opaRun_memWf : ∀ a0 a1 a2, State.memWf a0 → (State.opaRun a0 a1 a2).memWf := by
  intro a0 a1 a2 h; unfold State.opaRun; grind only [State.memWf, Tile.memWf, Slab.memWf, foldl_memWf, foldl_fst_memWf,
      foldl_tile_memWf, State.onTile, State.opaRow_memWf, Tile.commitPass_memWf, State.opaBegin_memWf,
      State.setTile_memWf, State.memWf.tile]
theorem State.countDrained_memWf : ∀ a0 a1, State.memWf a0 → (State.countDrained a0 a1).memWf := by
  intro a0 a1 h; unfold State.countDrained; grind only [State.memWf, Tile.memWf, Slab.memWf, State.onFn_memWf,
      State.memWf.tile]
theorem State.signalEng_memWf : ∀ a0 a1 a2, State.memWf a0 → (State.signalEng a0 a1 a2).memWf := by
  intro a0 a1 a2 h; unfold State.signalEng; grind only [State.memWf, Tile.memWf, Slab.memWf, State.onTile,
      Tile.addTally_memWf, Tile.setEng_memWf, State.countDrained_memWf, State.setTile_memWf, State.memWf.tile]
theorem Tile.cutPass_memWf : ∀ a0 a1, Tile.memWf a0 → (Tile.cutPass a0 a1).memWf := by
  intro a0 a1 h; unfold Tile.cutPass; grind only [State.memWf, Tile.memWf, Slab.memWf, foldl_memWf, foldl_fst_memWf,
      foldl_tile_memWf, Tile.setBank_memWf, Tile.commitPass_memWf]
theorem VeAcc.note_memWf : ∀ a0 a1 a2, VeAcc.memWf a0 → (VeAcc.note a0 a1 a2).memWf := by
  intro a0 a1 a2 h; unfold VeAcc.note; grind only [State.memWf, Tile.memWf, Slab.memWf, VeAcc.memWf]
theorem VeAcc.addEv_memWf : ∀ a0 a1, VeAcc.memWf a0 → (VeAcc.addEv a0 a1).memWf := by
  intro a0 a1 h; exact h
theorem VeAcc.read_memWf : ∀ a0 a1, VeAcc.memWf a0 → (VeAcc.read a0 a1).memWf := by
  intro a0 a1 h; unfold VeAcc.read; grind only [State.memWf, Tile.memWf, Slab.memWf, VeAcc.memWf, foldl_memWf,
      foldl_fst_memWf, foldl_tile_memWf, foldl_ve_memWf, foldl_ve_fst_memWf]
theorem putPoisoned_memWf : ∀ a0 a1 a2 a3, Tile.memWf a0 → (putPoisoned a0 a1 a2 a3).memWf := by
  intro a0 a1 a2 a3 h; fun_induction putPoisoned a0 a1 a2 a3 <;> grind [State.memWf, Tile.memWf, Slab.memWf,
      VeAcc.memWf, Tile.write_memWf]
theorem Tile.putP_memWf : ∀ a0 a1 a2, Tile.memWf a0 → (Tile.putP a0 a1 a2).memWf := by
  intro a0 a1 a2 h; unfold Tile.putP; grind only [State.memWf, Tile.memWf, Slab.memWf, VeAcc.memWf, putPoisoned_memWf]
theorem VeAcc.storeAt_memWf : ∀ a0 a1 a2 a3 a4 a5 a6 a7, VeAcc.memWf a0 → (VeAcc.storeAt a0 a1 a2 a3 a4 a5 a6 a7).memWf := by
  intro a0 a1 a2 a3 a4 a5 a6 a7 h; unfold VeAcc.storeAt; grind only [State.memWf, Tile.memWf, Slab.memWf, VeAcc.memWf,
      VeAcc.note_memWf, Tile.putP_memWf]
theorem VeAcc.store_memWf : ∀ a0 a1 a2 a3 a4 a5, VeAcc.memWf a0 → (VeAcc.store a0 a1 a2 a3 a4 a5).memWf := by
  intro a0 a1 a2 a3 a4 a5 h; unfold VeAcc.store; grind only [State.memWf, Tile.memWf, Slab.memWf, VeAcc.memWf,
      VeAcc.storeAt_memWf]
theorem VeAcc.storeSeam_memWf : ∀ a0 a1 a2, VeAcc.memWf a0 → (VeAcc.storeSeam a0 a1 a2).memWf := by
  intro a0 a1 a2 h; unfold VeAcc.storeSeam; grind only [State.memWf, Tile.memWf, Slab.memWf, VeAcc.memWf,
      Tile.write_memWf, VeAcc.note_memWf]
theorem VeAcc.putHem_memWf : ∀ a0 a1, VeAcc.memWf a0 → (VeAcc.putHem a0 a1).memWf := by
  intro a0 a1 h; unfold VeAcc.putHem; grind only [State.memWf, Tile.memWf, Slab.memWf, VeAcc.memWf, foldl_memWf,
      foldl_fst_memWf, foldl_tile_memWf, foldl_ve_memWf, foldl_ve_fst_memWf, State.event_memWf, Tile.write_memWf]
theorem VeAcc.special_memWf : ∀ a0 a1 a2, VeAcc.memWf a0 → (VeAcc.special a0 a1 a2).1.memWf := by
  intro a0 a1 a2 h; exact h
theorem State.fmtEvents_memWf : ∀ a0 a1 a2 a3 a4, State.memWf a0 → (State.fmtEvents a0 a1 a2 a3 a4).memWf := by
  intro a0 a1 a2 a3 a4 h; unfold State.fmtEvents; grind only [State.memWf, Tile.memWf, Slab.memWf, VeAcc.memWf,
      State.countT_memWf]
theorem State.raiseMany_memWf : ∀ a0 a1 a2 a3 a4, State.memWf a0 → (State.raiseMany a0 a1 a2 a3 a4).memWf := by
  intro a0 a1 a2 a3 a4 h; fun_induction State.raiseMany a0 a1 a2 a3 a4 <;> grind [State.memWf, Tile.memWf, Slab.memWf,
      VeAcc.memWf, State.raiseT_memWf]
theorem State.sfuCounts_memWf : ∀ a0 a1 a2, State.memWf a0 → (State.sfuCounts a0 a1 a2).memWf := by
  intro a0 a1 a2 h; unfold State.sfuCounts; grind only [State.memWf, Tile.memWf, Slab.memWf, VeAcc.memWf, foldl_memWf,
      foldl_fst_memWf, foldl_tile_memWf, foldl_ve_memWf, foldl_ve_fst_memWf, State.orStat_memWf, State.countT_memWf]
theorem State.veFinish_memWf (s : State) (t : Nat) (v : VeD) (n : Nat) (a : VeAcc) (h : s.memWf) (ha : a.memWf) :
    (s.veFinish t v n a).memWf := by
  have h1 : (s.setTile t (a.putHem v).x).memWf := State.setTile_memWf _ _ _ h (VeAcc.putHem_memWf _ _ ha)
  unfold State.veFinish
  grind [State.raiseMany_memWf, State.sfuCounts_memWf, State.countT_memWf, State.fmtEvents_memWf, State.orStat_memWf]
theorem Tile.poisonRow_memWf : ∀ a0 a1 a2, Tile.memWf a0 → (Tile.poisonRow a0 a1 a2).memWf := by
  intro a0 a1 a2 h; unfold Tile.poisonRow; grind only [State.memWf, Tile.memWf, Slab.memWf, VeAcc.memWf, Tile.setBank_memWf]
theorem VeAcc.scale_memWf : ∀ a0 a1, VeAcc.memWf a0 → (VeAcc.scale a0 a1).memWf := by
  intro a0 a1 h; unfold VeAcc.scale; grind only [State.memWf, Tile.memWf, Slab.memWf, VeAcc.memWf, VeAcc.note_memWf]
theorem VeAcc.load_memWf : ∀ a0 a1 a2, VeAcc.memWf a0 → (VeAcc.load a0 a1 a2).1.memWf := by
  intro a0 a1 a2 h; unfold VeAcc.load; grind only [State.memWf, Tile.memWf, Slab.memWf, VeAcc.memWf, VeAcc.read_memWf,
      VeAcc.store_memWf, VeAcc.scale_memWf]
theorem VeAcc.storeR_memWf : ∀ a0 a1 a2 a3, VeAcc.memWf a0 → (VeAcc.storeR a0 a1 a2 a3).memWf := by
  intro a0 a1 a2 a3 h; unfold VeAcc.storeR; grind only [State.memWf, Tile.memWf, Slab.memWf, VeAcc.memWf, foldl_memWf,
      foldl_fst_memWf, foldl_tile_memWf, foldl_ve_memWf, foldl_ve_fst_memWf, VeAcc.addEv_memWf, VeAcc.store_memWf]
theorem VeAcc.map1_memWf : ∀ a0 a1 a2 a3, VeAcc.memWf a0 → (VeAcc.map1 a0 a1 a2 a3).memWf := by
  intro a0 a1 a2 a3 h; unfold VeAcc.map1; grind only [State.memWf, Tile.memWf, Slab.memWf, VeAcc.memWf,
      VeAcc.load_memWf, VeAcc.storeR_memWf]
theorem VeAcc.map2_memWf : ∀ a0 a1 a2 a3, VeAcc.memWf a0 → (VeAcc.map2 a0 a1 a2 a3).memWf := by
  intro a0 a1 a2 a3 h; unfold VeAcc.map2; grind only [State.memWf, Tile.memWf, Slab.memWf, VeAcc.memWf,
      VeAcc.load_memWf, VeAcc.storeR_memWf]
theorem VeAcc.mulAdd_memWf : ∀ a0 a1 a2, VeAcc.memWf a0 → (VeAcc.mulAdd a0 a1 a2).memWf := by
  intro a0 a1 a2 h; unfold VeAcc.mulAdd; grind only [State.memWf, Tile.memWf, Slab.memWf, VeAcc.memWf,
      VeAcc.read_memWf, VeAcc.load_memWf, VeAcc.storeR_memWf]
theorem VeAcc.useParam_memWf : ∀ a0, VeAcc.memWf a0 → (VeAcc.useParam a0).memWf := by
  intro a0 h; exact h
theorem VeAcc.rotate_memWf : ∀ a0 a1 a2 a3 a4, VeAcc.memWf a0 → (VeAcc.rotate a0 a1 a2 a3 a4).1.memWf := by
  intro a0 a1 a2 a3 a4 h; exact h
theorem VeAcc.rope_memWf : ∀ a0 a1 a2, VeAcc.memWf a0 → (VeAcc.rope a0 a1 a2).memWf := by
  intro a0 a1 a2 h; unfold VeAcc.rope; grind only [State.memWf, Tile.memWf, Slab.memWf, VeAcc.memWf, foldl_memWf,
      foldl_fst_memWf, foldl_tile_memWf, foldl_ve_memWf, foldl_ve_fst_memWf, VeAcc.load_memWf, VeAcc.storeR_memWf,
      VeAcc.rotate_memWf]
theorem VeAcc.gather_memWf : ∀ a0 a1 a2, VeAcc.memWf a0 → (VeAcc.gather a0 a1 a2).memWf := by
  intro a0 a1 a2 h; unfold VeAcc.gather; grind only [State.memWf, Tile.memWf, Slab.memWf, VeAcc.memWf,
      VeAcc.note_memWf, VeAcc.read_memWf, VeAcc.scale_memWf, VeAcc.storeR_memWf, VeAcc.useParam_memWf]
theorem VeAcc.permute_memWf : ∀ a0 a1 a2, VeAcc.memWf a0 → (VeAcc.permute a0 a1 a2).memWf := by
  intro a0 a1 a2 h; unfold VeAcc.permute; grind only [State.memWf, Tile.memWf, Slab.memWf, VeAcc.memWf,
      VeAcc.note_memWf, VeAcc.load_memWf, VeAcc.storeR_memWf]
theorem VeAcc.seamAdd_memWf : ∀ a0 a1 a2, VeAcc.memWf a0 → (VeAcc.seamAdd a0 a1 a2).memWf := by
  intro a0 a1 a2 h; unfold VeAcc.seamAdd; grind only [State.memWf, Tile.memWf, Slab.memWf, VeAcc.memWf, foldl_memWf,
      foldl_fst_memWf, foldl_tile_memWf, foldl_ve_memWf, foldl_ve_fst_memWf, VeAcc.storeSeam_memWf]
theorem VeAcc.seamCvt_memWf : ∀ a0 a1 a2, VeAcc.memWf a0 → (VeAcc.seamCvt a0 a1 a2).memWf := by
  intro a0 a1 a2 h; unfold VeAcc.seamCvt; grind only [State.memWf, Tile.memWf, Slab.memWf, VeAcc.memWf, foldl_memWf,
      foldl_fst_memWf, foldl_tile_memWf, foldl_ve_memWf, foldl_ve_fst_memWf, VeAcc.addEv_memWf, VeAcc.store_memWf,
      VeAcc.special_memWf, VeAcc.scale_memWf]
theorem Tile.parityRow_memWf : ∀ a0 a1 a2 a3, Tile.memWf a0 → (Tile.parityRow a0 a1 a2 a3).1.memWf := by
  intro a0 a1 a2 a3 h; unfold Tile.parityRow; grind only [State.memWf, Tile.memWf, Slab.memWf, VeAcc.memWf,
      Tile.poisonRow_memWf]
theorem VeAcc.accRead_memWf : ∀ a0 a1 a2, VeAcc.memWf a0 → (VeAcc.accRead a0 a1 a2).memWf := by
  intro a0 a1 a2 h; unfold VeAcc.accRead; grind only [State.memWf, Tile.memWf, Slab.memWf, VeAcc.memWf,
      VeAcc.store_memWf, VeAcc.storeSeam_memWf, Tile.parityRow_memWf]
theorem VeAcc.rowVals_memWf : ∀ a0 a1 a2, VeAcc.memWf a0 → (VeAcc.rowVals a0 a1 a2).1.memWf := by
  intro a0 a1 a2 h; unfold VeAcc.rowVals; grind only [State.memWf, Tile.memWf, Slab.memWf, VeAcc.memWf, foldl_memWf,
      foldl_fst_memWf, foldl_tile_memWf, foldl_ve_memWf, foldl_ve_fst_memWf, VeAcc.load_memWf]
theorem VeAcc.rowElems_memWf : ∀ a0 a1 a2, VeAcc.memWf a0 → (VeAcc.rowElems a0 a1 a2).1.memWf := by
  intro a0 a1 a2 h; unfold VeAcc.rowElems; grind only [State.memWf, Tile.memWf, Slab.memWf, VeAcc.memWf,
      VeAcc.read_memWf, VeAcc.scale_memWf]
theorem VeAcc.storeRow_memWf : ∀ a0 a1 a2 a3 a4 a5 a6, VeAcc.memWf a0 → (VeAcc.storeRow a0 a1 a2 a3 a4 a5 a6).memWf := by
  intro a0 a1 a2 a3 a4 a5 a6 h; unfold VeAcc.storeRow; grind only [State.memWf, Tile.memWf, Slab.memWf, VeAcc.memWf,
      VeAcc.storeAt_memWf]
theorem VeAcc.rsum_memWf : ∀ a0 a1 a2 a3, VeAcc.memWf a0 → (VeAcc.rsum a0 a1 a2 a3).memWf := by
  intro a0 a1 a2 a3 h; unfold VeAcc.rsum; grind only [State.memWf, Tile.memWf, Slab.memWf, VeAcc.memWf,
      VeAcc.addEv_memWf, VeAcc.storeSeam_memWf, VeAcc.rowElems_memWf, VeAcc.storeRow_memWf]
theorem VeAcc.rext_memWf : ∀ a0 a1 a2 a3 a4, VeAcc.memWf a0 → (VeAcc.rext a0 a1 a2 a3 a4).memWf := by
  intro a0 a1 a2 a3 a4 h; unfold VeAcc.rext; grind only [State.memWf, Tile.memWf, Slab.memWf, VeAcc.memWf, foldl_memWf,
      foldl_fst_memWf, foldl_tile_memWf, foldl_ve_memWf, foldl_ve_fst_memWf, VeAcc.rowVals_memWf, VeAcc.storeRow_memWf]
theorem VeAcc.normStats_memWf : ∀ a0 a1 a2 a3, VeAcc.memWf a0 → (VeAcc.normStats a0 a1 a2 a3).1.memWf := by
  intro a0 a1 a2 a3 h; unfold VeAcc.normStats; grind only [State.memWf, Tile.memWf, Slab.memWf, VeAcc.memWf,
      VeAcc.addEv_memWf, VeAcc.special_memWf, VeAcc.useParam_memWf]
theorem VeAcc.norm_memWf : ∀ a0 a1 a2 a3, VeAcc.memWf a0 → (VeAcc.norm a0 a1 a2 a3).memWf := by
  intro a0 a1 a2 a3 h; unfold VeAcc.norm; grind only [State.memWf, Tile.memWf, Slab.memWf, VeAcc.memWf, foldl_memWf,
      foldl_fst_memWf, foldl_tile_memWf, foldl_ve_memWf, foldl_ve_fst_memWf, VeAcc.addEv_memWf, VeAcc.read_memWf,
      VeAcc.store_memWf, VeAcc.load_memWf, VeAcc.rowElems_memWf, VeAcc.normStats_memWf]
theorem VeAcc.topk_memWf : ∀ a0 a1 a2 a3, VeAcc.memWf a0 → (VeAcc.topk a0 a1 a2 a3).memWf := by
  intro a0 a1 a2 a3 h; unfold VeAcc.topk; grind only [State.memWf, Tile.memWf, Slab.memWf, VeAcc.memWf, foldl_memWf,
      foldl_fst_memWf, foldl_tile_memWf, foldl_ve_memWf, foldl_ve_fst_memWf, Tile.putP_memWf, VeAcc.useParam_memWf,
      VeAcc.rowVals_memWf, VeAcc.storeRow_memWf]
theorem VeAcc.sample_memWf : ∀ a0 a1 a2 a3, VeAcc.memWf a0 → (VeAcc.sample a0 a1 a2 a3).memWf := by
  intro a0 a1 a2 a3 h; unfold VeAcc.sample; grind only [State.memWf, Tile.memWf, Slab.memWf, VeAcc.memWf, foldl_memWf,
      foldl_fst_memWf, foldl_tile_memWf, foldl_ve_memWf, foldl_ve_fst_memWf, VeAcc.note_memWf, VeAcc.addEv_memWf,
      Tile.putP_memWf, VeAcc.special_memWf, VeAcc.rowVals_memWf]
theorem State.veStart_memWf (s : State) (t : Nat) (d : Desc) (h : s.memWf) : (s.veStart t d).memWf := by
  have hf : ∀ (l : List Nat) (x : Tile), x.memWf → (l.foldl (fun x k => x.poisonRow (k / 64) (k % 64)) x).memWf :=
    fun l x hx => foldl_tile_memWf _ (fun x k hx => Tile.poisonRow_memWf _ _ _ hx) l x hx
  exact hf _ _ (h.tile t)
theorem State.veVectors_memWf (s : State) (t : Nat) (r : Run) (f : VeAcc → VeD → Vec → VeAcc) (h : s.memWf)
    (hf : ∀ a v w, a.memWf → (f a v w).memWf) : (s.veVectors t r f).memWf := by
  unfold State.veVectors
  exact State.engDone_memWf _ _ _ (State.veFinish_memWf _ _ _ _ _ h
    (foldl_ve_memWf _ (fun a w ha => hf a _ w ha) _ _ (State.veStart_memWf _ _ _ h)))
theorem State.veRows_memWf (s : State) (t : Nat) (r : Run) (f : VeAcc → VeD → Nat → List Vec → VeAcc) (h : s.memWf)
    (hf : ∀ a v n w, a.memWf → (f a v n w).memWf) : (s.veRows t r f).memWf := by
  unfold State.veRows
  exact State.engDone_memWf _ _ _ (State.veFinish_memWf _ _ _ _ _ h
    (foldl_ve_memWf _ (fun a w ha => hf a _ _ _ ha) _ _ (State.veStart_memWf _ _ _ h)))
theorem VeAcc.sfuVec_memWf : ∀ a0 a1 a2 a3, VeAcc.memWf a0 → (VeAcc.sfuVec a0 a1 a2 a3).memWf := by
  intro a0 a1 a2 a3 h; unfold VeAcc.sfuVec; grind only [State.memWf, Tile.memWf, Slab.memWf, VeAcc.memWf,
      VeAcc.store_memWf, VeAcc.load_memWf]
theorem State.sfuRun_memWf (s : State) (t : Nat) (r : Run) (f : Num → SfuRes) (u : Bool) (h : s.memWf) :
    (s.sfuRun t r f u).memWf := by
  have h1 : ∀ v : VeD,
      (s.setTile t ((v.walk.foldl (fun a w => a.sfuVec v f w) (s.veStart t r.desc)).putHem v).x).memWf := fun v =>
    State.setTile_memWf _ _ _ h (VeAcc.putHem_memWf _ _ (foldl_ve_memWf _ (fun a w ha => VeAcc.sfuVec_memWf _ _ _ _ ha) _ _
      (State.veStart_memWf _ _ _ h)))
  unfold State.sfuRun
  refine State.engDone_memWf _ _ _ ?_
  grind [State.orStat_memWf, State.fmtEvents_memWf, State.sfuCounts_memWf, State.raiseMany_memWf]
theorem State.sfuFn_memWf : ∀ s t op, State.memWf s → (State.sfuFn s t op).memWf := by
  intro s t op hs; exact State.engStep_memWf _ _ _ _ _ hs (fun _ _ hs => State.sfuRun_memWf _ _ _ _ _ hs)
theorem State.walkRead_memWf : ∀ a0 a1 a2 a3 a4, State.memWf a0 → (State.walkRead a0 a1 a2 a3 a4).1.memWf := by
  intro a0 a1 a2 a3 a4 h; unfold State.walkRead; grind only [State.memWf, Tile.memWf, Slab.memWf, State.readPieces_memWf]
theorem Tile.fillPlb_memWf : ∀ a0 a1, Tile.memWf a0 → (Tile.fillPlb a0 a1).memWf := by
  intro a0 a1 h; unfold Tile.fillPlb; grind only [State.memWf, Tile.memWf, Slab.memWf]
theorem State.walkTable_memWf : ∀ a0 a1 a2 a3 a4 a5, State.memWf a0 → (State.walkTable a0 a1 a2 a3 a4 a5).1.memWf := by
  intro a0 a1 a2 a3 a4 a5 h; unfold State.walkTable; grind only [State.memWf, Tile.memWf, Slab.memWf, foldl_memWf,
      foldl_fst_memWf, foldl_tile_memWf, State.onTile, State.walkRead_memWf, Tile.fillPlb_memWf, State.setTile_memWf,
      State.memWf.tile]
theorem State.lookUp_memWf : ∀ a0 a1 a2 a3 a4 a5, State.memWf a0 → (State.lookUp a0 a1 a2 a3 a4 a5).1.memWf := by
  intro a0 a1 a2 a3 a4 a5 h; unfold State.lookUp; grind only [State.memWf, Tile.memWf, Slab.memWf, State.onTile,
      State.countT_memWf, State.fresh_memWf, Tile.fillPlb_memWf, State.walkTable_memWf, State.setTile_memWf,
      State.memWf.tile]
theorem State.resolveRead_memWf : ∀ a0 a1 a2 a3 a4 a5 a6 a7,
      State.memWf a0 → (State.resolveRead a0 a1 a2 a3 a4 a5 a6 a7).1.memWf := by
  intro a0 a1 a2 a3 a4 a5 a6 a7 h; unfold State.resolveRead; grind only [State.memWf, Tile.memWf, Slab.memWf,
      State.lookUp_memWf]
theorem State.resolveAppend_memWf : ∀ a0 a1 a2 a3 a4 a5,
      State.memWf a0 → (State.resolveAppend a0 a1 a2 a3 a4 a5).1.memWf := by
  intro a0 a1 a2 a3 a4 a5 h; unfold State.resolveAppend; grind only [State.memWf, Tile.memWf, Slab.memWf,
      State.count_memWf, State.lookUp_memWf]
theorem State.pwReport_memWf : ∀ a0 a1 a2 a3 a4 a5 a6 a7,
      State.memWf a0 → (State.pwReport a0 a1 a2 a3 a4 a5 a6 a7).memWf := by
  intro a0 a1 a2 a3 a4 a5 a6 a7 h; unfold State.pwReport; grind only [State.memWf, Tile.memWf, Slab.memWf,
      State.orStat_memWf, State.countT_memWf, State.event_memWf, State.notify_memWf, State.raise_memWf, State.memWf.tile]
theorem State.walkWrite_memWf : ∀ a0 a1 a2 a3 a4, State.memWf a0 → (State.walkWrite a0 a1 a2 a3 a4).memWf := by
  intro a0 a1 a2 a3 a4 h; unfold State.walkWrite; grind only [State.memWf, Tile.memWf, Slab.memWf, State.writePieces_memWf]
theorem State.pwEvents_memWf : ∀ a0 a1 a2, State.memWf a0 → (State.pwEvents a0 a1 a2).memWf := by
  intro a0 a1 a2 h; unfold State.pwEvents; grind only [State.memWf, Tile.memWf, Slab.memWf, State.orStat_memWf,
      State.fmtEvents_memWf]
theorem State.putLeaf_memWf : ∀ a0 a1 a2 a3 a4 a5 a6 a7 a8,
      State.memWf a0 → (State.putLeaf a0 a1 a2 a3 a4 a5 a6 a7 a8).memWf := by
  intro a0 a1 a2 a3 a4 a5 h; unfold State.putLeaf; grind only [State.memWf, Tile.memWf, Slab.memWf, State.onTile,
      State.walkWrite_memWf, State.setTile_memWf, State.memWf.tile]
theorem State.pageWrite_memWf : ∀ a0 a1 a2 a3 a4 a5, State.memWf a0 → (State.pageWrite a0 a1 a2 a3 a4 a5).memWf := by
  intro a0 a1 a2 a3 a4 a5 h; unfold State.pageWrite; grind only [State.memWf, Tile.memWf, Slab.memWf, State.walkWrite_memWf]
theorem State.appendRow_memWf : ∀ a0 a1 a2 a3 a4 a5 a6, State.memWf a0 → (State.appendRow a0 a1 a2 a3 a4 a5 a6).memWf := by
  intro a0 a1 a2 a3 a4 a5 a6 h; unfold State.appendRow; grind only [State.memWf, Tile.memWf, Slab.memWf, foldl_memWf,
      foldl_fst_memWf, foldl_tile_memWf, State.onTile, State.count_memWf, Tile.write_memWf, State.resolveAppend_memWf,
      State.pwReport_memWf, State.pwEvents_memWf, State.putLeaf_memWf, State.pageWrite_memWf, State.setTile_memWf,
      State.memWf.tile]
theorem Tile.noStatus_memWf : ∀ a0 a1 a2, Tile.memWf a0 → (Tile.noStatus a0 a1 a2).memWf := by
  intro a0 a1 a2 h; unfold Tile.noStatus; grind only [State.memWf, Tile.memWf, Slab.memWf, foldl_memWf,
      foldl_fst_memWf, foldl_tile_memWf, Tile.write_memWf]
theorem State.pwInvalidate_memWf : ∀ a0 a1, State.memWf a0 → (State.pwInvalidate a0 a1).memWf := by
  intro a0 a1 h; unfold State.pwInvalidate; (repeat' (first | with_reducible refine State.engStep_memWf _ _ _ _ _ ?_ (fun s r h => ?_))); all_goals grind [State.memWf, Tile.memWf, Slab.memWf, State.onTile, State.engDone_memWf, State.setTile_memWf, State.memWf.tile]
theorem State.pageRowVals_memWf : ∀ a0 a1 a2 a3 a4 a5 a6 a7 a8,
      State.memWf a0 → (State.pageRowVals a0 a1 a2 a3 a4 a5 a6 a7 a8).1.memWf := by
  intro a0 a1 a2 a3 a4 a5 a6 a7 a8 h; unfold State.pageRowVals
  grind only [State.memWf, Tile.memWf, Slab.memWf, State.getLines_memWf]
theorem State.readToken_memWf : ∀ a0 a1 a2 a3 a4 a5 a6, State.memWf a0 → (State.readToken a0 a1 a2 a3 a4 a5 a6).1.memWf := by
  intro a0 a1 a2 a3 a4 a5 a6 h; unfold State.readToken; grind only [State.memWf, Tile.memWf, Slab.memWf, foldl_memWf,
      foldl_fst_memWf, foldl_tile_memWf, State.count_memWf, State.pageRowVals_memWf]
theorem State.readPages_memWf : ∀ a0 a1 a2 a3 a4 a5 a6 a7,
      State.memWf a0 → (State.readPages a0 a1 a2 a3 a4 a5 a6 a7).1.memWf := by
  intro a0 a1 a2 a3 a4 a5 a6 a7 h; fun_induction State.readPages a0 a1 a2 a3 a4 a5 a6 a7 <;> grind [State.memWf,
      Tile.memWf, Slab.memWf, foldl_memWf, foldl_fst_memWf, foldl_tile_memWf, State.orStat_memWf, State.count_memWf,
      State.countT_memWf, State.resolveRead_memWf, State.pwReport_memWf, State.readToken_memWf]
theorem Tile.finalise_memWf : ∀ a0 a1 a2 a3, Tile.memWf a0 → (Tile.finalise a0 a1 a2 a3).memWf := by
  intro a0 a1 a2 a3 h; unfold Tile.finalise; grind only [State.memWf, Tile.memWf, Slab.memWf, Tile.write_memWf,
      Tile.putP_memWf]
theorem State.endRow_memWf : ∀ a0 a1 a2 a3 a4 a5, State.memWf a0 → (State.endRow a0 a1 a2 a3 a4 a5).memWf := by
  intro a0 a1 a2 a3 a4 a5 h; unfold State.endRow; grind only [State.memWf, Tile.memWf, Slab.memWf, State.onTile,
      State.orStat_memWf, State.countT_memWf, Tile.write_memWf, State.raiseMany_memWf, State.sfuCounts_memWf,
      Tile.finalise_memWf, State.setTile_memWf, State.memWf.tile]
theorem State.gusAlign_memWf : ∀ a0 a1 a2 a3 a4 a5, State.memWf a0 → (State.gusAlign a0 a1 a2 a3 a4 a5).memWf := by
  intro a0 a1 a2 a3 a4 a5 h; unfold State.gusAlign; grind only [State.memWf, Tile.memWf, Slab.memWf, State.selEvents_memWf]
theorem State.kvAlign_memWf : ∀ a0 a1 a2 a3, State.memWf a0 → (State.kvAlign a0 a1 a2 a3).memWf := by
  intro a0 a1 a2 a3 h; unfold State.kvAlign; grind only [State.memWf, Tile.memWf, Slab.memWf, foldl_memWf,
      foldl_fst_memWf, foldl_tile_memWf, State.count_memWf, State.selEvents_memWf]
theorem State.gusSteps_memWf : ∀ a0 a1 a2 a3, State.memWf a0 → (State.gusSteps a0 a1 a2 a3).memWf := by
  intro a0 a1 a2 a3 h; unfold State.gusSteps; grind only [State.memWf, Tile.memWf, Slab.memWf, State.countT_memWf]
theorem State.readSlot_memWf : ∀ a0 a1 a2 a3 a4, State.memWf a0 → (State.readSlot a0 a1 a2 a3 a4).1.memWf := by
  intro a0 a1 a2 a3 a4 h; unfold State.readSlot; grind only [State.memWf, Tile.memWf, Slab.memWf, State.orStat_memWf,
      State.readPages_memWf, State.kvAlign_memWf, State.memWf.tile]
theorem State.attendRow_memWf : ∀ a0 a1 a2 a3 a4 a5 a6, State.memWf a0 → (State.attendRow a0 a1 a2 a3 a4 a5 a6).memWf := by
  intro a0 a1 a2 a3 a4 a5 h; unfold State.attendRow; grind only [State.memWf, Tile.memWf, Slab.memWf,
      State.endRow_memWf, State.gusAlign_memWf, State.memWf.tile]
theorem State.gusStep_memWf (s : State) (t op : Nat) (f : State → GusD → SMap Int → State)
    (hs : s.memWf) (h : ∀ s d q, s.memWf → (f s d q).memWf) : (State.gusStep s t op f).memWf := by
  unfold State.gusStep
  refine State.engStep_memWf _ _ _ _ _ hs (fun s r hs => ?_)
  grind [State.engDone_memWf, State.onTile, State.setTile_memWf, State.memWf.tile, Tile.memWf]
theorem State.rebaseRow_memWf : ∀ a0 a1 a2 a3, State.memWf a0 → (State.rebaseRow a0 a1 a2 a3).memWf := by
  intro a0 a1 a2 a3 h; unfold State.rebaseRow; grind only [State.memWf, Tile.memWf, Slab.memWf, State.onTile,
      State.orStat_memWf, State.countT_memWf, State.raiseT_memWf, Tile.write_memWf, State.raiseMany_memWf,
      State.setTile_memWf, State.memWf.tile]
theorem State.finaliseRow_memWf : ∀ a0 a1 a2 a3, State.memWf a0 → (State.finaliseRow a0 a1 a2 a3).memWf := by
  intro a0 a1 a2 a3 h; unfold State.finaliseRow; grind only [State.memWf, Tile.memWf, Slab.memWf, State.setTile_memWf,
      State.orStat_memWf, Tile.write_memWf, State.raiseMany_memWf, Tile.finalise_memWf, State.memWf.tile]
theorem State.recomputeRow_memWf : ∀ a0 a1 a2 a3 a4 a5 a6 a7,
      State.memWf a0 → (State.recomputeRow a0 a1 a2 a3 a4 a5 a6 a7).memWf := by
  intro a0 a1 a2 a3 a4 a5 a6 h; unfold State.recomputeRow; grind only [State.memWf, Tile.memWf, Slab.memWf,
      foldl_memWf, foldl_fst_memWf, foldl_tile_memWf, State.onTile, State.orStat_memWf, State.countT_memWf,
      Tile.write_memWf, Tile.putP_memWf, State.raiseMany_memWf, State.sfuCounts_memWf, State.gusAlign_memWf,
      State.setTile_memWf, State.memWf.tile]
theorem State.checkDesc_memWf : ∀ a0 a1 a2 a3, State.memWf a0 → (State.checkDesc a0 a1 a2 a3).1.memWf := by
  intro a0 a1 a2 a3 h; unfold State.checkDesc; grind only [State.memWf, Tile.memWf, Slab.memWf, foldl_memWf,
      foldl_fst_memWf, foldl_tile_memWf, State.raise_memWf, State.raiseT_memWf, State.reportRefused_memWf,
      State.chanErr_memWf, State.memWf.tile]
theorem State.startDesc_memWf : ∀ a0 a1 a2 a3, State.memWf a0 → (State.startDesc a0 a1 a2 a3).memWf := by
  intro a0 a1 a2 a3 h; unfold State.startDesc; grind only [State.memWf, Tile.memWf, Slab.memWf, State.onTile,
      Tile.setEng_memWf, State.checkDesc_memWf, State.setTile_memWf, State.memWf.tile]

end Sys2Proof.Machine
end

