-- ==== Sys2Proof/Laws/MemPackage.lean ====
section
/-! SUPPORT. Operations of the package blocks keep every memory canonical. -/

namespace Sys2Proof.Machine

theorem State.putColl_memWf : ∀ a0 a1, State.memWf a0 → (State.putColl a0 a1).memWf := by
  intro a0 a1 h; exact h
theorem State.raiseColl_memWf : ∀ a0 a1 a2 a3, State.memWf a0 → (State.raiseColl a0 a1 a2 a3).memWf := by
  intro a0 a1 a2 a3 h; unfold State.raiseColl; grind only [State.memWf, Tile.memWf, Slab.memWf, State.raise_memWf]
theorem State.collAbort_memWf : ∀ a0 a1 a2, State.memWf a0 → (State.collAbort a0 a1 a2).memWf := by
  intro a0 a1 a2 h; unfold State.collAbort; grind only [State.memWf, Tile.memWf, Slab.memWf, State.count_memWf,
      State.putColl_memWf, State.raiseColl_memWf]
theorem State.rackSend_memWf : ∀ a0 a1 a2, State.memWf a0 → (State.rackSend a0 a1 a2).1.memWf := by
  intro a0 a1 a2 h; unfold State.rackSend; grind only [State.memWf, Tile.memWf, Slab.memWf, State.enqueue_memWf]
theorem State.collSend1_memWf : ∀ a0 a1 a2, State.memWf a0 → (State.collSend1 a0 a1 a2).1.memWf := by
  intro a0 a1 a2 h; unfold State.collSend1; grind only [State.memWf, Tile.memWf, Slab.memWf, State.fabSend_memWf,
      State.rackSend_memWf]
theorem State.collFlushList_memWf : ∀ a0 a1 a2, State.memWf a0 → (State.collFlushList a0 a1 a2).1.memWf := by
  intro a0 a1 a2 h; fun_induction State.collFlushList a0 a1 a2 <;> grind [State.memWf, Tile.memWf, Slab.memWf,
      State.collSend1_memWf]
theorem State.collFlush_memWf : ∀ a0 a1, State.memWf a0 → (State.collFlush a0 a1).memWf := by
  intro a0 a1 h; unfold State.collFlush; grind only [State.memWf, Tile.memWf, Slab.memWf, State.putColl_memWf,
      State.collAbort_memWf, State.collFlushList_memWf]
theorem State.collGrant_memWf : ∀ a0 a1 a2 a3 a4 a5, State.memWf a0 → (State.collGrant a0 a1 a2 a3 a4 a5).1.memWf := by
  intro a0 a1 a2 a3 a4 a5 h; unfold State.collGrant; grind only [State.memWf, Tile.memWf, Slab.memWf, State.fabSend_memWf]
theorem State.collResidue_memWf : ∀ a0 a1 a2, State.memWf a0 → (State.collResidue a0 a1 a2).1.memWf := by
  intro a0 a1 a2 h; unfold State.collResidue; grind only [State.memWf, Tile.memWf, Slab.memWf, State.count_memWf,
      State.raiseColl_memWf]
theorem State.collConsume_memWf : ∀ a0 a1 a2 a3 a4, State.memWf a0 → (State.collConsume a0 a1 a2 a3 a4).1.memWf := by
  intro a0 a1 a2 a3 a4 h; unfold State.collConsume; grind only [State.memWf, Tile.memWf, Slab.memWf,
      State.putColl_memWf, State.collGrant_memWf]
theorem State.collConsumeAll_memWf : ∀ a0 a1 a2 a3, State.memWf a0 → (State.collConsumeAll a0 a1 a2 a3).1.memWf := by
  intro a0 a1 a2 a3 h; fun_induction State.collConsumeAll a0 a1 a2 a3 <;> grind [State.memWf, Tile.memWf, Slab.memWf,
      State.collConsume_memWf]
theorem State.collFail_memWf : ∀ a0 a1 a2 a3, State.memWf a0 → (State.collFail a0 a1 a2 a3).1.memWf := by
  intro a0 a1 a2 a3 h; unfold State.collFail; grind only [State.memWf, Tile.memWf, Slab.memWf, State.count_memWf,
      State.reportRefused_memWf, State.raiseColl_memWf]
theorem State.collWrite_memWf : ∀ a0 a1 a2 a3 a4 a5, State.memWf a0 → (State.collWrite a0 a1 a2 a3 a4 a5).1.memWf := by
  intro a0 a1 a2 a3 a4 a5 h; unfold State.collWrite; grind only [State.memWf, Tile.memWf, Slab.memWf,
      State.statIf_memWf, State.putLines_memWf, State.collFail_memWf]
theorem State.collAdvance_memWf : ∀ a0 a1 a2, State.memWf a0 → (State.collAdvance a0 a1 a2).memWf := by
  intro a0 a1 a2 h; unfold State.collAdvance; grind only [State.memWf, Tile.memWf, Slab.memWf, foldl_memWf,
      foldl_fst_memWf, foldl_tile_memWf, State.count_memWf, Tile.write_memWf, State.putColl_memWf,
      State.collAbort_memWf, State.collFlush_memWf, State.collResidue_memWf, State.collConsumeAll_memWf,
      State.collWrite_memWf]
theorem State.collCut_memWf : ∀ a0 a1, State.memWf a0 → (State.collCut a0 a1).memWf := by
  intro a0 a1 h; unfold State.collCut; grind only [State.memWf, Tile.memWf, Slab.memWf, foldl_memWf, foldl_fst_memWf,
      foldl_tile_memWf, State.fabSend_memWf, State.putLines_memWf]
theorem State.collStop_memWf : ∀ a0 a1, State.memWf a0 → (State.collStop a0 a1).1.memWf := by
  intro a0 a1 h; unfold State.collStop; grind only [State.memWf, Tile.memWf, Slab.memWf, foldl_memWf, foldl_fst_memWf,
      foldl_tile_memWf, State.collCut_memWf]
theorem Tile.cutSpans_memWf : ∀ a0 a1, Tile.memWf a0 → (Tile.cutSpans a0 a1).memWf := by
  intro a0 a1 h; unfold Tile.cutSpans; grind only [State.memWf, Tile.memWf, Slab.memWf, foldl_memWf, foldl_fst_memWf,
      foldl_tile_memWf, Tile.write_memWf]
theorem State.cutWindow_memWf : ∀ a0 a1 a2 a3 a4, State.memWf a0 → (State.cutWindow a0 a1 a2 a3 a4).memWf := by
  intro a0 a1 a2 a3 a4 h; unfold State.cutWindow; grind only [State.memWf, Tile.memWf, Slab.memWf, State.writeWindow_memWf]
theorem State.cutRun_memWf : ∀ a0 a1 a2 a3, State.memWf a0 → (State.cutRun a0 a1 a2 a3).memWf := by
  intro a0 a1 a2 a3 h; unfold State.cutRun; grind only [State.memWf, Tile.memWf, Slab.memWf, foldl_memWf,
      foldl_fst_memWf, foldl_tile_memWf, State.onTile, State.putLines_memWf, Tile.cutPass_memWf, Tile.noStatus_memWf,
      Tile.cutSpans_memWf, State.cutWindow_memWf, State.setTile_memWf, State.memWf.tile]
theorem State.cutFlight_memWf : ∀ a0 a1, State.memWf a0 → (State.cutFlight a0 a1).memWf := by
  intro a0 a1 h; unfold State.cutFlight; grind only [State.memWf, Tile.memWf, Slab.memWf, foldl_memWf, foldl_fst_memWf,
      foldl_tile_memWf, State.cutWindow_memWf, State.memWf.tile]
theorem State.cutRemote_memWf : ∀ a0 a1, State.memWf a0 → (State.cutRemote a0 a1).memWf := by
  intro a0 a1 h; unfold State.cutRemote; grind only [State.memWf, Tile.memWf, Slab.memWf, foldl_memWf, foldl_fst_memWf,
      foldl_tile_memWf, State.sendNotice_memWf]
theorem State.cutEng_memWf : ∀ a0 a1 a2 a3, State.memWf a0 → (State.cutEng a0 a1 a2 a3).memWf := by
  intro a0 a1 a2 a3 h; unfold State.cutEng; grind only [State.memWf, Tile.memWf, Slab.memWf, State.onTile,
      State.onFn_memWf, Tile.setEng_memWf, State.cutRun_memWf, State.setTile_memWf, State.memWf.tile]
theorem State.cutCmd_memWf : ∀ a0 a1 a2, State.memWf a0 → (State.cutCmd a0 a1 a2).1.memWf := by
  intro a0 a1 a2 h; unfold State.cutCmd; grind only [State.memWf, Tile.memWf, Slab.memWf, State.putLines_memWf]
theorem State.cutRing_memWf : ∀ a0 a1 a2, State.memWf a0 → (State.cutRing a0 a1 a2).memWf := by
  intro a0 a1 a2 h; unfold State.cutRing; grind only [State.memWf, Tile.memWf, Slab.memWf, foldl_memWf,
      foldl_fst_memWf, foldl_tile_memWf, State.onFn_memWf, State.onRing_memWf, State.cutCmd_memWf]
theorem State.cutAll_memWf : ∀ a0 a1, State.memWf a0 → (State.cutAll a0 a1).memWf := by
  intro a0 a1 h; unfold State.cutAll; grind only [State.memWf, Tile.memWf, Slab.memWf, foldl_memWf, foldl_fst_memWf,
      foldl_tile_memWf, State.cutFlight_memWf, State.cutEng_memWf, State.cutRing_memWf, State.memWf.tile]
theorem State.discardTile_memWf : ∀ a0 a1 a2, State.memWf a0 → (State.discardTile a0 a1 a2).memWf := by
  intro a0 a1 a2 h; unfold State.discardTile; grind only [State.memWf, Tile.memWf, Slab.memWf, foldl_memWf,
      foldl_fst_memWf, foldl_tile_memWf, State.setTile_memWf, State.onFn_memWf, Tile.setEng_memWf, State.memWf.tile]
theorem State.beginStop_memWf : ∀ a0 a1 a2 a3, State.memWf a0 → (State.beginStop a0 a1 a2 a3).memWf := by
  intro a0 a1 a2 a3 h; unfold State.beginStop; grind only [State.memWf, Tile.memWf, Slab.memWf, foldl_memWf,
      foldl_fst_memWf, foldl_tile_memWf, State.onFn_memWf, State.onRing_memWf, State.onCore_memWf, State.charge_memWf,
      State.collStop_memWf, State.cutRemote_memWf, State.cutAll_memWf, State.discardTile_memWf, State.memWf.tile]
theorem Tile.unload_memWf : ∀ a0, Tile.memWf a0 → (Tile.unload a0).memWf := by
  intro a0 h; exact h
theorem Tile.fillStore_memWf : ∀ a0, Tile.memWf a0 → (Tile.fillStore a0).memWf := by
  intro a0 h; unfold Tile.fillStore; grind [State.memWf, Tile.memWf, Slab.memWf, TileMem.wf, SlabMem.wf, Memory.wf,
      SMap.wf_set, SMap.wf_modify, SMap.wf_filter, putBytes_wf]
theorem State.loadTile_memWf : ∀ a0 a1, State.memWf a0 → (State.loadTile a0 a1).memWf := by
  intro a0 a1 h; unfold State.loadTile; grind only [State.memWf, Tile.memWf, Slab.memWf, State.onTile,
      State.seqGoto_memWf, Tile.unload_memWf, State.setTile_memWf, State.memWf.tile]
theorem State.cacheFlush_memWf : ∀ a0 a1 a2, State.memWf a0 → (State.cacheFlush a0 a1 a2).memWf := by
  intro a0 a1 a2 h; unfold State.cacheFlush; grind only [State.memWf, Tile.memWf, Slab.memWf, foldl_memWf,
      foldl_fst_memWf, foldl_tile_memWf, State.onCore_memWf, State.writePieces_memWf, State.reportRefused_memWf]
theorem State.endStop_memWf : ∀ a0 a1, State.memWf a0 → (State.endStop a0 a1).memWf := by
  intro a0 a1 h; unfold State.endStop; grind only [State.memWf, Tile.memWf, Slab.memWf, foldl_memWf, foldl_fst_memWf,
      foldl_tile_memWf, State.onFn_memWf, State.onRing_memWf, State.notify_memWf, State.dropPlb_memWf,
      State.cutFlight_memWf, State.loadTile_memWf, State.cacheFlush_memWf, State.memWf.tile]
theorem Tile.freshBanks_memWf : ∀ a0, Tile.memWf a0 → (Tile.freshBanks a0).memWf := by
  intro a0 h; exact h
theorem State.startFn_memWf : ∀ a0 a1, State.memWf a0 → (State.startFn a0 a1).memWf := by
  intro a0 a1 h; unfold State.startFn; grind only [State.memWf, Tile.memWf, Slab.memWf, foldl_memWf, foldl_fst_memWf,
      foldl_tile_memWf, State.onTile, State.setFence_memWf, State.onFn_memWf, State.onRing_memWf, State.onCore_memWf,
      State.charge_memWf, State.seqGoto_memWf, Tile.fillStore_memWf, State.loadTile_memWf, Tile.freshBanks_memWf,
      State.setTile_memWf, State.memWf.tile]
theorem State.resetCore_memWf : ∀ a0 a1 a2, State.memWf a0 → (State.resetCore a0 a1 a2).memWf := by
  intro a0 a1 a2 h; exact h
theorem Slab.retireAll_memWf : ∀ a0, Slab.memWf a0 → (Slab.retireAll a0).memWf := by
  intro a0 h; unfold Slab.retireAll; grind only [State.memWf, Tile.memWf, Slab.memWf, foldl_memWf, foldl_fst_memWf,
      foldl_tile_memWf, State.retire_memWf]
theorem Slab.leaveWindow_memWf : ∀ a0, Slab.memWf a0 → (Slab.leaveWindow a0).memWf := by
  intro a0 h; exact h
theorem Slab.leaveFn_memWf : ∀ a0, Slab.memWf a0 → (Slab.leaveFn a0).memWf := by
  intro a0 h; unfold Slab.leaveFn; grind only [State.memWf, Tile.memWf, Slab.memWf, Slab.retireAll_memWf,
      Slab.leaveWindow_memWf]
theorem State.withdrawTile_memWf : ∀ a0 a1, State.memWf a0 → (State.withdrawTile a0 a1).memWf := by
  intro a0 a1 h; unfold State.withdrawTile; grind [State.memWf, Tile.memWf, Slab.memWf, TileMem.wf, SlabMem.wf,
      Memory.wf, SMap.wf_set, SMap.wf_modify, SMap.wf_filter, SMap.wf_nil, putBytes_wf, State.onSlab,
      State.setTile_memWf, State.onFn_memWf, Slab.leaveFn_memWf, State.setSlab_memWf, State.memWf.slab, State.memWf.tile]
theorem State.closeConns_memWf : ∀ a0 a1, State.memWf a0 → (State.closeConns a0 a1).memWf := by
  intro a0 a1 h; exact h
theorem State.destroyFn_memWf : ∀ a0 a1, State.memWf a0 → (State.destroyFn a0 a1).memWf := by
  intro a0 a1 h; unfold State.destroyFn; grind only [State.memWf, Tile.memWf, Slab.memWf, foldl_memWf, foldl_fst_memWf,
      foldl_tile_memWf, State.onSlab, State.setFn_memWf, State.setRing_memWf, State.setFence_memWf,
      State.resetCore_memWf, Slab.leaveFn_memWf, State.withdrawTile_memWf, State.closeConns_memWf, State.setSlab_memWf,
      State.memWf.slab, State.memWf.tile]
theorem State.chainOwn_memWf : ∀ a0 a1 a2 a3, State.memWf a0 → (State.chainOwn a0 a1 a2 a3).memWf := by
  intro a0 a1 a2 a3 h; unfold State.chainOwn; grind only [State.memWf, Tile.memWf, Slab.memWf, State.count_memWf,
      State.raise_memWf]
theorem State.boardEvent_memWf : ∀ a0 a1, State.memWf a0 → (State.boardEvent a0 a1).memWf := by
  intro a0 a1 h; unfold State.boardEvent; grind only [State.memWf, Tile.memWf, Slab.memWf, State.chainOwn_memWf]
theorem State.sendMsg_memWf : ∀ a0 a1 a2, State.memWf a0 → (State.sendMsg a0 a1 a2).memWf := by
  intro a0 a1 a2 h; unfold State.sendMsg; grind only [State.memWf, Tile.memWf, Slab.memWf, State.onCore_memWf,
      State.sendUdp_memWf, State.chainOwn_memWf]
theorem State.reply_memWf : ∀ a0 a1 a2 a3, State.memWf a0 → (State.reply a0 a1 a2 a3).memWf := by
  intro a0 a1 a2 a3 h; unfold State.reply; grind only [State.memWf, Tile.memWf, Slab.memWf, State.onFn_memWf,
      State.count_memWf, State.sendMsg_memWf]
theorem State.judge_memWf (s : State) (r : Req) (conds : List (Bool × Nat)) (f : State → State)
    (hs : s.memWf) (h : ∀ s, s.memWf → (f s).memWf) : (State.judge s r conds f).memWf := by
  unfold State.judge; grind [State.memWf, State.reply_memWf]
theorem State.commandIf_memWf (s : State) (code : Nat) (want : Req → Bool) (f : State → Req → State)
    (hs : s.memWf) (h : ∀ s r, s.memWf → (f s r).memWf) : (State.commandIf s code want f).memWf := by
  unfold State.commandIf; grind [State.memWf]
theorem State.command_memWf (s : State) (code : Nat) (f : State → Req → State)
    (hs : s.memWf) (h : ∀ s r,
      s.memWf → (f s r).memWf) : (State.command s code f).memWf := State.commandIf_memWf _ _ _ _ hs h
theorem State.accept_memWf : ∀ a0 a1, State.memWf a0 → (State.accept a0 a1).memWf := by
  intro a0 a1 h; unfold State.accept; grind only [State.memWf, Tile.memWf, Slab.memWf, State.reply_memWf]
theorem State.dropMsg_memWf : ∀ a0, State.memWf a0 → (State.dropMsg a0).memWf := by
  intro a0 h; exact h
theorem State.receiveMsg_memWf : ∀ a0 a1 a2, State.memWf a0 → (State.receiveMsg a0 a1 a2).memWf := by
  intro a0 a1 a2 h; unfold State.receiveMsg; grind only [State.memWf, Tile.memWf, Slab.memWf, State.setFn_memWf,
      State.count_memWf, State.sendMsg_memWf, State.reply_memWf, State.accept_memWf, State.dropMsg_memWf]
theorem State.winRead_memWf : ∀ a0 a1 a2 a3, State.memWf a0 → (State.winRead a0 a1 a2 a3).1.memWf := by
  intro a0 a1 a2 a3 h; unfold State.winRead; grind only [State.memWf, Tile.memWf, Slab.memWf, State.readPieces_memWf]
theorem State.winWrite_memWf : ∀ a0 a1 a2 a3, State.memWf a0 → (State.winWrite a0 a1 a2 a3).memWf := by
  intro a0 a1 a2 a3 h; unfold State.winWrite; grind only [State.memWf, Tile.memWf, Slab.memWf, State.writePieces_memWf]
theorem State.readImage_memWf : ∀ a0 a1 a2 a3 a4, State.memWf a0 → (State.readImage a0 a1 a2 a3 a4).1.memWf := by
  intro a0 a1 a2 a3 a4 h; unfold State.readImage; (repeat' (first | with_reducible refine State.command_memWf _ _ _ ?_ (fun s r h => ?_))); all_goals grind [State.memWf, Tile.memWf, Slab.memWf, State.winRead_memWf]
theorem State.holdLong_memWf : ∀ a0 a1 a2 a3 a4, State.memWf a0 → (State.holdLong a0 a1 a2 a3 a4).memWf := by
  intro a0 a1 a2 a3 a4 h; exact h
theorem State.setDom_memWf : ∀ a0 a1 a2, State.memWf a0 → (State.setDom a0 a1 a2).memWf := by
  intro a0 a1 a2 h; exact h
theorem State.onDom_memWf : ∀ a0 a1 a2, State.memWf a0 → (State.onDom a0 a1 a2).memWf := by
  intro a0 a1 a2 h; exact h
theorem State.accrue_memWf : ∀ a0, State.memWf a0 → (State.accrue a0).memWf := by
  intro a0 h; exact h
theorem State.pwrStep_memWf (s : State) (f : State → State)
    (hs : s.memWf) (h : ∀ s, s.memWf → (f s).memWf) : (State.pwrStep s f).memWf := by
  unfold State.pwrStep; grind [State.memWf, foldl_memWf, State.accrue_memWf, State.event_memWf, State.boardEvent_memWf]
theorem State.lowerGrants_memWf : ∀ s0 n l s, State.memWf s → (State.lowerGrants s0 n l s).memWf := by
  intro s0 n; induction n with
  | zero => intro l s hs; exact hs
  | succ n ih => intro l s hs; cases l with
    | nil => exact hs
    | cons c cs => simp only [State.lowerGrants]; exact ih _ _ (State.onDom_memWf _ _ _ hs)
theorem State.commandOps_memWf : ∀ a0, State.memWf a0 → (State.commandOps a0).memWf := by
  intro a0 h; unfold State.commandOps; grind only [State.memWf, Tile.memWf, Slab.memWf, foldl_memWf, foldl_fst_memWf,
      foldl_tile_memWf, State.reply_memWf, State.setDom_memWf]
theorem Slab.zeroPages_memWf : ∀ a0 a1 a2, Slab.memWf a0 → (Slab.zeroPages a0 a1 a2).memWf := by
  intro a0 a1 a2 h; unfold Slab.zeroPages; grind [State.memWf, Tile.memWf, Slab.memWf, TileMem.wf, SlabMem.wf,
      Memory.wf, SMap.wf_set, SMap.wf_modify, SMap.wf_filter, putBytes_wf]
theorem Slab.setExtent_memWf : ∀ a0 a1 a2 a3, Slab.memWf a0 → (Slab.setExtent a0 a1 a2 a3).memWf := by
  intro a0 a1 a2 a3 h; unfold Slab.setExtent; grind only [State.memWf, Tile.memWf, Slab.memWf, State.event_memWf,
      Slab.retireAll_memWf, Slab.zeroPages_memWf]
theorem State.giveTile_memWf : ∀ a0 a1 a2 a3 a4, State.memWf a0 → (State.giveTile a0 a1 a2 a3 a4).memWf := by
  intro a0 a1 a2 a3 a4 h; unfold State.giveTile; grind [State.memWf, Tile.memWf, Slab.memWf, TileMem.wf, SlabMem.wf,
      Memory.wf, SMap.wf_set, SMap.wf_modify, SMap.wf_filter, SMap.wf_nil, putBytes_wf, State.onSlab,
      State.setTile_memWf, Slab.setExtent_memWf, State.setSlab_memWf, State.memWf.slab, State.memWf.tile]
theorem State.setWindow_memWf : ∀ a0 a1 a2 a3 a4, State.memWf a0 → (State.setWindow a0 a1 a2 a3 a4).memWf := by
  intro a0 a1 a2 a3 a4 h; unfold State.setWindow; grind only [State.memWf, Tile.memWf, Slab.memWf, foldl_memWf,
      foldl_fst_memWf, foldl_tile_memWf, State.onSlab, State.onFn_memWf, Slab.leaveWindow_memWf, State.setSlab_memWf,
      State.memWf.slab, State.memWf.tile]
theorem State.setSpread_memWf : ∀ a0 a1 a2 a3, State.memWf a0 → (State.setSpread a0 a1 a2 a3).memWf := by
  intro a0 a1 a2 a3 h; unfold State.setSpread; grind only [State.memWf, Tile.memWf, Slab.memWf, foldl_memWf,
      foldl_fst_memWf, foldl_tile_memWf, State.onSlab, State.setSlab_memWf, State.memWf.slab, State.memWf.tile]
theorem State.startService_memWf : ∀ a0 a1, State.memWf a0 → (State.startService a0 a1).memWf := by
  intro a0 a1 h; unfold State.startService; grind only [State.memWf, Tile.memWf, Slab.memWf, foldl_memWf,
      foldl_fst_memWf, foldl_tile_memWf, State.setFn_memWf, State.onFn_memWf, State.startFn_memWf, State.onDom_memWf,
      State.giveTile_memWf, State.setWindow_memWf, State.setSpread_memWf, State.memWf.tile]
theorem State.startServices_memWf : ∀ a0, State.memWf a0 → (State.startServices a0).memWf := by
  intro a0 h; unfold State.startServices; grind only [State.memWf, Tile.memWf, Slab.memWf, foldl_memWf,
      foldl_fst_memWf, foldl_tile_memWf, State.startService_memWf]
theorem State.recordFault_memWf : ∀ a0 a1, State.memWf a0 → (State.recordFault a0 a1).memWf := by
  intro a0 a1 h; exact h
theorem State.finishLong_memWf : ∀ a0 a1 a2 a3 a4, State.memWf a0 → (State.finishLong a0 a1 a2 a3 a4).memWf := by
  intro a0 a1 a2 a3 a4 h; unfold State.finishLong; (repeat' (first | with_reducible refine State.command_memWf _ _ _ ?_ (fun s r h => ?_))); all_goals grind [State.memWf, Tile.memWf, Slab.memWf, foldl_memWf, foldl_fst_memWf, foldl_tile_memWf, State.reply_memWf]
theorem State.serviceStopped_memWf : ∀ a0 a1, State.memWf a0 → (State.serviceStopped a0 a1).memWf := by
  intro a0 a1 h; unfold State.serviceStopped; grind only [State.memWf, Tile.memWf, Slab.memWf, State.destroyFn_memWf,
      State.finishLong_memWf]
theorem State.assign_memWf (s : State) (kind : Nat) (fields : List (Nat × Nat)) (u b c d : State → Req → Nat → Bool) (f : State → Req → Nat → State)
    (hs : s.memWf) (h : ∀ s r n, s.memWf → (f s r n).memWf) : (State.assign s kind fields u b c d f).memWf := by
  unfold State.assign
  refine State.commandIf_memWf _ _ _ _ hs (fun s r hs => ?_)
  exact State.judge_memWf _ _ _ _ hs (fun s hs => h s r _ hs)
theorem State.tagCw_memWf : ∀ a0 a1 a2 a3, State.memWf a0 → (State.tagCw a0 a1 a2 a3).memWf := by
  intro a0 a1 a2 a3 h; unfold State.tagCw; grind [State.memWf, Tile.memWf, Slab.memWf, TileMem.wf, SlabMem.wf,
      Memory.wf, SMap.wf_set, SMap.wf_modify, SMap.wf_filter, putBytes_wf, State.onSlab, State.readCw_memWf,
      State.setSlab_memWf, State.memWf.slab]
theorem State.fenceLatch_memWf : ∀ a0 a1, State.memWf a0 → (State.fenceLatch a0 a1).memWf := by
  intro a0 a1 h; unfold State.fenceLatch; grind only [State.memWf, Tile.memWf, Slab.memWf, foldl_memWf,
      foldl_fst_memWf, foldl_tile_memWf, State.onRing_memWf, State.onCore_memWf]
theorem State.signalFence_memWf : ∀ a0 a1 a2 a3 a4, State.memWf a0 → (State.signalFence a0 a1 a2 a3 a4).memWf := by
  intro a0 a1 a2 a3 a4 h; unfold State.signalFence; grind only [State.memWf, Tile.memWf, Slab.memWf,
      State.setFence_memWf, State.fenceLatch_memWf]
theorem State.govMode_memWf : ∀ a0 a1, State.memWf a0 → (State.govMode a0 a1).memWf := by
  intro a0 a1 h; unfold State.govMode; grind only [State.memWf, Tile.memWf, Slab.memWf, State.event_memWf]
theorem State.paceRule_memWf : ∀ a0 a1 a2, State.memWf a0 → (State.paceRule a0 a1 a2).memWf := by
  intro a0 a1 a2 h; unfold State.paceRule; grind only [State.memWf, Tile.memWf, Slab.memWf, State.fresh_memWf,
      State.setDom_memWf]
theorem State.shortfallReport_memWf : ∀ a0 a1 a2, State.memWf a0 → (State.shortfallReport a0 a1 a2).memWf := by
  intro a0 a1 a2 h; unfold State.shortfallReport; grind only [State.memWf, Tile.memWf, Slab.memWf, State.notify_memWf]
theorem State.stepTime_memWf : ∀ a0 a1, State.memWf a0 → (State.stepTime a0 a1).memWf := by
  intro a0 a1 h; exact h
theorem State.timeGo_memWf : ∀ a0, State.memWf a0 → (State.timeGo a0).memWf := by
  intro a0 h; unfold State.timeGo; grind only [State.memWf, Tile.memWf, Slab.memWf, State.event_memWf, State.stepTime_memWf]
theorem State.inject_memWf : ∀ a0 a1 a2 a3, State.memWf a0 → (State.inject a0 a1 a2 a3).memWf := by
  intro a0 a1 a2 a3 h; unfold State.inject; grind only [State.memWf, Tile.memWf, Slab.memWf, State.latchFatal_memWf,
      State.raise_memWf]
theorem State.writeErrCtl_memWf : ∀ a0 a1 a2 a3, State.memWf a0 → (State.writeErrCtl a0 a1 a2 a3).memWf := by
  intro a0 a1 a2 a3 h; unfold State.writeErrCtl; grind only [State.memWf, Tile.memWf, Slab.memWf, State.setErr_memWf,
      Tile.write_memWf, State.inject_memWf]
theorem State.clearErr_memWf : ∀ a0 a1 a2 a3, State.memWf a0 → (State.clearErr a0 a1 a2 a3).memWf := by
  intro a0 a1 a2 a3 h; exact h
theorem State.latchCause_memWf : ∀ a0, State.memWf a0 → (State.latchCause a0).memWf := by
  intro a0 h; exact h
theorem State.fenceAll_memWf : ∀ a0, State.memWf a0 → (State.fenceAll a0).memWf := by
  intro a0 h; unfold State.fenceAll; grind only [State.memWf, Tile.memWf, Slab.memWf, foldl_memWf, foldl_fst_memWf,
      foldl_tile_memWf, State.onPort_memWf, State.portGo_memWf]
theorem State.recordFatal_memWf : ∀ a0, State.memWf a0 → (State.recordFatal a0).memWf := by
  intro a0 h; unfold State.recordFatal; grind only [State.memWf, Tile.memWf, Slab.memWf]
theorem State.setHalves_memWf : ∀ a0 a1 a2 a3, State.memWf a0 → (State.setHalves a0 a1 a2 a3).memWf := by
  intro a0 a1 a2 a3 h; exact h
theorem State.retireTile_memWf : ∀ a0 a1, State.memWf a0 → (State.retireTile a0 a1).memWf := by
  intro a0 a1 h; unfold State.retireTile; grind [State.memWf, Tile.memWf, Slab.memWf, TileMem.wf, SlabMem.wf,
      Memory.wf, SMap.wf_set, SMap.wf_modify, SMap.wf_filter, SMap.wf_nil, putBytes_wf, State.setTile_memWf,
      State.notify_memWf, State.memWf.tile]
theorem State.setSlot_memWf : ∀ a0 a1 a2, State.memWf a0 → (State.setSlot a0 a1 a2).memWf := by
  intro a0 a1 a2 h; exact h
theorem State.onSlot_memWf : ∀ a0 a1 a2, State.memWf a0 → (State.onSlot a0 a1 a2).memWf := by
  intro a0 a1 a2 h; exact h
theorem State.raiseFloor_memWf : ∀ a0 a1, State.memWf a0 → (State.raiseFloor a0 a1).memWf := by
  intro a0 a1 h; exact h
theorem State.commitSlot_memWf : ∀ a0 a1, State.memWf a0 → (State.commitSlot a0 a1).memWf := by
  intro a0 a1 h; exact h
theorem State.resetPackage_memWf (s : State) (_ : s.memWf) : s.resetPackage.memWf :=
  ⟨fun _ => ⟨rfl, rfl, rfl⟩, fun _ => ⟨rfl, rfl, rfl⟩⟩
theorem State.doReset_memWf : ∀ a0, State.memWf a0 → (State.doReset a0).memWf := by
  intro a0 h; unfold State.doReset; grind only [State.memWf, Tile.memWf, Slab.memWf, State.resetPackage_memWf]
theorem State.pickSlot_memWf : ∀ a0 a1, State.memWf a0 → (State.pickSlot a0 a1).1.memWf := by
  intro a0 a1 h; unfold State.pickSlot; grind only [State.memWf, Tile.memWf, Slab.memWf, State.onSlot_memWf]
theorem State.failTile_memWf : ∀ a0 a1, State.memWf a0 → (State.failTile a0 a1).memWf := by
  intro a0 a1 h; unfold State.failTile; grind [State.memWf, Tile.memWf, Slab.memWf, TileMem.wf, SlabMem.wf, Memory.wf,
      SMap.wf_set, SMap.wf_modify, SMap.wf_filter, SMap.wf_nil, putBytes_wf, State.setTile_memWf, State.memWf.tile]
theorem State.haltBoot_memWf : ∀ a0 a1 a2 a3, State.memWf a0 → (State.haltBoot a0 a1 a2 a3).memWf := by
  intro a0 a1 a2 a3 h; exact h
theorem State.bootFirmware_memWf : ∀ a0, State.memWf a0 → (State.bootFirmware a0).memWf := by
  intro a0 h; unfold State.bootFirmware; grind [State.memWf, Tile.memWf, Slab.memWf, TileMem.wf, SlabMem.wf, Memory.wf,
      SMap.wf_set, SMap.wf_modify, SMap.wf_filter, SMap.wf_nil, putBytes_wf, foldl_memWf, foldl_fst_memWf,
      foldl_tile_memWf, State.setTile_memWf, State.setSlab_memWf, State.retire_memWf, State.setHalves_memWf,
      State.memWf.tile, State.memWf.slab]
theorem State.selfTest_memWf : ∀ a0 a1, State.memWf a0 → (State.selfTest a0 a1).memWf := by
  intro a0 a1 h; unfold State.selfTest; grind [State.memWf, Tile.memWf, Slab.memWf, TileMem.wf, SlabMem.wf, Memory.wf,
      SMap.wf_set, SMap.wf_modify, SMap.wf_filter, SMap.wf_nil, putBytes_wf, foldl_memWf, foldl_fst_memWf,
      foldl_tile_memWf, State.onSlab, State.fresh_memWf, State.raise_memWf, State.retirePage_memWf,
      State.setHalves_memWf, State.failTile_memWf, State.setSlab_memWf, State.memWf.slab, State.memWf.tile]
theorem State.trainAll_memWf : ∀ a0 a1, State.memWf a0 → (State.trainAll a0 a1).memWf := by
  intro a0 a1 h; unfold State.trainAll; grind only [State.memWf, Tile.memWf, Slab.memWf, foldl_memWf, foldl_fst_memWf,
      foldl_tile_memWf, State.portGo_memWf]
theorem State.bootFinish_memWf : ∀ a0 a1, State.memWf a0 → (State.bootFinish a0 a1).memWf := by
  intro a0 a1 h; unfold State.bootFinish; grind only [State.memWf, Tile.memWf, Slab.memWf, State.boardEvent_memWf,
      State.startServices_memWf, State.commitSlot_memWf, State.trainAll_memWf]
theorem State.recover_memWf : ∀ a0 a1, State.memWf a0 → (State.recover a0 a1).memWf := by
  intro a0 a1 h; unfold State.recover; grind only [State.memWf, Tile.memWf, Slab.memWf]
theorem State.bootRun_memWf : ∀ a0 a1 a2, State.memWf a0 → (State.bootRun a0 a1 a2).memWf := by
  intro a0 a1 a2 h; unfold State.bootRun; grind only [State.memWf, Tile.memWf, Slab.memWf, State.pickSlot_memWf,
      State.haltBoot_memWf, State.bootFirmware_memWf, State.selfTest_memWf, State.bootFinish_memWf, State.recover_memWf]
theorem State.powerOff_memWf : ∀ a0 a1 a2, State.memWf a0 → (State.powerOff a0 a1 a2).memWf := by
  intro a0 a1 a2 h; unfold State.powerOff; grind only [State.memWf, Tile.memWf, Slab.memWf, foldl_memWf,
      foldl_fst_memWf, foldl_tile_memWf, State.onPort_memWf]
theorem State.raiseDsp_memWf : ∀ a0 a1 a2, State.memWf a0 → (State.raiseDsp a0 a1 a2).memWf := by
  intro a0 a1 a2 h; unfold State.raiseDsp; grind only [State.memWf, Tile.memWf, Slab.memWf, State.raise_memWf]
theorem State.doorbell_memWf : ∀ a0 a1 a2, State.memWf a0 → (State.doorbell a0 a1 a2).1.memWf := by
  intro a0 a1 a2 h; unfold State.doorbell; grind only [State.memWf, Tile.memWf, Slab.memWf, State.setRing_memWf,
      State.count_memWf, State.raiseDsp_memWf]
theorem State.coreAns_memWf : ∀ a0 a1 a2, State.memWf a0 → (State.coreAns a0 a1 a2).memWf := by
  intro a0 a1 a2 h; exact h
theorem State.answer_memWf : ∀ a0 a1 a2, State.memWf a0 → (State.answer a0 a1 a2).memWf := by
  intro a0 a1 a2 h; unfold State.answer; grind only [State.memWf, Tile.memWf, Slab.memWf, State.count_memWf,
      Tile.write_memWf, State.doorbell_memWf]
theorem State.rdmaDoorbell_memWf : ∀ a0 a1 a2 a3 a4, State.memWf a0 → (State.rdmaDoorbell a0 a1 a2 a3 a4).memWf := by
  intro a0 a1 a2 a3 a4 h; unfold State.rdmaDoorbell; grind only [State.memWf, Tile.memWf, Slab.memWf,
      State.count_memWf, State.doorbell_memWf, State.answer_memWf]
theorem State.fetchRing_memWf : ∀ a0 a1, State.memWf a0 → (State.fetchRing a0 a1).memWf := by
  intro a0 a1 h; unfold State.fetchRing; grind only [State.memWf, Tile.memWf, Slab.memWf, foldl_memWf, foldl_fst_memWf,
      foldl_tile_memWf, State.onRing_memWf, State.readPieces_memWf, State.reportRefused_memWf, State.raiseDsp_memWf]
theorem State.onCmd_memWf : ∀ a0 a1 a2 a3, State.memWf a0 → (State.onCmd a0 a1 a2 a3).memWf := by
  intro a0 a1 a2 a3 h; exact h
theorem State.runCmd_memWf (s : State) (r op : Nat) (f : State → RCmd → State)
    (hs : s.memWf) (h : ∀ s c, s.memWf → (f s c).memWf) : (State.runCmd s r op f).memWf := by
  unfold State.runCmd; grind [State.memWf, State.onCmd_memWf]
theorem State.completeCmd_memWf : ∀ a0 a1 a2, State.memWf a0 → (State.completeCmd a0 a1 a2).memWf := by
  intro a0 a1 a2 h; exact h
theorem State.signalCmd_memWf : ∀ a0 a1 a2, State.memWf a0 → (State.signalCmd a0 a1 a2).memWf := by
  intro a0 a1 a2 h; unfold State.signalCmd; grind only [State.memWf, Tile.memWf, Slab.memWf, State.onFn_memWf,
      State.onRing_memWf, State.count_memWf, State.signalFence_memWf, State.onCmd_memWf]
theorem State.advanceDone_memWf : ∀ a0 a1 a2, State.memWf a0 → (State.advanceDone a0 a1 a2).memWf := by
  intro a0 a1 h; unfold State.advanceDone; grind only [State.memWf, Tile.memWf, Slab.memWf, State.setRing_memWf,
      State.writePieces_memWf, State.reportRefused_memWf, State.raiseDsp_memWf]
theorem State.finishCmd_memWf : ∀ a0 a1 a2, State.memWf a0 → (State.finishCmd a0 a1 a2).memWf := by
  intro a0 a1 a2 h; unfold State.finishCmd; grind only [State.memWf, Tile.memWf, Slab.memWf, State.reportRefused_memWf,
      State.raiseDsp_memWf, State.onCmd_memWf, State.signalCmd_memWf, State.advanceDone_memWf]
theorem State.coreFence_memWf : ∀ a0 a1 a2 a3 a4, State.memWf a0 → (State.coreFence a0 a1 a2 a3 a4).memWf := by
  intro a0 a1 a2 a3 a4 h; unfold State.coreFence; grind only [State.memWf, Tile.memWf, Slab.memWf,
      State.signalFence_memWf, State.coreAns_memWf]
theorem State.loadGroup_memWf : ∀ a0 a1 a2 a3, State.memWf a0 → (State.loadGroup a0 a1 a2 a3).1.memWf := by
  intro a0 a1 a2 a3 h; unfold State.loadGroup; grind only [State.memWf, Tile.memWf, Slab.memWf, State.readPieces_memWf]
theorem State.collStart_memWf : ∀ a0 a1 a2 a3, State.memWf a0 → (State.collStart a0 a1 a2 a3).memWf := by
  intro a0 a1 a2 a3 h; unfold State.collStart; grind only [State.memWf, Tile.memWf, Slab.memWf, foldl_memWf,
      foldl_fst_memWf, foldl_tile_memWf, State.raise_memWf, State.reportRefused_memWf, State.loadGroup_memWf]
theorem State.collPart_memWf : ∀ a0 a1 a2 a3 a4, State.memWf a0 → (State.collPart a0 a1 a2 a3 a4).1.memWf := by
  intro a0 a1 a2 a3 a4 h; unfold State.collPart; grind only [State.memWf, Tile.memWf, Slab.memWf, State.statIf_memWf,
      State.getLines_memWf, VeAcc.read_memWf, State.collResidue_memWf, State.collFail_memWf]
theorem State.collLocal_memWf : ∀ a0 a1 a2, State.memWf a0 → (State.collLocal a0 a1 a2).1.memWf := by
  intro a0 a1 a2 h; unfold State.collLocal; grind only [State.memWf, Tile.memWf, Slab.memWf, foldl_memWf,
      foldl_fst_memWf, foldl_tile_memWf, State.collResidue_memWf, State.collPart_memWf]
theorem State.collPlace_memWf : ∀ a0 a1 a2 a3 a4, State.memWf a0 → (State.collPlace a0 a1 a2 a3 a4).1.memWf := by
  intro a0 a1 a2 a3 a4 h; unfold State.collPlace; grind only [State.memWf, Tile.memWf, Slab.memWf, State.collWrite_memWf]
theorem State.collFeed_memWf : ∀ a0 a1 a2, State.memWf a0 → (State.collFeed a0 a1 a2).1.memWf := by
  intro a0 a1 a2 h; unfold State.collFeed; grind only [State.memWf, Tile.memWf, Slab.memWf, State.collLocal_memWf,
      State.collPlace_memWf]
theorem State.collGrantAll_memWf : ∀ a0 a1, State.memWf a0 → (State.collGrantAll a0 a1).1.memWf := by
  intro a0 a1 h; unfold State.collGrantAll; grind only [State.memWf, Tile.memWf, Slab.memWf, foldl_memWf,
      foldl_fst_memWf, foldl_tile_memWf, State.fabSend_memWf, State.putColl_memWf]
theorem State.collAdvanceAll_memWf : ∀ a0 a1 a2 a3, State.memWf a0 → (State.collAdvanceAll a0 a1 a2 a3).memWf := by
  intro a0 a1 a2 a3 h; fun_induction State.collAdvanceAll a0 a1 a2 a3 <;> grind [State.memWf, Tile.memWf, Slab.memWf,
      State.collAdvance_memWf]
theorem State.collFlushOf_memWf : ∀ a0 a1 a2, State.memWf a0 → (State.collFlushOf a0 a1 a2).memWf := by
  intro a0 a1 a2 h; unfold State.collFlushOf; grind only [State.memWf, Tile.memWf, Slab.memWf, State.collFlush_memWf]
theorem State.collRun_memWf : ∀ a0 a1, State.memWf a0 → (State.collRun a0 a1).memWf := by
  intro a0 a1 h; unfold State.collRun; grind only [State.memWf, Tile.memWf, Slab.memWf, foldl_memWf, foldl_fst_memWf,
      foldl_tile_memWf, State.putColl_memWf, State.collFeed_memWf, State.collGrantAll_memWf,
      State.collAdvanceAll_memWf, State.collFlushOf_memWf]
theorem State.collBegin_memWf : ∀ a0 a1, State.memWf a0 → (State.collBegin a0 a1).1.memWf := by
  intro a0 a1 h; exact h
theorem State.takeColl_memWf (s : State) (ok : FPkt → Bool) (f : State → FPkt → State)
    (hs : s.memWf) (h : ∀ s p, s.memWf → (f s p).memWf) : (State.takeColl s ok f).memWf := by
  unfold State.takeColl; grind [State.memWf]
theorem State.collValue_memWf : ∀ a0 a1 a2, State.memWf a0 → (State.collValue a0 a1 a2).1.memWf := by
  intro a0 a1 a2 h; unfold State.collValue; grind only [State.memWf, Tile.memWf, Slab.memWf, State.statIf_memWf,
      State.collResidue_memWf]
theorem State.collData_memWf : ∀ a0 a1 a2 a3 a4, State.memWf a0 → (State.collData a0 a1 a2 a3 a4).memWf := by
  intro a0 a1 a2 a3 a4 h; unfold State.collData; grind only [State.memWf, Tile.memWf, Slab.memWf, State.putColl_memWf,
      State.collFlush_memWf, State.collConsume_memWf, State.collPlace_memWf]
theorem State.noticeDrop_memWf : ∀ a0 a1, State.memWf a0 → (State.noticeDrop a0 a1).memWf := by
  intro a0 a1 h; exact h
theorem State.slabField_memWf : ∀ a0 a1 a2 a3 a4, State.memWf a0 → (State.slabField a0 a1 a2 a3 a4).memWf := by
  intro a0 a1 a2 a3 a4 h; unfold State.slabField; grind only [State.memWf, Tile.memWf, Slab.memWf,
      State.getLines_memWf, State.putLines_memWf]
theorem State.groupRecord_memWf : ∀ a0 a1 a2, State.memWf a0 → (State.groupRecord a0 a1 a2).memWf := by
  intro a0 a1 a2 h; unfold State.groupRecord; (repeat' (first | with_reducible refine State.command_memWf _ _ _ ?_ (fun s r h => ?_))); all_goals grind [State.memWf, Tile.memWf, Slab.memWf, State.slabField_memWf]
theorem State.skelistUdp_memWf : ∀ a0 a1 a2 a3, State.memWf a0 → (State.skelistUdp a0 a1 a2 a3).memWf := by
  intro a0 a1 a2 a3 h; unfold State.skelistUdp; grind only [State.memWf, Tile.memWf, Slab.memWf, State.receiveMsg_memWf]
theorem State.submitMailbox_memWf : ∀ a0 a1, State.memWf a0 → (State.submitMailbox a0 a1).memWf := by
  intro a0 a1 h; unfold State.submitMailbox; grind only [State.memWf, Tile.memWf, Slab.memWf, State.onCore_memWf,
      State.reply_memWf, State.accept_memWf, State.dropMsg_memWf]
theorem State.takeSig_memWf : ∀ a0, State.memWf a0 → (State.takeSig a0).memWf := by
  intro a0 h; unfold State.takeSig; grind only [State.memWf, Tile.memWf, Slab.memWf]
theorem State.ethOut_memWf : ∀ a0 a1, State.memWf a0 → (State.ethOut a0 a1).memWf := by
  intro a0 a1 h; exact h
theorem State.ethSend_memWf : ∀ a0 a1 a2, State.memWf a0 → (State.ethSend a0 a1 a2).memWf := by
  intro a0 a1 a2 h; unfold State.ethSend; grind only [State.memWf, Tile.memWf, Slab.memWf, State.ethOut_memWf]
theorem State.ethRelease_memWf : ∀ a0, State.memWf a0 → (State.ethRelease a0).memWf := by
  intro a0 h; unfold State.ethRelease; grind only [State.memWf, Tile.memWf, Slab.memWf, foldl_memWf, foldl_fst_memWf,
      foldl_tile_memWf, State.count_memWf, State.ethOut_memWf]
theorem State.pfcSend_memWf : ∀ a0 a1 a2, State.memWf a0 → (State.pfcSend a0 a1 a2).memWf := by
  intro a0 a1 a2 h; unfold State.pfcSend; grind only [State.memWf, Tile.memWf, Slab.memWf, State.ethOut_memWf]
theorem State.pfcBuffers_memWf : ∀ a0 a1, State.memWf a0 → (State.pfcBuffers a0 a1).memWf := by
  intro a0 a1 h; unfold State.pfcBuffers; grind only [State.memWf, Tile.memWf, Slab.memWf, foldl_memWf,
      foldl_fst_memWf, foldl_tile_memWf, State.pfcSend_memWf]
theorem State.ethDrop_memWf : ∀ a0 a1, State.memWf a0 → (State.ethDrop a0 a1).memWf := by
  intro a0 a1 h; exact h
theorem State.ipSend_memWf : ∀ a0 a1 a2 a3 a4 a5 a6 a7, State.memWf a0 → (State.ipSend a0 a1 a2 a3 a4 a5 a6 a7).memWf := by
  intro a0 a1 a2 a3 a4 a5 a6 a7 h; unfold State.ipSend; grind only [State.memWf, Tile.memWf, Slab.memWf,
      State.fresh_memWf, State.ethSend_memWf]
theorem State.routerAdv_memWf : ∀ a0 a1 a2, State.memWf a0 → (State.routerAdv a0 a1 a2).memWf := by
  intro a0 a1 a2 h; fun_induction State.routerAdv a0 a1 a2 <;> grind [State.memWf, Tile.memWf, Slab.memWf]
theorem State.dhcpSend_memWf : ∀ a0 a1 a2 a3, State.memWf a0 → (State.dhcpSend a0 a1 a2 a3).memWf := by
  intro a0 a1 a2 a3 h; unfold State.dhcpSend; grind only [State.memWf, Tile.memWf, Slab.memWf, State.ipSend_memWf]
theorem State.dhcpStart_memWf : ∀ a0, State.memWf a0 → (State.dhcpStart a0).memWf := by
  intro a0 h; unfold State.dhcpStart; grind only [State.memWf, Tile.memWf, Slab.memWf, State.fresh_memWf,
      State.dhcpSend_memWf]
theorem State.dhcpIn_memWf : ∀ a0 a1, State.memWf a0 → (State.dhcpIn a0 a1).memWf := by
  intro a0 a1 h; unfold State.dhcpIn; grind only [State.memWf, Tile.memWf, Slab.memWf, State.dhcpSend_memWf,
      State.dhcpStart_memWf]
theorem State.ethIcmp_memWf : ∀ a0 a1 a2, State.memWf a0 → (State.ethIcmp a0 a1 a2).memWf := by
  intro a0 a1 a2 h; unfold State.ethIcmp; grind only [State.memWf, Tile.memWf, Slab.memWf, State.ipSend_memWf,
      State.routerAdv_memWf]
theorem State.ethArp_memWf : ∀ a0 a1, State.memWf a0 → (State.ethArp a0 a1).memWf := by
  intro a0 a1 h; unfold State.ethArp; grind only [State.memWf, Tile.memWf, Slab.memWf, State.ethSend_memWf]
theorem State.fqFill_memWf : ∀ a0 a1 a2 a3, State.memWf a0 → (State.fqFill a0 a1 a2 a3).1.memWf := by
  intro a0 a1 a2 a3 h; unfold State.fqFill; grind only [State.memWf, Tile.memWf, Slab.memWf, State.onCore_memWf,
      State.writePieces_memWf, State.reportRefused_memWf]
theorem State.ethUdp_memWf : ∀ a0 a1 a2, State.memWf a0 → (State.ethUdp a0 a1 a2).memWf := by
  intro a0 a1 a2 h; unfold State.ethUdp; grind only [State.memWf, Tile.memWf, Slab.memWf, foldl_memWf, foldl_fst_memWf,
      foldl_tile_memWf, State.ethDrop_memWf, State.fqFill_memWf]
theorem State.txOne_memWf : ∀ a0 a1 a2, State.memWf a0 → (State.txOne a0 a1 a2).memWf := by
  intro a0 a1 a2 h; unfold State.txOne; grind only [State.memWf, Tile.memWf, Slab.memWf, State.onCore_memWf,
      State.readPieces_memWf, State.reportRefused_memWf, State.ethSend_memWf, State.ethDrop_memWf]
theorem State.txPump_memWf : ∀ a0 a1 a2 a3, State.memWf a0 → (State.txPump a0 a1 a2 a3).memWf := by
  intro a0 a1 a2 a3 h; fun_induction State.txPump a0 a1 a2 a3 <;> grind [State.memWf, Tile.memWf, Slab.memWf,
      State.txOne_memWf]
theorem State.txPumpAll_memWf : ∀ a0, State.memWf a0 → (State.txPumpAll a0).memWf := by
  intro a0 h; unfold State.txPumpAll; grind only [State.memWf, Tile.memWf, Slab.memWf, foldl_memWf, foldl_fst_memWf,
      foldl_tile_memWf, Tile.write_memWf, State.txPump_memWf]
theorem State.ethResume_memWf : ∀ a0, State.memWf a0 → (State.ethResume a0).memWf := by
  intro a0 h; unfold State.ethResume; grind only [State.memWf, Tile.memWf, Slab.memWf, Tile.write_memWf,
      State.ethRelease_memWf, State.txPumpAll_memWf]
theorem State.fqTxTail_memWf : ∀ a0 a1 a2 a3, State.memWf a0 → (State.fqTxTail a0 a1 a2 a3).memWf := by
  intro a0 a1 a2 a3 h; unfold State.fqTxTail; grind only [State.memWf, Tile.memWf, Slab.memWf, State.onCore_memWf,
      Tile.write_memWf, State.txPump_memWf]
theorem State.fqRxTail_memWf : ∀ a0 a1 a2, State.memWf a0 → (State.fqRxTail a0 a1 a2).memWf := by
  intro a0 a1 a2 h; exact h
theorem State.fqPort_memWf : ∀ a0 a1 a2 a3 a4, State.memWf a0 → (State.fqPort a0 a1 a2 a3 a4).memWf := by
  intro a0 a1 a2 a3 a4 h; exact h
theorem State.rdmaNak_memWf : ∀ a0 a1 a2 a3, State.memWf a0 → (State.rdmaNak a0 a1 a2 a3).memWf := by
  intro a0 a1 a2 a3 h; unfold State.rdmaNak; grind only [State.memWf, Tile.memWf, Slab.memWf, State.count_memWf,
      State.answer_memWf]
theorem State.rdmaConn_memWf (s : State) (q : Nat) (f : State → Conn → State)
    (hs : s.memWf) (h : ∀ s k, s.memWf → (f s k).memWf) : (State.rdmaConn s q f).memWf := by
  unfold State.rdmaConn; grind [State.memWf]
theorem State.setConn_memWf : ∀ a0 a1 a2, State.memWf a0 → (State.setConn a0 a1 a2).memWf := by
  intro a0 a1 a2 h; exact h
theorem State.cnpIn_memWf : ∀ a0 a1 a2, State.memWf a0 → (State.cnpIn a0 a1 a2).memWf := by
  intro a0 a1 a2 h; exact h
theorem State.congested_memWf : ∀ a0 a1 a2, State.memWf a0 → (State.congested a0 a1 a2).memWf := by
  intro a0 a1 a2 h; unfold State.congested; grind only [State.memWf, Tile.memWf, Slab.memWf, State.count_memWf,
      VeAcc.read_memWf, State.setConn_memWf]
theorem State.roce_memWf : ∀ a0 a1, State.memWf a0 → (State.roce a0 a1).memWf := by
  intro a0 a1 h; unfold State.roce; (repeat' (first | with_reducible refine State.rdmaConn_memWf _ _ _ ?_ (fun s k h => ?_))); all_goals grind [State.memWf, Tile.memWf, Slab.memWf, State.rdmaNak_memWf, State.cnpIn_memWf, State.congested_memWf]
theorem State.ethUdpIn_memWf : ∀ a0 a1 a2, State.memWf a0 → (State.ethUdpIn a0 a1 a2).memWf := by
  intro a0 a1 a2 h; unfold State.ethUdpIn; grind only [State.memWf, Tile.memWf, Slab.memWf, State.skelistUdp_memWf,
      State.dhcpIn_memWf, State.ethUdp_memWf, State.roce_memWf]
theorem State.ethFrame_memWf : ∀ a0 a1, State.memWf a0 → (State.ethFrame a0 a1).memWf := by
  intro a0 a1 h; unfold State.ethFrame; dsimp only; (repeat' split)
  all_goals (first | assumption | grind [State.memWf, Tile.memWf, Slab.memWf, State.count_memWf, State.ethDrop_memWf,
      State.ethIcmp_memWf, State.ethArp_memWf, State.ethUdpIn_memWf])
theorem State.writeUse_memWf : ∀ a0 a1, State.memWf a0 → (State.writeUse a0 a1).memWf := by
  intro a0 a1 h; unfold State.writeUse; grind only [State.memWf, Tile.memWf, Slab.memWf, foldl_memWf, foldl_fst_memWf,
      foldl_tile_memWf]
theorem State.leaveService_memWf : ∀ a0 a1 a2, State.memWf a0 → (State.leaveService a0 a1 a2).memWf := by
  intro a0 a1 a2 h; unfold State.leaveService; grind only [State.memWf, Tile.memWf, Slab.memWf, foldl_memWf,
      foldl_fst_memWf, foldl_tile_memWf, State.raise_memWf, State.onPort_memWf, State.portGo_memWf, State.discard_memWf]
theorem State.enterService_memWf : ∀ a0 a1 a2 a3 a4, State.memWf a0 → (State.enterService a0 a1 a2 a3 a4).memWf := by
  intro a0 a1 a2 a3 a4 h; unfold State.enterService; grind only [State.memWf, Tile.memWf, Slab.memWf,
      State.raise_memWf, State.onPort_memWf, State.portGo_memWf]
theorem State.cachedStore_memWf : ∀ a0 a1 a2 a3 a4, State.memWf a0 → (State.cachedStore a0 a1 a2 a3 a4).memWf := by
  intro a0 a1 a2 a3 a4 h; unfold State.cachedStore; grind only [State.memWf, Tile.memWf, Slab.memWf, foldl_memWf,
      foldl_fst_memWf, foldl_tile_memWf, State.onCore_memWf, Tile.write_memWf]
theorem State.cacheMay_memWf : ∀ a0 a1 a2, State.memWf a0 → (State.cacheMay a0 a1 a2).memWf := by
  intro a0 a1 a2 h; unfold State.cacheMay; grind only [State.memWf, Tile.memWf, Slab.memWf, State.fresh_memWf,
      State.cacheFlush_memWf]
theorem State.cachedLoad_memWf : ∀ a0 a1 a2 a3 a4 a5, State.memWf a0 → (State.cachedLoad a0 a1 a2 a3 a4 a5).1.memWf := by
  intro a0 a1 a2 a3 a4 a5 h; unfold State.cachedLoad; grind only [State.memWf, Tile.memWf, Slab.memWf, foldl_memWf,
      foldl_fst_memWf, foldl_tile_memWf, State.onCore_memWf, State.readPieces_memWf]
theorem State.coreSlab_memWf : ∀ a0 a1 a2 a3 a4 a5 a6 a7,
      State.memWf a0 → (State.coreSlab a0 a1 a2 a3 a4 a5 a6 a7).memWf := by
  intro a0 a1 a2 a3 a4 a5 a6 a7 h; unfold State.coreSlab; grind only [State.memWf, Tile.memWf, Slab.memWf,
      Tile.write_memWf, State.readPieces_memWf, State.writePieces_memWf, State.reportRefused_memWf, VeAcc.read_memWf,
      State.coreAns_memWf, State.cachedStore_memWf, State.cacheMay_memWf, State.cachedLoad_memWf]
theorem State.coreReg_memWf (s : State) (c o n size image : Nat) (w : Bool) (v : Nat) (f : State → Nat → State)
    (hs : s.memWf) (h : ∀ s v, s.memWf → (f s v).memWf) : (State.coreReg s c o n size image w v f).memWf := by
  unfold State.coreReg; grind [State.memWf, State.coreAns_memWf]
theorem State.writeWatch_memWf : ∀ a0 a1 a2 a3 a4, State.memWf a0 → (State.writeWatch a0 a1 a2 a3 a4).memWf := by
  intro a0 a1 a2 a3 a4 h; exact h
theorem State.writeMbCtl_memWf : ∀ a0 a1 a2, State.memWf a0 → (State.writeMbCtl a0 a1 a2).memWf := by
  intro a0 a1 a2 h; unfold State.writeMbCtl; grind only [State.memWf, Tile.memWf, Slab.memWf, State.onCore_memWf,
      State.submitMailbox_memWf]
theorem State.coreMailbox_memWf : ∀ a0 a1 a2 a3 a4 a5, State.memWf a0 → (State.coreMailbox a0 a1 a2 a3 a4 a5).memWf := by
  intro a0 a1 a2 a3 a4 a5 h; unfold State.coreMailbox; dsimp only
  (repeat' (first | with_reducible refine State.coreReg_memWf _ _ _ _ _ _ _ _ _ ?_ (fun s v h => ?_) | split))
  all_goals (first | assumption | grind [State.memWf, Tile.memWf, Slab.memWf, State.onCore_memWf, Tile.write_memWf,
      State.reply_memWf, State.coreAns_memWf, State.writeMbCtl_memWf])
theorem State.coreFrames_memWf : ∀ a0 a1 a2 a3 a4 a5 a6, State.memWf a0 → (State.coreFrames a0 a1 a2 a3 a4 a5 a6).memWf := by
  intro a0 a1 a2 a3 a4 a5 a6 h; unfold State.coreFrames; dsimp only
  (repeat' (first | with_reducible refine State.coreReg_memWf _ _ _ _ _ _ _ _ _ ?_ (fun s v h => ?_) | split))
  all_goals (first | assumption | grind [State.memWf, Tile.memWf, Slab.memWf, State.onCore_memWf, Tile.write_memWf,
      State.doorbell_memWf, State.fqTxTail_memWf, State.fqRxTail_memWf, State.fqPort_memWf, State.coreAns_memWf])
theorem State.coreDoorbell_memWf : ∀ s f c o n w v, State.memWf s → (State.coreDoorbell s f c o n w v).memWf := by
  intro s f c o n w v hs; unfold State.coreDoorbell; split
  · exact State.coreAns_memWf _ _ _ hs
  · split
    · split
      · exact State.coreAns_memWf _ _ _ (State.doorbell_memWf _ _ _ hs)
      · exact State.coreAns_memWf _ _ _ hs
    · exact State.coreReg_memWf _ _ _ _ _ _ _ _ _ hs (fun _ _ h => h)
theorem State.coreFenceAt_memWf : ∀ a0 a1 a2 a3 a4 a5 a6 a7,
      State.memWf a0 → (State.coreFenceAt a0 a1 a2 a3 a4 a5 a6 a7).memWf := by
  intro a0 a1 a2 a3 a4 a5 a6 a7 h; unfold State.coreFenceAt; grind only [State.memWf, Tile.memWf, Slab.memWf,
      Tile.write_memWf, State.signalFence_memWf, State.coreAns_memWf]
theorem State.coreTime_memWf : ∀ a0 a1 a2 a3 a4 a5, State.memWf a0 → (State.coreTime a0 a1 a2 a3 a4 a5).memWf := by
  intro a0 a1 a2 a3 a4 a5 h; unfold State.coreTime; (repeat' (first | with_reducible refine State.coreReg_memWf _ _ _ _ _ _ _ _ _ ?_ (fun s v h => ?_))); all_goals grind [State.memWf, Tile.memWf, Slab.memWf, Tile.write_memWf]
theorem State.coreAccess_memWf : ∀ a0 a1 a2 a3 a4 a5 a6, State.memWf a0 → (State.coreAccess a0 a1 a2 a3 a4 a5 a6).memWf := by
  intro a0 a1 a2 a3 a4 a5 a6 h; unfold State.coreAccess; dsimp only
  (repeat' (first | with_reducible refine State.coreReg_memWf _ _ _ _ _ _ _ _ _ ?_ (fun s v h => ?_) | split))
  all_goals (first | (with_reducible assumption) | grind [State.memWf, Tile.memWf, Slab.memWf, Tile.write_memWf,
      State.coreAns_memWf, State.coreSlab_memWf, State.writeWatch_memWf, State.coreMailbox_memWf,
      State.coreFrames_memWf, State.coreDoorbell_memWf, State.coreFenceAt_memWf, State.coreTime_memWf])
theorem State.onPflag_memWf : ∀ a0 a1 a2, State.memWf a0 → (State.onPflag a0 a1 a2).memWf := by
  intro a0 a1 a2 h; unfold State.onPflag; grind only [State.memWf, Tile.memWf, Slab.memWf, State.onSlab,
      State.setSlab_memWf, State.memWf.slab]
theorem State.endTransition_memWf : ∀ a0 a1 a2, State.memWf a0 → (State.endTransition a0 a1 a2).memWf := by
  intro a0 a1 a2 h; unfold State.endTransition; grind only [State.memWf, Tile.memWf, Slab.memWf, foldl_memWf,
      foldl_fst_memWf, foldl_tile_memWf, State.reply_memWf, State.onPflag_memWf]
theorem State.loadImage_memWf : ∀ a0 a1 a2, State.memWf a0 → (State.loadImage a0 a1 a2).memWf := by
  intro a0 a1 a2 h; unfold State.loadImage; grind only [State.memWf, Tile.memWf, Slab.memWf, State.onTile,
      State.seqGoto_memWf, State.setTile_memWf, State.memWf.tile]
theorem State.setPattern_memWf : ∀ a0 a1 a2 a3, State.memWf a0 → (State.setPattern a0 a1 a2 a3).memWf := by
  intro a0 a1 a2 a3 h; unfold State.setPattern; grind only [State.memWf, Tile.memWf, Slab.memWf, foldl_memWf,
      foldl_fst_memWf, foldl_tile_memWf, State.onTile, State.onFn_memWf, State.setTile_memWf, State.memWf.tile]
theorem State.countTrace_memWf : ∀ a0 a1 a2, State.memWf a0 → (State.countTrace a0 a1 a2).memWf := by
  intro a0 a1 a2 h; unfold State.countTrace; grind only [State.memWf, Tile.memWf, Slab.memWf, State.count_memWf,
      Tile.write_memWf]
theorem State.traceWrite_memWf : ∀ a0 a1 a2 a3, State.memWf a0 → (State.traceWrite a0 a1 a2 a3).1.memWf := by
  intro a0 a1 a2 a3 h; unfold State.traceWrite; grind only [State.memWf, Tile.memWf, Slab.memWf, State.writePieces_memWf]
theorem State.traceRecord_memWf : ∀ a0 a1 a2, State.memWf a0 → (State.traceRecord a0 a1 a2).memWf := by
  intro a0 a1 a2 h; unfold State.traceRecord; grind only [State.memWf, Tile.memWf, Slab.memWf, State.onFn_memWf,
      State.count_memWf, State.raise_memWf, State.countTrace_memWf, State.traceWrite_memWf]
theorem State.traceGrams_memWf : ∀ a0 a1 a2 a3, State.memWf a0 → (State.traceGrams a0 a1 a2 a3).memWf := by
  intro a0 a1 a2 a3 h; fun_induction State.traceGrams a0 a1 a2 a3 <;> grind [State.memWf, Tile.memWf, Slab.memWf,
      State.onFn_memWf, State.count_memWf, State.countTrace_memWf]
theorem State.traceFlush_memWf : ∀ a0 a1, State.memWf a0 → (State.traceFlush a0 a1).memWf := by
  intro a0 a1 h; unfold State.traceFlush; grind only [State.memWf, Tile.memWf, Slab.memWf, foldl_memWf,
      foldl_fst_memWf, foldl_tile_memWf, State.onFn_memWf, State.raise_memWf, State.traceWrite_memWf,
      State.traceRecord_memWf, State.traceGrams_memWf]
theorem State.clearStat_memWf : ∀ a0 a1 a2 a3, State.memWf a0 → (State.clearStat a0 a1 a2 a3).memWf := by
  intro a0 a1 a2 a3 h; unfold State.clearStat; grind only [State.memWf, Tile.memWf, Slab.memWf, State.setStat_memWf]
theorem Slab.writeExt_memWf : ∀ a0 a1, Slab.memWf a0 → (Slab.writeExt a0 a1).memWf := by
  intro a0 a1 h; exact h
theorem Slab.writeSpread_memWf : ∀ a0 a1 a2, Slab.memWf a0 → (Slab.writeSpread a0 a1 a2).memWf := by
  intro a0 a1 a2 h; exact h
theorem Slab.writeScrub_memWf : ∀ a0 a1, Slab.memWf a0 → (Slab.writeScrub a0 a1).memWf := by
  intro a0 a1 h; exact h
theorem Slab.writeRetire_memWf : ∀ a0 a1 a2, Slab.memWf a0 → (Slab.writeRetire a0 a1 a2).memWf := by
  intro a0 a1 a2 h; exact h
theorem Slab.writePflag_memWf : ∀ a0 a1 a2, Slab.memWf a0 → (Slab.writePflag a0 a1 a2).memWf := by
  intro a0 a1 a2 h; exact h
theorem State.writeLnkSys_memWf : ∀ a0 a1, State.memWf a0 → (State.writeLnkSys a0 a1).memWf := by
  intro a0 a1 h; exact h
theorem State.writeReg_memWf : ∀ a0 a1 a2, State.memWf a0 → (State.writeReg a0 a1 a2).memWf := by
  intro a0 a1 a2 h; unfold State.writeReg; (repeat' (first | with_reducible refine State.command_memWf _ _ _ ?_ (fun s r h => ?_))); all_goals grind [State.memWf, Tile.memWf, Slab.memWf, State.onTile, State.onSlab, State.setFence_memWf, State.onFn_memWf, State.onRing_memWf, State.writeErrCtl_memWf, State.clearErr_memWf, State.doorbell_memWf, State.writeWatch_memWf, State.writeMbCtl_memWf, State.clearStat_memWf, Slab.writeExt_memWf, Slab.writeSpread_memWf, Slab.writeScrub_memWf, Slab.writeRetire_memWf, Slab.writePflag_memWf, State.writeLnkSys_memWf, State.setTile_memWf, State.memWf.tile, State.setSlab_memWf, State.memWf.slab]
theorem State.chainDrop_memWf : ∀ a0 a1, State.memWf a0 → (State.chainDrop a0 a1).memWf := by
  intro a0 a1 h; unfold State.chainDrop; grind only [State.memWf, Tile.memWf, Slab.memWf, State.count_memWf,
      State.raise_memWf]
theorem State.chainForward_memWf : ∀ a0 a1, State.memWf a0 → (State.chainForward a0 a1).memWf := by
  intro a0 a1 h; exact h
theorem State.takeFrame_memWf (s : State) (ok : List Byte → Bool) (f : State → List Byte → State)
    (hs : s.memWf) (h : ∀ s b, s.memWf → (f s b).memWf) : (State.takeFrame s ok f).memWf := by
  unfold State.takeFrame; grind [State.memWf]
theorem State.chainReply_memWf : ∀ a0 a1 a2, State.memWf a0 → (State.chainReply a0 a1 a2).memWf := by
  intro a0 a1 a2 h; unfold State.chainReply; grind only [State.memWf, Tile.memWf, Slab.memWf, State.chainOwn_memWf]
theorem State.boardWarn_memWf : ∀ a0 a1 a2, State.memWf a0 → (State.boardWarn a0 a1 a2).memWf := by
  intro a0 a1 a2 h; unfold State.boardWarn; dsimp only; (repeat' (first | with_reducible refine State.pwrStep_memWf _ _ ?_ (fun s h => ?_) | with_reducible refine State.takeFrame_memWf _ _ _ ?_ (fun s b h => ?_) | split)); all_goals (first | assumption | grind [State.memWf, Tile.memWf, Slab.memWf])
theorem State.chainRefuse_memWf : ∀ a0 a1, State.memWf a0 → (State.chainRefuse a0 a1).memWf := by
  intro a0 a1 h; unfold State.chainRefuse; (repeat' (first | with_reducible refine State.command_memWf _ _ _ ?_ (fun s r h => ?_))); all_goals grind [State.memWf, Tile.memWf, Slab.memWf, State.reply_memWf, State.answer_memWf]
theorem State.tackEvent_memWf : ∀ a0 a1, State.memWf a0 → (State.tackEvent a0 a1).memWf := by
  intro a0 a1 h; unfold State.tackEvent; grind only [State.memWf, Tile.memWf, Slab.memWf, State.event_memWf]
theorem State.replayLog_memWf : ∀ a0 a1 a2, State.memWf a0 → (State.replayLog a0 a1 a2).memWf := by
  intro a0 a1 a2 h; unfold State.replayLog; grind only [State.memWf, Tile.memWf, Slab.memWf, foldl_memWf,
      foldl_fst_memWf, foldl_tile_memWf, State.forward_memWf]
theorem Tile.requeue_memWf : ∀ a0, Tile.memWf a0 → (Tile.requeue a0).memWf := by
  intro a0 h; unfold Tile.requeue; grind only [State.memWf, Tile.memWf, Slab.memWf]
theorem State.resumeTack_memWf : ∀ a0, State.memWf a0 → (State.resumeTack a0).memWf := by
  intro a0 h; unfold State.resumeTack; grind only [State.memWf, Tile.memWf, Slab.memWf, foldl_memWf, foldl_fst_memWf,
      foldl_tile_memWf, State.onTile, State.reply_memWf, State.tackEvent_memWf, State.replayLog_memWf,
      Tile.requeue_memWf, State.setTile_memWf, State.memWf.tile]
theorem State.askResume_memWf : ∀ a0, State.memWf a0 → (State.askResume a0).memWf := by
  intro a0 h; unfold State.askResume; grind only [State.memWf, Tile.memWf, Slab.memWf, State.resumeTack_memWf]

end Sys2Proof.Machine
end

