-- ==== Sys2Proof/Laws/MemCommands.lean ====
section
/-! SUPPORT. Every command keeps every memory canonical. -/

namespace Sys2Proof.Machine

/-- A command that goes on with canonical memories. -/
def NextMemWf (o : Host.Outcome State Fault Refusal) : Prop := ∃ t, o = .next t ∧ t.memWf

theorem execAluAdd_memWf : ∀ a0 a1 a2 a3 a4, State.memWf a4 → NextMemWf (execAluAdd a0 a1 a2 a3 a4) := by
  intro a0 a1 a2 a3 a4 h; unfold execAluAdd; refine ⟨_, rfl, ?_⟩
  grind only [State.memWf, Tile.memWf, Slab.memWf, aluOp_memWf]
theorem execAluSub_memWf : ∀ a0 a1 a2 a3 a4, State.memWf a4 → NextMemWf (execAluSub a0 a1 a2 a3 a4) := by
  intro a0 a1 a2 a3 a4 h; unfold execAluSub; refine ⟨_, rfl, ?_⟩
  grind only [State.memWf, Tile.memWf, Slab.memWf, aluOp_memWf]
theorem execAluAnd_memWf : ∀ a0 a1 a2 a3 a4, State.memWf a4 → NextMemWf (execAluAnd a0 a1 a2 a3 a4) := by
  intro a0 a1 a2 a3 a4 h; unfold execAluAnd; refine ⟨_, rfl, ?_⟩
  grind only [State.memWf, Tile.memWf, Slab.memWf, aluOp_memWf]
theorem execAluOr_memWf : ∀ a0 a1 a2 a3 a4, State.memWf a4 → NextMemWf (execAluOr a0 a1 a2 a3 a4) := by
  intro a0 a1 a2 a3 a4 h; unfold execAluOr; refine ⟨_, rfl, ?_⟩
  grind only [State.memWf, Tile.memWf, Slab.memWf, aluOp_memWf]
theorem execAluXor_memWf : ∀ a0 a1 a2 a3 a4, State.memWf a4 → NextMemWf (execAluXor a0 a1 a2 a3 a4) := by
  intro a0 a1 a2 a3 a4 h; unfold execAluXor; refine ⟨_, rfl, ?_⟩
  grind only [State.memWf, Tile.memWf, Slab.memWf, aluOp_memWf]
theorem execAluSll_memWf : ∀ a0 a1 a2 a3 a4, State.memWf a4 → NextMemWf (execAluSll a0 a1 a2 a3 a4) := by
  intro a0 a1 a2 a3 a4 h; unfold execAluSll; refine ⟨_, rfl, ?_⟩
  grind only [State.memWf, Tile.memWf, Slab.memWf, aluOp_memWf]
theorem execAluSrl_memWf : ∀ a0 a1 a2 a3 a4, State.memWf a4 → NextMemWf (execAluSrl a0 a1 a2 a3 a4) := by
  intro a0 a1 a2 a3 a4 h; unfold execAluSrl; refine ⟨_, rfl, ?_⟩
  grind only [State.memWf, Tile.memWf, Slab.memWf, aluOp_memWf]
theorem execAluSra_memWf : ∀ a0 a1 a2 a3 a4, State.memWf a4 → NextMemWf (execAluSra a0 a1 a2 a3 a4) := by
  intro a0 a1 a2 a3 a4 h; unfold execAluSra; refine ⟨_, rfl, ?_⟩
  grind only [State.memWf, Tile.memWf, Slab.memWf, aluOp_memWf]
theorem execAluMul_memWf : ∀ a0 a1 a2 a3 a4, State.memWf a4 → NextMemWf (execAluMul a0 a1 a2 a3 a4) := by
  intro a0 a1 a2 a3 a4 h; unfold execAluMul; refine ⟨_, rfl, ?_⟩
  grind only [State.memWf, Tile.memWf, Slab.memWf, aluOp_memWf]
theorem execAluMulhu_memWf : ∀ a0 a1 a2 a3 a4, State.memWf a4 → NextMemWf (execAluMulhu a0 a1 a2 a3 a4) := by
  intro a0 a1 a2 a3 a4 h; unfold execAluMulhu; refine ⟨_, rfl, ?_⟩
  grind only [State.memWf, Tile.memWf, Slab.memWf, aluOp_memWf]
theorem execAluMulh_memWf : ∀ a0 a1 a2 a3 a4, State.memWf a4 → NextMemWf (execAluMulh a0 a1 a2 a3 a4) := by
  intro a0 a1 a2 a3 a4 h; unfold execAluMulh; refine ⟨_, rfl, ?_⟩
  grind only [State.memWf, Tile.memWf, Slab.memWf, aluOp_memWf]
theorem execAluSlt_memWf : ∀ a0 a1 a2 a3 a4, State.memWf a4 → NextMemWf (execAluSlt a0 a1 a2 a3 a4) := by
  intro a0 a1 a2 a3 a4 h; unfold execAluSlt; refine ⟨_, rfl, ?_⟩
  grind only [State.memWf, Tile.memWf, Slab.memWf, aluOp_memWf]
theorem execAluSltu_memWf : ∀ a0 a1 a2 a3 a4, State.memWf a4 → NextMemWf (execAluSltu a0 a1 a2 a3 a4) := by
  intro a0 a1 a2 a3 a4 h; unfold execAluSltu; refine ⟨_, rfl, ?_⟩
  grind only [State.memWf, Tile.memWf, Slab.memWf, aluOp_memWf]
theorem execAluMin_memWf : ∀ a0 a1 a2 a3 a4, State.memWf a4 → NextMemWf (execAluMin a0 a1 a2 a3 a4) := by
  intro a0 a1 a2 a3 a4 h; unfold execAluMin; refine ⟨_, rfl, ?_⟩
  grind only [State.memWf, Tile.memWf, Slab.memWf, aluOp_memWf]
theorem execAluMax_memWf : ∀ a0 a1 a2 a3 a4, State.memWf a4 → NextMemWf (execAluMax a0 a1 a2 a3 a4) := by
  intro a0 a1 a2 a3 a4 h; unfold execAluMax; refine ⟨_, rfl, ?_⟩
  grind only [State.memWf, Tile.memWf, Slab.memWf, aluOp_memWf]
theorem execAluSext32_memWf : ∀ a0 a1 a2 a3 a4, State.memWf a4 → NextMemWf (execAluSext32 a0 a1 a2 a3 a4) := by
  intro a0 a1 a2 a3 a4 h; unfold execAluSext32; refine ⟨_, rfl, ?_⟩
  grind only [State.memWf, Tile.memWf, Slab.memWf, aluOp_memWf]
theorem execAddi_memWf : ∀ a0 a1 a2, State.memWf a2 → NextMemWf (execAddi a0 a1 a2) := by
  intro a0 a1 a2 h; unfold execAddi; refine ⟨_, rfl, ?_⟩; grind only [State.memWf, Tile.memWf, Slab.memWf, immOp_memWf]
theorem execAndi_memWf : ∀ a0 a1 a2, State.memWf a2 → NextMemWf (execAndi a0 a1 a2) := by
  intro a0 a1 a2 h; unfold execAndi; refine ⟨_, rfl, ?_⟩; grind only [State.memWf, Tile.memWf, Slab.memWf, immOp_memWf]
theorem execOri_memWf : ∀ a0 a1 a2, State.memWf a2 → NextMemWf (execOri a0 a1 a2) := by
  intro a0 a1 a2 h; unfold execOri; refine ⟨_, rfl, ?_⟩; grind only [State.memWf, Tile.memWf, Slab.memWf, immOp_memWf]
theorem execXori_memWf : ∀ a0 a1 a2, State.memWf a2 → NextMemWf (execXori a0 a1 a2) := by
  intro a0 a1 a2 h; unfold execXori; refine ⟨_, rfl, ?_⟩; grind only [State.memWf, Tile.memWf, Slab.memWf, immOp_memWf]
theorem execSlti_memWf : ∀ a0 a1 a2, State.memWf a2 → NextMemWf (execSlti a0 a1 a2) := by
  intro a0 a1 a2 h; unfold execSlti; refine ⟨_, rfl, ?_⟩; grind only [State.memWf, Tile.memWf, Slab.memWf, immOp_memWf]
theorem execLui_memWf : ∀ a0 a1 a2, State.memWf a2 → NextMemWf (execLui a0 a1 a2) := by
  intro a0 a1 a2 h; unfold execLui; refine ⟨_, rfl, ?_⟩; grind only [State.memWf, Tile.memWf, Slab.memWf, immOp_memWf]
theorem execShiSll_memWf : ∀ a0 a1 a2 a3 a4 a5, State.memWf a5 → NextMemWf (execShiSll a0 a1 a2 a3 a4 a5) := by
  intro a0 a1 a2 a3 a4 a5 h; unfold execShiSll; refine ⟨_, rfl, ?_⟩
  grind only [State.memWf, Tile.memWf, Slab.memWf, shiOp_memWf]
theorem execShiSrl_memWf : ∀ a0 a1 a2 a3 a4 a5, State.memWf a5 → NextMemWf (execShiSrl a0 a1 a2 a3 a4 a5) := by
  intro a0 a1 a2 a3 a4 a5 h; unfold execShiSrl; refine ⟨_, rfl, ?_⟩
  grind only [State.memWf, Tile.memWf, Slab.memWf, shiOp_memWf]
theorem execShiSra_memWf : ∀ a0 a1 a2 a3 a4 a5, State.memWf a5 → NextMemWf (execShiSra a0 a1 a2 a3 a4 a5) := by
  intro a0 a1 a2 a3 a4 a5 h; unfold execShiSra; refine ⟨_, rfl, ?_⟩
  grind only [State.memWf, Tile.memWf, Slab.memWf, shiOp_memWf]
theorem execBeq_memWf : ∀ a0 a1 a2, State.memWf a2 → NextMemWf (execBeq a0 a1 a2) := by
  intro a0 a1 a2 h; unfold execBeq; refine ⟨_, rfl, ?_⟩; grind only [State.memWf, Tile.memWf, Slab.memWf, branchOp_memWf]
theorem execBne_memWf : ∀ a0 a1 a2, State.memWf a2 → NextMemWf (execBne a0 a1 a2) := by
  intro a0 a1 a2 h; unfold execBne; refine ⟨_, rfl, ?_⟩; grind only [State.memWf, Tile.memWf, Slab.memWf, branchOp_memWf]
theorem execBlt_memWf : ∀ a0 a1 a2, State.memWf a2 → NextMemWf (execBlt a0 a1 a2) := by
  intro a0 a1 a2 h; unfold execBlt; refine ⟨_, rfl, ?_⟩; grind only [State.memWf, Tile.memWf, Slab.memWf, branchOp_memWf]
theorem execBge_memWf : ∀ a0 a1 a2, State.memWf a2 → NextMemWf (execBge a0 a1 a2) := by
  intro a0 a1 a2 h; unfold execBge; refine ⟨_, rfl, ?_⟩; grind only [State.memWf, Tile.memWf, Slab.memWf, branchOp_memWf]
theorem execBltu_memWf : ∀ a0 a1 a2, State.memWf a2 → NextMemWf (execBltu a0 a1 a2) := by
  intro a0 a1 a2 h; unfold execBltu; refine ⟨_, rfl, ?_⟩; grind only [State.memWf, Tile.memWf, Slab.memWf, branchOp_memWf]
theorem execBgeu_memWf : ∀ a0 a1 a2, State.memWf a2 → NextMemWf (execBgeu a0 a1 a2) := by
  intro a0 a1 a2 h; unfold execBgeu; refine ⟨_, rfl, ?_⟩; grind only [State.memWf, Tile.memWf, Slab.memWf, branchOp_memWf]
theorem execJal_memWf : ∀ a0 a1 a2 a3, State.memWf a3 → NextMemWf (execJal a0 a1 a2 a3) := by
  intro a0 a1 a2 a3 h; refine ⟨_, rfl,
      ?_⟩; (repeat' (first | with_reducible refine State.seqStep_memWf _ _ _ _ ?_ (fun s x h => ?_)))
  all_goals grind [SeqOut.MemWf, State.memWf, Tile.memWf, Slab.memWf, State.setTile_memWf, Tile.setReg_memWf,
      State.memWf.tile]
theorem execJalr_memWf : ∀ a0 a1 a2, State.memWf a2 → NextMemWf (execJalr a0 a1 a2) := by
  intro a0 a1 a2 h; refine ⟨_, rfl,
      ?_⟩; (repeat' (first | with_reducible refine State.seqStep_memWf _ _ _ _ ?_ (fun s x h => ?_)))
  all_goals grind [SeqOut.MemWf, State.memWf, Tile.memWf, Slab.memWf, State.setTile_memWf, Tile.setReg_memWf,
      State.memWf.tile]
theorem execLb_memWf : ∀ a0 a1 a2, State.memWf a2 → NextMemWf (execLb a0 a1 a2) := by
  intro a0 a1 a2 h; unfold execLb; refine ⟨_, rfl, ?_⟩; grind only [State.memWf, Tile.memWf, Slab.memWf, loadOp_memWf]
theorem execLh_memWf : ∀ a0 a1 a2, State.memWf a2 → NextMemWf (execLh a0 a1 a2) := by
  intro a0 a1 a2 h; unfold execLh; refine ⟨_, rfl, ?_⟩; grind only [State.memWf, Tile.memWf, Slab.memWf, loadOp_memWf]
theorem execLw_memWf : ∀ a0 a1 a2, State.memWf a2 → NextMemWf (execLw a0 a1 a2) := by
  intro a0 a1 a2 h; unfold execLw; refine ⟨_, rfl, ?_⟩; grind only [State.memWf, Tile.memWf, Slab.memWf, loadOp_memWf]
theorem execLd_memWf : ∀ a0 a1 a2, State.memWf a2 → NextMemWf (execLd a0 a1 a2) := by
  intro a0 a1 a2 h; unfold execLd; refine ⟨_, rfl, ?_⟩; grind only [State.memWf, Tile.memWf, Slab.memWf, loadOp_memWf]
theorem execSb_memWf : ∀ a0 a1 a2, State.memWf a2 → NextMemWf (execSb a0 a1 a2) := by
  intro a0 a1 a2 h; unfold execSb; refine ⟨_, rfl, ?_⟩; grind only [State.memWf, Tile.memWf, Slab.memWf, storeOp_memWf]
theorem execSh_memWf : ∀ a0 a1 a2, State.memWf a2 → NextMemWf (execSh a0 a1 a2) := by
  intro a0 a1 a2 h; unfold execSh; refine ⟨_, rfl, ?_⟩; grind only [State.memWf, Tile.memWf, Slab.memWf, storeOp_memWf]
theorem execSw_memWf : ∀ a0 a1 a2, State.memWf a2 → NextMemWf (execSw a0 a1 a2) := by
  intro a0 a1 a2 h; unfold execSw; refine ⟨_, rfl, ?_⟩; grind only [State.memWf, Tile.memWf, Slab.memWf, storeOp_memWf]
theorem execSd_memWf : ∀ a0 a1 a2, State.memWf a2 → NextMemWf (execSd a0 a1 a2) := by
  intro a0 a1 a2 h; unfold execSd; refine ⟨_, rfl, ?_⟩; grind only [State.memWf, Tile.memWf, Slab.memWf, storeOp_memWf]
theorem execSld_memWf : ∀ a0 a1 a2, State.memWf a2 → NextMemWf (execSld a0 a1 a2) := by
  intro a0 a1 a2 h; refine ⟨_, rfl,
      ?_⟩; (repeat' (first | with_reducible refine State.seqStep_memWf _ _ _ _ ?_ (fun s x h => ?_)))
  all_goals grind [SeqOut.MemWf, State.memWf, Tile.memWf, Slab.memWf, State.setTile_memWf, Tile.setReg_memWf,
      State.readPieces_memWf, State.reportRefused_memWf, State.memWf.tile]
theorem execSst_memWf : ∀ a0 a1 a2, State.memWf a2 → NextMemWf (execSst a0 a1 a2) := by
  intro a0 a1 a2 h; refine ⟨_, rfl,
      ?_⟩; (repeat' (first | with_reducible refine State.seqStep_memWf _ _ _ _ ?_ (fun s x h => ?_)))
  all_goals grind [SeqOut.MemWf, State.memWf, Tile.memWf, Slab.memWf, Tile.write_memWf, State.writePieces_memWf,
      State.reportRefused_memWf]
theorem execDsw_memWf : ∀ a0 a1 a2, State.memWf a2 → NextMemWf (execDsw a0 a1 a2) := by
  intro a0 a1 a2 h; refine ⟨_, rfl,
      ?_⟩; (repeat' (first | with_reducible refine State.seqStep_memWf _ _ _ _ ?_ (fun s x h => ?_)))
  all_goals grind [SeqOut.MemWf, State.memWf, Tile.memWf, Slab.memWf, State.setTile_memWf, Tile.write_memWf,
      State.memWf.tile]
theorem execDld_memWf : ∀ a0 a1 a2, State.memWf a2 → NextMemWf (execDld a0 a1 a2) := by
  intro a0 a1 a2 h; refine ⟨_, rfl,
      ?_⟩; (repeat' (first | with_reducible refine State.seqStep_memWf _ _ _ _ ?_ (fun s x h => ?_)))
  all_goals grind [SeqOut.MemWf, State.memWf, Tile.memWf, Slab.memWf, State.setTile_memWf, Tile.write_memWf,
      State.memWf.tile]
theorem dissTry_memWf (t n : Nat) (s : State) (x : Tile) (hs : s.memWf) (hx : x.memWf) : (dissTry t n s x).MemWf := by
  unfold dissTry; dsimp only; (repeat' split) <;> grind [SeqOut.MemWf, State.setTile_memWf, Tile.setReg_memWf,
      Tile.setEp_memWf, Tile.setEng_memWf, Tile.memWf, State.countT_memWf]
theorem execDiss_memWf (t : TileId) (f : IFields) (s : State) (hs : s.memWf) : NextMemWf (execDiss t f s) :=
  ⟨_, rfl, State.seqStep_memWf _ _ _ _ hs (dissTry_memWf _ _)⟩
theorem execDissQueueEntryFreed_memWf (t : TileId) (s : State) (hs : s.memWf) : NextMemWf (execDissQueueEntryFreed t s) := by
  refine ⟨_, rfl, State.seqResume_memWf _ _ _ hs (fun w g h => ?_)⟩
  cases w <;> simp at h; subst h; exact dissTry_memWf _ _
theorem msendTry_memWf (t n : Nat) (a b : W64) (s : State) (x : Tile) (hs : s.memWf) : (msendTry t n a b s x).MemWf := by
  unfold msendTry; dsimp only; (repeat' split) <;>
    grind [SeqOut.MemWf, State.chSend_memWf, State.onTile_memWf, Tile.setEp_memWf]
theorem execMsend_memWf (t : TileId) (f : RFields) (s : State) (hs : s.memWf) : NextMemWf (execMsend t f s) :=
  ⟨_, rfl, State.seqStep_memWf _ _ _ _ hs (fun s x hs _ => msendTry_memWf _ _ _ _ s x hs)⟩
theorem execMsendCreditTaken_memWf (t : TileId) (s : State) (hs : s.memWf) : NextMemWf (execMsendCreditTaken t s) := by
  refine ⟨_, rfl, State.seqResume_memWf _ _ _ hs (fun w g h => ?_)⟩
  cases w <;> simp at h; subst h; exact fun s x hs _ => msendTry_memWf _ _ _ _ s x hs
theorem mrecvTry_memWf (t n : Nat) (rd : BitVec 5) (s : State) (x : Tile) (hs : s.memWf) (hx : x.memWf) : (mrecvTry t n rd s x).MemWf := by
  unfold mrecvTry; dsimp only; (repeat' split) <;> grind [SeqOut.MemWf, State.setTile_memWf, Tile.setReg_memWf,
      Tile.setEp_memWf, Tile.setEng_memWf, Tile.memWf]
theorem execMrecv_memWf (t : TileId) (f : RFields) (s : State) (hs : s.memWf) : NextMemWf (execMrecv t f s) :=
  ⟨_, rfl, State.seqStep_memWf _ _ _ _ hs (mrecvTry_memWf _ _ _)⟩
theorem execMrecvMessageReturned_memWf (t : TileId) (s : State) (hs : s.memWf) : NextMemWf (execMrecvMessageReturned t s) := by
  refine ⟨_, rfl, State.seqResume_memWf _ _ _ hs (fun w g h => ?_)⟩
  cases w <;> simp at h; subst h; exact mrecvTry_memWf _ _ _
theorem execMtry_memWf (t : TileId) (f : RFields) (s : State) (hs : s.memWf) : NextMemWf (execMtry t f s) := by
  refine ⟨_, rfl, State.seqStep_memWf _ _ _ _ hs (fun s x hs hx => ?_)⟩
  have h := mrecvTry_memWf t f.fn.toNat f.rd s x hs hx
  split
  · exact State.setTile_memWf _ _ _ hs (Tile.setReg_memWf _ _ _ hx)
  · exact h
theorem sendGo_memWf (t n : Nat) (b : ChBody) (g : Endpoint → Endpoint) (s : State) (x : Tile) (hs : s.memWf) :
    (sendGo t n b g s x).MemWf := by
  unfold sendGo; split <;> grind [SeqOut.MemWf, State.chSend_memWf, State.onTile_memWf, Tile.setEp_memWf]
theorem execMfree_memWf (t : TileId) (f : RFields) (s : State) (hs : s.memWf) : NextMemWf (execMfree t f s) := by
  refine ⟨_, rfl, State.seqStep_memWf _ _ _ _ hs (fun s x hs _ => ?_)⟩
  dsimp only; split
  · exact hs
  · exact sendGo_memWf _ _ _ _ _ _ hs
theorem execChcfg_memWf : ∀ a0 a1 a2, State.memWf a2 → NextMemWf (execChcfg a0 a1 a2) := by
  intro a0 a1 a2 h; refine ⟨_, rfl,
      ?_⟩; (repeat' (first | with_reducible refine State.seqStep_memWf _ _ _ _ ?_ (fun s x h => ?_)))
  all_goals grind [SeqOut.MemWf, State.memWf, Tile.memWf, Slab.memWf, State.setTile_memWf, Tile.setEp_memWf,
      State.memWf.tile]
theorem execCharm_memWf (t : TileId) (f : RFields) (s : State) (hs : s.memWf) : NextMemWf (execCharm t f s) := by
  refine ⟨_, rfl, State.seqStep_memWf _ _ _ _ hs (fun s x hs _ => ?_)⟩
  dsimp only; split
  · exact hs
  · split
    · exact sendGo_memWf _ _ _ _ _ _ hs
    · exact sendGo_memWf _ _ _ _ _ _ hs
    · exact hs
theorem twaitTry_memWf (n : Nat) (v : W32) (s : State) (x : Tile) (hs : s.memWf) : (twaitTry n v s x).MemWf := by
  unfold twaitTry; split
  · exact hs
  · trivial
theorem execTwait_memWf (t : TileId) (f : RFields) (s : State) (hs : s.memWf) : NextMemWf (execTwait t f s) :=
  ⟨_, rfl, State.seqStep_memWf _ _ _ _ hs (fun s x hs _ => twaitTry_memWf _ _ s x hs)⟩
theorem execTallyWaitRelease_memWf (t : TileId) (s : State) (hs : s.memWf) : NextMemWf (execTallyWaitRelease t s) := by
  refine ⟨_, rfl, State.seqResume_memWf _ _ _ hs (fun w g h => ?_)⟩
  cases w <;> simp at h; subst h; exact fun s x hs _ => twaitTry_memWf _ _ s x hs
theorem execTsig_memWf : ∀ a0 a1 a2, State.memWf a2 → NextMemWf (execTsig a0 a1 a2) := by
  intro a0 a1 a2 h; refine ⟨_, rfl,
      ?_⟩; (repeat' (first | with_reducible refine State.seqStep_memWf _ _ _ _ ?_ (fun s x h => ?_)))
  all_goals grind [SeqOut.MemWf, State.memWf, Tile.memWf, Slab.memWf, State.setTile_memWf, Tile.addTally_memWf,
      State.memWf.tile]
theorem execTset_memWf : ∀ a0 a1 a2, State.memWf a2 → NextMemWf (execTset a0 a1 a2) := by
  intro a0 a1 a2 h; refine ⟨_, rfl,
      ?_⟩; (repeat' (first | with_reducible refine State.seqStep_memWf _ _ _ _ ?_ (fun s x h => ?_)))
  all_goals grind [SeqOut.MemWf, State.memWf, Tile.memWf, Slab.memWf, State.setTile_memWf, Tile.setTally_memWf,
      State.memWf.tile]
theorem execTrd_memWf (t : TileId) (f : RFields) (s : State) (hs : s.memWf) : NextMemWf (execTrd t f s) :=
  ⟨_, rfl, State.seqStep_memWf _ _ _ _ hs (wrReg_memWf _ _ _)⟩
theorem execRdsys_memWf : ∀ a0 a1 a2, State.memWf a2 → NextMemWf (execRdsys a0 a1 a2) := by
  intro a0 a1 a2 h; refine ⟨_, rfl,
      ?_⟩; (repeat' (first | with_reducible refine State.seqStep_memWf _ _ _ _ ?_ (fun s x h => ?_)))
  all_goals grind [SeqOut.MemWf, State.memWf, Tile.memWf, Slab.memWf, State.setTile_memWf, Tile.setReg_memWf,
      State.memWf.tile]
theorem execWrsysDseq_memWf : ∀ a0 a1 a2 a3 a4, State.memWf a4 → NextMemWf (execWrsysDseq a0 a1 a2 a3 a4) := by
  intro a0 a1 a2 a3 a4 h; refine ⟨_, rfl,
      ?_⟩; (repeat' (first | with_reducible refine State.seqStep_memWf _ _ _ _ ?_ (fun s x h => ?_)))
  all_goals grind [SeqOut.MemWf, State.memWf, Tile.memWf, Slab.memWf, State.setTile_memWf, State.memWf.tile]
theorem execWrsysLack_memWf : ∀ a0 a1 a2 a3 a4, State.memWf a4 → NextMemWf (execWrsysLack a0 a1 a2 a3 a4) := by
  intro a0 a1 a2 a3 a4 h; refine ⟨_, rfl,
      ?_⟩; (repeat' (first | with_reducible refine State.seqStep_memWf _ _ _ _ ?_ (fun s x h => ?_)))
  all_goals grind [SeqOut.MemWf, State.memWf, Tile.memWf, Slab.memWf, State.lackTile_memWf]
theorem execFence_memWf : ∀ a0 a1 a2 a3 a4, State.memWf a4 → NextMemWf (execFence a0 a1 a2 a3 a4) := by
  intro a0 a1 a2 a3 a4 h; refine ⟨_, rfl,
      ?_⟩; (repeat' (first | with_reducible refine State.seqStep_memWf _ _ _ _ ?_ (fun s x h => ?_)))
  all_goals grind [SeqOut.MemWf, State.memWf, Tile.memWf, Slab.memWf]
theorem execEvpost_memWf : ∀ a0 a1 a2 a3 a4, State.memWf a4 → NextMemWf (execEvpost a0 a1 a2 a3 a4) := by
  intro a0 a1 a2 a3 a4 h; refine ⟨_, rfl,
      ?_⟩; (repeat' (first | with_reducible refine State.seqStep_memWf _ _ _ _ ?_ (fun s x h => ?_)))
  all_goals grind [SeqOut.MemWf, State.memWf, Tile.memWf, Slab.memWf, State.event_memWf]
theorem execHalt_memWf : ∀ a0 a1 a2, State.memWf a2 → NextMemWf (execHalt a0 a1 a2) := by
  intro a0 a1 a2 h; refine ⟨_, rfl,
      ?_⟩; (repeat' (first | with_reducible refine State.seqStep_memWf _ _ _ _ ?_ (fun s x h => ?_)))
  all_goals grind [SeqOut.MemWf, State.memWf, Tile.memWf, Slab.memWf, State.onTile, State.seqGoto_memWf,
      State.setTile_memWf, State.memWf.tile]
theorem execChanMsgArrive_memWf : ∀ a0 a1 a2, State.memWf a2 → NextMemWf (execChanMsgArrive a0 a1 a2) := by
  intro a0 a1 a2 h; refine ⟨_, rfl,
      ?_⟩; (repeat' (first | with_reducible refine State.arrive_memWf _ _ _ _ _ ?_ (fun s e p h => ?_)))
  all_goals grind [State.memWf, Tile.memWf, Slab.memWf, State.onTile, Tile.setEp_memWf, landMsg_memWf,
      State.setTile_memWf, State.memWf.tile]
theorem execChanBulkArrive_memWf : ∀ a0 a1 a2, State.memWf a2 → NextMemWf (execChanBulkArrive a0 a1 a2) := by
  intro a0 a1 a2 h; refine ⟨_, rfl,
      ?_⟩; (repeat' (first | with_reducible refine State.arrive_memWf _ _ _ _ _ ?_ (fun s e p h => ?_)))
  all_goals grind [State.memWf, Tile.memWf, Slab.memWf, State.onTile, State.countT_memWf, State.raiseT_memWf,
      State.reportRefused_memWf, State.chSendOrLost_memWf, Tile.bump_memWf, State.writeWindow_memWf,
      State.setTile_memWf, State.memWf.tile]
theorem execChanGrantArrive_memWf : ∀ a0 a1 a2, State.memWf a2 → NextMemWf (execChanGrantArrive a0 a1 a2) := by
  intro a0 a1 a2 h; refine ⟨_, rfl,
      ?_⟩; (repeat' (first | with_reducible refine State.arrive_memWf _ _ _ _ _ ?_ (fun s e p h => ?_)))
  all_goals grind [State.memWf, Tile.memWf, Slab.memWf, State.onTile, Tile.setEp_memWf, State.setTile_memWf,
      State.memWf.tile]
theorem execBulkAckArrive_memWf : ∀ a0 a1, State.memWf a1 → NextMemWf (execBulkAckArrive a0 a1) := by
  intro a0 a1 h; refine ⟨_, rfl,
      ?_⟩; dsimp only; (repeat' (first | with_reducible refine State.arrive_memWf _ _ _ _ _ ?_ (fun s e p h => ?_) | split)); all_goals (first | (with_reducible assumption) | grind [State.memWf, Tile.memWf, Slab.memWf, State.onTile, State.setTile_memWf, State.memWf.tile])
theorem execChanCreditArrive_memWf : ∀ a0 a1 a2, State.memWf a2 → NextMemWf (execChanCreditArrive a0 a1 a2) := by
  intro a0 a1 a2 h; refine ⟨_, rfl,
      ?_⟩; (repeat' (first | with_reducible refine State.arrive_memWf _ _ _ _ _ ?_ (fun s e p h => ?_)))
  all_goals grind [State.memWf, Tile.memWf, Slab.memWf, State.onTile, Tile.setEp_memWf, State.setTile_memWf,
      State.memWf.tile]
theorem execStopNoticeArrive_memWf : ∀ a0 a1, State.memWf a1 → NextMemWf (execStopNoticeArrive a0 a1) := by
  intro a0 a1 h; unfold execStopNoticeArrive; refine ⟨_, rfl, ?_⟩
  grind only [State.memWf, Tile.memWf, Slab.memWf, State.noticeAt_memWf]
theorem execDmaCopy_memWf : ∀ a0 a1, State.memWf a1 → NextMemWf (execDmaCopy a0 a1) := by
  intro a0 a1 h; refine ⟨_, rfl,
      ?_⟩; (repeat' (first | with_reducible refine State.dmaStep_memWf _ _ _ _ ?_ (fun s r d h => ?_)))
  all_goals grind [State.memWf, Tile.memWf, Slab.memWf, State.raiseT_memWf, State.copyRows_memWf, State.engDone_memWf,
      State.countDma_memWf]
theorem execDmaFill_memWf : ∀ a0 a1, State.memWf a1 → NextMemWf (execDmaFill a0 a1) := by
  intro a0 a1 h; refine ⟨_, rfl,
      ?_⟩; (repeat' (first | with_reducible refine State.dmaStep_memWf _ _ _ _ ?_ (fun s r d h => ?_)))
  all_goals grind [State.memWf, Tile.memWf, Slab.memWf, foldl_memWf, foldl_fst_memWf, foldl_tile_memWf,
      State.putLines_memWf, State.engDone_memWf, State.countDma_memWf]
theorem execDmaBulkSend_memWf : ∀ a0 a1, State.memWf a1 → NextMemWf (execDmaBulkSend a0 a1) := by
  intro a0 a1 h; refine ⟨_, rfl,
      ?_⟩; (repeat' (first | with_reducible refine State.dmaStep_memWf _ _ _ _ ?_ (fun s r d h => ?_)))
  all_goals grind [State.memWf, Tile.memWf, Slab.memWf, State.onTile, State.raiseT_memWf, State.chanErr_memWf,
      State.countDma_memWf, State.sendRows_memWf, State.setTile_memWf, State.memWf.tile]
theorem execOpaPass_memWf : ∀ a0 a1, State.memWf a1 → NextMemWf (execOpaPass a0 a1) := by
  intro a0 a1 h; refine ⟨_, rfl,
      ?_⟩; (repeat' (first | with_reducible refine State.engStep_memWf _ _ _ _ _ ?_ (fun s r h => ?_)))
  all_goals grind [State.memWf, Tile.memWf, Slab.memWf, State.opaRun_memWf]
theorem execOpaRowStart_memWf : ∀ a0 a1 a2, State.memWf a2 → NextMemWf (execOpaRowStart a0 a1 a2) := by
  intro a0 a1 a2 h; refine ⟨_, rfl,
      ?_⟩; (repeat' (first | with_reducible refine State.engStep_memWf _ _ _ _ _ ?_ (fun s r h => ?_)))
  all_goals grind [State.memWf, Tile.memWf, Slab.memWf, State.opaRun_memWf]
theorem execOpaPassComplete_memWf : ∀ a0 a1, State.memWf a1 → NextMemWf (execOpaPassComplete a0 a1) := by
  intro a0 a1 h; unfold execOpaPassComplete; refine ⟨_, rfl, ?_⟩
  grind only [State.memWf, Tile.memWf, Slab.memWf, State.countT_memWf, State.signalEng_memWf, State.memWf.tile]
theorem execVeCvt_memWf : ∀ a0 a1, State.memWf a1 → NextMemWf (execVeCvt a0 a1) := by
  intro a0 a1 h; refine ⟨_, rfl,
      ?_⟩; (repeat' (first | with_reducible refine State.engStep_memWf _ _ _ _ _ ?_ (fun s r h => ?_) | with_reducible refine State.veVectors_memWf _ _ _ _ ?_ (fun a v w h => ?_))); all_goals grind [State.memWf, Tile.memWf, Slab.memWf, VeAcc.memWf, VeAcc.map1_memWf]
theorem execVeAdd_memWf : ∀ a0 a1, State.memWf a1 → NextMemWf (execVeAdd a0 a1) := by
  intro a0 a1 h; refine ⟨_, rfl,
      ?_⟩; (repeat' (first | with_reducible refine State.engStep_memWf _ _ _ _ _ ?_ (fun s r h => ?_) | with_reducible refine State.veVectors_memWf _ _ _ _ ?_ (fun a v w h => ?_))); all_goals grind [State.memWf, Tile.memWf, Slab.memWf, VeAcc.memWf, VeAcc.map2_memWf]
theorem execVeSub_memWf : ∀ a0 a1, State.memWf a1 → NextMemWf (execVeSub a0 a1) := by
  intro a0 a1 h; refine ⟨_, rfl,
      ?_⟩; (repeat' (first | with_reducible refine State.engStep_memWf _ _ _ _ _ ?_ (fun s r h => ?_) | with_reducible refine State.veVectors_memWf _ _ _ _ ?_ (fun a v w h => ?_))); all_goals grind [State.memWf, Tile.memWf, Slab.memWf, VeAcc.memWf, VeAcc.map2_memWf]
theorem execVeMul_memWf : ∀ a0 a1, State.memWf a1 → NextMemWf (execVeMul a0 a1) := by
  intro a0 a1 h; refine ⟨_, rfl,
      ?_⟩; (repeat' (first | with_reducible refine State.engStep_memWf _ _ _ _ _ ?_ (fun s r h => ?_) | with_reducible refine State.veVectors_memWf _ _ _ _ ?_ (fun a v w h => ?_))); all_goals grind [State.memWf, Tile.memWf, Slab.memWf, VeAcc.memWf, VeAcc.map2_memWf]
theorem execVeMuladd_memWf : ∀ a0 a1, State.memWf a1 → NextMemWf (execVeMuladd a0 a1) := by
  intro a0 a1 h; refine ⟨_, rfl,
      ?_⟩; (repeat' (first | with_reducible refine State.engStep_memWf _ _ _ _ _ ?_ (fun s r h => ?_) | with_reducible refine State.veVectors_memWf _ _ _ _ ?_ (fun a v w h => ?_))); all_goals grind [State.memWf, Tile.memWf, Slab.memWf, VeAcc.memWf, VeAcc.mulAdd_memWf]
theorem execVeMax_memWf : ∀ a0 a1, State.memWf a1 → NextMemWf (execVeMax a0 a1) := by
  intro a0 a1 h; refine ⟨_, rfl,
      ?_⟩; (repeat' (first | with_reducible refine State.engStep_memWf _ _ _ _ _ ?_ (fun s r h => ?_) | with_reducible refine State.veVectors_memWf _ _ _ _ ?_ (fun a v w h => ?_))); all_goals grind [State.memWf, Tile.memWf, Slab.memWf, VeAcc.memWf, VeAcc.map2_memWf]
theorem execVeMin_memWf : ∀ a0 a1, State.memWf a1 → NextMemWf (execVeMin a0 a1) := by
  intro a0 a1 h; refine ⟨_, rfl,
      ?_⟩; (repeat' (first | with_reducible refine State.engStep_memWf _ _ _ _ _ ?_ (fun s r h => ?_) | with_reducible refine State.veVectors_memWf _ _ _ _ ?_ (fun a v w h => ?_))); all_goals grind [State.memWf, Tile.memWf, Slab.memWf, VeAcc.memWf, VeAcc.map2_memWf]
theorem execVeMuls_memWf : ∀ a0 a1, State.memWf a1 → NextMemWf (execVeMuls a0 a1) := by
  intro a0 a1 h; refine ⟨_, rfl,
      ?_⟩; (repeat' (first | with_reducible refine State.engStep_memWf _ _ _ _ _ ?_ (fun s r h => ?_) | with_reducible refine State.veVectors_memWf _ _ _ _ ?_ (fun a v w h => ?_))); all_goals grind [State.memWf, Tile.memWf, Slab.memWf, VeAcc.memWf, VeAcc.map1_memWf, VeAcc.useParam_memWf]
theorem execVeRsum_memWf : ∀ a0 a1, State.memWf a1 → NextMemWf (execVeRsum a0 a1) := by
  intro a0 a1 h; refine ⟨_, rfl,
      ?_⟩; (repeat' (first | with_reducible refine State.engStep_memWf _ _ _ _ _ ?_ (fun s r h => ?_) | with_reducible refine State.veRows_memWf _ _ _ _ ?_ (fun a v n w h => ?_))); all_goals grind [State.memWf, Tile.memWf, Slab.memWf, VeAcc.memWf, VeAcc.rsum_memWf]
theorem execVeRmax_memWf : ∀ a0 a1, State.memWf a1 → NextMemWf (execVeRmax a0 a1) := by
  intro a0 a1 h; refine ⟨_, rfl,
      ?_⟩; (repeat' (first | with_reducible refine State.engStep_memWf _ _ _ _ _ ?_ (fun s r h => ?_) | with_reducible refine State.veRows_memWf _ _ _ _ ?_ (fun a v n w h => ?_))); all_goals grind [State.memWf, Tile.memWf, Slab.memWf, VeAcc.memWf, VeAcc.rext_memWf]
theorem execVeRmin_memWf : ∀ a0 a1, State.memWf a1 → NextMemWf (execVeRmin a0 a1) := by
  intro a0 a1 h; refine ⟨_, rfl,
      ?_⟩; (repeat' (first | with_reducible refine State.engStep_memWf _ _ _ _ _ ?_ (fun s r h => ?_) | with_reducible refine State.veRows_memWf _ _ _ _ ?_ (fun a v n w h => ?_))); all_goals grind [State.memWf, Tile.memWf, Slab.memWf, VeAcc.memWf, VeAcc.rext_memWf]
theorem execVeLnorm_memWf : ∀ a0 a1, State.memWf a1 → NextMemWf (execVeLnorm a0 a1) := by
  intro a0 a1 h; refine ⟨_, rfl,
      ?_⟩; (repeat' (first | with_reducible refine State.engStep_memWf _ _ _ _ _ ?_ (fun s r h => ?_) | with_reducible refine State.veRows_memWf _ _ _ _ ?_ (fun a v n w h => ?_))); all_goals grind [State.memWf, Tile.memWf, Slab.memWf, VeAcc.memWf, VeAcc.norm_memWf]
theorem execVeRmsnorm_memWf : ∀ a0 a1, State.memWf a1 → NextMemWf (execVeRmsnorm a0 a1) := by
  intro a0 a1 h; refine ⟨_, rfl,
      ?_⟩; (repeat' (first | with_reducible refine State.engStep_memWf _ _ _ _ _ ?_ (fun s r h => ?_) | with_reducible refine State.veRows_memWf _ _ _ _ ?_ (fun a v n w h => ?_))); all_goals grind [State.memWf, Tile.memWf, Slab.memWf, VeAcc.memWf, VeAcc.norm_memWf]
theorem execVeRope_memWf : ∀ a0 a1, State.memWf a1 → NextMemWf (execVeRope a0 a1) := by
  intro a0 a1 h; refine ⟨_, rfl,
      ?_⟩; (repeat' (first | with_reducible refine State.engStep_memWf _ _ _ _ _ ?_ (fun s r h => ?_) | with_reducible refine State.veVectors_memWf _ _ _ _ ?_ (fun a v w h => ?_))); all_goals grind [State.memWf, Tile.memWf, Slab.memWf, VeAcc.memWf, VeAcc.rope_memWf]
theorem execVeGather_memWf : ∀ a0 a1, State.memWf a1 → NextMemWf (execVeGather a0 a1) := by
  intro a0 a1 h; refine ⟨_, rfl,
      ?_⟩; (repeat' (first | with_reducible refine State.engStep_memWf _ _ _ _ _ ?_ (fun s r h => ?_) | with_reducible refine State.veVectors_memWf _ _ _ _ ?_ (fun a v w h => ?_))); all_goals grind [State.memWf, Tile.memWf, Slab.memWf, VeAcc.memWf, VeAcc.gather_memWf]
theorem execVePermute_memWf : ∀ a0 a1, State.memWf a1 → NextMemWf (execVePermute a0 a1) := by
  intro a0 a1 h; refine ⟨_, rfl,
      ?_⟩; (repeat' (first | with_reducible refine State.engStep_memWf _ _ _ _ _ ?_ (fun s r h => ?_) | with_reducible refine State.veVectors_memWf _ _ _ _ ?_ (fun a v w h => ?_))); all_goals grind [State.memWf, Tile.memWf, Slab.memWf, VeAcc.memWf, VeAcc.permute_memWf]
theorem execVeTopk_memWf : ∀ a0 a1, State.memWf a1 → NextMemWf (execVeTopk a0 a1) := by
  intro a0 a1 h; refine ⟨_, rfl,
      ?_⟩; (repeat' (first | with_reducible refine State.engStep_memWf _ _ _ _ _ ?_ (fun s r h => ?_) | with_reducible refine State.veRows_memWf _ _ _ _ ?_ (fun a v n w h => ?_))); all_goals grind [State.memWf, Tile.memWf, Slab.memWf, VeAcc.memWf, VeAcc.topk_memWf]
theorem execVeArgmax_memWf : ∀ a0 a1, State.memWf a1 → NextMemWf (execVeArgmax a0 a1) := by
  intro a0 a1 h; refine ⟨_, rfl,
      ?_⟩; (repeat' (first | with_reducible refine State.engStep_memWf _ _ _ _ _ ?_ (fun s r h => ?_) | with_reducible refine State.veRows_memWf _ _ _ _ ?_ (fun a v n w h => ?_))); all_goals grind [State.memWf, Tile.memWf, Slab.memWf, VeAcc.memWf, VeAcc.topk_memWf]
theorem execVeSample_memWf : ∀ a0 a1, State.memWf a1 → NextMemWf (execVeSample a0 a1) := by
  intro a0 a1 h; refine ⟨_, rfl,
      ?_⟩; (repeat' (first | with_reducible refine State.engStep_memWf _ _ _ _ _ ?_ (fun s r h => ?_) | with_reducible refine State.veRows_memWf _ _ _ _ ?_ (fun a v n w h => ?_))); all_goals grind [State.memWf, Tile.memWf, Slab.memWf, VeAcc.memWf, VeAcc.sample_memWf]
theorem execVeSeamAdd_memWf : ∀ a0 a1, State.memWf a1 → NextMemWf (execVeSeamAdd a0 a1) := by
  intro a0 a1 h; refine ⟨_, rfl,
      ?_⟩; (repeat' (first | with_reducible refine State.engStep_memWf _ _ _ _ _ ?_ (fun s r h => ?_) | with_reducible refine State.veVectors_memWf _ _ _ _ ?_ (fun a v w h => ?_))); all_goals grind [State.memWf, Tile.memWf, Slab.memWf, VeAcc.memWf, VeAcc.seamAdd_memWf]
theorem execVeSeamCvt_memWf : ∀ a0 a1, State.memWf a1 → NextMemWf (execVeSeamCvt a0 a1) := by
  intro a0 a1 h; refine ⟨_, rfl,
      ?_⟩; (repeat' (first | with_reducible refine State.engStep_memWf _ _ _ _ _ ?_ (fun s r h => ?_) | with_reducible refine State.veVectors_memWf _ _ _ _ ?_ (fun a v w h => ?_))); all_goals grind [State.memWf, Tile.memWf, Slab.memWf, VeAcc.memWf, VeAcc.seamCvt_memWf]
theorem execVeAccRead_memWf (t : TileId) (s : State) (hs : s.memWf) : NextMemWf (execVeAccRead t s) := by
  refine ⟨_, rfl, State.engStep_memWf _ _ _ _ _ hs (fun s r hs => ?_)⟩
  dsimp only
  generalize hu : List.foldl _ (s.veStart t r.desc) _ = u
  have h1 : u.memWf := by
    rw [← hu]
    exact foldl_ve_memWf _ (fun a w ha => VeAcc.accRead_memWf _ _ _ ha) _ _ (State.veStart_memWf s t r.desc hs)
  have h2 := fun n => State.veFinish_memWf s t (VeD.of r.desc.raw) n _ hs h1
  refine State.engDone_memWf _ _ _ ?_
  split
  · exact State.onTile_memWf _ _ _ (h2 _) (fun x hx => Tile.setBank_memWf _ _ _ hx)
  · exact h2 _
theorem execSfuExp2_memWf : ∀ a0 a1, State.memWf a1 → NextMemWf (execSfuExp2 a0 a1) := by
  intro a0 a1 h; unfold execSfuExp2; refine ⟨_, rfl, ?_⟩; grind only [State.memWf, Tile.memWf, Slab.memWf, VeAcc.memWf,
      State.sfuFn_memWf]
theorem execSfuLog2_memWf : ∀ a0 a1, State.memWf a1 → NextMemWf (execSfuLog2 a0 a1) := by
  intro a0 a1 h; unfold execSfuLog2; refine ⟨_, rfl, ?_⟩; grind only [State.memWf, Tile.memWf, Slab.memWf, VeAcc.memWf,
      State.sfuFn_memWf]
theorem execSfuReciprocal_memWf : ∀ a0 a1, State.memWf a1 → NextMemWf (execSfuReciprocal a0 a1) := by
  intro a0 a1 h; unfold execSfuReciprocal; refine ⟨_, rfl, ?_⟩
  grind only [State.memWf, Tile.memWf, Slab.memWf, VeAcc.memWf, State.sfuFn_memWf]
theorem execSfuRsqrt_memWf : ∀ a0 a1, State.memWf a1 → NextMemWf (execSfuRsqrt a0 a1) := by
  intro a0 a1 h; unfold execSfuRsqrt; refine ⟨_, rfl, ?_⟩; grind only [State.memWf, Tile.memWf, Slab.memWf,
      VeAcc.memWf, State.sfuFn_memWf]
theorem execSfuSqrt_memWf : ∀ a0 a1, State.memWf a1 → NextMemWf (execSfuSqrt a0 a1) := by
  intro a0 a1 h; unfold execSfuSqrt; refine ⟨_, rfl, ?_⟩; grind only [State.memWf, Tile.memWf, Slab.memWf, VeAcc.memWf,
      State.sfuFn_memWf]
theorem execSfuTanh_memWf : ∀ a0 a1, State.memWf a1 → NextMemWf (execSfuTanh a0 a1) := by
  intro a0 a1 h; unfold execSfuTanh; refine ⟨_, rfl, ?_⟩; grind only [State.memWf, Tile.memWf, Slab.memWf, VeAcc.memWf,
      State.sfuFn_memWf]
theorem execSfuSigmoid_memWf : ∀ a0 a1, State.memWf a1 → NextMemWf (execSfuSigmoid a0 a1) := by
  intro a0 a1 h; unfold execSfuSigmoid; refine ⟨_, rfl, ?_⟩; grind only [State.memWf, Tile.memWf, Slab.memWf,
      VeAcc.memWf, State.sfuFn_memWf]
theorem execSfuErf_memWf : ∀ a0 a1, State.memWf a1 → NextMemWf (execSfuErf a0 a1) := by
  intro a0 a1 h; unfold execSfuErf; refine ⟨_, rfl, ?_⟩; grind only [State.memWf, Tile.memWf, Slab.memWf, VeAcc.memWf,
      State.sfuFn_memWf]
theorem execSfuGelu_memWf : ∀ a0 a1, State.memWf a1 → NextMemWf (execSfuGelu a0 a1) := by
  intro a0 a1 h; unfold execSfuGelu; refine ⟨_, rfl, ?_⟩; grind only [State.memWf, Tile.memWf, Slab.memWf, VeAcc.memWf,
      State.sfuFn_memWf]
theorem execSfuSilu_memWf : ∀ a0 a1, State.memWf a1 → NextMemWf (execSfuSilu a0 a1) := by
  intro a0 a1 h; unfold execSfuSilu; refine ⟨_, rfl, ?_⟩; grind only [State.memWf, Tile.memWf, Slab.memWf, VeAcc.memWf,
      State.sfuFn_memWf]
theorem execSfuSin_memWf : ∀ a0 a1, State.memWf a1 → NextMemWf (execSfuSin a0 a1) := by
  intro a0 a1 h; unfold execSfuSin; refine ⟨_, rfl, ?_⟩; grind only [State.memWf, Tile.memWf, Slab.memWf, VeAcc.memWf,
      State.sfuFn_memWf]
theorem execSfuCos_memWf : ∀ a0 a1, State.memWf a1 → NextMemWf (execSfuCos a0 a1) := by
  intro a0 a1 h; unfold execSfuCos; refine ⟨_, rfl, ?_⟩; grind only [State.memWf, Tile.memWf, Slab.memWf, VeAcc.memWf,
      State.sfuFn_memWf]
theorem execSfuPattern_memWf : ∀ a0 a1, State.memWf a1 → NextMemWf (execSfuPattern a0 a1) := by
  intro a0 a1 h; refine ⟨_, rfl,
      ?_⟩; (repeat' (first | with_reducible refine State.engStep_memWf _ _ _ _ _ ?_ (fun s r h => ?_)))
  all_goals grind [State.memWf, Tile.memWf, Slab.memWf, VeAcc.memWf, State.sfuRun_memWf, State.memWf.tile]
theorem execPwAppend_memWf : ∀ a0 a1, State.memWf a1 → NextMemWf (execPwAppend a0 a1) := by
  intro a0 a1 h; refine ⟨_, rfl,
      ?_⟩; (repeat' (first | with_reducible refine State.engStep_memWf _ _ _ _ _ ?_ (fun s r h => ?_)))
  all_goals grind [State.memWf, Tile.memWf, Slab.memWf, foldl_memWf, foldl_fst_memWf, foldl_tile_memWf, State.onTile,
      State.appendRow_memWf, Tile.noStatus_memWf, State.setTile_memWf, State.memWf.tile]
theorem execPwInvalidate_memWf : ∀ a0 a1, State.memWf a1 → NextMemWf (execPwInvalidate a0 a1) := by
  intro a0 a1 h; unfold execPwInvalidate; refine ⟨_, rfl, ?_⟩
  grind only [State.memWf, Tile.memWf, Slab.memWf, State.pwInvalidate_memWf]
theorem execGusAcquire_memWf : ∀ a0 a1, State.memWf a1 → NextMemWf (execGusAcquire a0 a1) := by
  intro a0 a1 h; unfold execGusAcquire; refine ⟨_, rfl, ?_⟩; grind only [State.memWf, Tile.memWf, Slab.memWf,
      State.setTile_memWf, State.memWf.tile]
theorem execGusAttend_memWf : ∀ a0 a1, State.memWf a1 → NextMemWf (execGusAttend a0 a1) := by
  intro a0 a1 h; refine ⟨_, rfl,
      ?_⟩; (repeat' (first | with_reducible refine State.gusStep_memWf _ _ _ _ ?_ (fun s d h => ?_)))
  all_goals grind [State.memWf, Tile.memWf, Slab.memWf, foldl_memWf, foldl_fst_memWf, foldl_tile_memWf,
      State.countT_memWf, State.gusSteps_memWf, State.readSlot_memWf, State.attendRow_memWf]
theorem execGusRebase_memWf : ∀ a0 a1, State.memWf a1 → NextMemWf (execGusRebase a0 a1) := by
  intro a0 a1 h; refine ⟨_, rfl,
      ?_⟩; (repeat' (first | with_reducible refine State.gusStep_memWf _ _ _ _ ?_ (fun s d h => ?_)))
  all_goals grind [State.memWf, Tile.memWf, Slab.memWf, foldl_memWf, foldl_fst_memWf, foldl_tile_memWf,
      State.rebaseRow_memWf]
theorem execGusFinalise_memWf : ∀ a0 a1, State.memWf a1 → NextMemWf (execGusFinalise a0 a1) := by
  intro a0 a1 h; refine ⟨_, rfl,
      ?_⟩; (repeat' (first | with_reducible refine State.gusStep_memWf _ _ _ _ ?_ (fun s d h => ?_)))
  all_goals grind [State.memWf, Tile.memWf, Slab.memWf, foldl_memWf, foldl_fst_memWf, foldl_tile_memWf,
      State.finaliseRow_memWf]
theorem execGusRecompute_memWf : ∀ a0 a1, State.memWf a1 → NextMemWf (execGusRecompute a0 a1) := by
  intro a0 a1 h; refine ⟨_, rfl,
      ?_⟩; (repeat' (first | with_reducible refine State.gusStep_memWf _ _ _ _ ?_ (fun s d h => ?_)))
  all_goals grind [State.memWf, Tile.memWf, Slab.memWf, foldl_memWf, foldl_fst_memWf, foldl_tile_memWf,
      State.countT_memWf, State.gusSteps_memWf, State.readSlot_memWf, State.recomputeRow_memWf, State.memWf.tile]
theorem execDescStart_memWf : ∀ a0 a1 a2, State.memWf a2 → NextMemWf (execDescStart a0 a1 a2) := by
  intro a0 a1 a2 h; unfold execDescStart; refine ⟨_, rfl, ?_⟩
  grind only [State.memWf, Tile.memWf, Slab.memWf, State.startDesc_memWf, State.memWf.tile]
theorem execDescSignal_memWf : ∀ a0 a1 a2, State.memWf a2 → NextMemWf (execDescSignal a0 a1 a2) := by
  intro a0 a1 a2 h; unfold execDescSignal; refine ⟨_, rfl, ?_⟩
  grind only [State.memWf, Tile.memWf, Slab.memWf, State.countT_memWf, State.signalEng_memWf, State.memWf.tile]
theorem execFnCreate_memWf : ∀ a0, State.memWf a0 → NextMemWf (execFnCreate a0) := by
  intro a0 h; refine ⟨_, rfl,
      ?_⟩; (repeat' (first | with_reducible refine State.judge_memWf _ _ _ _ ?_ (fun s h => ?_) | with_reducible refine State.command_memWf _ _ _ ?_ (fun s r h => ?_))); all_goals grind [State.memWf, Tile.memWf, Slab.memWf, State.setFn_memWf, State.reply_memWf]
theorem execFnDestroy_memWf : ∀ a0, State.memWf a0 → NextMemWf (execFnDestroy a0) := by
  intro a0 h; refine ⟨_, rfl,
      ?_⟩; (repeat' (first | with_reducible refine State.judge_memWf _ _ _ _ ?_ (fun s h => ?_) | with_reducible refine State.command_memWf _ _ _ ?_ (fun s r h => ?_))); all_goals grind [State.memWf, Tile.memWf, Slab.memWf, State.destroyFn_memWf, State.reply_memWf]
theorem execFnStart_memWf : ∀ a0, State.memWf a0 → NextMemWf (execFnStart a0) := by
  intro a0 h; refine ⟨_, rfl,
      ?_⟩; (repeat' (first | with_reducible refine State.judge_memWf _ _ _ _ ?_ (fun s h => ?_) | with_reducible refine State.command_memWf _ _ _ ?_ (fun s r h => ?_))); all_goals grind [State.memWf, Tile.memWf, Slab.memWf, State.startFn_memWf, State.reply_memWf, State.memWf.tile]
theorem execFnStop_memWf : ∀ a0, State.memWf a0 → NextMemWf (execFnStop a0) := by
  intro a0 h; refine ⟨_, rfl,
      ?_⟩; (repeat' (first | with_reducible refine State.judge_memWf _ _ _ _ ?_ (fun s h => ?_) | with_reducible refine State.command_memWf _ _ _ ?_ (fun s r h => ?_))); all_goals grind [State.memWf, Tile.memWf, Slab.memWf, State.onFn_memWf, State.charge_memWf, State.cutAll_memWf, State.beginStop_memWf, State.reply_memWf, State.recordFault_memWf]
theorem execFnFaultStop_memWf : ∀ a0 a1, State.memWf a1 → NextMemWf (execFnFaultStop a0 a1) := by
  intro a0 a1 h; unfold execFnFaultStop; refine ⟨_, rfl, ?_⟩; grind only [State.memWf, Tile.memWf, Slab.memWf,
      State.charge_memWf, State.beginStop_memWf, State.recordFault_memWf]
theorem execDrainLimitExpire_memWf : ∀ a0 a1, State.memWf a1 → NextMemWf (execDrainLimitExpire a0 a1) := by
  intro a0 a1 h; unfold execDrainLimitExpire; refine ⟨_, rfl, ?_⟩
  grind only [State.memWf, Tile.memWf, Slab.memWf, State.cutAll_memWf]
theorem execStopComplete_memWf : ∀ a0 a1, State.memWf a1 → NextMemWf (execStopComplete a0 a1) := by
  intro a0 a1 h; unfold execStopComplete; refine ⟨_, rfl, ?_⟩
  grind only [State.memWf, Tile.memWf, Slab.memWf, State.cutAll_memWf, State.endStop_memWf, State.finishLong_memWf,
      State.serviceStopped_memWf]
theorem execFnAssignTiles_memWf : ∀ a0, State.memWf a0 → NextMemWf (execFnAssignTiles a0) := by
  intro a0 h; refine ⟨_, rfl,
      ?_⟩; (repeat' (first | with_reducible refine State.assign_memWf _ _ _ _ _ _ _ _ ?_ (fun s r n h => ?_)))
  all_goals grind [State.memWf, Tile.memWf, Slab.memWf, foldl_memWf, foldl_fst_memWf, foldl_tile_memWf,
      State.reply_memWf, State.giveTile_memWf, State.memWf.tile]
theorem execFnAssignSpread_memWf : ∀ a0, State.memWf a0 → NextMemWf (execFnAssignSpread a0) := by
  intro a0 h; refine ⟨_, rfl,
      ?_⟩; (repeat' (first | with_reducible refine State.assign_memWf _ _ _ _ _ _ _ _ ?_ (fun s r n h => ?_)))
  all_goals grind [State.memWf, Tile.memWf, Slab.memWf, State.reply_memWf, State.setSpread_memWf, State.memWf.tile]
theorem execFnAssignRings_memWf : ∀ a0, State.memWf a0 → NextMemWf (execFnAssignRings a0) := by
  intro a0 h; refine ⟨_, rfl,
      ?_⟩; (repeat' (first | with_reducible refine State.assign_memWf _ _ _ _ _ _ _ _ ?_ (fun s r n h => ?_)))
  all_goals grind [State.memWf, Tile.memWf, Slab.memWf, foldl_memWf, foldl_fst_memWf, foldl_tile_memWf,
      State.setRing_memWf, State.onFn_memWf, State.reply_memWf]
theorem execFnAssignFences_memWf : ∀ a0, State.memWf a0 → NextMemWf (execFnAssignFences a0) := by
  intro a0 h; refine ⟨_, rfl,
      ?_⟩; (repeat' (first | with_reducible refine State.assign_memWf _ _ _ _ _ _ _ _ ?_ (fun s r n h => ?_)))
  all_goals grind [State.memWf, Tile.memWf, Slab.memWf, State.onFn_memWf, State.reply_memWf]
theorem execFnAssignCores_memWf : ∀ a0, State.memWf a0 → NextMemWf (execFnAssignCores a0) := by
  intro a0 h; refine ⟨_, rfl,
      ?_⟩; (repeat' (first | with_reducible refine State.assign_memWf _ _ _ _ _ _ _ _ ?_ (fun s r n h => ?_)))
  all_goals grind [State.memWf, Tile.memWf, Slab.memWf, foldl_memWf, foldl_fst_memWf, foldl_tile_memWf,
      State.resetCore_memWf, State.reply_memWf, State.memWf.tile]
theorem execFnAssignWindow_memWf : ∀ a0, State.memWf a0 → NextMemWf (execFnAssignWindow a0) := by
  intro a0 h; refine ⟨_, rfl,
      ?_⟩; (repeat' (first | with_reducible refine State.assign_memWf _ _ _ _ _ _ _ _ ?_ (fun s r n h => ?_)))
  all_goals grind [State.memWf, Tile.memWf, Slab.memWf, State.reply_memWf, State.setWindow_memWf]
theorem execFnAssignVtileMap_memWf : ∀ a0, State.memWf a0 → NextMemWf (execFnAssignVtileMap a0) := by
  intro a0 h; refine ⟨_, rfl,
      ?_⟩; (repeat' (first | with_reducible refine State.judge_memWf _ _ _ _ ?_ (fun s h => ?_) | with_reducible refine State.commandIf_memWf _ _ _ _ ?_ (fun s r h => ?_))); all_goals grind [State.memWf, Tile.memWf, Slab.memWf, State.onFn_memWf, State.reply_memWf, State.memWf.tile]
theorem execFnAssignSettings_memWf : ∀ a0, State.memWf a0 → NextMemWf (execFnAssignSettings a0) := by
  intro a0 h; refine ⟨_, rfl,
      ?_⟩; (repeat' (first | with_reducible refine State.assign_memWf _ _ _ _ _ _ _ _ ?_ (fun s r n h => ?_)))
  all_goals grind [State.memWf, Tile.memWf, Slab.memWf, State.onFn_memWf, State.reply_memWf]
theorem execDomainUngateDone_memWf : ∀ a0 a1, State.memWf a1 → NextMemWf (execDomainUngateDone a0 a1) := by
  intro a0 a1 h; refine ⟨_, rfl,
      ?_⟩; dsimp only; (repeat' (first | with_reducible refine State.pwrStep_memWf _ _ ?_ (fun s h => ?_) | split))
  all_goals (first | (with_reducible assumption) | grind [State.memWf, Tile.memWf, Slab.memWf, foldl_memWf,
      foldl_fst_memWf, foldl_tile_memWf, State.onTile, State.reply_memWf, State.setDom_memWf, State.setTile_memWf,
      State.memWf.tile])
theorem execFnWithdraw_memWf : ∀ a0, State.memWf a0 → NextMemWf (execFnWithdraw a0) := by
  intro a0 h; refine ⟨_, rfl,
      ?_⟩; (repeat' (first | with_reducible refine State.judge_memWf _ _ _ _ ?_ (fun s h => ?_) | with_reducible refine State.command_memWf _ _ _ ?_ (fun s r h => ?_))); all_goals grind [State.memWf, Tile.memWf, Slab.memWf, foldl_memWf, foldl_fst_memWf, foldl_tile_memWf, State.onSlab, State.setRing_memWf, State.onFn_memWf, State.resetCore_memWf, Slab.leaveFn_memWf, State.withdrawTile_memWf, State.reply_memWf, State.setWindow_memWf, State.setSpread_memWf, State.setSlab_memWf, State.memWf.slab, State.memWf.tile]
theorem execFnQuery_memWf : ∀ a0, State.memWf a0 → NextMemWf (execFnQuery a0) := by
  intro a0 h; refine ⟨_, rfl,
      ?_⟩; (repeat' (first | with_reducible refine State.judge_memWf _ _ _ _ ?_ (fun s h => ?_) | with_reducible refine State.command_memWf _ _ _ ?_ (fun s r h => ?_))); all_goals grind [State.memWf, Tile.memWf, Slab.memWf, State.reply_memWf, State.memWf.tile]
theorem execPageRelease_memWf : ∀ a0, State.memWf a0 → NextMemWf (execPageRelease a0) := by
  intro a0 h; refine ⟨_, rfl,
      ?_⟩; (repeat' (first | with_reducible refine State.judge_memWf _ _ _ _ ?_ (fun s h => ?_) | with_reducible refine State.command_memWf _ _ _ ?_ (fun s r h => ?_))); all_goals grind [State.memWf, Tile.memWf, Slab.memWf, foldl_memWf, foldl_fst_memWf, foldl_tile_memWf, State.onSlab, State.retire_memWf, VeAcc.read_memWf, State.reply_memWf, State.setSlab_memWf, State.memWf.slab, State.memWf.tile]
theorem execSlabTag_memWf : ∀ a0, State.memWf a0 → NextMemWf (execSlabTag a0) := by
  intro a0 h; refine ⟨_, rfl,
      ?_⟩; (repeat' (first | with_reducible refine State.judge_memWf _ _ _ _ ?_ (fun s h => ?_) | with_reducible refine State.command_memWf _ _ _ ?_ (fun s r h => ?_))); all_goals grind [State.memWf, Tile.memWf, Slab.memWf, foldl_memWf, foldl_fst_memWf, foldl_tile_memWf, State.reply_memWf, State.tagCw_memWf, State.memWf.tile]
theorem execRingConfig_memWf : ∀ a0, State.memWf a0 → NextMemWf (execRingConfig a0) := by
  intro a0 h; refine ⟨_, rfl,
      ?_⟩; (repeat' (first | with_reducible refine State.judge_memWf _ _ _ _ ?_ (fun s h => ?_) | with_reducible refine State.command_memWf _ _ _ ?_ (fun s r h => ?_))); all_goals grind [State.memWf, Tile.memWf, Slab.memWf, State.onRing_memWf, State.reply_memWf]
theorem execRingRead_memWf : ∀ a0, State.memWf a0 → NextMemWf (execRingRead a0) := by
  intro a0 h; refine ⟨_, rfl,
      ?_⟩; (repeat' (first | with_reducible refine State.judge_memWf _ _ _ _ ?_ (fun s h => ?_) | with_reducible refine State.command_memWf _ _ _ ?_ (fun s r h => ?_))); all_goals grind [State.memWf, Tile.memWf, Slab.memWf, State.reply_memWf]
theorem execFenceRead_memWf : ∀ a0, State.memWf a0 → NextMemWf (execFenceRead a0) := by
  intro a0 h; refine ⟨_, rfl,
      ?_⟩; (repeat' (first | with_reducible refine State.judge_memWf _ _ _ _ ?_ (fun s h => ?_) | with_reducible refine State.command_memWf _ _ _ ?_ (fun s r h => ?_))); all_goals grind [State.memWf, Tile.memWf, Slab.memWf, State.reply_memWf]
theorem execFenceWrite_memWf : ∀ a0, State.memWf a0 → NextMemWf (execFenceWrite a0) := by
  intro a0 h; refine ⟨_, rfl,
      ?_⟩; (repeat' (first | with_reducible refine State.judge_memWf _ _ _ _ ?_ (fun s h => ?_) | with_reducible refine State.command_memWf _ _ _ ?_ (fun s r h => ?_))); all_goals grind [State.memWf, Tile.memWf, Slab.memWf, State.reply_memWf, State.signalFence_memWf]
theorem execStopRecord_memWf : ∀ a0, State.memWf a0 → NextMemWf (execStopRecord a0) := by
  intro a0 h; refine ⟨_, rfl,
      ?_⟩; (repeat' (first | with_reducible refine State.judge_memWf _ _ _ _ ?_ (fun s h => ?_) | with_reducible refine State.command_memWf _ _ _ ?_ (fun s r h => ?_))); all_goals grind [State.memWf, Tile.memWf, Slab.memWf, State.reply_memWf, State.memWf.tile]
theorem execClaim_memWf : ∀ a0, State.memWf a0 → NextMemWf (execClaim a0) := by
  intro a0 h; refine ⟨_, rfl,
      ?_⟩; (repeat' (first | with_reducible refine State.judge_memWf _ _ _ _ ?_ (fun s h => ?_) | with_reducible refine State.command_memWf _ _ _ ?_ (fun s r h => ?_))); all_goals grind [State.memWf, Tile.memWf, Slab.memWf, State.onFn_memWf, State.reply_memWf, State.startServices_memWf]
theorem execRekey_memWf : ∀ a0, State.memWf a0 → NextMemWf (execRekey a0) := by
  intro a0 h; refine ⟨_, rfl,
      ?_⟩; (repeat' (first | with_reducible refine State.judge_memWf _ _ _ _ ?_ (fun s h => ?_) | with_reducible refine State.command_memWf _ _ _ ?_ (fun s r h => ?_))); all_goals grind [State.memWf, Tile.memWf, Slab.memWf, State.onFn_memWf, State.closeConns_memWf, State.reply_memWf]
theorem execServiceCfg_memWf : ∀ a0, State.memWf a0 → NextMemWf (execServiceCfg a0) := by
  intro a0 h; refine ⟨_, rfl,
      ?_⟩; (repeat' (first | with_reducible refine State.judge_memWf _ _ _ _ ?_ (fun s h => ?_) | with_reducible refine State.command_memWf _ _ _ ?_ (fun s r h => ?_))); all_goals grind [State.memWf, Tile.memWf, Slab.memWf, foldl_memWf, foldl_fst_memWf, foldl_tile_memWf, State.beginStop_memWf, State.destroyFn_memWf, State.reply_memWf]
theorem execGovCapIteration_memWf (e : Nat) (s : State) (hs : s.memWf) : NextMemWf (execGovCapIteration e s) := by
  refine ⟨_, rfl, ?_⟩
  split
  · exact hs
  · refine State.pwrStep_memWf _ _ hs (fun s h => State.commandOps_memWf _ ?_)
    dsimp only
    generalize hu : List.foldl _ _ _ = u
    have h1 : u.memWf := by
      rw [← hu]
      refine foldl_memWf _ (fun s d h => ?_) _ _ h
      (repeat' split) <;> first | exact h | exact State.setDom_memWf _ _ _ h
    (repeat' split) <;> first
      | exact h1
      | exact State.lowerGrants_memWf _ _ _ _ h1
      | exact State.onDom_memWf _ _ _ h1
theorem execRateLoopTick_memWf : ∀ a0 a1 a2, State.memWf a2 → NextMemWf (execRateLoopTick a0 a1 a2) := by
  intro a0 a1 a2 h; unfold execRateLoopTick; refine ⟨_, rfl, ?_⟩
  grind only [State.memWf, Tile.memWf, Slab.memWf, State.setDom_memWf]
theorem execGovMeasureWindow_memWf : ∀ a0 a1 a2, State.memWf a2 → NextMemWf (execGovMeasureWindow a0 a1 a2) := by
  intro a0 a1 a2 h; refine ⟨_, rfl,
      ?_⟩; dsimp only; (repeat' (first | with_reducible refine State.pwrStep_memWf _ _ ?_ (fun s h => ?_) | split))
  all_goals (first | (with_reducible assumption) | grind [State.memWf, Tile.memWf, Slab.memWf, foldl_memWf,
      foldl_fst_memWf, foldl_tile_memWf, State.raise_memWf, State.govMode_memWf])
theorem execPaceWindow_memWf : ∀ a0 a1 a2, State.memWf a2 → NextMemWf (execPaceWindow a0 a1 a2) := by
  intro a0 a1 a2 h; refine ⟨_, rfl,
      ?_⟩; dsimp only; (repeat' (first | with_reducible refine State.pwrStep_memWf _ _ ?_ (fun s h => ?_) | split))
  all_goals (first | (with_reducible assumption) | grind [State.memWf, Tile.memWf, Slab.memWf, foldl_memWf,
      foldl_fst_memWf, foldl_tile_memWf, State.onDom_memWf, State.paceRule_memWf, State.memWf.tile])
theorem execRegSetpointAck_memWf : ∀ a0 a1, State.memWf a1 → NextMemWf (execRegSetpointAck a0 a1) := by
  intro a0 a1 h; unfold execRegSetpointAck; refine ⟨_, rfl, ?_⟩
  grind only [State.memWf, Tile.memWf, Slab.memWf, State.onDom_memWf]
theorem execRegSlewEnd_memWf : ∀ a0 a1, State.memWf a1 → NextMemWf (execRegSlewEnd a0 a1) := by
  intro a0 a1 h; unfold execRegSlewEnd; refine ⟨_, rfl, ?_⟩; grind only [State.memWf, Tile.memWf, Slab.memWf,
      State.setDom_memWf]
theorem execDroopEngage_memWf (d : DomId) (s : State) (hs : s.memWf) : NextMemWf (execDroopEngage d s) := by
  refine ⟨_, rfl, ?_⟩
  split
  · exact State.pwrStep_memWf _ _ hs (fun s h => State.onDom_memWf _ _ _ h)
  · exact hs
theorem execDroopRelease_memWf (d : DomId) (s : State) (hs : s.memWf) : NextMemWf (execDroopRelease d s) := by
  refine ⟨_, rfl, ?_⟩
  split
  · exact State.pwrStep_memWf _ _ hs (fun s h => State.onDom_memWf _ _ _ h)
  · exact hs
theorem execShortfallEnter_memWf : ∀ a0 a1 a2, State.memWf a2 → NextMemWf (execShortfallEnter a0 a1 a2) := by
  intro a0 a1 a2 h; unfold execShortfallEnter; refine ⟨_, rfl, ?_⟩
  grind only [State.memWf, Tile.memWf, Slab.memWf, State.setDom_memWf, State.shortfallReport_memWf]
theorem execShortfallClear_memWf : ∀ a0 a1 a2, State.memWf a2 → NextMemWf (execShortfallClear a0 a1 a2) := by
  intro a0 a1 a2 h; unfold execShortfallClear; refine ⟨_, rfl, ?_⟩
  grind only [State.memWf, Tile.memWf, Slab.memWf, State.setDom_memWf, State.shortfallReport_memWf]
theorem execAgeingRecord_memWf : ∀ a0 a1, State.memWf a1 → NextMemWf (execAgeingRecord a0 a1) := by
  intro a0 a1 h; unfold execAgeingRecord; refine ⟨_, rfl, ?_⟩; grind only [State.memWf, Tile.memWf, Slab.memWf]
theorem execBrownout_memWf : ∀ a0 a1, State.memWf a1 → NextMemWf (execBrownout a0 a1) := by
  intro a0 a1 h; unfold execBrownout; refine ⟨_, rfl, ?_⟩; grind only [State.memWf, Tile.memWf, Slab.memWf,
      State.latchFatal_memWf, State.raise_memWf]
theorem execRegControlLoss_memWf : ∀ a0 a1, State.memWf a1 → NextMemWf (execRegControlLoss a0 a1) := by
  intro a0 a1 h; unfold execRegControlLoss; refine ⟨_, rfl, ?_⟩
  grind only [State.memWf, Tile.memWf, Slab.memWf, State.latchFatal_memWf, State.raise_memWf]
theorem execThermalThreshold_memWf : ∀ a0 a1 a2, State.memWf a2 → NextMemWf (execThermalThreshold a0 a1 a2) := by
  intro a0 a1 a2 h; refine ⟨_, rfl,
      ?_⟩; dsimp only; (repeat' (first | with_reducible refine State.pwrStep_memWf _ _ ?_ (fun s h => ?_) | split))
  all_goals (first | (with_reducible assumption) | grind [State.memWf, Tile.memWf, Slab.memWf, State.onDom_memWf,
      State.memWf.tile])
theorem execThermCeilingStep_memWf : ∀ a0 a1, State.memWf a1 → NextMemWf (execThermCeilingStep a0 a1) := by
  intro a0 a1 h; refine ⟨_, rfl,
      ?_⟩; dsimp only; (repeat' (first | with_reducible refine State.pwrStep_memWf _ _ ?_ (fun s h => ?_) | split))
  all_goals (first | (with_reducible assumption) | grind [State.memWf, Tile.memWf, Slab.memWf, State.onDom_memWf])
theorem execThermtrip_memWf : ∀ a0 a1, State.memWf a1 → NextMemWf (execThermtrip a0 a1) := by
  intro a0 a1 h; unfold execThermtrip; refine ⟨_, rfl, ?_⟩; grind only [State.memWf, Tile.memWf, Slab.memWf,
      State.latchFatal_memWf, State.raise_memWf, State.memWf.tile]
theorem execCurrentLimit_memWf : ∀ a0 a1 a2, State.memWf a2 → NextMemWf (execCurrentLimit a0 a1 a2) := by
  intro a0 a1 a2 h; refine ⟨_, rfl,
      ?_⟩; dsimp only; (repeat' (first | with_reducible refine State.pwrStep_memWf _ _ ?_ (fun s h => ?_) | split))
  all_goals (first | (with_reducible assumption) | grind [State.memWf, Tile.memWf, Slab.memWf, foldl_memWf,
      foldl_fst_memWf, foldl_tile_memWf, State.onDom_memWf])
theorem execGrantLeaseExpire_memWf : ∀ a0, State.memWf a0 → NextMemWf (execGrantLeaseExpire a0) := by
  intro a0 h; unfold execGrantLeaseExpire; refine ⟨_, rfl, ?_⟩
  grind only [State.memWf, Tile.memWf, Slab.memWf, State.notify_memWf]
theorem execDomainGate_memWf : ∀ a0 a1, State.memWf a1 → NextMemWf (execDomainGate a0 a1) := by
  intro a0 a1 h; refine ⟨_, rfl,
      ?_⟩; dsimp only; (repeat' (first | with_reducible refine State.pwrStep_memWf _ _ ?_ (fun s h => ?_) | split))
  all_goals (first | (with_reducible assumption) | grind [State.memWf, Tile.memWf, Slab.memWf, foldl_memWf,
      foldl_fst_memWf, foldl_tile_memWf, State.onTile, State.onDom_memWf, State.setTile_memWf, State.memWf.tile])
theorem execPowerGrant_memWf : ∀ a0, State.memWf a0 → NextMemWf (execPowerGrant a0) := by
  intro a0 h; refine ⟨_, rfl,
      ?_⟩; (repeat' (first | with_reducible refine State.judge_memWf _ _ _ _ ?_ (fun s h => ?_) | with_reducible refine State.command_memWf _ _ _ ?_ (fun s r h => ?_))); all_goals grind [State.memWf, Tile.memWf, Slab.memWf, State.reply_memWf]
theorem execPowerQuery_memWf : ∀ a0, State.memWf a0 → NextMemWf (execPowerQuery a0) := by
  intro a0 h; refine ⟨_, rfl,
      ?_⟩; (repeat' (first | with_reducible refine State.judge_memWf _ _ _ _ ?_ (fun s h => ?_) | with_reducible refine State.command_memWf _ _ _ ?_ (fun s r h => ?_))); all_goals grind [State.memWf, Tile.memWf, Slab.memWf, State.reply_memWf]
theorem execTimerefLoss_memWf : ∀ a0, State.memWf a0 → NextMemWf (execTimerefLoss a0) := by
  intro a0 h; unfold execTimerefLoss; refine ⟨_, rfl, ?_⟩; grind only [State.memWf, Tile.memWf, Slab.memWf,
      State.raise_memWf, State.timeGo_memWf]
theorem execTimerefRestore_memWf : ∀ a0, State.memWf a0 → NextMemWf (execTimerefRestore a0) := by
  intro a0 h; unfold execTimerefRestore; refine ⟨_, rfl, ?_⟩; grind only [State.memWf, Tile.memWf, Slab.memWf,
      State.timeGo_memWf]
theorem execPpsEdge_memWf : ∀ a0, State.memWf a0 → NextMemWf (execPpsEdge a0) := by
  intro a0 h; unfold execPpsEdge; refine ⟨_, rfl, ?_⟩; grind only [State.memWf, Tile.memWf, Slab.memWf, State.timeGo_memWf]
theorem execPpsLoss_memWf : ∀ a0, State.memWf a0 → NextMemWf (execPpsLoss a0) := by
  intro a0 h; unfold execPpsLoss; refine ⟨_, rfl, ?_⟩; grind only [State.memWf, Tile.memWf, Slab.memWf,
      State.raise_memWf, State.timeGo_memWf]
theorem execPtpLoss_memWf : ∀ a0, State.memWf a0 → NextMemWf (execPtpLoss a0) := by
  intro a0 h; unfold execPtpLoss; refine ⟨_, rfl, ?_⟩; grind only [State.memWf, Tile.memWf, Slab.memWf,
      State.raise_memWf, State.timeGo_memWf]
theorem execPtpMessageReceive_memWf : ∀ a0 a1 a2 a3, State.memWf a3 → NextMemWf (execPtpMessageReceive a0 a1 a2 a3) := by
  intro a0 a1 a2 a3 h; unfold execPtpMessageReceive; refine ⟨_, rfl, ?_⟩
  grind only [State.memWf, Tile.memWf, Slab.memWf, State.timeGo_memWf]
theorem execLinkTimeOffset_memWf : ∀ a0 a1 a2 a3, State.memWf a3 → NextMemWf (execLinkTimeOffset a0 a1 a2 a3) := by
  intro a0 a1 a2 a3 h; unfold execLinkTimeOffset; refine ⟨_, rfl, ?_⟩
  grind only [State.memWf, Tile.memWf, Slab.memWf, foldl_memWf, foldl_fst_memWf, foldl_tile_memWf, State.onPort_memWf]
theorem execErrInject_memWf : ∀ a0 a1 a2 a3, State.memWf a3 → NextMemWf (execErrInject a0 a1 a2 a3) := by
  intro a0 a1 a2 a3 h; unfold execErrInject; refine ⟨_, rfl, ?_⟩
  grind only [State.memWf, Tile.memWf, Slab.memWf, State.writeErrCtl_memWf]
theorem execErrCountRead_memWf : ∀ a0 a1 a2, State.memWf a2 → NextMemWf (execErrCountRead a0 a1 a2) := by
  intro a0 a1 a2 h; unfold execErrCountRead; refine ⟨_, rfl, ?_⟩
  grind only [State.memWf, Tile.memWf, Slab.memWf, State.setErr_memWf, Tile.write_memWf]
theorem execFaultStatus_memWf : ∀ a0, State.memWf a0 → NextMemWf (execFaultStatus a0) := by
  intro a0 h; refine ⟨_, rfl,
      ?_⟩; (repeat' (first | with_reducible refine State.judge_memWf _ _ _ _ ?_ (fun s h => ?_) | with_reducible refine State.command_memWf _ _ _ ?_ (fun s r h => ?_))); all_goals grind [State.memWf, Tile.memWf, Slab.memWf, State.reply_memWf, State.memWf.tile]
theorem execErrClear_memWf : ∀ a0, State.memWf a0 → NextMemWf (execErrClear a0) := by
  intro a0 h; refine ⟨_, rfl,
      ?_⟩; (repeat' (first | with_reducible refine State.judge_memWf _ _ _ _ ?_ (fun s h => ?_) | with_reducible refine State.command_memWf _ _ _ ?_ (fun s r h => ?_))); all_goals grind [State.memWf, Tile.memWf, Slab.memWf, State.reply_memWf, State.clearErr_memWf, State.memWf.tile]
theorem execFatalEntry_memWf : ∀ a0, State.memWf a0 → NextMemWf (execFatalEntry a0) := by
  intro a0 h; unfold execFatalEntry; refine ⟨_, rfl, ?_⟩; grind only [State.memWf, Tile.memWf, Slab.memWf,
      State.boardEvent_memWf, State.latchCause_memWf, State.fenceAll_memWf, State.recordFatal_memWf]
theorem execSafeStateEthernetIdle_memWf : ∀ a0, State.memWf a0 → NextMemWf (execSafeStateEthernetIdle a0) := by
  intro a0 h; unfold execSafeStateEthernetIdle; refine ⟨_, rfl, ?_⟩; grind only [State.memWf, Tile.memWf, Slab.memWf]
theorem execMeshCrcRetry_memWf : ∀ a0 a1 a2, State.memWf a2 → NextMemWf (execMeshCrcRetry a0 a1 a2) := by
  intro a0 a1 a2 h; unfold execMeshCrcRetry; refine ⟨_, rfl, ?_⟩
  grind only [State.memWf, Tile.memWf, Slab.memWf, State.count_memWf, State.raise_memWf]
theorem execMeshHalfDown_memWf : ∀ a0 a1 a2, State.memWf a2 → NextMemWf (execMeshHalfDown a0 a1 a2) := by
  intro a0 a1 a2 h; unfold execMeshHalfDown; refine ⟨_, rfl, ?_⟩
  grind only [State.memWf, Tile.memWf, Slab.memWf, State.raise_memWf, State.setHalves_memWf]
theorem execMeshLinkDown_memWf : ∀ a0 a1 a2, State.memWf a2 → NextMemWf (execMeshLinkDown a0 a1 a2) := by
  intro a0 a1 a2 h; unfold execMeshLinkDown; refine ⟨_, rfl, ?_⟩
  grind only [State.memWf, Tile.memWf, Slab.memWf, foldl_memWf, foldl_fst_memWf, foldl_tile_memWf, State.charge_memWf,
      State.raise_memWf, State.chanErr_memWf, State.setHalves_memWf]
theorem execPatrolScrubRead_memWf : ∀ a0 a1, State.memWf a1 → NextMemWf (execPatrolScrubRead a0 a1) := by
  intro a0 a1 h; unfold execPatrolScrubRead; refine ⟨_, rfl, ?_⟩
  grind only [State.memWf, Tile.memWf, Slab.memWf, State.onSlab, State.orStat_memWf, State.count_memWf,
      State.readCw_memWf, State.setSlab_memWf, State.memWf.slab, State.memWf.tile]
theorem execTileRetire_memWf : ∀ a0 a1, State.memWf a1 → NextMemWf (execTileRetire a0 a1) := by
  intro a0 a1 h; unfold execTileRetire; refine ⟨_, rfl, ?_⟩; grind only [State.memWf, Tile.memWf, Slab.memWf,
      State.charge_memWf, State.beginStop_memWf, State.retireTile_memWf, State.memWf.tile]
theorem execV3p3Rise_memWf : ∀ a0, State.memWf a0 → NextMemWf (execV3p3Rise a0) := by
  intro a0 h; unfold execV3p3Rise; refine ⟨_, rfl, ?_⟩; grind only [State.memWf, Tile.memWf, Slab.memWf]
theorem execSuppliesInRange_memWf : ∀ a0, State.memWf a0 → NextMemWf (execSuppliesInRange a0) := by
  intro a0 h; unfold execSuppliesInRange; refine ⟨_, rfl, ?_⟩
  grind only [State.memWf, Tile.memWf, Slab.memWf, State.resetPackage_memWf]
theorem execBootSequence_memWf : ∀ a0 a1 a2, State.memWf a2 → NextMemWf (execBootSequence a0 a1 a2) := by
  intro a0 a1 a2 h; unfold execBootSequence; refine ⟨_, rfl, ?_⟩
  grind only [State.memWf, Tile.memWf, Slab.memWf, State.bootRun_memWf]
theorem execTrialWatchdog_memWf : ∀ a0, State.memWf a0 → NextMemWf (execTrialWatchdog a0) := by
  intro a0 h; unfold execTrialWatchdog; refine ⟨_, rfl, ?_⟩; grind only [State.memWf, Tile.memWf, Slab.memWf,
      State.doReset_memWf]
theorem execResetNAssert_memWf : ∀ a0 a1, State.memWf a1 → NextMemWf (execResetNAssert a0 a1) := by
  intro a0 a1 h; unfold execResetNAssert; refine ⟨_, rfl, ?_⟩
  grind only [State.memWf, Tile.memWf, Slab.memWf, State.doReset_memWf]
theorem execPowerDown_memWf : ∀ a0 a1 a2, State.memWf a2 → NextMemWf (execPowerDown a0 a1 a2) := by
  intro a0 a1 a2 h; unfold execPowerDown; refine ⟨_, rfl, ?_⟩
  grind only [State.memWf, Tile.memWf, Slab.memWf, State.powerOff_memWf]
theorem execFatalLatchClear_memWf : ∀ a0 a1 a2, State.memWf a2 → NextMemWf (execFatalLatchClear a0 a1 a2) := by
  intro a0 a1 a2 h; unfold execFatalLatchClear; refine ⟨_, rfl, ?_⟩
  grind only [State.memWf, Tile.memWf, Slab.memWf, State.powerOff_memWf]
theorem execJtagImageWrite_memWf : ∀ a0 a1 a2 a3, State.memWf a3 → NextMemWf (execJtagImageWrite a0 a1 a2 a3) := by
  intro a0 a1 a2 a3 h; unfold execJtagImageWrite; refine ⟨_, rfl, ?_⟩
  grind only [State.memWf, Tile.memWf, Slab.memWf, State.onSlot_memWf]
theorem execRingDoorbell_memWf : ∀ a0 a1 a2 a3, State.memWf a3 → NextMemWf (execRingDoorbell a0 a1 a2 a3) := by
  intro a0 a1 a2 a3 h; refine ⟨_, rfl,
      ?_⟩; (repeat' (first | with_reducible refine State.command_memWf _ _ _ ?_ (fun s r h => ?_)))
  all_goals grind [State.memWf, Tile.memWf, Slab.memWf, State.doorbell_memWf, State.coreAns_memWf, State.rdmaDoorbell_memWf]
theorem execRingFetch_memWf : ∀ a0 a1, State.memWf a1 → NextMemWf (execRingFetch a0 a1) := by
  intro a0 a1 h; unfold execRingFetch; refine ⟨_, rfl, ?_⟩; grind only [State.memWf, Tile.memWf, Slab.memWf,
      State.fetchRing_memWf]
theorem execRingNop_memWf : ∀ a0 a1, State.memWf a1 → NextMemWf (execRingNop a0 a1) := by
  intro a0 a1 h; refine ⟨_, rfl,
      ?_⟩; (repeat' (first | with_reducible refine State.runCmd_memWf _ _ _ _ ?_ (fun s c h => ?_)))
  all_goals grind [State.memWf, Tile.memWf, Slab.memWf, State.completeCmd_memWf]
theorem execRingLaunch_memWf : ∀ a0 a1, State.memWf a1 → NextMemWf (execRingLaunch a0 a1) := by
  intro a0 a1 h; refine ⟨_, rfl,
      ?_⟩; (repeat' (first | with_reducible refine State.runCmd_memWf _ _ _ _ ?_ (fun s c h => ?_)))
  all_goals grind [State.memWf, Tile.memWf, Slab.memWf, foldl_memWf, foldl_fst_memWf, foldl_tile_memWf,
      State.deliver_memWf, State.deliverOne_memWf, State.onCmd_memWf, State.completeCmd_memWf]
theorem execRingLaunchComplete_memWf : ∀ a0 a1, State.memWf a1 → NextMemWf (execRingLaunchComplete a0 a1) := by
  intro a0 a1 h; unfold execRingLaunchComplete; refine ⟨_, rfl, ?_⟩
  grind only [State.memWf, Tile.memWf, Slab.memWf, State.completeCmd_memWf]
theorem execRingCopy_memWf : ∀ a0 a1, State.memWf a1 → NextMemWf (execRingCopy a0 a1) := by
  intro a0 a1 h; refine ⟨_, rfl,
      ?_⟩; (repeat' (first | with_reducible refine State.runCmd_memWf _ _ _ _ ?_ (fun s c h => ?_)))
  all_goals grind [State.memWf, Tile.memWf, Slab.memWf, foldl_memWf, foldl_fst_memWf, foldl_tile_memWf,
      State.reportRefused_memWf, State.copyRows_memWf, State.raiseDsp_memWf, State.completeCmd_memWf]
theorem execRingWait_memWf : ∀ a0 a1, State.memWf a1 → NextMemWf (execRingWait a0 a1) := by
  intro a0 a1 h; refine ⟨_, rfl,
      ?_⟩; (repeat' (first | with_reducible refine State.runCmd_memWf _ _ _ _ ?_ (fun s c h => ?_)))
  all_goals grind [State.memWf, Tile.memWf, Slab.memWf, State.completeCmd_memWf]
theorem execRingWaitRelease_memWf : ∀ a0 a1, State.memWf a1 → NextMemWf (execRingWaitRelease a0 a1) := by
  intro a0 a1 h; unfold execRingWaitRelease; refine ⟨_, rfl, ?_⟩
  grind only [State.memWf, Tile.memWf, Slab.memWf, State.completeCmd_memWf]
theorem execRingSignal_memWf : ∀ a0 a1, State.memWf a1 → NextMemWf (execRingSignal a0 a1) := by
  intro a0 a1 h; refine ⟨_, rfl,
      ?_⟩; (repeat' (first | with_reducible refine State.command_memWf _ _ _ ?_ (fun s r h => ?_) | with_reducible refine State.runCmd_memWf _ _ _ _ ?_ (fun s c h => ?_))); all_goals grind [State.memWf, Tile.memWf, Slab.memWf, State.count_memWf, State.signalFence_memWf, State.completeCmd_memWf]
theorem execRingCommandComplete_memWf : ∀ a0 a1, State.memWf a1 → NextMemWf (execRingCommandComplete a0 a1) := by
  intro a0 a1 h; unfold execRingCommandComplete; refine ⟨_, rfl, ?_⟩
  grind only [State.memWf, Tile.memWf, Slab.memWf, Tile.write_memWf, State.finishCmd_memWf]
theorem execCoreFenceAdd_memWf : ∀ a0 a1 a2 a3, State.memWf a3 → NextMemWf (execCoreFenceAdd a0 a1 a2 a3) := by
  intro a0 a1 a2 a3 h; unfold execCoreFenceAdd; refine ⟨_, rfl, ?_⟩
  grind only [State.memWf, Tile.memWf, Slab.memWf, State.coreFence_memWf]
theorem execCoreFenceSet_memWf : ∀ a0 a1 a2 a3, State.memWf a3 → NextMemWf (execCoreFenceSet a0 a1 a2 a3) := by
  intro a0 a1 a2 a3 h; unfold execCoreFenceSet; refine ⟨_, rfl, ?_⟩
  grind only [State.memWf, Tile.memWf, Slab.memWf, State.coreFence_memWf]
theorem execRingCollective_memWf : ∀ a0 a1, State.memWf a1 → NextMemWf (execRingCollective a0 a1) := by
  intro a0 a1 h; refine ⟨_, rfl,
      ?_⟩; (repeat' (first | with_reducible refine State.runCmd_memWf _ _ _ _ ?_ (fun s c h => ?_)))
  all_goals grind [State.memWf, Tile.memWf, Slab.memWf, State.collStart_memWf]
theorem execRingBarrier_memWf : ∀ a0 a1, State.memWf a1 → NextMemWf (execRingBarrier a0 a1) := by
  intro a0 a1 h; refine ⟨_, rfl,
      ?_⟩; (repeat' (first | with_reducible refine State.runCmd_memWf _ _ _ _ ?_ (fun s c h => ?_)))
  all_goals grind [State.memWf, Tile.memWf, Slab.memWf, State.collStart_memWf]
theorem execCollAdmit_memWf : ∀ a0, State.memWf a0 → NextMemWf (execCollAdmit a0) := by
  intro a0 h; unfold execCollAdmit; refine ⟨_, rfl, ?_⟩; grind only [State.memWf, Tile.memWf, Slab.memWf,
      State.collRun_memWf, State.collBegin_memWf]
theorem execCollPartReceive_memWf : ∀ a0 a1, State.memWf a1 → NextMemWf (execCollPartReceive a0 a1) := by
  intro a0 a1 h; refine ⟨_, rfl,
      ?_⟩; (repeat' (first | with_reducible refine State.takeColl_memWf _ _ _ ?_ (fun s p h => ?_)))
  all_goals grind [State.memWf, Tile.memWf, Slab.memWf, State.collAdvance_memWf, State.collValue_memWf, State.collData_memWf]
theorem execCollResultReceive_memWf : ∀ a0 a1, State.memWf a1 → NextMemWf (execCollResultReceive a0 a1) := by
  intro a0 a1 h; refine ⟨_, rfl,
      ?_⟩; (repeat' (first | with_reducible refine State.takeColl_memWf _ _ _ ?_ (fun s p h => ?_)))
  all_goals grind [State.memWf, Tile.memWf, Slab.memWf, State.putColl_memWf, State.collConsume_memWf,
      State.collAdvance_memWf, State.collValue_memWf]
theorem execCollDeclineReceive_memWf : ∀ a0 a1, State.memWf a1 → NextMemWf (execCollDeclineReceive a0 a1) := by
  intro a0 a1 h; refine ⟨_, rfl,
      ?_⟩; (repeat' (first | with_reducible refine State.takeColl_memWf _ _ _ ?_ (fun s p h => ?_)))
  all_goals grind [State.memWf, Tile.memWf, Slab.memWf, State.orStat_memWf, State.count_memWf, State.putColl_memWf,
      State.collGrant_memWf, State.collConsume_memWf, State.collAdvance_memWf]
theorem execCollGrantReceive_memWf : ∀ a0 a1, State.memWf a1 → NextMemWf (execCollGrantReceive a0 a1) := by
  intro a0 a1 h; refine ⟨_, rfl,
      ?_⟩; (repeat' (first | with_reducible refine State.takeColl_memWf _ _ _ ?_ (fun s p h => ?_)))
  all_goals grind [State.memWf, Tile.memWf, Slab.memWf, State.putColl_memWf, State.collFlush_memWf, State.noticeDrop_memWf]
theorem execCollNoticeReceive_memWf : ∀ a0 a1, State.memWf a1 → NextMemWf (execCollNoticeReceive a0 a1) := by
  intro a0 a1 h; refine ⟨_, rfl,
      ?_⟩; (repeat' (first | with_reducible refine State.takeColl_memWf _ _ _ ?_ (fun s p h => ?_)))
  all_goals grind [State.memWf, Tile.memWf, Slab.memWf, State.count_memWf, State.collAbort_memWf, State.noticeDrop_memWf]
theorem execCollTimeout_memWf : ∀ a0 a1 a2, State.memWf a2 → NextMemWf (execCollTimeout a0 a1 a2) := by
  intro a0 a1 a2 h; unfold execCollTimeout; refine ⟨_, rfl, ?_⟩
  grind only [State.memWf, Tile.memWf, Slab.memWf, Tile.write_memWf, State.collAbort_memWf]
theorem execCollComplete_memWf : ∀ a0 a1 a2, State.memWf a2 → NextMemWf (execCollComplete a0 a1 a2) := by
  intro a0 a1 a2 h; unfold execCollComplete; refine ⟨_, rfl, ?_⟩
  grind only [State.memWf, Tile.memWf, Slab.memWf, State.count_memWf, State.putColl_memWf, State.collFail_memWf,
      State.completeCmd_memWf, State.groupRecord_memWf]
theorem execUnreachableNoticeArrive_memWf : ∀ a0 a1, State.memWf a1 → NextMemWf (execUnreachableNoticeArrive a0 a1) := by
  intro a0 a1 h; unfold execUnreachableNoticeArrive; refine ⟨_, rfl, ?_⟩
  grind only [State.memWf, Tile.memWf, Slab.memWf, foldl_memWf, foldl_fst_memWf, foldl_tile_memWf,
      State.noticeAt_memWf, State.collAbort_memWf, State.memWf.tile]
theorem execSkelistMessageReceive_memWf : ∀ a0 a1 a2,
      State.memWf a2 → NextMemWf (execSkelistMessageReceive a0 a1 a2) := by
  intro a0 a1 a2 h; unfold execSkelistMessageReceive; refine ⟨_, rfl, ?_⟩
  grind only [State.memWf, Tile.memWf, Slab.memWf, Tile.write_memWf, State.skelistUdp_memWf]
theorem execMailboxGo_memWf : ∀ a0 a1, State.memWf a1 → NextMemWf (execMailboxGo a0 a1) := by
  intro a0 a1 h; unfold execMailboxGo; refine ⟨_, rfl, ?_⟩; grind only [State.memWf, Tile.memWf, Slab.memWf,
      State.submitMailbox_memWf]
theorem execIdentify_memWf : ∀ a0, State.memWf a0 → NextMemWf (execIdentify a0) := by
  intro a0 h; refine ⟨_, rfl,
      ?_⟩; (repeat' (first | with_reducible refine State.judge_memWf _ _ _ _ ?_ (fun s h => ?_) | with_reducible refine State.command_memWf _ _ _ ?_ (fun s r h => ?_))); all_goals grind [State.memWf, Tile.memWf, Slab.memWf, State.reply_memWf]
theorem execQuote_memWf : ∀ a0, State.memWf a0 → NextMemWf (execQuote a0) := by
  intro a0 h; refine ⟨_, rfl,
      ?_⟩; (repeat' (first | with_reducible refine State.judge_memWf _ _ _ _ ?_ (fun s h => ?_) | with_reducible refine State.command_memWf _ _ _ ?_ (fun s r h => ?_))); all_goals grind [State.memWf, Tile.memWf, Slab.memWf, State.winWrite_memWf, State.holdLong_memWf, State.takeSig_memWf]
theorem execTagRead_memWf : ∀ a0, State.memWf a0 → NextMemWf (execTagRead a0) := by
  intro a0 h; refine ⟨_, rfl,
      ?_⟩; (repeat' (first | with_reducible refine State.judge_memWf _ _ _ _ ?_ (fun s h => ?_) | with_reducible refine State.command_memWf _ _ _ ?_ (fun s r h => ?_))); all_goals grind [State.memWf, Tile.memWf, Slab.memWf, State.reply_memWf]
theorem execTagWrite_memWf : ∀ a0, State.memWf a0 → NextMemWf (execTagWrite a0) := by
  intro a0 h; refine ⟨_, rfl,
      ?_⟩; (repeat' (first | with_reducible refine State.judge_memWf _ _ _ _ ?_ (fun s h => ?_) | with_reducible refine State.command_memWf _ _ _ ?_ (fun s r h => ?_))); all_goals grind [State.memWf, Tile.memWf, Slab.memWf, State.count_memWf, State.reply_memWf]
theorem execTagLock_memWf : ∀ a0, State.memWf a0 → NextMemWf (execTagLock a0) := by
  intro a0 h; refine ⟨_, rfl,
      ?_⟩; (repeat' (first | with_reducible refine State.judge_memWf _ _ _ _ ?_ (fun s h => ?_) | with_reducible refine State.command_memWf _ _ _ ?_ (fun s r h => ?_))); all_goals grind [State.memWf, Tile.memWf, Slab.memWf, State.count_memWf, State.reply_memWf]
theorem execFwStage_memWf : ∀ a0, State.memWf a0 → NextMemWf (execFwStage a0) := by
  intro a0 h; refine ⟨_, rfl,
      ?_⟩; (repeat' (first | with_reducible refine State.judge_memWf _ _ _ _ ?_ (fun s h => ?_) | with_reducible refine State.command_memWf _ _ _ ?_ (fun s r h => ?_))); all_goals grind [State.memWf, Tile.memWf, Slab.memWf, State.reply_memWf, State.readImage_memWf, State.holdLong_memWf, State.setSlot_memWf, State.onSlot_memWf]
theorem execFwActivate_memWf : ∀ a0, State.memWf a0 → NextMemWf (execFwActivate a0) := by
  intro a0 h; refine ⟨_, rfl,
      ?_⟩; (repeat' (first | with_reducible refine State.judge_memWf _ _ _ _ ?_ (fun s h => ?_) | with_reducible refine State.command_memWf _ _ _ ?_ (fun s r h => ?_))); all_goals grind [State.memWf, Tile.memWf, Slab.memWf, State.reply_memWf, State.setSlot_memWf, State.commitSlot_memWf, State.doReset_memWf]
theorem execFwQuery_memWf : ∀ a0, State.memWf a0 → NextMemWf (execFwQuery a0) := by
  intro a0 h; refine ⟨_, rfl,
      ?_⟩; (repeat' (first | with_reducible refine State.judge_memWf _ _ _ _ ?_ (fun s h => ?_) | with_reducible refine State.command_memWf _ _ _ ?_ (fun s r h => ?_))); all_goals grind [State.memWf, Tile.memWf, Slab.memWf, State.reply_memWf]
theorem execEthLinkUp_memWf : ∀ a0, State.memWf a0 → NextMemWf (execEthLinkUp a0) := by
  intro a0 h; unfold execEthLinkUp; refine ⟨_, rfl, ?_⟩; grind only [State.memWf, Tile.memWf, Slab.memWf,
      State.dhcpStart_memWf, State.ethResume_memWf]
theorem execEthLinkLoss_memWf : ∀ a0, State.memWf a0 → NextMemWf (execEthLinkLoss a0) := by
  intro a0 h; unfold execEthLinkLoss; refine ⟨_, rfl, ?_⟩; grind only [State.memWf, Tile.memWf, Slab.memWf]
theorem execEthHalfWidthFallback_memWf : ∀ a0, State.memWf a0 → NextMemWf (execEthHalfWidthFallback a0) := by
  intro a0 h; unfold execEthHalfWidthFallback; refine ⟨_, rfl, ?_⟩; grind only [State.memWf, Tile.memWf, Slab.memWf]
theorem execAddrDadComplete_memWf : ∀ a0 a1 a2, State.memWf a2 → NextMemWf (execAddrDadComplete a0 a1 a2) := by
  intro a0 a1 a2 h; unfold execAddrDadComplete; refine ⟨_, rfl, ?_⟩
  grind only [State.memWf, Tile.memWf, Slab.memWf, State.orStat_memWf]
theorem execPfcFrameReceive_memWf : ∀ a0 a1 a2, State.memWf a2 → NextMemWf (execPfcFrameReceive a0 a1 a2) := by
  intro a0 a1 a2 h; unfold execPfcFrameReceive; refine ⟨_, rfl, ?_⟩
  grind only [State.memWf, Tile.memWf, Slab.memWf, State.ethResume_memWf]
theorem execCnpReceive_memWf : ∀ a0 a1, State.memWf a1 → NextMemWf (execCnpReceive a0 a1) := by
  intro a0 a1 h; refine ⟨_, rfl,
      ?_⟩; (repeat' (first | with_reducible refine State.rdmaConn_memWf _ _ _ ?_ (fun s k h => ?_)))
  all_goals grind [State.memWf, Tile.memWf, Slab.memWf, State.cnpIn_memWf]
theorem execCnpRateRaise_memWf (qpn : BitVec 24) (s : State) (hs : s.memWf) : NextMemWf (execCnpRateRaise qpn s) := by
  refine ⟨_, rfl, State.rdmaConn_memWf _ _ _ hs (fun s k hs => ?_)⟩
  cases k.cnpGot with
  | none => exact hs
  | some t => simp only; split <;> first | exact hs | exact State.setConn_memWf _ _ _ hs
theorem execEthFrameReceive_memWf : ∀ a0 a1 a2, State.memWf a2 → NextMemWf (execEthFrameReceive a0 a1 a2) := by
  intro a0 a1 a2 h; unfold execEthFrameReceive; refine ⟨_, rfl, ?_⟩
  grind only [State.memWf, Tile.memWf, Slab.memWf, State.raise_memWf, State.pfcBuffers_memWf, State.ethDrop_memWf,
      State.ethFrame_memWf]
theorem execWinConnect_memWf : ∀ a0, State.memWf a0 → NextMemWf (execWinConnect a0) := by
  intro a0 h; refine ⟨_, rfl,
      ?_⟩; (repeat' (first | with_reducible refine State.judge_memWf _ _ _ _ ?_ (fun s h => ?_) | with_reducible refine State.command_memWf _ _ _ ?_ (fun s r h => ?_))); all_goals grind [State.memWf, Tile.memWf, Slab.memWf, State.reply_memWf]
theorem execWinClose_memWf : ∀ a0, State.memWf a0 → NextMemWf (execWinClose a0) := by
  intro a0 h; refine ⟨_, rfl,
      ?_⟩; (repeat' (first | with_reducible refine State.judge_memWf _ _ _ _ ?_ (fun s h => ?_) | with_reducible refine State.command_memWf _ _ _ ?_ (fun s r h => ?_))); all_goals grind [State.memWf, Tile.memWf, Slab.memWf, State.reply_memWf]
theorem execRdmaWrite_memWf : ∀ a0 a1 a2 a3 a4, State.memWf a4 → NextMemWf (execRdmaWrite a0 a1 a2 a3 a4) := by
  intro a0 a1 a2 a3 a4 h; refine ⟨_, rfl,
      ?_⟩; (repeat' (first | with_reducible refine State.rdmaConn_memWf _ _ _ ?_ (fun s k h => ?_)))
  all_goals grind [State.memWf, Tile.memWf, Slab.memWf, State.count_memWf, State.writePieces_memWf, State.answer_memWf,
      State.rdmaDoorbell_memWf, State.rdmaNak_memWf]
theorem execRdmaRead_memWf : ∀ a0 a1 a2 a3 a4, State.memWf a4 → NextMemWf (execRdmaRead a0 a1 a2 a3 a4) := by
  intro a0 a1 a2 a3 a4 h; refine ⟨_, rfl,
      ?_⟩; (repeat' (first | with_reducible refine State.rdmaConn_memWf _ _ _ ?_ (fun s k h => ?_)))
  all_goals grind [State.memWf, Tile.memWf, Slab.memWf, State.count_memWf, State.readPieces_memWf, State.answer_memWf,
      State.rdmaNak_memWf]
theorem execRdmaSend_memWf : ∀ a0 a1 a2, State.memWf a2 → NextMemWf (execRdmaSend a0 a1 a2) := by
  intro a0 a1 a2 h; refine ⟨_, rfl,
      ?_⟩; (repeat' (first | with_reducible refine State.rdmaConn_memWf _ _ _ ?_ (fun s k h => ?_)))
  all_goals grind [State.memWf, Tile.memWf, Slab.memWf, State.answer_memWf, State.fqFill_memWf, State.rdmaNak_memWf]
theorem execFqTxTailWrite_memWf : ∀ a0 a1 a2, State.memWf a2 → NextMemWf (execFqTxTailWrite a0 a1 a2) := by
  intro a0 a1 a2 h; unfold execFqTxTailWrite; refine ⟨_, rfl, ?_⟩
  grind only [State.memWf, Tile.memWf, Slab.memWf, State.fqTxTail_memWf]
theorem execFqRxTailWrite_memWf : ∀ a0 a1 a2, State.memWf a2 → NextMemWf (execFqRxTailWrite a0 a1 a2) := by
  intro a0 a1 a2 h; unfold execFqRxTailWrite; refine ⟨_, rfl, ?_⟩
  grind only [State.memWf, Tile.memWf, Slab.memWf, State.fqRxTail_memWf]
theorem execFqPortWrite_memWf : ∀ a0 a1 a2 a3, State.memWf a3 → NextMemWf (execFqPortWrite a0 a1 a2 a3) := by
  intro a0 a1 a2 a3 h; unfold execFqPortWrite; refine ⟨_, rfl, ?_⟩
  grind only [State.memWf, Tile.memWf, Slab.memWf, State.fqPort_memWf]
theorem execPeerWrite_memWf : ∀ a0, State.memWf a0 → NextMemWf (execPeerWrite a0) := by
  intro a0 h; refine ⟨_, rfl,
      ?_⟩; (repeat' (first | with_reducible refine State.judge_memWf _ _ _ _ ?_ (fun s h => ?_) | with_reducible refine State.command_memWf _ _ _ ?_ (fun s r h => ?_))); all_goals grind [State.memWf, Tile.memWf, Slab.memWf, foldl_memWf, foldl_fst_memWf, foldl_tile_memWf, State.onFn_memWf, State.reply_memWf]
theorem execSliceSet_memWf : ∀ a0, State.memWf a0 → NextMemWf (execSliceSet a0) := by
  intro a0 h; refine ⟨_, rfl,
      ?_⟩; (repeat' (first | with_reducible refine State.judge_memWf _ _ _ _ ?_ (fun s h => ?_) | with_reducible refine State.command_memWf _ _ _ ?_ (fun s r h => ?_))); all_goals grind [State.memWf, Tile.memWf, Slab.memWf, State.onFn_memWf, Tile.write_memWf, State.reply_memWf]
theorem execRouteWrite_memWf : ∀ a0, State.memWf a0 → NextMemWf (execRouteWrite a0) := by
  intro a0 h; refine ⟨_, rfl,
      ?_⟩; (repeat' (first | with_reducible refine State.judge_memWf _ _ _ _ ?_ (fun s h => ?_) | with_reducible refine State.command_memWf _ _ _ ?_ (fun s r h => ?_))); all_goals grind [State.memWf, Tile.memWf, Slab.memWf, State.reply_memWf, State.writeUse_memWf]
theorem execRouteRead_memWf : ∀ a0, State.memWf a0 → NextMemWf (execRouteRead a0) := by
  intro a0 h; refine ⟨_, rfl,
      ?_⟩; (repeat' (first | with_reducible refine State.judge_memWf _ _ _ _ ?_ (fun s h => ?_) | with_reducible refine State.command_memWf _ _ _ ?_ (fun s r h => ?_))); all_goals grind [State.memWf, Tile.memWf, Slab.memWf, State.reply_memWf]
theorem execLnkLinkUp_memWf : ∀ a0 a1 a2 a3, State.memWf a3 → NextMemWf (execLnkLinkUp a0 a1 a2 a3) := by
  intro a0 a1 a2 a3 h; unfold execLnkLinkUp; refine ⟨_, rfl, ?_⟩
  grind only [State.memWf, Tile.memWf, Slab.memWf, State.raise_memWf, State.onPort_memWf, State.portGo_memWf,
      State.leaveService_memWf, State.enterService_memWf]
theorem execLnkReplay_memWf : ∀ a0 a1 a2 a3, State.memWf a3 → NextMemWf (execLnkReplay a0 a1 a2 a3) := by
  intro a0 a1 a2 a3 h; unfold execLnkReplay; refine ⟨_, rfl, ?_⟩
  grind only [State.memWf, Tile.memWf, Slab.memWf, State.count_memWf, State.raise_memWf, State.onPort_memWf]
theorem execLnkRetrain_memWf : ∀ a0 a1 a2, State.memWf a2 → NextMemWf (execLnkRetrain a0 a1 a2) := by
  intro a0 a1 a2 h; unfold execLnkRetrain; refine ⟨_, rfl, ?_⟩
  grind only [State.memWf, Tile.memWf, Slab.memWf, State.raise_memWf, State.portGo_memWf]
theorem execLnkRetrainTimeout_memWf : ∀ a0 a1, State.memWf a1 → NextMemWf (execLnkRetrainTimeout a0 a1) := by
  intro a0 a1 h; unfold execLnkRetrainTimeout; refine ⟨_, rfl, ?_⟩
  grind only [State.memWf, Tile.memWf, Slab.memWf, State.leaveService_memWf]
theorem execLnkDownRetry_memWf : ∀ a0 a1, State.memWf a1 → NextMemWf (execLnkDownRetry a0 a1) := by
  intro a0 a1 h; unfold execLnkDownRetry; refine ⟨_, rfl, ?_⟩
  grind only [State.memWf, Tile.memWf, Slab.memWf, State.portGo_memWf]
theorem execFenceOrderedSetReceive_memWf : ∀ a0 a1, State.memWf a1 → NextMemWf (execFenceOrderedSetReceive a0 a1) := by
  intro a0 a1 h; unfold execFenceOrderedSetReceive; refine ⟨_, rfl, ?_⟩
  grind only [State.memWf, Tile.memWf, Slab.memWf, State.leaveService_memWf]
theorem execPortLeaveService_memWf : ∀ a0 a1, State.memWf a1 → NextMemWf (execPortLeaveService a0 a1) := by
  intro a0 a1 h; unfold execPortLeaveService; refine ⟨_, rfl, ?_⟩
  grind only [State.memWf, Tile.memWf, Slab.memWf, State.leaveService_memWf]
theorem execFabricPacketReceive_memWf : ∀ a0 a1 a2 a3, State.memWf a3 → NextMemWf (execFabricPacketReceive a0 a1 a2 a3) := by
  intro a0 a1 a2 a3 h; unfold execFabricPacketReceive; refine ⟨_, rfl, ?_⟩
  grind only [State.memWf, Tile.memWf, Slab.memWf, State.count_memWf, State.forward_memWf]
theorem execPacketAged_memWf : ∀ a0 a1 a2, State.memWf a2 → NextMemWf (execPacketAged a0 a1 a2) := by
  intro a0 a1 a2 h; unfold execPacketAged; refine ⟨_, rfl, ?_⟩
  grind only [State.memWf, Tile.memWf, Slab.memWf, State.raise_memWf, State.onPort_memWf, State.discard_memWf]
theorem execLnkSysUseWrite_memWf : ∀ a0 a1, State.memWf a1 → NextMemWf (execLnkSysUseWrite a0 a1) := by
  intro a0 a1 h; unfold execLnkSysUseWrite; refine ⟨_, rfl, ?_⟩
  grind only [State.memWf, Tile.memWf, Slab.memWf, State.count_memWf, State.writeUse_memWf]
theorem execLnkControlFlitReceive_memWf : ∀ a0 a1 a2 a3,
      State.memWf a3 → NextMemWf (execLnkControlFlitReceive a0 a1 a2 a3) := by
  intro a0 a1 a2 a3 h; unfold execLnkControlFlitReceive; refine ⟨_, rfl, ?_⟩
  grind only [State.memWf, Tile.memWf, Slab.memWf, foldl_memWf, foldl_fst_memWf, foldl_tile_memWf, State.onPort_memWf]
theorem execHcoreAccess_memWf : ∀ a0 a1 a2 a3 a4 a5, State.memWf a5 → NextMemWf (execHcoreAccess a0 a1 a2 a3 a4 a5) := by
  intro a0 a1 a2 a3 a4 a5 h; unfold execHcoreAccess; refine ⟨_, rfl, ?_⟩
  grind only [State.memWf, Tile.memWf, Slab.memWf, Tile.write_memWf, State.coreAccess_memWf]
theorem execWinFlags_memWf : ∀ a0, State.memWf a0 → NextMemWf (execWinFlags a0) := by
  intro a0 h; refine ⟨_, rfl,
      ?_⟩; (repeat' (first | with_reducible refine State.judge_memWf _ _ _ _ ?_ (fun s h => ?_) | with_reducible refine State.command_memWf _ _ _ ?_ (fun s r h => ?_))); all_goals grind [State.memWf, Tile.memWf, Slab.memWf, foldl_memWf, foldl_fst_memWf, foldl_tile_memWf, State.onPflag_memWf]
theorem execWinTransitionComplete_memWf : ∀ a0 a1, State.memWf a1 → NextMemWf (execWinTransitionComplete a0 a1) := by
  intro a0 a1 h; unfold execWinTransitionComplete; refine ⟨_, rfl, ?_⟩
  grind only [State.memWf, Tile.memWf, Slab.memWf, State.endTransition_memWf]
theorem execWinTransitionTimeout_memWf : ∀ a0 a1, State.memWf a1 → NextMemWf (execWinTransitionTimeout a0 a1) := by
  intro a0 a1 h; unfold execWinTransitionTimeout; refine ⟨_, rfl, ?_⟩
  grind only [State.memWf, Tile.memWf, Slab.memWf, State.endTransition_memWf]
theorem execWinQuery_memWf : ∀ a0, State.memWf a0 → NextMemWf (execWinQuery a0) := by
  intro a0 h; refine ⟨_, rfl,
      ?_⟩; (repeat' (first | with_reducible refine State.judge_memWf _ _ _ _ ?_ (fun s h => ?_) | with_reducible refine State.command_memWf _ _ _ ?_ (fun s r h => ?_))); all_goals grind [State.memWf, Tile.memWf, Slab.memWf, State.reply_memWf]
theorem execTileLoad_memWf : ∀ a0, State.memWf a0 → NextMemWf (execTileLoad a0) := by
  intro a0 h; refine ⟨_, rfl,
      ?_⟩; (repeat' (first | with_reducible refine State.judge_memWf _ _ _ _ ?_ (fun s h => ?_) | with_reducible refine State.command_memWf _ _ _ ?_ (fun s r h => ?_))); all_goals grind [State.memWf, Tile.memWf, Slab.memWf, foldl_memWf, foldl_fst_memWf, foldl_tile_memWf, State.readImage_memWf, State.holdLong_memWf, State.loadImage_memWf, State.memWf.tile]
theorem execHcoreLoad_memWf : ∀ a0, State.memWf a0 → NextMemWf (execHcoreLoad a0) := by
  intro a0 h; refine ⟨_, rfl,
      ?_⟩; (repeat' (first | with_reducible refine State.judge_memWf _ _ _ _ ?_ (fun s h => ?_) | with_reducible refine State.command_memWf _ _ _ ?_ (fun s r h => ?_))); all_goals grind [State.memWf, Tile.memWf, Slab.memWf, foldl_memWf, foldl_fst_memWf, foldl_tile_memWf, State.onCore_memWf, State.writePieces_memWf, State.readImage_memWf, State.holdLong_memWf]
theorem execPatternLoad_memWf : ∀ a0, State.memWf a0 → NextMemWf (execPatternLoad a0) := by
  intro a0 h; refine ⟨_, rfl,
      ?_⟩; (repeat' (first | with_reducible refine State.judge_memWf _ _ _ _ ?_ (fun s h => ?_) | with_reducible refine State.command_memWf _ _ _ ?_ (fun s r h => ?_))); all_goals grind [State.memWf, Tile.memWf, Slab.memWf, State.readImage_memWf, State.holdLong_memWf, State.setPattern_memWf]
theorem execPatternUnload_memWf : ∀ a0, State.memWf a0 → NextMemWf (execPatternUnload a0) := by
  intro a0 h; refine ⟨_, rfl,
      ?_⟩; (repeat' (first | with_reducible refine State.judge_memWf _ _ _ _ ?_ (fun s h => ?_) | with_reducible refine State.command_memWf _ _ _ ?_ (fun s r h => ?_))); all_goals grind [State.memWf, Tile.memWf, Slab.memWf, State.reply_memWf, State.setPattern_memWf]
theorem execPatternQuery_memWf : ∀ a0, State.memWf a0 → NextMemWf (execPatternQuery a0) := by
  intro a0 h; refine ⟨_, rfl,
      ?_⟩; (repeat' (first | with_reducible refine State.judge_memWf _ _ _ _ ?_ (fun s h => ?_) | with_reducible refine State.command_memWf _ _ _ ?_ (fun s r h => ?_))); all_goals grind [State.memWf, Tile.memWf, Slab.memWf, VeAcc.load_memWf, State.reply_memWf, State.memWf.tile]
theorem execLongCommandComplete_memWf : ∀ a0 a1, State.memWf a1 → NextMemWf (execLongCommandComplete a0 a1) := by
  intro a0 a1 h; unfold execLongCommandComplete; refine ⟨_, rfl, ?_⟩
  grind only [State.memWf, Tile.memWf, Slab.memWf, State.reply_memWf]
theorem execCountersRead_memWf : ∀ a0, State.memWf a0 → NextMemWf (execCountersRead a0) := by
  intro a0 h; refine ⟨_, rfl,
      ?_⟩; (repeat' (first | with_reducible refine State.judge_memWf _ _ _ _ ?_ (fun s h => ?_) | with_reducible refine State.command_memWf _ _ _ ?_ (fun s r h => ?_))); all_goals grind [State.memWf, Tile.memWf, Slab.memWf, State.reply_memWf, State.memWf.tile]
theorem execEventSubscribe_memWf : ∀ a0, State.memWf a0 → NextMemWf (execEventSubscribe a0) := by
  intro a0 h; refine ⟨_, rfl,
      ?_⟩; (repeat' (first | with_reducible refine State.judge_memWf _ _ _ _ ?_ (fun s h => ?_) | with_reducible refine State.command_memWf _ _ _ ?_ (fun s r h => ?_))); all_goals grind [State.memWf, Tile.memWf, Slab.memWf, State.onFn_memWf, State.event_memWf, State.reply_memWf]
theorem execEventsRead_memWf : ∀ a0, State.memWf a0 → NextMemWf (execEventsRead a0) := by
  intro a0 h; refine ⟨_, rfl,
      ?_⟩; (repeat' (first | with_reducible refine State.judge_memWf _ _ _ _ ?_ (fun s h => ?_) | with_reducible refine State.command_memWf _ _ _ ?_ (fun s r h => ?_))); all_goals grind [State.memWf, Tile.memWf, Slab.memWf, State.reply_memWf]
theorem execTraceFlush_memWf : ∀ a0 a1, State.memWf a1 → NextMemWf (execTraceFlush a0 a1) := by
  intro a0 a1 h; unfold execTraceFlush; refine ⟨_, rfl, ?_⟩; grind only [State.memWf, Tile.memWf, Slab.memWf,
      State.traceFlush_memWf]
theorem execTraceCfg_memWf : ∀ a0, State.memWf a0 → NextMemWf (execTraceCfg a0) := by
  intro a0 h; refine ⟨_, rfl,
      ?_⟩; (repeat' (first | with_reducible refine State.judge_memWf _ _ _ _ ?_ (fun s h => ?_) | with_reducible refine State.command_memWf _ _ _ ?_ (fun s r h => ?_))); all_goals grind [State.memWf, Tile.memWf, Slab.memWf, State.onFn_memWf, State.reply_memWf, State.traceFlush_memWf]
theorem execRegisterWrite_memWf : ∀ a0 a1 a2, State.memWf a2 → NextMemWf (execRegisterWrite a0 a1 a2) := by
  intro a0 a1 a2 h; unfold execRegisterWrite; refine ⟨_, rfl, ?_⟩
  grind only [State.memWf, Tile.memWf, Slab.memWf, State.writeReg_memWf]
theorem execStchFrameReceive_memWf : ∀ a0 a1 a2, State.memWf a2 → NextMemWf (execStchFrameReceive a0 a1 a2) := by
  intro a0 a1 a2 h; unfold execStchFrameReceive; refine ⟨_, rfl, ?_⟩
  grind only [State.memWf, Tile.memWf, Slab.memWf, State.chainDrop_memWf, State.chainForward_memWf]
theorem execEnumFrame_memWf : ∀ a0, State.memWf a0 → NextMemWf (execEnumFrame a0) := by
  intro a0 h; refine ⟨_, rfl,
      ?_⟩; (repeat' (first | with_reducible refine State.takeFrame_memWf _ _ _ ?_ (fun s b h => ?_)))
  all_goals grind [State.memWf, Tile.memWf, Slab.memWf, State.chainForward_memWf]
theorem execSetaddr_memWf : ∀ a0, State.memWf a0 → NextMemWf (execSetaddr a0) := by
  intro a0 h; refine ⟨_, rfl,
      ?_⟩; (repeat' (first | with_reducible refine State.takeFrame_memWf _ _ _ ?_ (fun s b h => ?_)))
  all_goals grind [State.memWf, Tile.memWf, Slab.memWf, State.chainReply_memWf]
theorem execPing_memWf : ∀ a0, State.memWf a0 → NextMemWf (execPing a0) := by
  intro a0 h; refine ⟨_, rfl,
      ?_⟩; (repeat' (first | with_reducible refine State.takeFrame_memWf _ _ _ ?_ (fun s b h => ?_)))
  all_goals grind [State.memWf, Tile.memWf, Slab.memWf, State.reply_memWf, State.chainReply_memWf]
theorem execResetReq_memWf : ∀ a0, State.memWf a0 → NextMemWf (execResetReq a0) := by
  intro a0 h; refine ⟨_, rfl,
      ?_⟩; (repeat' (first | with_reducible refine State.takeFrame_memWf _ _ _ ?_ (fun s b h => ?_)))
  all_goals grind [State.memWf, Tile.memWf, Slab.memWf, State.doReset_memWf, State.chainReply_memWf]
theorem execPowerWarn_memWf : ∀ a0, State.memWf a0 → NextMemWf (execPowerWarn a0) := by
  intro a0 h; unfold execPowerWarn; refine ⟨_, rfl, ?_⟩; grind only [State.memWf, Tile.memWf, Slab.memWf,
      State.boardWarn_memWf]
theorem execPowerWarnClear_memWf : ∀ a0, State.memWf a0 → NextMemWf (execPowerWarnClear a0) := by
  intro a0 h; refine ⟨_, rfl,
      ?_⟩; (repeat' (first | with_reducible refine State.command_memWf _ _ _ ?_ (fun s r h => ?_)))
  all_goals grind [State.memWf, Tile.memWf, Slab.memWf, State.boardWarn_memWf]
theorem execStchSkelist_memWf : ∀ a0, State.memWf a0 → NextMemWf (execStchSkelist a0) := by
  intro a0 h; refine ⟨_, rfl,
      ?_⟩; (repeat' (first | with_reducible refine State.takeFrame_memWf _ _ _ ?_ (fun s b h => ?_)))
  all_goals grind [State.memWf, Tile.memWf, Slab.memWf, State.dropMsg_memWf, State.receiveMsg_memWf, State.chainRefuse_memWf]
theorem execUpstreamLost_memWf : ∀ a0, State.memWf a0 → NextMemWf (execUpstreamLost a0) := by
  intro a0 h; unfold execUpstreamLost; refine ⟨_, rfl, ?_⟩; grind only [State.memWf, Tile.memWf, Slab.memWf,
      State.boardEvent_memWf]
theorem execUpstreamLostRepeat_memWf : ∀ a0, State.memWf a0 → NextMemWf (execUpstreamLostRepeat a0) := by
  intro a0 h; unfold execUpstreamLostRepeat; refine ⟨_, rfl, ?_⟩
  grind only [State.memWf, Tile.memWf, Slab.memWf, State.boardEvent_memWf]
theorem execStchCharacterReceive_memWf : ∀ a0 a1 a2, State.memWf a2 → NextMemWf (execStchCharacterReceive a0 a1 a2) := by
  intro a0 a1 a2 h; unfold execStchCharacterReceive; refine ⟨_, rfl, ?_⟩; grind only [State.memWf, Tile.memWf, Slab.memWf]
theorem execStchNullSend_memWf : ∀ a0, State.memWf a0 → NextMemWf (execStchNullSend a0) := by
  intro a0 h; unfold execStchNullSend; refine ⟨_, rfl, ?_⟩; grind only [State.memWf, Tile.memWf, Slab.memWf]
theorem execTack_memWf : ∀ a0, State.memWf a0 → NextMemWf (execTack a0) := by
  intro a0 h; refine ⟨_, rfl,
      ?_⟩; (repeat' (first | with_reducible refine State.judge_memWf _ _ _ _ ?_ (fun s h => ?_) | with_reducible refine State.command_memWf _ _ _ ?_ (fun s r h => ?_))); all_goals grind [State.memWf, Tile.memWf, Slab.memWf, State.triggerTack_memWf]
theorem execTackNFall_memWf : ∀ a0, State.memWf a0 → NextMemWf (execTackNFall a0) := by
  intro a0 h; unfold execTackNFall; refine ⟨_, rfl, ?_⟩; grind only [State.memWf, Tile.memWf, Slab.memWf,
      State.triggerTack_memWf]
theorem execTackNRise_memWf : ∀ a0, State.memWf a0 → NextMemWf (execTackNRise a0) := by
  intro a0 h; unfold execTackNRise; refine ⟨_, rfl, ?_⟩; grind only [State.memWf, Tile.memWf, Slab.memWf]
theorem execTackMarkerReceive_memWf : ∀ a0 a1, State.memWf a1 → NextMemWf (execTackMarkerReceive a0 a1) := by
  intro a0 a1 h; unfold execTackMarkerReceive; refine ⟨_, rfl, ?_⟩
  grind only [State.memWf, Tile.memWf, Slab.memWf, State.triggerTack_memWf]
theorem execTackHeld_memWf : ∀ a0, State.memWf a0 → NextMemWf (execTackHeld a0) := by
  intro a0 h; unfold execTackHeld; refine ⟨_, rfl, ?_⟩; grind only [State.memWf, Tile.memWf, Slab.memWf,
      State.raise_memWf, State.finishLong_memWf, State.tackEvent_memWf, State.resumeTack_memWf]
theorem execTackResume_memWf : ∀ a0, State.memWf a0 → NextMemWf (execTackResume a0) := by
  intro a0 h; refine ⟨_, rfl,
      ?_⟩; (repeat' (first | with_reducible refine State.judge_memWf _ _ _ _ ?_ (fun s h => ?_) | with_reducible refine State.command_memWf _ _ _ ?_ (fun s r h => ?_))); all_goals grind [State.memWf, Tile.memWf, Slab.memWf, State.reply_memWf, State.askResume_memWf]
theorem execResumeMarkerReceive_memWf : ∀ a0 a1, State.memWf a1 → NextMemWf (execResumeMarkerReceive a0 a1) := by
  intro a0 a1 h; unfold execResumeMarkerReceive; refine ⟨_, rfl, ?_⟩
  grind only [State.memWf, Tile.memWf, Slab.memWf, State.askResume_memWf]
theorem execTackLogRead_memWf : ∀ a0, State.memWf a0 → NextMemWf (execTackLogRead a0) := by
  intro a0 h; refine ⟨_, rfl,
      ?_⟩; (repeat' (first | with_reducible refine State.judge_memWf _ _ _ _ ?_ (fun s h => ?_) | with_reducible refine State.command_memWf _ _ _ ?_ (fun s r h => ?_))); all_goals grind [State.memWf, Tile.memWf, Slab.memWf, State.reply_memWf, State.memWf.tile]

/-- Every command goes on and keeps every memory canonical. -/
theorem exec_memWf (i : Instr) (s : State) (hs : s.memWf) : NextMemWf (exec i s) := by
  cases i with
  | aluAdd t rd rs1 rs2 => exact execAluAdd_memWf t rd rs1 rs2 s hs
  | aluSub t rd rs1 rs2 => exact execAluSub_memWf t rd rs1 rs2 s hs
  | aluAnd t rd rs1 rs2 => exact execAluAnd_memWf t rd rs1 rs2 s hs
  | aluOr t rd rs1 rs2 => exact execAluOr_memWf t rd rs1 rs2 s hs
  | aluXor t rd rs1 rs2 => exact execAluXor_memWf t rd rs1 rs2 s hs
  | aluSll t rd rs1 rs2 => exact execAluSll_memWf t rd rs1 rs2 s hs
  | aluSrl t rd rs1 rs2 => exact execAluSrl_memWf t rd rs1 rs2 s hs
  | aluSra t rd rs1 rs2 => exact execAluSra_memWf t rd rs1 rs2 s hs
  | aluMul t rd rs1 rs2 => exact execAluMul_memWf t rd rs1 rs2 s hs
  | aluMulhu t rd rs1 rs2 => exact execAluMulhu_memWf t rd rs1 rs2 s hs
  | aluMulh t rd rs1 rs2 => exact execAluMulh_memWf t rd rs1 rs2 s hs
  | aluSlt t rd rs1 rs2 => exact execAluSlt_memWf t rd rs1 rs2 s hs
  | aluSltu t rd rs1 rs2 => exact execAluSltu_memWf t rd rs1 rs2 s hs
  | aluMin t rd rs1 rs2 => exact execAluMin_memWf t rd rs1 rs2 s hs
  | aluMax t rd rs1 rs2 => exact execAluMax_memWf t rd rs1 rs2 s hs
  | aluSext32 t rd rs1 rs2 => exact execAluSext32_memWf t rd rs1 rs2 s hs
  | addi t f => exact execAddi_memWf t f s hs
  | andi t f => exact execAndi_memWf t f s hs
  | ori t f => exact execOri_memWf t f s hs
  | xori t f => exact execXori_memWf t f s hs
  | slti t f => exact execSlti_memWf t f s hs
  | shiSll t rd rs1 hi sh => exact execShiSll_memWf t rd rs1 hi sh s hs
  | shiSrl t rd rs1 hi sh => exact execShiSrl_memWf t rd rs1 hi sh s hs
  | shiSra t rd rs1 hi sh => exact execShiSra_memWf t rd rs1 hi sh s hs
  | lui t f => exact execLui_memWf t f s hs
  | beq t f => exact execBeq_memWf t f s hs
  | bne t f => exact execBne_memWf t f s hs
  | blt t f => exact execBlt_memWf t f s hs
  | bge t f => exact execBge_memWf t f s hs
  | bltu t f => exact execBltu_memWf t f s hs
  | bgeu t f => exact execBgeu_memWf t f s hs
  | jal t rd off => exact execJal_memWf t rd off s hs
  | jalr t f => exact execJalr_memWf t f s hs
  | lb t f => exact execLb_memWf t f s hs
  | lh t f => exact execLh_memWf t f s hs
  | lw t f => exact execLw_memWf t f s hs
  | ld t f => exact execLd_memWf t f s hs
  | sb t f => exact execSb_memWf t f s hs
  | sh t f => exact execSh_memWf t f s hs
  | sw t f => exact execSw_memWf t f s hs
  | sd t f => exact execSd_memWf t f s hs
  | sld t f => exact execSld_memWf t f s hs
  | sst t f => exact execSst_memWf t f s hs
  | dsw t f => exact execDsw_memWf t f s hs
  | dld t f => exact execDld_memWf t f s hs
  | diss t f => exact execDiss_memWf t f s hs
  | dissQueueEntryFreed t => exact execDissQueueEntryFreed_memWf t s hs
  | msend t f => exact execMsend_memWf t f s hs
  | msendCreditTaken t => exact execMsendCreditTaken_memWf t s hs
  | mrecv t f => exact execMrecv_memWf t f s hs
  | mrecvMessageReturned t => exact execMrecvMessageReturned_memWf t s hs
  | mtry t f => exact execMtry_memWf t f s hs
  | mfree t f => exact execMfree_memWf t f s hs
  | chcfg t f => exact execChcfg_memWf t f s hs
  | charm t f => exact execCharm_memWf t f s hs
  | twait t f => exact execTwait_memWf t f s hs
  | tallyWaitRelease t => exact execTallyWaitRelease_memWf t s hs
  | tsig t f => exact execTsig_memWf t f s hs
  | tset t f => exact execTset_memWf t f s hs
  | trd t f => exact execTrd_memWf t f s hs
  | rdsys t f => exact execRdsys_memWf t f s hs
  | wrsysDseq t rd rs1 hi => exact execWrsysDseq_memWf t rd rs1 hi s hs
  | wrsysLack t rd rs1 hi => exact execWrsysLack_memWf t rd rs1 hi s hs
  | fence t rd rs1 rs2 => exact execFence_memWf t rd rs1 rs2 s hs
  | evpost t rd rs1 rs2 => exact execEvpost_memWf t rd rs1 rs2 s hs
  | halt t f => exact execHalt_memWf t f s hs
  | descStart t q => exact execDescStart_memWf t q s hs
  | descSignal t q => exact execDescSignal_memWf t q s hs
  | opaPass t => exact execOpaPass_memWf t s hs
  | opaRowStart t row => exact execOpaRowStart_memWf t row s hs
  | opaPassComplete t => exact execOpaPassComplete_memWf t s hs
  | veCvt t => exact execVeCvt_memWf t s hs
  | veAdd t => exact execVeAdd_memWf t s hs
  | veSub t => exact execVeSub_memWf t s hs
  | veMul t => exact execVeMul_memWf t s hs
  | veMuladd t => exact execVeMuladd_memWf t s hs
  | veMax t => exact execVeMax_memWf t s hs
  | veMin t => exact execVeMin_memWf t s hs
  | veMuls t => exact execVeMuls_memWf t s hs
  | veRsum t => exact execVeRsum_memWf t s hs
  | veRmax t => exact execVeRmax_memWf t s hs
  | veRmin t => exact execVeRmin_memWf t s hs
  | veLnorm t => exact execVeLnorm_memWf t s hs
  | veRmsnorm t => exact execVeRmsnorm_memWf t s hs
  | veRope t => exact execVeRope_memWf t s hs
  | veGather t => exact execVeGather_memWf t s hs
  | vePermute t => exact execVePermute_memWf t s hs
  | veTopk t => exact execVeTopk_memWf t s hs
  | veArgmax t => exact execVeArgmax_memWf t s hs
  | veSample t => exact execVeSample_memWf t s hs
  | veAccRead t => exact execVeAccRead_memWf t s hs
  | veSeamAdd t => exact execVeSeamAdd_memWf t s hs
  | veSeamCvt t => exact execVeSeamCvt_memWf t s hs
  | sfuExp2 t => exact execSfuExp2_memWf t s hs
  | sfuLog2 t => exact execSfuLog2_memWf t s hs
  | sfuReciprocal t => exact execSfuReciprocal_memWf t s hs
  | sfuRsqrt t => exact execSfuRsqrt_memWf t s hs
  | sfuSqrt t => exact execSfuSqrt_memWf t s hs
  | sfuTanh t => exact execSfuTanh_memWf t s hs
  | sfuSigmoid t => exact execSfuSigmoid_memWf t s hs
  | sfuErf t => exact execSfuErf_memWf t s hs
  | sfuGelu t => exact execSfuGelu_memWf t s hs
  | sfuSilu t => exact execSfuSilu_memWf t s hs
  | sfuSin t => exact execSfuSin_memWf t s hs
  | sfuCos t => exact execSfuCos_memWf t s hs
  | sfuPattern t => exact execSfuPattern_memWf t s hs
  | gusAttend t => exact execGusAttend_memWf t s hs
  | gusAcquire t => exact execGusAcquire_memWf t s hs
  | gusRebase t => exact execGusRebase_memWf t s hs
  | gusFinalise t => exact execGusFinalise_memWf t s hs
  | gusRecompute t => exact execGusRecompute_memWf t s hs
  | pwAppend t => exact execPwAppend_memWf t s hs
  | pwInvalidate t => exact execPwInvalidate_memWf t s hs
  | dmaCopy t => exact execDmaCopy_memWf t s hs
  | dmaBulkSend t => exact execDmaBulkSend_memWf t s hs
  | dmaFill t => exact execDmaFill_memWf t s hs
  | chanMsgArrive t ep => exact execChanMsgArrive_memWf t ep s hs
  | chanBulkArrive t ep => exact execChanBulkArrive_memWf t ep s hs
  | bulkAckArrive t => exact execBulkAckArrive_memWf t s hs
  | chanGrantArrive t ep => exact execChanGrantArrive_memWf t ep s hs
  | chanCreditArrive t ep => exact execChanCreditArrive_memWf t ep s hs
  | stopNoticeArrive t => exact execStopNoticeArrive_memWf t s hs
  | unreachableNoticeArrive t => exact execUnreachableNoticeArrive_memWf t s hs
  | skelistMessageReceive dgram way => exact execSkelistMessageReceive_memWf dgram way s hs
  | mailboxGo c => exact execMailboxGo_memWf c s hs
  | identify => exact execIdentify_memWf s hs
  | claim => exact execClaim_memWf s hs
  | rekey => exact execRekey_memWf s hs
  | serviceCfg => exact execServiceCfg_memWf s hs
  | quote => exact execQuote_memWf s hs
  | fnCreate => exact execFnCreate_memWf s hs
  | fnDestroy => exact execFnDestroy_memWf s hs
  | fnStart => exact execFnStart_memWf s hs
  | fnStop => exact execFnStop_memWf s hs
  | fnFaultStop f => exact execFnFaultStop_memWf f s hs
  | drainLimitExpire f => exact execDrainLimitExpire_memWf f s hs
  | stopComplete f => exact execStopComplete_memWf f s hs
  | fnAssignTiles => exact execFnAssignTiles_memWf s hs
  | fnAssignSpread => exact execFnAssignSpread_memWf s hs
  | fnAssignRings => exact execFnAssignRings_memWf s hs
  | fnAssignFences => exact execFnAssignFences_memWf s hs
  | fnAssignCores => exact execFnAssignCores_memWf s hs
  | fnAssignWindow => exact execFnAssignWindow_memWf s hs
  | fnAssignVtileMap => exact execFnAssignVtileMap_memWf s hs
  | fnAssignSettings => exact execFnAssignSettings_memWf s hs
  | domainUngateDone d => exact execDomainUngateDone_memWf d s hs
  | fnWithdraw => exact execFnWithdraw_memWf s hs
  | fnQuery => exact execFnQuery_memWf s hs
  | pageRelease => exact execPageRelease_memWf s hs
  | slabTag => exact execSlabTag_memWf s hs
  | ringConfig => exact execRingConfig_memWf s hs
  | ringRead => exact execRingRead_memWf s hs
  | fenceRead => exact execFenceRead_memWf s hs
  | fenceWrite => exact execFenceWrite_memWf s hs
  | winFlags => exact execWinFlags_memWf s hs
  | winTransitionComplete f => exact execWinTransitionComplete_memWf f s hs
  | winTransitionTimeout f => exact execWinTransitionTimeout_memWf f s hs
  | winQuery => exact execWinQuery_memWf s hs
  | winConnect => exact execWinConnect_memWf s hs
  | winClose => exact execWinClose_memWf s hs
  | tileLoad => exact execTileLoad_memWf s hs
  | hcoreLoad => exact execHcoreLoad_memWf s hs
  | patternLoad => exact execPatternLoad_memWf s hs
  | patternUnload => exact execPatternUnload_memWf s hs
  | patternQuery => exact execPatternQuery_memWf s hs
  | peerWrite => exact execPeerWrite_memWf s hs
  | sliceSet => exact execSliceSet_memWf s hs
  | routeWrite => exact execRouteWrite_memWf s hs
  | routeRead => exact execRouteRead_memWf s hs
  | powerGrant => exact execPowerGrant_memWf s hs
  | powerQuery => exact execPowerQuery_memWf s hs
  | countersRead => exact execCountersRead_memWf s hs
  | eventSubscribe => exact execEventSubscribe_memWf s hs
  | eventsRead => exact execEventsRead_memWf s hs
  | traceCfg => exact execTraceCfg_memWf s hs
  | tack => exact execTack_memWf s hs
  | tackResume => exact execTackResume_memWf s hs
  | tackLogRead => exact execTackLogRead_memWf s hs
  | faultStatus => exact execFaultStatus_memWf s hs
  | stopRecord => exact execStopRecord_memWf s hs
  | errClear => exact execErrClear_memWf s hs
  | tagRead => exact execTagRead_memWf s hs
  | tagWrite => exact execTagWrite_memWf s hs
  | tagLock => exact execTagLock_memWf s hs
  | fwStage => exact execFwStage_memWf s hs
  | fwActivate => exact execFwActivate_memWf s hs
  | fwQuery => exact execFwQuery_memWf s hs
  | ringDoorbell src ring tail => exact execRingDoorbell_memWf src ring tail s hs
  | ringFetch q => exact execRingFetch_memWf q s hs
  | ringNop r => exact execRingNop_memWf r s hs
  | ringLaunch r => exact execRingLaunch_memWf r s hs
  | ringLaunchComplete r => exact execRingLaunchComplete_memWf r s hs
  | ringCopy r => exact execRingCopy_memWf r s hs
  | ringWait r => exact execRingWait_memWf r s hs
  | ringWaitRelease r => exact execRingWaitRelease_memWf r s hs
  | ringSignal r => exact execRingSignal_memWf r s hs
  | ringCollective r => exact execRingCollective_memWf r s hs
  | ringBarrier r => exact execRingBarrier_memWf r s hs
  | ringCommandComplete r => exact execRingCommandComplete_memWf r s hs
  | coreFenceAdd c idx value => exact execCoreFenceAdd_memWf c idx value s hs
  | coreFenceSet c idx value => exact execCoreFenceSet_memWf c idx value s hs
  | hcoreAccess c addr write log2Bytes value => exact execHcoreAccess_memWf c addr write log2Bytes value s hs
  | fqTxTailWrite c tail => exact execFqTxTailWrite_memWf c tail s hs
  | fqRxTailWrite c tail => exact execFqRxTailWrite_memWf c tail s hs
  | fqPortWrite c n value => exact execFqPortWrite_memWf c n value s hs
  | rdmaWrite qpn rkey va data => exact execRdmaWrite_memWf qpn rkey va data s hs
  | rdmaRead qpn rkey va len => exact execRdmaRead_memWf qpn rkey va len s hs
  | rdmaSend qpn data => exact execRdmaSend_memWf qpn data s hs
  | ethFrameReceive frame rx => exact execEthFrameReceive_memWf frame rx s hs
  | pfcFrameReceive enable pause => exact execPfcFrameReceive_memWf enable pause s hs
  | cnpReceive qpn => exact execCnpReceive_memWf qpn s hs
  | cnpRateRaise qpn => exact execCnpRateRaise_memWf qpn s hs
  | ethLinkUp => exact execEthLinkUp_memWf s hs
  | ethLinkLoss => exact execEthLinkLoss_memWf s hs
  | ethHalfWidthFallback => exact execEthHalfWidthFallback_memWf s hs
  | addrDadComplete addr ok => exact execAddrDadComplete_memWf addr ok s hs
  | ptpMessageReceive domain masterTime offset => exact execPtpMessageReceive_memWf domain masterTime offset s hs
  | stchFrameReceive frame codingOk => exact execStchFrameReceive_memWf frame codingOk s hs
  | enumFrame => exact execEnumFrame_memWf s hs
  | setaddr => exact execSetaddr_memWf s hs
  | ping => exact execPing_memWf s hs
  | resetReq => exact execResetReq_memWf s hs
  | powerWarn => exact execPowerWarn_memWf s hs
  | powerWarnClear => exact execPowerWarnClear_memWf s hs
  | stchSkelist => exact execStchSkelist_memWf s hs
  | upstreamLost => exact execUpstreamLost_memWf s hs
  | upstreamLostRepeat => exact execUpstreamLostRepeat_memWf s hs
  | lnkLinkUp p partner lanes => exact execLnkLinkUp_memWf p partner lanes s hs
  | fabricPacketReceive p vc packet => exact execFabricPacketReceive_memWf p vc packet s hs
  | lnkReplay p seq ok => exact execLnkReplay_memWf p seq ok s hs
  | lnkRetrain p cause => exact execLnkRetrain_memWf p cause s hs
  | lnkRetrainTimeout p => exact execLnkRetrainTimeout_memWf p s hs
  | lnkDownRetry p => exact execLnkDownRetry_memWf p s hs
  | fenceOrderedSetReceive p => exact execFenceOrderedSetReceive_memWf p s hs
  | portLeaveService p => exact execPortLeaveService_memWf p s hs
  | packetAged p vc => exact execPacketAged_memWf p vc s hs
  | lnkSysUseWrite use => exact execLnkSysUseWrite_memWf use s hs
  | collAdmit => exact execCollAdmit_memWf s hs
  | collPartReceive q => exact execCollPartReceive_memWf q s hs
  | collResultReceive q => exact execCollResultReceive_memWf q s hs
  | collDeclineReceive q => exact execCollDeclineReceive_memWf q s hs
  | collGrantReceive q => exact execCollGrantReceive_memWf q s hs
  | collNoticeReceive q => exact execCollNoticeReceive_memWf q s hs
  | collTimeout f group => exact execCollTimeout_memWf f group s hs
  | collComplete f group => exact execCollComplete_memWf f group s hs
  | govCapIteration estimateMw => exact execGovCapIteration_memWf estimateMw s hs
  | rateLoopTick d pacerMsteps => exact execRateLoopTick_memWf d pacerMsteps s hs
  | govMeasureWindow frameOk readingMw => exact execGovMeasureWindow_memWf frameOk readingMw s hs
  | paceWindow periods waits => exact execPaceWindow_memWf periods waits s hs
  | regSetpointAck d => exact execRegSetpointAck_memWf d s hs
  | regSlewEnd d => exact execRegSlewEnd_memWf d s hs
  | droopEngage d => exact execDroopEngage_memWf d s hs
  | droopRelease d => exact execDroopRelease_memWf d s hs
  | shortfallEnter d pacerMsteps => exact execShortfallEnter_memWf d pacerMsteps s hs
  | shortfallClear d pacerMsteps => exact execShortfallClear_memWf d pacerMsteps s hs
  | ageingRecord meanMv => exact execAgeingRecord_memWf meanMv s hs
  | brownout d => exact execBrownout_memWf d s hs
  | regControlLoss d => exact execRegControlLoss_memWf d s hs
  | thermalThreshold sensor temp => exact execThermalThreshold_memWf sensor temp s hs
  | thermCeilingStep d => exact execThermCeilingStep_memWf d s hs
  | thermtrip sensor => exact execThermtrip_memWf sensor s hs
  | currentLimit src deciAmps => exact execCurrentLimit_memWf src deciAmps s hs
  | grantLeaseExpire => exact execGrantLeaseExpire_memWf s hs
  | domainGate d => exact execDomainGate_memWf d s hs
  | timerefLoss => exact execTimerefLoss_memWf s hs
  | ppsEdge => exact execPpsEdge_memWf s hs
  | ppsLoss => exact execPpsLoss_memWf s hs
  | ptpLoss => exact execPtpLoss_memWf s hs
  | linkTimeOffset p partnerLocked offset => exact execLinkTimeOffset_memWf p partnerLocked offset s hs
  | errInject block inst value => exact execErrInject_memWf block inst value s hs
  | errCountRead block inst => exact execErrCountRead_memWf block inst s hs
  | fatalEntry => exact execFatalEntry_memWf s hs
  | meshCrcRetry t d => exact execMeshCrcRetry_memWf t d s hs
  | meshHalfDown t d => exact execMeshHalfDown_memWf t d s hs
  | meshLinkDown t d => exact execMeshLinkDown_memWf t d s hs
  | patrolScrubRead t => exact execPatrolScrubRead_memWf t s hs
  | tileRetire t => exact execTileRetire_memWf t s hs
  | tackNFall => exact execTackNFall_memWf s hs
  | tackMarkerReceive c => exact execTackMarkerReceive_memWf c s hs
  | tackHeld => exact execTackHeld_memWf s hs
  | resumeMarkerReceive c => exact execResumeMarkerReceive_memWf c s hs
  | traceFlush f => exact execTraceFlush_memWf f s hs
  | v3p3Rise => exact execV3p3Rise_memWf s hs
  | suppliesInRange => exact execSuppliesInRange_memWf s hs
  | bootSequence bootMode found => exact execBootSequence_memWf bootMode found s hs
  | trialWatchdog => exact execTrialWatchdog_memWf s hs
  | resetNAssert heldNs => exact execResetNAssert_memWf heldNs s hs
  | powerDown vin12Mv v3p3Mv => exact execPowerDown_memWf vin12Mv v3p3Mv s hs
  | fatalLatchClear vin12Mv v3p3Mv => exact execFatalLatchClear_memWf vin12Mv v3p3Mv s hs
  | jtagImageWrite slot offset data => exact execJtagImageWrite_memWf slot offset data s hs
  | registerWrite r value => exact execRegisterWrite_memWf r value s hs
  | longCommandComplete f => exact execLongCommandComplete_memWf f s hs
  | timerefRestore => exact execTimerefRestore_memWf s hs
  | tackNRise => exact execTackNRise_memWf s hs
  | stchCharacterReceive control c => exact execStchCharacterReceive_memWf control c s hs
  | stchNullSend => exact execStchNullSend_memWf s hs
  | lnkControlFlitReceive p ack credits => exact execLnkControlFlitReceive_memWf p ack credits s hs
  | safeStateEthernetIdle => exact execSafeStateEthernetIdle_memWf s hs

end Sys2Proof.Machine
end

