-- ==== Sys2Proof/Laws/Commands.lean ====
section
/-! SUPPORT. Skelist commands: the request that a command takes, and the condition that decides its status. -/

namespace Sys2Proof.Machine

theorem commandIf_takes {s s0 : State} {code : Nat} {want : Req → Bool} {r : Req} (f : State → Req → State)
    (h : TakesIf s code want r s0) : s.commandIf code want f = f s0 r := by
  obtain ⟨⟨q, h2, rfl⟩, hc, hw, -⟩ := h
  simp [State.commandIf, h2, hc, hw]

theorem command_takes {s s0 : State} {code : Nat} {r : Req} (f : State → Req → State) (h : Takes s code r s0) :
    s.command code f = f s0 r := commandIf_takes f h

/-- Where the function of the request is not FREE, the conditions of the command alone decide. -/
theorem judge_open (s : State) (r : Req) (l : List (Bool × Nat)) (ok : State → State) (h : s.gone r = false) :
    s.judge r l ok = match l.find? (fun c => c.1) with
      | some c => s.reply r c.2 []
      | none => ok s := by
  have e : (s.conditions r l).find? (fun c => c.1) = l.find? (fun c => c.1) := by
    unfold State.conditions
    simp only [List.find?_append, List.find?_cons, h]
    rw [← List.find?_append, List.takeWhile_append_dropWhile]
  unfold State.judge
  rw [e] <;> rfl

/-- A command none of whose conditions holds takes effect. -/
theorem judge_ok (s : State) (r : Req) (l : List (Bool × Nat)) (ok : State → State) (h : s.gone r = false)
    (hl : ∀ c ∈ l, c.1 = false) : s.judge r l ok = ok s := by
  rw [judge_open s r l ok h, List.find?_eq_none.mpr (fun c hc => by simp [hl c hc])]

/-- Taking a request changes nothing but the queue of requests. -/
theorem takes_frame {s s0 : State} {code : Nat} {want : Req → Bool} {r : Req} (h : TakesIf s code want r s0) :
    ∃ q, s0 = { s with thm := { s.thm with queue := q } } := by
  obtain ⟨⟨q, -, h⟩, -⟩ := h
  exact ⟨q, h⟩

/-- An FN_ASSIGN whose shared conditions hold comes to the conditions of its kind. -/
theorem assign_takes {s s0 : State} {kind : Nat} {fields : List (Nat × Nat)} {r : Req}
    {unsup bad faulted taken : State → Req → Nat → Bool} {ok : State → Req → Nat → State} (h : Assigns s kind fields r s0)
    (h1 : unsup s0 r (beAt r.payload 0 2) = false) (h2 : bad s0 r (beAt r.payload 0 2) = false)
    (h3 : faulted s0 r (beAt r.payload 0 2) = false) (h4 : taken s0 r (beAt r.payload 0 2) = false) :
    s.assign kind fields unsup bad faulted taken ok = ok s0 r (beAt r.payload 0 2) := by
  obtain ⟨t, a1, a2, a3, a4, a5, a6⟩ := h
  have hg : s0.gone r = false := by
    obtain ⟨⟨q, -, rfl⟩, -, -, hg⟩ := t
    exact hg
  rw [State.assign, commandIf_takes _ t]
  refine judge_ok _ _ _ _ hg (fun c hc => ?_)
  simp only [List.mem_cons, List.not_mem_nil, or_false] at hc
  rcases hc with rfl | rfl | rfl | rfl | rfl | rfl | rfl
  · exact a1
  · exact h1
  · simp [a3]
  · simp only [a6, h2, Bool.not_true, Bool.false_or, Bool.or_false, decide_eq_false_iff_not]
    omega
  · exact h3
  · simp [State.busyFor, a3, a4, a5]
  · exact h4

end Sys2Proof.Machine
end

