-- ==== Sys2Proof/Laws/Observe.lean ====
section
/-! SUPPORT. An event record, a count and a trace change nothing but event rings, counters, the functions' traces, and the
RESYNC mark of a tile. -/

namespace Sys2Proof.Machine

/-- The package but for what recording an event changes. -/
def State.apart (s : State) : State := { s with evrings := [], tiles := [], freeCtr := 0, fns := [], ctrs := [] }

theorem apart_eq {s t : State} (h : s.apart = t.apart) {α : Type} (f : State → α) : f s.apart = f t.apart := congrArg f h

theorem foldl_apart {α : Type} (l : List α) (f : State → α → State) (h : ∀ s a, (f s a).apart = s.apart) :
    ∀ s, (l.foldl f s).apart = s.apart := by
  induction l with
  | nil => intro s; rfl
  | cons a l ih => intro s; rw [List.foldl_cons, ih, h]

theorem State.count_apart (s : State) (b : Blk) (i e u f n : Nat) : (s.count b i e u f n).apart = s.apart := by
  unfold State.count; split <;> rfl

theorem State.traceAll_apart (s : State) (r : EvRec) : (s.traceAll r).apart = s.apart := by
  unfold State.traceAll
  apply foldl_apart
  intro s a
  dsimp only
  split
  · split
    · rw [State.count_apart]; rfl
    · rfl
  · rfl

theorem apart_rings (s : State) (m : SMap EvRing) : ({ s with evrings := m } : State).apart = s.apart := rfl

theorem apart_resync (s : State) (b : Bool) (t n : Nat) (f : Tile → Tile) :
    (if b then { s.onTile t f with freeCtr := n } else s).apart = s.apart := by
  cases b <;> rfl

theorem State.event_apart (s : State) (b : Blk) (i k : Nat) (f : Option Nat) (p : Nat) (j : Bool) :
    (s.event b i k f p j).apart = s.apart := by
  unfold State.event
  dsimp only
  rw [State.traceAll_apart, apart_rings]
  split <;> rfl

@[simp] theorem State.event_pwr (s : State) (b : Blk) (i k : Nat) (f : Option Nat) (p : Nat) (j : Bool) :
    (s.event b i k f p j).pwr = s.pwr := by
  have h := congrArg State.pwr (s.event_apart b i k f p j)
  exact h

@[simp] theorem State.event_timeNs (s : State) (b : Blk) (i k : Nat) (f : Option Nat) (p : Nat) (j : Bool) :
    (s.event b i k f p j).timeNs = s.timeNs := by
  have h := congrArg State.timeNs (s.event_apart b i k f p j)
  exact h

@[simp] theorem State.count_pwr (s : State) (b : Blk) (i e u f n : Nat) : (s.count b i e u f n).pwr = s.pwr := by
  have h := congrArg State.pwr (s.count_apart b i e u f n)
  exact h

end Sys2Proof.Machine
end

