-- ==== Sys2Proof/Laws/Power.lean ====
section
/-! SUPPORT. The governor's bookkeeping leaves the domains alone. -/

namespace Sys2Proof.Machine

theorem Pwr.accrue_doms (p : Pwr) (n : Nat) : (p.accrue n).doms = p.doms := by
  unfold Pwr.accrue; grind

@[simp] theorem State.accrue_doms (s : State) : s.accrue.pwr.doms = s.pwr.doms := Pwr.accrue_doms s.pwr s.timeNs

theorem State.triggerTack_doms (s : State) (o b : Nat) : (s.triggerTack o b).pwr.doms = s.pwr.doms := by
  unfold State.triggerTack; grind [State.event_pwr]

theorem State.charge_pwr (s : State) (f : Nat) (c : Charge) : (s.charge f c).pwr = s.pwr := by
  unfold State.charge; split <;> rfl

theorem State.retireTally_pwr (s : State) (b : Blk) (i m : Nat) : (s.retireTally b i m).pwr = s.pwr := by
  unfold State.retireTally; split
  · rfl
  · split <;> rfl

@[simp] theorem State.raise_doms (s : State) (b : Blk) (i m : Nat) (sc : Scope) (j : Bool) :
    (s.raise b i m sc j).pwr.doms = s.pwr.doms := by
  unfold State.raise
  grind only [State.charge_pwr, State.triggerTack_doms, State.event_pwr, State.retireTally_pwr, State.setErr_pwr]

@[simp] theorem State.chainOwn_doms (s : State) (t d : Nat) (p : List Byte) : (s.chainOwn t d p).pwr.doms = s.pwr.doms := by
  unfold State.chainOwn
  dsimp only
  split
  · rw [State.count_pwr, State.raise_doms]
  · rfl

@[simp] theorem State.boardEvent_doms (s : State) (k : Nat) : (s.boardEvent k).pwr.doms = s.pwr.doms := State.chainOwn_doms ..

theorem foldl_doms {α : Type} (l : List α) (f : State → α → State) (h : ∀ s a, (f s a).pwr.doms = s.pwr.doms) :
    ∀ s, (l.foldl f s).pwr.doms = s.pwr.doms := by
  induction l with
  | nil => intro s; rfl
  | cons a l ih => intro s; rw [List.foldl_cons, ih, h]

/-- A step of the governor leaves the domains as its own work leaves them. -/
theorem State.pwrStep_doms (s : State) (f : State → State) : (s.pwrStep f).pwr.doms = (f s.accrue).pwr.doms := by
  unfold State.pwrStep
  dsimp only
  generalize hn : doms20.foldl _ (f s.accrue) = n
  have e : n.pwr.doms = (f s.accrue).pwr.doms := by
    rw [← hn]
    apply foldl_doms
    intro s a
    split
    · rfl
    · rw [State.event_pwr]
  rw [← e]
  clear hn e
  split
  · split
    · rw [State.boardEvent_doms]
    · rfl
  · split <;> rfl

theorem State.pwrStep_dom (s : State) (f : State → State) (d : Nat) : (s.pwrStep f).dom d = (f s.accrue).dom d := by
  unfold State.dom; rw [State.pwrStep_doms]

theorem State.setDom_dom (s : State) (d k : Nat) (x : Dom) : (s.setDom d x).dom k = if d = k then x else s.dom k :=
  SMap.get_set ..

end Sys2Proof.Machine
end

