-- ==== Sys2Proof/Laws/Errors.lean ====
section
/-! SUPPORT. What raising an error changes: the error registers of its instance, and what an event, a tack and a charge
change. -/

namespace Sys2Proof.Machine

@[simp] theorem State.event_errs (s : State) (b : Blk) (i k : Nat) (f : Option Nat) (p : Nat) (j : Bool) :
    (s.event b i k f p j).errs = s.errs := by
  have h := congrArg State.errs (s.event_apart b i k f p j)
  exact h

@[simp] theorem State.triggerTack_errs (s : State) (o b : Nat) : (s.triggerTack o b).errs = s.errs := by
  unfold State.triggerTack; split <;> simp

@[simp] theorem State.charge_errs (s : State) (f : Nat) (c : Charge) : (s.charge f c).errs = s.errs := by
  unfold State.charge; split <;> rfl

@[simp] theorem State.retireTally_errs (s : State) (b : Blk) (i m : Nat) : (s.retireTally b i m).errs = s.errs := by
  unfold State.retireTally; split
  · rfl
  · split <;> rfl

/-- Raising an error reports it to its instance and to no other. -/
theorem State.raise_errs (s : State) (b : Blk) (i m : Nat) (sc : Scope) (j : Bool) (h : m ≠ 0) :
    (s.raise b i m sc j).errs = (s.setErr b i ((s.err b i).report b m sc j)).errs := by
  unfold State.raise
  rw [if_neg h]
  have tack : ∀ (c : Bool) (t : State) (o k : Nat), (if c then t.triggerTack o k else t).errs = t.errs := by
    intro c t o k; cases c <;> simp
  have charge : ∀ (c : Bool) (t : State) (f : Nat) (x : Charge), (if c then t.charge f x else t).errs = t.errs := by
    intro c t f x; cases c <;> simp
  dsimp only
  split
  · rw [charge, tack, State.event_errs, State.retireTally_errs]
  · rw [tack, State.event_errs, State.retireTally_errs]

theorem State.raise_err (s : State) (b : Blk) (i m : Nat) (sc : Scope) (j : Bool) (h : m ≠ 0) :
    (s.raise b i m sc j).err b i = (s.err b i).report b m sc j := by
  unfold State.err
  rw [State.raise_errs s b i m sc j h]
  simp [State.setErr, State.err]

end Sys2Proof.Machine
end

