-- ==== Sys2Proof/WellFormed.lean ====
section
/-! DEFINITION. Which commands the outside can send: the bounds that the operands' types do not give. -/

namespace Sys2Proof

/-- A block code of R344. -/
def wfBlock (b : Nat) : Bool := 1 ≤ b && b ≤ 22

/-- A block instance number: a tile, a tile plus 0x100, a port, a domain or a quadrant. -/
def wfInst (i : Nat) : Bool := i < 1024

/-- The findings of a self-test name pages and links that exist. -/
def SelfTest.wf (x : SelfTest) : Bool := x.badPages.all (fun p => p.2 < 131072)

/-- Whether a command is one that the outside can send. -/
def Instr.wellFormed : Instr → Bool
  | .skelistMessageReceive dgram _ => dgram.length ≤ 65527
  | .ringDoorbell _ ring _ => ring < 8192
  | .coreFenceAdd _ idx _ => idx < 16384
  | .coreFenceSet _ idx _ => idx < 16384
  | .rdmaWrite _ _ _ data => data.length < 2 ^ 32
  | .rdmaRead _ _ _ len => len < 2 ^ 32
  | .rdmaSend _ data => data.length < 2 ^ 32
  | .ethFrameReceive frame rx => frame.length ≤ 16384 && rx.occ.length ≤ 8
  | .stchFrameReceive frame _ => frame.length ≤ 512
  | .fabricPacketReceive _ _ packet => packet.length ≤ 2080
  | .govMeasureWindow _ reading => reading.length ≤ 32
  | .paceWindow periods _ => periods.length ≤ 20
  | .ageingRecord mean => mean.length ≤ 160
  | .errInject block inst _ => wfBlock block && wfInst inst
  | .errCountRead block inst => wfBlock block && wfInst inst
  | .bootSequence _ found => found.wf
  | .jtagImageWrite _ offset data => offset + data.length ≤ 0x6000000
  | .lnkControlFlitReceive _ _ credits => credits.length ≤ 6
  | _ => true

end Sys2Proof
end

