-- ==== Sys2Proof/Tests/Slice0.lean ====
section
/-! SUPPORT. The model's own tests: what is not well formed is refused, one step of commands on small states, and for every
statement a state and operands that meet its hypotheses. -/

namespace Sys2Proof.Tests

open Sys2Proof Sys2Proof.Machine

set_option Elab.async false

/-- A package that has booted, is claimed and has a link. -/
def booted : State :=
  let s := State.reset
  { s with boot := { s.boot with order := 10 }, thm := { s.thm with opKey := some 1 },
           eth := { s.eth with link := true, addrs := [1], everUp := true } }

/-- The functions of the test package: 5 runs on tiles 0 and 1 with core 0, ring 0, fences 0 to 3 and a window; 6 is
stopped. -/
def labFns : SMap Fn :=
  let f5 : Fn := { st := .running, key := 7, vtmap := [some 0, some 1], fences := 4, winPages := 4, winValid := true }
  [(0, { st := .stopped }), (5, f5), (6, { st := .stopped, key := 8, drainLimit := 100 })]

/-- The first slab: 16 pages of function 5, of which its spread set 0 takes page 8 on. -/
def labSlab : Slab :=
  { ext := { basePage := 0, pages := 16, fn := 5, valid := true },
    spread := [(0, { members := 1, basePage := 8, granules := 32, valid := true })],
    pflag := [(8, { inWin := true }), (9, { inWin := true }), (10, { inWin := true }), (11, { inWin := true })] }

/-- A package with a running function. -/
def lab : State :=
  { booted with fns := labFns, tiles := [(0, { owner := some 5, seq := .running }), (1, { owner := some 5, seq := .halted })],
                slabs := [(0, labSlab)], rings := [(0, { fn := 5, valid := true, sizeLog2 := 6, doneAddr := 4096 })],
                cores := [(0, { fn := some 5, st := .running })] }

/-- The package with its first tile changed. -/
def withTile (f : Tile → Tile) : State := lab.onTile 0 f

/-- The package with an instruction word at the start of its first tile's program, and that tile changed. -/
def prog (w : Nat) (f : Tile → Tile) : State := withTile (fun x => { f x with image := some { entry := 0, code := toLe 4 w, data := [], dataAddr := 0, digest := 0 } })

/-- A state in which one request waits, and the state without it. -/
def asks (s : State) (r : Req) : State := { s with thm := { s.thm with queue := [r] } }
def asked (s : State) : State := { s with thm := { s.thm with queue := [] } }

theorem takesIf_asks (s : State) (c : Nat) (want : Req → Bool) (r : Req) (h : (asks s r).mayStart r = true)
    (hc : r.cmd = c ∧ want r = true) (hg : (asks s r).gone r = false) : TakesIf (asks s r) c want r (asked s) :=
  ⟨⟨[], by
    show takeFirst (asks s r).mayStart [r] = some (r, [])
    simp only [takeFirst, h, if_true], rfl⟩, hc.1, hc.2, hg⟩

theorem takes_asks (s : State) (c : Nat) (r : Req) (h : (asks s r).mayStart r = true) (hc : r.cmd = c)
    (hg : (asks s r).gone r = false) : Takes (asks s r) c r (asked s) := takesIf_asks s c _ r h ⟨hc, rfl⟩ hg

/-- A request of the operator, and one of function 5. -/
def opReq (cmd : Nat) (p : List Byte) : Req := { cmd := cmd, fn := 0, seq := 1, payload := p, src := .chain, key := some 1 }
def fnReq (cmd : Nat) (p : List Byte) : Req := { cmd := cmd, fn := 5, seq := 1, payload := p, src := .chain, key := some 7 }

/-- The smallest pattern image: one step, DONE. -/
def patImage : List Byte :=
  [0x50, 0x4E, 0x46, 0x53, 1, 0, 0, 0, 1, 0] ++ List.replicate 54 0 ++ [0, 0, 0, 0x80]

/-- The package with function 5 stopped and these bytes at the start of its window. -/
def labImage (bs : List Byte) : State :=
  (lab.onFn 5 (fun x => { x with st := .stopped })).onSlab 0 (fun b => { b with data := putBytes [] 524288 bs })

theorem assigns_asks (s : State) (k : Nat) (l : List (Nat × Nat)) (r : Req) (h : (asks s r).mayStart r = true)
    (hk : r.cmd = 0x0305 ∧ decide (beAt r.payload 2 1 = k) = true) (hg : (asks s r).gone r = false)
    (hs : r.notOperator = false ∧ beAt r.payload 0 2 < 1024 ∧ ((asked s).fn (beAt r.payload 0 2)).st = .stopped ∧
      (asked s).longOn (beAt r.payload 0 2) = false ∧ (asked s).tacked = false ∧ payOk r.payload ([(0, 2), (2, 1)] ++ l) = true) :
    Assigns (asks s r) k l r (asked s) :=
  ⟨takesIf_asks s _ _ r h hk hg, hs⟩

theorem except_ok {β : Type} {x : Except Nat β} {b : β} (h : x.toOption = some b) : x = .ok b := by
  cases x <;> simp_all [Except.toOption]

theorem except_error {β : Type} {x : Except Nat β} {c : Nat} (h : (match x with | .ok _ => none | .error e => some e) = some c) :
    x = .error c := by cases x <;> simp_all

/-- The package after reset with one byte of the last tile's memory and one of its slab written. -/
def marked : State := (State.reset.onTile 79 (fun x => { x with mem := [(5, 1)] })).onSlab 79 (fun b => { b with data := [(7, 2)] })
theorem marked_memWf : marked.memWf := by
  have tile0 : ({} : Tile).memWf := by simp only [Tile.memWf, TileMem.wf]; decide
  have slab0 : ({} : Slab).memWf := by simp only [Slab.memWf, SlabMem.wf]; decide
  have tile1 : ({ mem := [(5, 1)] } : Tile).memWf := by simp only [Tile.memWf, TileMem.wf]; decide
  have slab1 : ({ data := [(7, 2)] } : Slab).memWf := by simp only [Slab.memWf, SlabMem.wf]; decide
  refine ⟨fun t => ?_, fun t => ?_⟩
  · show ((SMap.set ({} : Tile) [] 79 { mem := [(5, 1)] }).get {} t).memWf
    rw [SMap.get_set]; split <;> assumption
  · show ((SMap.set ({} : Slab) [] 79 { data := [(7, 2)] }).get {} t).memWf
    rw [SMap.get_set]; split <;> assumption

/-- A receive buffer of the first priority, which is lossy, sends no XOFF and has no room above what it holds. -/
theorem lossy_stays (n : Nat) : lab.pfcBuffers [n] = lab := by
  have m : lab.eth.netrec.pfcMask = 8 := by decide +kernel
  have x : lab.eth.xoff = 0 := by decide +kernel
  simp [State.pfcBuffers, show List.range 8 = [0, 1, 2, 3, 4, 5, 6, 7] from rfl, m, x, Nat.testBit]
theorem lossy_full : lab.ethRoom 0 (Config.lossyBuffer + 1) 0 = false := by
  show (decide (Config.lossyBuffer + 1 = 0) || decide (Config.lossyBuffer + 1 + 0 ≤ Config.lossyBuffer)) = false
  simp

/-- The hypotheses of StepOnTheQueue can be met. -/
theorem witness_StepOnTheQueue :
    (∃ (s : State),
      (s.pending = [])) ∧
    (∃ (s : State) (t : State),
      (step s = .next t)) := by
  refine ⟨?_, ?_⟩
  · refine ⟨lab, ?_⟩
    decide +kernel
  · refine ⟨lab, { lab with timeNs := lab.timeNs + 1 }, ?_⟩
    exact rfl

/-- The hypotheses of EveryStepKeepsMemoriesCanonical can be met. -/
theorem witness_EveryStepKeepsMemoriesCanonical :
    (∃ (s : State) (t : State),
      s.memWf ∧ (step s = .next t)) := by
  · refine ⟨marked, { marked with timeNs := marked.timeNs + 1 }, ?_⟩
    exact ⟨marked_memWf, rfl⟩

/-- The hypotheses of AluAndImmediateInstructions can be met. -/
theorem witness_AluAndImmediateInstructions :
    (∃ (s : State) (t : TileId),
      ((s.tile t).pc + 4 < 262144) ∧ (Runs s t (encI 1 31 0 0xFFFF))) := by
  · refine ⟨prog 0x07E0FFFF (fun x => x), 0, ?_⟩
    exact ⟨by decide +kernel, ⟨by decide +kernel, by decide +kernel, by decide +kernel⟩⟩

/-- The hypotheses of BranchesAndJumps can be met. -/
theorem witness_BranchesAndJumps :
    (∃ (s : State) (t : TileId) (f : BFields),
      let x := s.tile t
      (Runs s t ((f : BFields).word 8)) ∧ (InProgram ((x.pc : Int) + 4 * f.off.toInt))) ∧
    (∃ (s : State) (t : TileId) (rd : BitVec 5) (off : BitVec 21),
      let x := s.tile t
      (Runs s t (encJ 14 rd off)) ∧ (InProgram ((x.pc : Int) + 4 * off.toInt))) ∧
    (∃ (s : State) (t : TileId) (g : IFields),
      let x := s.tile t
      let target := (x.reg g.rs1 + BitVec.ofInt 64 g.imm.toInt).toNat / 4 * 4
      (Runs s t (g.word 15)) ∧ (target < 262144)) := by
  refine ⟨?_, ?_, ?_⟩
  · refine ⟨prog 0x20007FFF (fun x => x), 0, ⟨0, 0, 0x7FFF⟩, ?_⟩
    dsimp only
    exact ⟨⟨by decide +kernel, by decide +kernel, by decide +kernel⟩, ⟨by decide +kernel, by decide +kernel⟩⟩
  · refine ⟨prog 0x3BE0FFFF (fun x => x), 0, 31, 0xFFFF, ?_⟩
    dsimp only
    exact ⟨⟨by decide +kernel, by decide +kernel, by decide +kernel⟩, ⟨by decide +kernel, by decide +kernel⟩⟩
  · refine ⟨prog 0x3FE07FFF (fun x => x), 0, ⟨31, 0, 0x7FFF⟩, ?_⟩
    dsimp only
    exact ⟨⟨by decide +kernel, by decide +kernel, by decide +kernel⟩, by decide +kernel⟩

/-- The hypotheses of LoadsAndSlabStores can be met. -/
theorem witness_LoadsAndSlabStores :
    (∃ (s : State) (t : TileId) (f : IFields),
      let x := s.tile t
      let a := (x.reg f.rs1 + BitVec.ofInt 64 f.imm.toInt).toNat
      ((s.tile t).pc + 4 < 262144) ∧ (Runs s t (f.word 19)) ∧ (a % 8 = 0) ∧ (tmOk .scalar false a 8 = true) ∧ (x.poisoned a 8 = false)) ∧
    (∃ (s : State) (t : TileId) (f : IFields),
      let x := s.tile t
      let d := (x.reg f.rs1).toNat
      ((s.tile t).pc + 4 < 262144) ∧ (Runs s t (f.word 33)) ∧ (d % 64 = 0) ∧ (tmOk .scalar false d 64 = true) ∧ (x.poisoned d 64 = false)) ∧
    (∃ (s : State) (t : TileId) (f : IFields) (ps : List (Nat × Nat × Nat)),
      let x := s.tile t
      let a := (x.reg f.rs1 + BitVec.ofInt 64 f.imm.toInt).toNat
      let own := x.owner.getD 0
      ((s.tile t).pc + 4 < 262144) ∧ (a % 8 = 0) ∧ (Runs s t (f.word 24)) ∧ (s.slabCheck own (some t.val) a 8 false false = .ok ps) ∧ ((s.readPieces ps).2.2.1 = false)) ∧
    (∃ (s : State) (t : TileId) (f : IFields) (ps : List (Nat × Nat × Nat)),
      let x := s.tile t
      let a := (x.reg f.rs1 + BitVec.ofInt 64 f.imm.toInt).toNat
      let own := x.owner.getD 0
      ((s.tile t).pc + 4 < 262144) ∧ (a % 8 = 0) ∧ (Runs s t (f.word 25)) ∧ (s.slabCheck own (some t.val) a 8 true false = .ok ps)) := by
  refine ⟨?_, ?_, ?_, ?_⟩
  · refine ⟨prog 0x4C207FF8 (fun x => x), 0, ⟨1, 0, 0x7FF8⟩, ?_⟩
    dsimp only
    exact ⟨by decide +kernel, ⟨by decide +kernel, by decide +kernel, by decide +kernel⟩, by decide +kernel, by decide +kernel, by decide +kernel⟩
  · refine ⟨prog 0x8420FFFF (fun x => x), 0, ⟨1, 0, 0xFFFF⟩, ?_⟩
    dsimp only
    exact ⟨by decide +kernel, ⟨by decide +kernel, by decide +kernel, by decide +kernel⟩, by decide +kernel, by decide +kernel, by decide +kernel⟩
  · refine ⟨prog 0x60207FF8 (fun x => x), 0, ⟨1, 0, 0x7FF8⟩, [(0, 0x7FF8, 8)], ?_⟩
    dsimp only
    exact ⟨by decide +kernel, by decide +kernel, ⟨by decide +kernel, by decide +kernel, by decide +kernel⟩, by decide +kernel, by decide +kernel⟩
  · refine ⟨prog 0x64207FF8 (fun x => x), 0, ⟨1, 0, 0x7FF8⟩, [(0, 0x7FF8, 8)], ?_⟩
    dsimp only
    exact ⟨by decide +kernel, by decide +kernel, ⟨by decide +kernel, by decide +kernel, by decide +kernel⟩, by decide +kernel⟩

/-- The hypotheses of ScalarStores can be met. -/
theorem witness_ScalarStores :
    (∃ (s : State) (t : TileId) (f : IFields),
      let x := s.tile t
      let a := (x.reg f.rs1 + BitVec.ofInt 64 f.imm.toInt).toNat
      ((s.tile t).pc + 4 < 262144) ∧ (Runs s t (f.word 23)) ∧ (a % 8 = 0) ∧ (tmOk .scalar true a 8 = true)) ∧
    (∃ (s : State) (t : TileId) (f : IFields),
      let w := f.imm.toNat
      ((s.tile t).pc + 4 < 262144) ∧ (Runs s t (f.word 32)) ∧ (w / 128 % 2 = 0)) ∧
    (∃ (s : State) (t : TileId) (f : IFields),
      let w := f.imm.toNat
      ((s.tile t).pc + 4 < 262144) ∧ (Runs s t (f.word 32)) ∧ (w / 128 % 2 = 1)) := by
  refine ⟨?_, ?_, ?_⟩
  · refine ⟨prog 0x5C207FF8 (fun x => x), 0, ⟨1, 0, 0x7FF8⟩, ?_⟩
    dsimp only
    exact ⟨by decide +kernel, ⟨by decide +kernel, by decide +kernel, by decide +kernel⟩, by decide +kernel, by decide +kernel⟩
  · refine ⟨prog 0x8020FF00 (fun x => x), 0, ⟨1, 0, 0xFF00⟩, ?_⟩
    dsimp only
    exact ⟨by decide +kernel, ⟨by decide +kernel, by decide +kernel, by decide +kernel⟩, by decide +kernel⟩
  · refine ⟨prog 0x8020FE80 (fun x => x), 0, ⟨1, 0, 0xFE80⟩, ?_⟩
    dsimp only
    exact ⟨by decide +kernel, ⟨by decide +kernel, by decide +kernel, by decide +kernel⟩, by decide +kernel⟩

/-- The hypotheses of MisalignedAccessRaisesAddrFault can be met. -/
theorem witness_MisalignedAccessRaisesAddrFault :
    (∃ (s : State) (t : TileId) (f : IFields),
      let x := s.tile t
      let a := (x.reg f.rs1 + BitVec.ofInt 64 f.imm.toInt).toNat
      (Runs s t (f.word 17)) ∧ (a % 2 ≠ 0 ∨ tmOk .scalar false a 2 = false)) ∧
    (∃ (s : State) (t : TileId) (f : IFields),
      let x := s.tile t
      let a := (x.reg f.rs1 + BitVec.ofInt 64 f.imm.toInt).toNat
      (a % 8 ≠ 0) ∧ (Runs s t (f.word 24))) ∧
    (∃ (s : State) (t : TileId) (f : IFields),
      let x := s.tile t
      let a := (x.reg f.rs1 + BitVec.ofInt 64 f.imm.toInt).toNat
      (a % 8 ≠ 0) ∧ (Runs s t (f.word 25))) := by
  refine ⟨?_, ?_, ?_⟩
  · refine ⟨prog 0x44200007 (fun x => x), 0, ⟨1, 0, 0x7⟩, ?_⟩
    dsimp only
    exact ⟨⟨by decide +kernel, by decide +kernel, by decide +kernel⟩, by decide +kernel⟩
  · refine ⟨prog 0x60200007 (fun x => x), 0, ⟨1, 0, 0x7⟩, ?_⟩
    dsimp only
    exact ⟨by decide +kernel, ⟨by decide +kernel, by decide +kernel, by decide +kernel⟩⟩
  · refine ⟨prog 0x64200007 (fun x => x), 0, ⟨1, 0, 0x7⟩, ?_⟩
    dsimp only
    exact ⟨by decide +kernel, ⟨by decide +kernel, by decide +kernel, by decide +kernel⟩⟩

/-- The hypotheses of TallyInstructions can be met. -/
theorem witness_TallyInstructions :
    (∃ (s : State) (t : TileId) (f : RFields),
      let x := s.tile t
      (x.pc + 4 < 262144) ∧ (Runs s t (f.word 0x32))) ∧
    (∃ (s : State) (t : TileId) (f : RFields),
      let x := s.tile t
      (x.pc + 4 < 262144) ∧ (Runs s t (f.word 0x31))) ∧
    (∃ (s : State) (t : TileId) (f : RFields),
      let x := s.tile t
      (x.pc + 4 < 262144) ∧ (Runs s t (f.word 0x33))) ∧
    (∃ (s : State) (t : TileId) (f : RFields),
      let x := s.tile t
      let n := f.fn.toNat
      let w := (x.reg f.rs1).setWidth 32
      (x.pc + 4 < 262144) ∧ (Runs s t (f.word 0x30)) ∧ ((x.tally n - w).toNat < 2 ^ 31)) ∧
    (∃ (s : State) (t : TileId) (f : RFields),
      let x := s.tile t
      let n := f.fn.toNat
      let w := (x.reg f.rs1).setWidth 32
      (x.pc + 4 < 262144) ∧ (Runs s t (f.word 0x30)) ∧ (¬ (x.tally n - w).toNat < 2 ^ 31)) ∧
    (∃ (s : State) (t : TileId) (k : Nat) (v : W32),
      let x := s.tile t
      (x.pc + 4 < 262144) ∧ (Waits s t (.tally k v)) ∧ ((x.tally k - v).toNat < 2 ^ 31)) := by
  refine ⟨?_, ?_, ?_, ?_, ?_, ?_⟩
  · refine ⟨prog 0xC801003E (fun x => x), 0, ⟨0, 1, 0, 62⟩, ?_⟩
    dsimp only
    exact ⟨by decide +kernel, ⟨by decide +kernel, by decide +kernel, by decide +kernel⟩⟩
  · refine ⟨prog 0xC401003E (fun x => x), 0, ⟨0, 1, 0, 62⟩, ?_⟩
    dsimp only
    exact ⟨by decide +kernel, ⟨by decide +kernel, by decide +kernel, by decide +kernel⟩⟩
  · refine ⟨prog 0xCFE0003F (fun x => x), 0, ⟨31, 0, 0, 63⟩, ?_⟩
    dsimp only
    exact ⟨by decide +kernel, ⟨by decide +kernel, by decide +kernel, by decide +kernel⟩⟩
  · refine ⟨prog 0xC001003F (fun x => x), 0, ⟨0, 1, 0, 63⟩, ?_⟩
    dsimp only
    exact ⟨by decide +kernel, ⟨by decide +kernel, by decide +kernel, by decide +kernel⟩, by decide +kernel⟩
  · refine ⟨prog 0xC001003F (fun x => x.setReg 1 1), 0, ⟨0, 1, 0, 63⟩, ?_⟩
    dsimp only
    exact ⟨by decide +kernel, ⟨by decide +kernel, by decide +kernel, by decide +kernel⟩, by decide +kernel⟩
  · refine ⟨withTile (fun x => { x with seq := .waiting, wait := .tally 63 0 }), 0, 63, 0, ?_⟩
    dsimp only
    exact ⟨by decide +kernel, ⟨by decide +kernel, by decide +kernel, by decide +kernel, by decide +kernel⟩, by decide +kernel⟩

/-- The hypotheses of SystemInstructions can be met. -/
theorem witness_SystemInstructions :
    (∃ (s : State) (t : TileId) (rd : BitVec 5) (r : BitVec 5),
      ((s.tile t).pc + 4 < 262144) ∧ (Runs s t (encI 0x3C rd r 9))) ∧
    (∃ (s : State) (t : TileId) (rd : BitVec 5) (r : BitVec 5),
      ((s.tile t).pc + 4 < 262144) ∧ (Runs s t (encI 0x3C rd r 4))) ∧
    (∃ (s : State) (t : TileId) (rd : BitVec 5) (r : BitVec 5) (hi : BitVec 8),
      ((s.tile t).pc + 4 < 262144) ∧ (Runs s t (encI 0x3D rd r (hi.toNat * 256 + 2)))) ∧
    (∃ (s : State) (t : TileId) (rd : BitVec 5) (r : BitVec 5) (hi : BitVec 8),
      ((s.tile t).pc + 4 < 262144) ∧ (Runs s t (encI 0x3D rd r (hi.toNat * 256 + 10)))) ∧
    (∃ (s : State) (t : TileId),
      let x := s.tile t
      let own := x.owner.getD 0
      ((s.tile t).pc + 4 < 262144) ∧ (x.argsHeld = true) ∧ (s.pendingLaunch own t = none)) ∧
    (∃ (s : State) (t : TileId) (rd : BitVec 5) (r : BitVec 5) (r2 : BitVec 5),
      ((s.tile t).pc + 4 < 262144) ∧ (Runs s t (encR 0x3E rd r r2 0))) ∧
    (∃ (s : State) (t : TileId) (rd : BitVec 5) (r : BitVec 5) (r2 : BitVec 5),
      ((s.tile t).pc + 4 < 262144) ∧ (Runs s t (encR 0x3E rd r r2 1))) ∧
    (∃ (s : State) (t : TileId) (f : RFields),
      ((s.tile t).pc + 4 < 262144) ∧ (Runs s t (f.word 0x3F))) := by
  refine ⟨?_, ?_, ?_, ?_, ?_, ?_, ?_, ?_⟩
  · refine ⟨prog 0xF3FE0009 (fun x => x), 0, 31, 30, ?_⟩
    exact ⟨by decide +kernel, ⟨by decide +kernel, by decide +kernel, by decide +kernel⟩⟩
  · refine ⟨prog 0xF3FE0004 (fun x => x), 0, 31, 30, ?_⟩
    exact ⟨by decide +kernel, ⟨by decide +kernel, by decide +kernel, by decide +kernel⟩⟩
  · refine ⟨prog 0xF7FEFF02 (fun x => x), 0, 31, 30, 255, ?_⟩
    exact ⟨by decide +kernel, ⟨by decide +kernel, by decide +kernel, by decide +kernel⟩⟩
  · refine ⟨prog 0xF7FEFF0A (fun x => x), 0, 31, 30, 255, ?_⟩
    exact ⟨by decide +kernel, ⟨by decide +kernel, by decide +kernel, by decide +kernel⟩⟩
  · refine ⟨withTile (fun x => { x with argsHeld := true }), 0, ?_⟩
    dsimp only
    decide +kernel
  · refine ⟨prog 0xF8000000 (fun x => x), 0, 0, 0, 0, ?_⟩
    exact ⟨by decide +kernel, ⟨by decide +kernel, by decide +kernel, by decide +kernel⟩⟩
  · refine ⟨prog 0xF81E0001 (fun x => x), 0, 0, 30, 0, ?_⟩
    exact ⟨by decide +kernel, ⟨by decide +kernel, by decide +kernel, by decide +kernel⟩⟩
  · refine ⟨prog 0xFC000000 (fun x => x), 0, ⟨0, 0, 0, 0⟩, ?_⟩
    exact ⟨by decide +kernel, ⟨by decide +kernel, by decide +kernel, by decide +kernel⟩⟩

/-- The hypotheses of IllegalWordsDoNotRetire can be met. -/
theorem witness_IllegalWordsDoNotRetire :
    (∃ (g : RFields),
      (g.fn = 63)) ∧
    (∃ (s : State) (t : TileId) (t : _),
      let x := s.tile t
      (s.seqReady t = true) ∧ (seqWordOk x.word = false)) := by
  refine ⟨?_, ?_⟩
  · refine ⟨⟨0, 1, 0, 63⟩, ?_⟩
    decide +kernel
  · refine ⟨prog 0xFFFFFFFF (fun x => x), 0, 0, ?_⟩
    dsimp only
    decide +kernel

/-- The hypotheses of DescriptorsIssueStartAndSignal can be met. -/
theorem witness_DescriptorsIssueStartAndSignal :
    (∃ (s : State) (t : TileId) (f : IFields) (q : EngQ) (n : Nat),
      let x := s.tile t
      let raw := x.slotRaw n
      let e := x.eng q
      (engQ (fld raw 0 0 4) = some q) ∧ (headerOk raw n = true) ∧ (x.pc + 4 < 262144) ∧ (Runs s t (f.word 0x22)) ∧ (f.imm.toNat % 16 = n) ∧ (e.queue.length < 16)) ∧
    (∃ (s : State) (t : TileId) (f : IFields) (q : EngQ) (n : Nat),
      let x := s.tile t
      let raw := x.slotRaw n
      let e := x.eng q
      (engQ (fld raw 0 0 4) = some q) ∧ (headerOk raw n = true) ∧ (x.pc + 4 < 262144) ∧ (Runs s t (f.word 0x22)) ∧ (f.imm.toNat % 16 = n) ∧ (¬ e.queue.length < 16)) ∧
    (∃ (s : State) (t : TileId) (q : EngQ) (n : Nat),
      let x := s.tile t
      let raw := x.slotRaw n
      let e := x.eng q
      (engQ (fld raw 0 0 4) = some q) ∧ (headerOk raw n = true) ∧ (x.pc + 4 < 262144) ∧ (Waits s t (.queue q n)) ∧ (e.queue.length < 16)) ∧
    (∃ (s : State) (t : TileId) (q : EngQ) (d : Desc) (l : List Desc),
      let x := s.tile t
      (s.tileLive t = true) ∧ ((x.eng q).run = none) ∧ ((x.eng q).queue = d :: l) ∧ ((d.waitEn = true → tallyOk (x.tally d.waitTally) d.waitValue = true)) ∧ ((q = .opa ∨ q = .ve → x.gussetHolds = false))) ∧
    (∃ (s : State) (t : TileId) (q : EngQ) (r : Run),
      let x := s.tile t
      (s.tileLive t = true) ∧ ((x.eng q).run = some r) ∧ (r.done = true)) := by
  refine ⟨?_, ?_, ?_, ?_, ?_⟩
  · refine ⟨prog 0x8800000F (fun x => x), 0, ⟨0, 0, 0xF⟩, .opa, 15, ?_⟩
    dsimp only
    exact ⟨by decide +kernel, by decide +kernel, by decide +kernel, ⟨by decide +kernel, by decide +kernel, by decide +kernel⟩, by decide +kernel, by decide +kernel⟩
  · refine ⟨prog 0x8800000F (fun x => { x with opa := { queue := List.replicate 16 ⟨0, 0⟩ } }), 0, ⟨0, 0, 0xF⟩, .opa, 15, ?_⟩
    dsimp only
    exact ⟨by decide +kernel, by decide +kernel, by decide +kernel, ⟨by decide +kernel, by decide +kernel, by decide +kernel⟩, by decide +kernel, by decide +kernel⟩
  · refine ⟨withTile (fun x => { x with seq := .waiting, wait := .queue .opa 15 }), 0, .opa, 15, ?_⟩
    dsimp only
    exact ⟨by decide +kernel, by decide +kernel, by decide +kernel, ⟨by decide +kernel, by decide +kernel, by decide +kernel, by decide +kernel⟩, by decide +kernel⟩
  · refine ⟨withTile (fun x => { x with opa := { queue := [⟨0x0000000000400100, 0⟩] } }), 0, .opa, ⟨0x0000000000400100, 0⟩, [], ?_⟩
    dsimp only
    decide +kernel
  · refine ⟨withTile (fun x => { x with dma := { run := some { desc := ⟨0x7F000105, 0⟩, done := true } } }), 0, .dma, { desc := ⟨0x7F000105, 0⟩, done := true }, ?_⟩
    dsimp only
    decide +kernel

/-- The hypotheses of MessagesAreSentAndReturned can be met. -/
theorem witness_MessagesAreSentAndReturned :
    (∃ (s : State) (t : Nat) (k : Nat) (d : Nat),
      let x := s.tile t
      let f := x.owner.getD 0
      ((x.ep k).peerPkg = 0xFFFF) ∧ (s.vtile f (x.ep k).peerVt = some d) ∧ (s.pathOk t d = true)) ∧
    (∃ (s : State) (s1 : State) (t : TileId) (f : RFields) (k : Nat) (size : Nat) (a : W64) (n : W64) (ok : Bool),
      let x := s.tile t
      let e := x.ep k
      let body := ChBody.msg (x.bytes a.toNat n.toNat) (x.poisoned a.toNat n.toNat)
      (e.kind = .send) ∧ (e.grant = .slots size) ∧ (x.pc + 4 < 262144) ∧ (n.toNat ≤ size) ∧ (Runs s t (f.word 0x28)) ∧ (f.fn.toNat = k) ∧ (x.reg f.rs1 = a) ∧ (x.reg f.rs2 = n) ∧ (e.credits ≠ 0) ∧ (tmOk .scalar false a.toNat n.toNat = true) ∧ (s.chSend t k body = (s1, ok))) ∧
    (∃ (s : State) (t : TileId) (f : RFields) (k : Nat) (size : Nat) (a : W64) (n : W64),
      let x := s.tile t
      let e := x.ep k
      (e.kind = .send) ∧ (e.grant = .slots size) ∧ (x.pc + 4 < 262144) ∧ (n.toNat ≤ size) ∧ (Runs s t (f.word 0x28)) ∧ (f.fn.toNat = k) ∧ (x.reg f.rs1 = a) ∧ (x.reg f.rs2 = n) ∧ (e.credits = 0)) ∧
    (∃ (s : State) (s1 : State) (t : TileId) (k : Nat) (size : Nat) (a : W64) (n : W64) (ok : Bool),
      let x := s.tile t
      let e := x.ep k
      let body := ChBody.msg (x.bytes a.toNat n.toNat) (x.poisoned a.toNat n.toNat)
      (e.kind = .send) ∧ (e.grant = .slots size) ∧ (x.pc + 4 < 262144) ∧ (n.toNat ≤ size) ∧ (Waits s t (.credit k a n)) ∧ (e.credits ≠ 0) ∧ (tmOk .scalar false a.toNat n.toNat = true) ∧ ((s.wakes t).chSend t k body = (s1, ok))) ∧
    (∃ (s : State) (t : TileId) (f : RFields) (k : Nat) (len : Nat) (rest : List Nat),
      let x := s.tile t
      let e := x.ep k
      (e.kind = .recvInline) ∧ (x.pc + 4 < 262144) ∧ (f.fn.toNat = k) ∧ (Runs s t (f.word 0x29)) ∧ (e.lens = len :: rest)) ∧
    (∃ (s : State) (t : TileId) (f : RFields) (k : Nat) (len : Nat) (rest : List Nat),
      let x := s.tile t
      let e := x.ep k
      (e.kind = .recvInline) ∧ (x.pc + 4 < 262144) ∧ (f.fn.toNat = k) ∧ (Runs s t (f.word 0x2A)) ∧ (e.lens = len :: rest)) ∧
    (∃ (s : State) (t : TileId) (f : RFields) (k : Nat),
      let x := s.tile t
      let e := x.ep k
      (e.kind = .recvInline) ∧ (x.pc + 4 < 262144) ∧ (f.fn.toNat = k) ∧ (Runs s t (f.word 0x2A)) ∧ (e.lens = [])) ∧
    (∃ (s : State) (t : TileId) (f : RFields) (k : Nat),
      let x := s.tile t
      let e := x.ep k
      (e.kind = .recvInline) ∧ (x.pc + 4 < 262144) ∧ (f.fn.toNat = k) ∧ (Runs s t (f.word 0x29)) ∧ (e.lens = [])) ∧
    (∃ (s : State) (s1 : State) (t : TileId) (f : RFields) (k : Nat),
      let x := s.tile t
      let e := x.ep k
      (e.kind = .recvInline) ∧ (x.pc + 4 < 262144) ∧ (f.fn.toNat = k) ∧ (Runs s t (f.word 0x2B)) ∧ (e.freed < e.returned) ∧ (s.chSend t k .credit = (s1, true))) ∧
    (∃ (s : State) (t : TileId) (rd : BitVec 5) (k : Nat) (len : Nat) (rest : List Nat),
      let x := s.tile t
      let e := x.ep k
      (e.kind = .recvInline) ∧ (x.pc + 4 < 262144) ∧ (Waits s t (.recv k rd)) ∧ (e.lens = len :: rest)) := by
  refine ⟨?_, ?_, ?_, ?_, ?_, ?_, ?_, ?_, ?_, ?_⟩
  · refine ⟨withTile (fun x => x.setEp 63 { kind := .send, peerPkg := 0xFFFF, peerVt := 1 }), 0, 63, 1, ?_⟩
    dsimp only
    decide +kernel
  · refine ⟨prog 0xA001103F (fun x => ((x.setReg 1 64).setReg 2 64).setEp 63 { kind := .send, grant := .slots 64, credits := 1, peerPkg := 0xFFFF, peerVt := 1 }), { (prog 0xA001103F (fun x => ((x.setReg 1 64).setReg 2 64).setEp 63 { kind := .send, grant := .slots 64, credits := 1, peerPkg := 0xFFFF, peerVt := 1 }) : State) with noc := [⟨0, 1, 0, 5, 0xFFFF, 0, 63, .msg (List.replicate 64 0) false⟩] }, 0, ⟨0, 1, 2, 63⟩, 63, 64, 64, 64, true, ?_⟩
    dsimp only
    exact ⟨by decide +kernel, by decide +kernel, by decide +kernel, by decide +kernel, ⟨by decide +kernel, by decide +kernel, by decide +kernel⟩, by decide +kernel, by decide +kernel, by decide +kernel, by decide +kernel, by decide +kernel, by decide +kernel⟩
  · refine ⟨prog 0xA001103F (fun x => ((x.setReg 1 64).setReg 2 64).setEp 63 { kind := .send, grant := .slots 64, peerPkg := 0xFFFF, peerVt := 1 }), 0, ⟨0, 1, 2, 63⟩, 63, 64, 64, 64, ?_⟩
    dsimp only
    exact ⟨by decide +kernel, by decide +kernel, by decide +kernel, by decide +kernel, ⟨by decide +kernel, by decide +kernel, by decide +kernel⟩, by decide +kernel, by decide +kernel, by decide +kernel, by decide +kernel⟩
  · refine ⟨withTile (fun x => { x.setEp 63 { kind := .send, grant := .slots 64, credits := 1, peerPkg := 0xFFFF, peerVt := 1 } with seq := .waiting, wait := .credit 63 64 64 }), { (State.wakes (withTile (fun x => { x.setEp 63 { kind := .send, grant := .slots 64, credits := 1, peerPkg := 0xFFFF, peerVt := 1 } with seq := .waiting, wait := .credit 63 64 64 })) 0 : State) with noc := [⟨0, 1, 0, 5, 0xFFFF, 0, 63, .msg (List.replicate 64 0) false⟩] }, 0, 63, 64, 64, 64, true, ?_⟩
    dsimp only
    exact ⟨by decide +kernel, by decide +kernel, by decide +kernel, by decide +kernel, ⟨by decide +kernel, by decide +kernel, by decide +kernel, by decide +kernel⟩, by decide +kernel, by decide +kernel, rfl⟩
  · refine ⟨prog 0xA7E0003F (fun x => x.setEp 63 { kind := .recvInline, lens := [64] }), 0, ⟨31, 0, 0, 63⟩, 63, 64, [], ?_⟩
    dsimp only
    exact ⟨by decide +kernel, by decide +kernel, by decide +kernel, ⟨by decide +kernel, by decide +kernel, by decide +kernel⟩, by decide +kernel⟩
  · refine ⟨prog 0xABE0003F (fun x => x.setEp 63 { kind := .recvInline, lens := [64] }), 0, ⟨31, 0, 0, 63⟩, 63, 64, [], ?_⟩
    dsimp only
    exact ⟨by decide +kernel, by decide +kernel, by decide +kernel, ⟨by decide +kernel, by decide +kernel, by decide +kernel⟩, by decide +kernel⟩
  · refine ⟨prog 0xABE0003F (fun x => x.setEp 63 { kind := .recvInline }), 0, ⟨31, 0, 0, 63⟩, 63, ?_⟩
    dsimp only
    exact ⟨by decide +kernel, by decide +kernel, by decide +kernel, ⟨by decide +kernel, by decide +kernel, by decide +kernel⟩, by decide +kernel⟩
  · refine ⟨prog 0xA7E0003F (fun x => x.setEp 63 { kind := .recvInline }), 0, ⟨31, 0, 0, 63⟩, 63, ?_⟩
    dsimp only
    exact ⟨by decide +kernel, by decide +kernel, by decide +kernel, ⟨by decide +kernel, by decide +kernel, by decide +kernel⟩, by decide +kernel⟩
  · refine ⟨prog 0xAC00003F (fun x => x.setEp 63 { kind := .recvInline, returned := 1, peerPkg := 0xFFFF, peerVt := 1 }), { (prog 0xAC00003F (fun x => x.setEp 63 { kind := .recvInline, returned := 1, peerPkg := 0xFFFF, peerVt := 1 }) : State) with noc := [⟨0, 1, 0, 5, 0xFFFF, 0, 63, .credit⟩] }, 0, ⟨0, 0, 0, 63⟩, 63, ?_⟩
    dsimp only
    exact ⟨by decide +kernel, by decide +kernel, by decide +kernel, ⟨by decide +kernel, by decide +kernel, by decide +kernel⟩, by decide +kernel, by decide +kernel⟩
  · refine ⟨withTile (fun x => { x.setEp 63 { kind := .recvInline, lens := [64] } with seq := .waiting, wait := .recv 63 31 }), 0, 31, 63, 64, [], ?_⟩
    dsimp only
    exact ⟨by decide +kernel, by decide +kernel, ⟨by decide +kernel, by decide +kernel, by decide +kernel, by decide +kernel⟩, by decide +kernel⟩

/-- The hypotheses of ChannelSetup can be met. -/
theorem witness_ChannelSetup :
    (∃ (s : State) (t : TileId) (f : RFields) (e : Endpoint),
      let x := s.tile t
      let k := f.fn.toNat
      let a := (x.reg f.rs1).toNat
      (x.pc + 4 < 262144) ∧ (Runs s t (f.word 0x2C)) ∧ (tmOk .scalar false a 24 = true) ∧ (x.poisoned a 24 = false) ∧ (s.chRecord t (x.rd a 24) = some e) ∧ (s.peerBad (x.owner.getD 0) (x.rd a 24) = false) ∧ ((x.ep k).kind = .unconf)) ∧
    (∃ (s : State) (s1 : State) (t : TileId) (f : RFields),
      let x := s.tile t
      let k := f.fn.toNat
      (x.pc + 4 < 262144) ∧ (Runs s t (f.word 0x2D)) ∧ ((x.ep k).armed = false) ∧ ((x.ep k).kind = .recvInline) ∧ (s.chSend t k (.grantSlots (2 ^ (x.ep k).slotLog2) ((x.ep k).slotsM1 + 1)) = (s1, true))) ∧
    (∃ (s : State) (s1 : State) (t : TileId) (f : RFields),
      let x := s.tile t
      let k := f.fn.toNat
      (x.pc + 4 < 262144) ∧ (Runs s t (f.word 0x2D)) ∧ ((x.ep k).armed = false) ∧ ((x.ep k).kind = .recvBulk) ∧ (s.chSend t k (.grantBulk (x.ep k).window) = (s1, true))) := by
  refine ⟨?_, ?_, ?_⟩
  · refine ⟨prog 0xB000003F (fun x => x.write 0 [1, 0, 1, 0, 0xFF, 0xFF] false), 0, ⟨0, 0, 0, 63⟩, { kind := .send, peerVt := 1, peerPkg := 0xFFFF }, ?_⟩
    dsimp only
    exact ⟨by decide +kernel, ⟨by decide +kernel, by decide +kernel, by decide +kernel⟩, by decide +kernel, by decide +kernel, by decide +kernel, by decide +kernel, by decide +kernel⟩
  · refine ⟨prog 0xB400003F (fun x => x.setEp 63 { kind := .recvInline, peerPkg := 0xFFFF, peerVt := 1 }), { (prog 0xB400003F (fun x => x.setEp 63 { kind := .recvInline, peerPkg := 0xFFFF, peerVt := 1 }) : State) with noc := [⟨0, 1, 0, 5, 0xFFFF, 0, 63, .grantSlots 1 1⟩] }, 0, ⟨0, 0, 0, 63⟩, ?_⟩
    dsimp only
    exact ⟨by decide +kernel, ⟨by decide +kernel, by decide +kernel, by decide +kernel⟩, by decide +kernel, by decide +kernel, by decide +kernel⟩
  · refine ⟨prog 0xB400003F (fun x => x.setEp 63 { kind := .recvBulk, peerPkg := 0xFFFF, peerVt := 1 }), { (prog 0xB400003F (fun x => x.setEp 63 { kind := .recvBulk, peerPkg := 0xFFFF, peerVt := 1 }) : State) with noc := [⟨0, 1, 0, 5, 0xFFFF, 0, 63, .grantBulk 0⟩] }, 0, ⟨0, 0, 0, 63⟩, ?_⟩
    dsimp only
    exact ⟨by decide +kernel, ⟨by decide +kernel, by decide +kernel, by decide +kernel⟩, by decide +kernel, by decide +kernel, by decide +kernel⟩

/-- The hypotheses of ChannelPacketsAndNoticesArrive can be met. -/
theorem witness_ChannelPacketsAndNoticesArrive :
    (∃ (s : State) (t : TileId) (ep : Idx64) (p : ChPkt) (rest : List ChPkt) (d : _) (po : _),
      let x := s.tile t
      let Arrives := fun (ep : Nat) (k : ChKind) => s.tileLive t = true ∧ takeInOrder t (fun p => p.ep = ep && p.body.kind (x.ep ep).grant = k) [] s.noc = some (p, rest) ∧ x.owner = some p.fn ∧ s.fnTakes p.fn = true ∧ (x.ep ep).kind = k.takenBy ∧ ({ s with noc := rest } : State).fromPeer p.fn (x.ep ep) p = true ∧ p.body.kind (x.ep ep).grant = k
      let e := x.ep ep
      Arrives ep .msg ∧ (p.body = .msg d po) ∧ (e.part = none) ∧ (p.srcPkg = 0xFFFF)) ∧
    (∃ (s : State) (t : TileId) (ep : Idx64) (p : ChPkt) (rest : List ChPkt) (off : _) (d : _) (po : _),
      let x := s.tile t
      let Arrives := fun (ep : Nat) (k : ChKind) => s.tileLive t = true ∧ takeInOrder t (fun p => p.ep = ep && p.body.kind (x.ep ep).grant = k) [] s.noc = some (p, rest) ∧ x.owner = some p.fn ∧ s.fnTakes p.fn = true ∧ (x.ep ep).kind = k.takenBy ∧ ({ s with noc := rest } : State).fromPeer p.fn (x.ep ep) p = true ∧ p.body.kind (x.ep ep).grant = k
      let s1 := { s with noc := rest }
      let e := x.ep ep
      Arrives ep .bulk ∧ (p.body = .bulk off d po false) ∧ (off + d.length ≤ e.window) ∧ (s1.landRefused t e p off d.length = none)) ∧
    (∃ (s : State) (t : TileId) (ep : Idx64) (p : ChPkt) (rest : List ChPkt) (off : _) (d : _) (po : _),
      let x := s.tile t
      let Arrives := fun (ep : Nat) (k : ChKind) => s.tileLive t = true ∧ takeInOrder t (fun p => p.ep = ep && p.body.kind (x.ep ep).grant = k) [] s.noc = some (p, rest) ∧ x.owner = some p.fn ∧ s.fnTakes p.fn = true ∧ (x.ep ep).kind = k.takenBy ∧ ({ s with noc := rest } : State).fromPeer p.fn (x.ep ep) p = true ∧ p.body.kind (x.ep ep).grant = k
      let s1 := { s with noc := rest }
      let e := x.ep ep
      Arrives ep .bulk ∧ (p.body = .bulk off d po true) ∧ (off + d.length ≤ e.window) ∧ (s1.landRefused t e p off d.length = none)) ∧
    (∃ (s : State) (t : TileId) (ep : Idx64) (p : ChPkt) (rest : List ChPkt) (r : _),
      let x := s.tile t
      let Arrives := fun (ep : Nat) (k : ChKind) => s.tileLive t = true ∧ takeInOrder t (fun p => p.ep = ep && p.body.kind (x.ep ep).grant = k) [] s.noc = some (p, rest) ∧ x.owner = some p.fn ∧ s.fnTakes p.fn = true ∧ (x.ep ep).kind = k.takenBy ∧ ({ s with noc := rest } : State).fromPeer p.fn (x.ep ep) p = true ∧ p.body.kind (x.ep ep).grant = k
      (x.dma.run = some r) ∧ (Arrives (fld r.desc.raw 40 0 6) .ack) ∧ (r.ack = true)) ∧
    (∃ (s : State) (t : TileId) (ep : Idx64) (p : ChPkt) (rest : List ChPkt) (z : _) (n : _),
      let x := s.tile t
      let Arrives := fun (ep : Nat) (k : ChKind) => s.tileLive t = true ∧ takeInOrder t (fun p => p.ep = ep && p.body.kind (x.ep ep).grant = k) [] s.noc = some (p, rest) ∧ x.owner = some p.fn ∧ s.fnTakes p.fn = true ∧ (x.ep ep).kind = k.takenBy ∧ ({ s with noc := rest } : State).fromPeer p.fn (x.ep ep) p = true ∧ p.body.kind (x.ep ep).grant = k
      Arrives ep .grant ∧ (p.body = .grantSlots z n)) ∧
    (∃ (s : State) (t : TileId) (ep : Idx64) (p : ChPkt) (rest : List ChPkt) (z : _),
      let x := s.tile t
      let Arrives := fun (ep : Nat) (k : ChKind) => s.tileLive t = true ∧ takeInOrder t (fun p => p.ep = ep && p.body.kind (x.ep ep).grant = k) [] s.noc = some (p, rest) ∧ x.owner = some p.fn ∧ s.fnTakes p.fn = true ∧ (x.ep ep).kind = k.takenBy ∧ ({ s with noc := rest } : State).fromPeer p.fn (x.ep ep) p = true ∧ p.body.kind (x.ep ep).grant = k
      Arrives ep .grant ∧ (p.body = .grantBulk z)) ∧
    (∃ (s : State) (t : TileId) (ep : Idx64) (p : ChPkt) (rest : List ChPkt),
      let x := s.tile t
      let Arrives := fun (ep : Nat) (k : ChKind) => s.tileLive t = true ∧ takeInOrder t (fun p => p.ep = ep && p.body.kind (x.ep ep).grant = k) [] s.noc = some (p, rest) ∧ x.owner = some p.fn ∧ s.fnTakes p.fn = true ∧ (x.ep ep).kind = k.takenBy ∧ ({ s with noc := rest } : State).fromPeer p.fn (x.ep ep) p = true ∧ p.body.kind (x.ep ep).grant = k
      let e := x.ep ep
      Arrives ep .credit ∧ ((∀ z, e.grant ≠ .bulk z))) ∧
    (∃ (s : State) (t : TileId) (p : ChPkt) (rest : List ChPkt),
      let x := s.tile t
      (s.tileLive t = true) ∧ (takeInOrder t (fun p => p.body.kind .none = .stop) [] s.noc = some (p, rest)) ∧ (x.owner = some p.fn) ∧ ((s.fn p.fn).st = .running)) := by
  refine ⟨?_, ?_, ?_, ?_, ?_, ?_, ?_, ?_⟩
  · refine ⟨{ withTile (fun x => x.setEp 63 { kind := .recvInline, slotLog2 := 6, peerPkg := 0xFFFF, peerVt := 1 }) with noc := [⟨1, 0, 63, 5, 0xFFFF, 1, 0, .msg [1] false⟩] }, 0, 63, ⟨1, 0, 63, 5, 0xFFFF, 1, 0, .msg [1] false⟩, [], [1], false, ?_⟩
    dsimp only
    decide +kernel
  · refine ⟨{ withTile (fun x => x.setEp 63 { kind := .recvBulk, window := 4, peerPkg := 0xFFFF, peerVt := 1 }) with noc := [⟨1, 0, 63, 5, 0xFFFF, 1, 0, .bulk 3 [1] [false] false⟩] }, 0, 63, ⟨1, 0, 63, 5, 0xFFFF, 1, 0, .bulk 3 [1] [false] false⟩, [], 3, [1], [false], ?_⟩
    dsimp only
    decide +kernel
  · refine ⟨{ withTile (fun x => x.setEp 63 { kind := .recvBulk, window := 4, peerPkg := 0xFFFF, peerVt := 1 }) with noc := [⟨1, 0, 63, 5, 0xFFFF, 1, 0, .bulk 3 [1] [false] true⟩] }, 0, 63, ⟨1, 0, 63, 5, 0xFFFF, 1, 0, .bulk 3 [1] [false] true⟩, [], 3, [1], [false], ?_⟩
    dsimp only
    decide +kernel
  · refine ⟨{ withTile (fun x => { x.setEp 63 { kind := .send, grant := .bulk 4, peerPkg := 0xFFFF, peerVt := 1 } with dma := { run := some { desc := ⟨63 * 2 ^ 320, 0⟩, ack := true } } }) with noc := [⟨1, 0, 63, 5, 0xFFFF, 1, 0, .bulkAck⟩] }, 0, 63, ⟨1, 0, 63, 5, 0xFFFF, 1, 0, .bulkAck⟩, [], { desc := ⟨63 * 2 ^ 320, 0⟩, ack := true }, ?_⟩
    dsimp only
    decide +kernel
  · refine ⟨{ withTile (fun x => x.setEp 63 { kind := .send, peerPkg := 0xFFFF, peerVt := 1 }) with noc := [⟨1, 0, 63, 5, 0xFFFF, 1, 0, .grantSlots 64 1⟩] }, 0, 63, ⟨1, 0, 63, 5, 0xFFFF, 1, 0, .grantSlots 64 1⟩, [], 64, 1, ?_⟩
    dsimp only
    decide +kernel
  · refine ⟨{ withTile (fun x => x.setEp 63 { kind := .send, peerPkg := 0xFFFF, peerVt := 1 }) with noc := [⟨1, 0, 63, 5, 0xFFFF, 1, 0, .grantBulk 64⟩] }, 0, 63, ⟨1, 0, 63, 5, 0xFFFF, 1, 0, .grantBulk 64⟩, [], 64, ?_⟩
    dsimp only
    decide +kernel
  · refine ⟨{ withTile (fun x => x.setEp 63 { kind := .send, grant := .slots 64, peerPkg := 0xFFFF, peerVt := 1 }) with noc := [⟨1, 0, 63, 5, 0xFFFF, 1, 0, .credit⟩] }, 0, 63, ⟨1, 0, 63, 5, 0xFFFF, 1, 0, .credit⟩, [], ?_⟩
    dsimp only
    exact ⟨by decide +kernel, fun z h => absurd ((show Grant.slots 64 = _ from rfl).trans h) (by simp)⟩
  · refine ⟨{ lab with noc := [⟨0, 0, 0, 5, 0x10000, 0, 0, .stopNotice⟩] }, 0, ⟨0, 0, 0, 5, 0x10000, 0, 0, .stopNotice⟩, [], ?_⟩
    dsimp only
    decide +kernel

/-- The hypotheses of VectorAndSpecialFunctions can be met. -/
theorem witness_VectorAndSpecialFunctions :
    (∃ (s : State) (t : TileId) (r : Run),
      (s.tileLive t = true) ∧ ((s.tile t).ve.run = some r) ∧ (r.done = false) ∧ (r.desc.engine = 1) ∧ (r.desc.op = 0x3A)) ∧
    (∃ (s : State) (t : TileId) (r : Run),
      (s.tileLive t = true) ∧ ((s.tile t).ve.run = some r) ∧ (r.done = false) ∧ (r.desc.engine = 1) ∧ (r.desc.op = 0x38)) ∧
    (∃ (s : State) (t : TileId) (r : Run),
      (s.tileLive t = true) ∧ ((s.tile t).ve.run = some r) ∧ (r.done = false) ∧ (r.desc.engine = 2) ∧ (r.desc.op = 0x0C)) ∧
    (∃ (s : State) (t : TileId) (r : Run) (p : PatSlot) (q : Pattern),
      (s.tileLive t = true) ∧ ((s.tile t).ve.run = some r) ∧ (r.done = false) ∧ (r.desc.engine = 2) ∧ (0x40 ≤ r.desc.op) ∧ (r.desc.op ≤ 0x7F) ∧ ((s.tile t).patterns.get none (r.desc.op - 0x40) = some p) ∧ (Pattern.parse p.image = some q)) := by
  refine ⟨?_, ?_, ?_, ?_⟩
  · refine ⟨withTile (fun x => { x with ve := { run := some { desc := ⟨0x3A01, 0⟩ } } }), 0, { desc := ⟨0x3A01, 0⟩ }, ?_⟩
    decide +kernel
  · refine ⟨withTile (fun x => { x with ve := { run := some { desc := ⟨0x3801, 0⟩ } } }), 0, { desc := ⟨0x3801, 0⟩ }, ?_⟩
    decide +kernel
  · refine ⟨withTile (fun x => { x with ve := { run := some { desc := ⟨0x0C02, 0⟩ } } }), 0, { desc := ⟨0x0C02, 0⟩ }, ?_⟩
    decide +kernel
  · refine ⟨withTile (fun x => { x with ve := { run := some { desc := ⟨0x4002, 0⟩ } }, patterns := [(0, some ⟨patImage, [], true⟩)] }), 0, { desc := ⟨0x4002, 0⟩ }, ⟨patImage, [], true⟩, ⟨0, false, [0, 0, 0, 0], [], [0x80000000], [], []⟩, ?_⟩
    decide +kernel

/-- The hypotheses of OuterProductPasses can be met. -/
theorem witness_OuterProductPasses :
    (∃ (s : State) (t : TileId) (r : Run) (c : FSpec) (w : FSpec),
      let d := OpaD.of r.desc.raw
      (s.tileLive t = true) ∧ ((s.tile t).opa.run = some r) ∧ (r.done = false) ∧ (r.desc.op = 1) ∧ (FSpec.parse d.col.fmt false = some c) ∧ (FSpec.parse d.row.fmt false = some w) ∧ (r.begun = false)) ∧
    (∃ (s : State) (t : TileId) (r : Run) (row : Idx64) (c : FSpec) (w : FSpec),
      let d := OpaD.of r.desc.raw
      (s.tileLive t = true) ∧ ((s.tile t).opa.run = some r) ∧ (r.done = false) ∧ (r.desc.op = 1) ∧ (FSpec.parse d.col.fmt false = some c) ∧ (FSpec.parse d.row.fmt false = some w) ∧ (r.begun = true) ∧ ((r.waiting d).head? = some row.val)) := by
  refine ⟨?_, ?_⟩
  · refine ⟨withTile (fun x => { x with opa := { run := some { desc := ⟨0x0100 + 2 ^ 582 + 2 ^ 703, 0⟩ } } }), 0, { desc := ⟨0x0100 + 2 ^ 582 + 2 ^ 703, 0⟩ }, ⟨.f32, .rne, false, false, 12, 0⟩, ⟨.f32, .rne, false, false, 12, 0⟩, ?_⟩
    dsimp only
    decide +kernel
  · refine ⟨withTile (fun x => { x with opa := { run := some { desc := ⟨0x0100 + 2 ^ 582 + 2 ^ 703, 0⟩, begun := true, rows := 2 ^ 63 } } }), 0, { desc := ⟨0x0100 + 2 ^ 582 + 2 ^ 703, 0⟩, begun := true, rows := 2 ^ 63 }, 63, ⟨.f32, .rne, false, false, 12, 0⟩, ⟨.f32, .rne, false, false, 12, 0⟩, ?_⟩
    dsimp only
    decide +kernel

/-- The hypotheses of GussetOperations can be met. -/
theorem witness_GussetOperations :
    (∃ (s : State) (t : TileId) (r : Run),
      let x := s.tile t
      (s.tileLive t = true) ∧ ((s.tile t).gus.run = some r) ∧ (r.done = false) ∧ (r.acquired = false) ∧ (x.arrayFree = true) ∧ (x.ve.run = none)) ∧
    (∃ (s : State) (t : TileId) (r : Run),
      (s.tileLive t = true) ∧ ((s.tile t).gus.run = some r) ∧ (r.done = false) ∧ (r.acquired = true) ∧ (r.desc.op = 2)) ∧
    (∃ (s : State) (t : TileId) (r : Run),
      (s.tileLive t = true) ∧ ((s.tile t).gus.run = some r) ∧ (r.done = false) ∧ (r.acquired = true) ∧ (r.desc.op = 3)) ∧
    (∃ (s : State) (t : TileId) (r : Run),
      (s.tileLive t = true) ∧ ((s.tile t).gus.run = some r) ∧ (r.done = false) ∧ (r.acquired = true) ∧ (r.desc.op = 1)) ∧
    (∃ (s : State) (t : TileId) (r : Run),
      (s.tileLive t = true) ∧ ((s.tile t).gus.run = some r) ∧ (r.done = false) ∧ (r.acquired = true) ∧ (r.desc.op = 4)) := by
  refine ⟨?_, ?_, ?_, ?_, ?_⟩
  · refine ⟨withTile (fun x => { x with gus := { run := some { desc := ⟨0x0103, 0⟩ } } }), 0, { desc := ⟨0x0103, 0⟩ }, ?_⟩
    dsimp only
    decide +kernel
  · refine ⟨withTile (fun x => { x with gus := { run := some { desc := ⟨0x0203, 0⟩, acquired := true } } }), 0, { desc := ⟨0x0203, 0⟩, acquired := true }, ?_⟩
    decide +kernel
  · refine ⟨withTile (fun x => { x with gus := { run := some { desc := ⟨0x0303, 0⟩, acquired := true } } }), 0, { desc := ⟨0x0303, 0⟩, acquired := true }, ?_⟩
    decide +kernel
  · refine ⟨withTile (fun x => { x with gus := { run := some { desc := ⟨0x0103, 0⟩, acquired := true } } }), 0, { desc := ⟨0x0103, 0⟩, acquired := true }, ?_⟩
    decide +kernel
  · refine ⟨withTile (fun x => { x with gus := { run := some { desc := ⟨0x0403, 0⟩, acquired := true } } }), 0, { desc := ⟨0x0403, 0⟩, acquired := true }, ?_⟩
    decide +kernel

/-- The hypotheses of PageWalkerAndDma can be met. -/
theorem witness_PageWalkerAndDma :
    (∃ (s : State) (t : TileId) (r : Run) (sp : FSpec),
      let d := AppD.of r.desc.raw
      let left := if r.begun then d.rows.filter (fun i => r.rows.getLsbD i) else d.rows
      (s.tileLive t = true) ∧ ((s.tile t).pw.run = some r) ∧ (r.done = false) ∧ (r.desc.op = 1) ∧ (d.src = some sp) ∧ (left = [])) ∧
    (∃ (s : State) (t : TileId) (r : Run) (sp : FSpec) (i : _) (l : _),
      let d := AppD.of r.desc.raw
      let left := if r.begun then d.rows.filter (fun i => r.rows.getLsbD i) else d.rows
      (s.tileLive t = true) ∧ ((s.tile t).pw.run = some r) ∧ (r.done = false) ∧ (r.desc.op = 1) ∧ (d.src = some sp) ∧ (left = i :: l)) ∧
    (∃ (s : State) (t : TileId) (r : Run),
      (s.tileLive t = true) ∧ ((s.tile t).pw.run = some r) ∧ (r.done = false) ∧ (r.desc.op = 2)) ∧
    (∃ (s : State) (t : TileId) (r : Run),
      let lost := s.dmaLost t r.desc.raw
      (s.tileLive t = true) ∧ ((s.tile t).dma.run = some r) ∧ (r.done = false) ∧ (r.begun = false) ∧ (r.ack = false) ∧ (r.desc.op = 1) ∧ (lost = [])) ∧
    (∃ (s : State) (t : TileId) (r : Run),
      let lost := s.dmaLost t r.desc.raw
      (s.tileLive t = true) ∧ ((s.tile t).dma.run = some r) ∧ (r.done = false) ∧ (r.begun = false) ∧ (r.ack = false) ∧ (r.desc.op = 3) ∧ (lost = [])) ∧
    (∃ (s : State) (t : TileId) (r : Run),
      let lost := s.dmaLost t r.desc.raw
      (s.tileLive t = true) ∧ ((s.tile t).dma.run = some r) ∧ (r.done = false) ∧ (r.begun = false) ∧ (r.ack = false) ∧ (r.desc.op = 2) ∧ (lost = [])) ∧
    (∃ (s : State) (t : TileId) (r : Run),
      let lost := s.dmaLost t r.desc.raw
      (s.tileLive t = true) ∧ ((s.tile t).dma.run = some r) ∧ (r.done = false) ∧ (r.begun = false) ∧ (r.ack = false) ∧ (lost ≠ []) ∧ (r.desc.op = 1)) ∧
    (∃ (s : State) (t : TileId) (r : Run),
      let lost := s.dmaLost t r.desc.raw
      (s.tileLive t = true) ∧ ((s.tile t).dma.run = some r) ∧ (r.done = false) ∧ (r.begun = false) ∧ (r.ack = false) ∧ (lost ≠ []) ∧ (r.desc.op = 3)) ∧
    (∃ (s : State) (t : TileId) (r : Run),
      let lost := s.dmaLost t r.desc.raw
      (s.tileLive t = true) ∧ ((s.tile t).dma.run = some r) ∧ (r.done = false) ∧ (r.begun = false) ∧ (r.ack = false) ∧ (lost ≠ []) ∧ (r.desc.op = 2)) := by
  refine ⟨?_, ?_, ?_, ?_, ?_, ?_, ?_, ?_, ?_⟩
  · refine ⟨withTile (fun x => { x with pw := { run := some { desc := ⟨0x0104, 0⟩, begun := true } } }), 0, { desc := ⟨0x0104, 0⟩, begun := true }, ⟨.f32, .rne, false, false, 12, 0⟩, ?_⟩
    dsimp only
    decide +kernel
  · refine ⟨withTile (fun x => { x with pw := { run := some { desc := ⟨0x0104 + 2 ^ 127, 0⟩, begun := true, rows := 2 ^ 63 } } }), 0, { desc := ⟨0x0104 + 2 ^ 127, 0⟩, begun := true, rows := 2 ^ 63 }, ⟨.f32, .rne, false, false, 12, 0⟩, 63, [], ?_⟩
    dsimp only
    decide +kernel
  · refine ⟨withTile (fun x => { x with pw := { run := some { desc := ⟨0x0204, 0⟩ } } }), 0, { desc := ⟨0x0204, 0⟩ }, ?_⟩
    decide +kernel
  · refine ⟨withTile (fun x => { x with dma := { run := some { desc := ⟨0x0105 + 2 ^ 192 + 2 ^ 224, 0⟩ } } }), 0, { desc := ⟨0x0105 + 2 ^ 192 + 2 ^ 224, 0⟩ }, ?_⟩
    dsimp only
    decide +kernel
  · refine ⟨withTile (fun x => { x with dma := { run := some { desc := ⟨0x0305 + 2 ^ 192 + 2 ^ 224, 0⟩ } } }), 0, { desc := ⟨0x0305 + 2 ^ 192 + 2 ^ 224, 0⟩ }, ?_⟩
    dsimp only
    decide +kernel
  · refine ⟨withTile (fun x => { x with dma := { run := some { desc := ⟨0x0205 + 2 ^ 192 + 2 ^ 224, 0⟩ } } }), 0, { desc := ⟨0x0205 + 2 ^ 192 + 2 ^ 224, 0⟩ }, ?_⟩
    dsimp only
    decide +kernel
  · refine ⟨withTile (fun x => { x with dma := { run := some { desc := ⟨0x0105 + 2 ^ 126 + 2 ^ 96 + 2 ^ 192 + 2 ^ 224, 0⟩ } } }), 0, { desc := ⟨0x0105 + 2 ^ 126 + 2 ^ 96 + 2 ^ 192 + 2 ^ 224, 0⟩ }, ?_⟩
    dsimp only
    decide +kernel
  · refine ⟨withTile (fun x => { x with dma := { run := some { desc := ⟨0x0305 + 2 ^ 190 + 2 ^ 160 + 2 ^ 192 + 2 ^ 224, 0⟩ } } }), 0, { desc := ⟨0x0305 + 2 ^ 190 + 2 ^ 160 + 2 ^ 192 + 2 ^ 224, 0⟩ }, ?_⟩
    dsimp only
    decide +kernel
  · refine ⟨withTile (fun x => { x with dma := { run := some { desc := ⟨0x0205 + 2 ^ 126 + 2 ^ 96 + 2 ^ 192 + 2 ^ 224, 0⟩ } } }), 0, { desc := ⟨0x0205 + 2 ^ 126 + 2 ^ 96 + 2 ^ 192 + 2 ^ 224, 0⟩ }, ?_⟩
    dsimp only
    decide +kernel

/-- The hypotheses of SkelistMessagesAreReceived can be met. -/
theorem witness_SkelistMessagesAreReceived :
    (∃ (s : State) (m : List Byte) (d : BitVec 128),
      let find := discoveryAddr d = true ∧ beAt m 0 2 = 0x0101 ∧ beAt m 4 2 = 0xFFFF
      (s.boot.pgood = true) ∧ (s.fatal.cause = 0) ∧ (9 ≤ s.boot.order) ∧ (s.eth.link = true) ∧ (s.eth.addrs.contains d = true ∨ find)) ∧
    (∃ (s : State) (m : List Byte) (d : BitVec 128),
      let find := discoveryAddr d = true ∧ beAt m 0 2 = 0x0101 ∧ beAt m 4 2 = 0xFFFF
      (s.fatal.cause ≠ 0 ∨ s.boot.order < 9 ∨ s.eth.link = false ∨ (s.eth.addrs.contains d = false ∧ ¬ find))) ∧
    (∃ (s : State) (c : CoreId) (f : Nat),
      let x := s.core c
      let box := (List.range 256).map (fun i => x.request.get 0 i)
      let n := beAt box 6 2
      (s.coreRuns c = true) ∧ (x.fn = some f) ∧ (x.go = false) ∧ (n ≤ 224) ∧ (beAt box 3 1 % 4 = 0) ∧ (beAt box 4 2 = f)) ∧
    (∃ (s : State),
      (64 ≤ s.thm.queue.length + s.thm.long.length)) ∧
    (∃ (s : State) (r : Req),
      (s.thm.queue.length + s.thm.long.length < 64) ∧ (skelistCodes.contains r.cmd = false)) ∧
    (∃ (s : State) (r : Req),
      (s.thm.queue.length + s.thm.long.length < 64) ∧ (skelistCodes.contains r.cmd = true) ∧ (r.cmd ≠ 0x0305)) := by
  refine ⟨?_, ?_, ?_, ?_, ?_, ?_⟩
  · refine ⟨lab, [], 1, ?_⟩
    dsimp only
    decide +kernel
  · refine ⟨lab, [], 2, ?_⟩
    dsimp only
    decide +kernel
  · refine ⟨lab.onCore 0 (fun x => { x with request := [(1, 1), (5, 5)] }), 0, 5, ?_⟩
    dsimp only
    decide +kernel
  · refine ⟨{ lab with thm := { lab.thm with queue := List.replicate 64 (fnReq 0x0101 []) } }, ?_⟩
    decide +kernel
  · refine ⟨lab, fnReq 0xFFFF [], ?_⟩
    decide +kernel
  · refine ⟨lab, fnReq 0x0101 [], ?_⟩
    decide +kernel

/-- The hypotheses of AuthenticMessagesAreAcceptedOnce can be met. -/
theorem witness_AuthenticMessagesAreAcceptedOnce :
    (∃ (m : List Byte),
      let n := beAt m 6 2
      (m.length < 32 ∨ m.length ≠ 32 + n ∨ 224 < n ∨ beAt m 3 1 % 4 ≠ 0)) ∧
    (∃ (s : State) (m : List Byte),
      let f := beAt m 4 2
      (f ≠ 0xFFFF) ∧ ((s.fn f).st = .free)) ∧
    (∃ (s : State) (m : List Byte),
      let n := beAt m 6 2
      let f := beAt m 4 2
      let mac := (m.drop (16 + n)).take 16
      let right := fun (k : BitVec 256) => mac = mac16 k (beBytes 4 s.thm.bootEpoch.toNat ++ m.take (16 + n))
      (f ≠ 0xFFFF) ∧ ((∀ k, s.keyOf f = some k → ¬ right k)) ∧ ((f = 0 → ¬ right s.fuses.claimKey))) ∧
    (∃ (s : State) (m : List Byte) (k : BitVec 256),
      let n := beAt m 6 2
      let f := beAt m 4 2
      let q := beAt m 8 8
      let x := s.fn f
      (m.length = 32 + n) ∧ (n ≤ 224) ∧ (beAt m 3 1 % 4 = 0) ∧ (f < 1024) ∧ (x.st ≠ .free) ∧ (s.keyOf f = some k) ∧ ((m.drop (16 + n)).take 16 = mac16 k (beBytes 4 s.thm.bootEpoch.toNat ++ m.take (16 + n))) ∧ (x.lastSeq < q)) ∧
    (∃ (s : State) (m : List Byte) (k : BitVec 256) (a : _) (b : _),
      let n := beAt m 6 2
      let f := beAt m 4 2
      let q := beAt m 8 8
      let x := s.fn f
      (m.length = 32 + n) ∧ (n ≤ 224) ∧ (beAt m 3 1 % 4 = 0) ∧ (f < 1024) ∧ (x.st ≠ .free) ∧ (s.keyOf f = some k) ∧ ((m.drop (16 + n)).take 16 = mac16 k (beBytes 4 s.thm.bootEpoch.toNat ++ m.take (16 + n))) ∧ (q ≤ x.lastSeq) ∧ (x.accepted.find? (fun a => a.seq = q && a.bytes = m) = some a) ∧ (a.reply = some b)) := by
  refine ⟨?_, ?_, ?_, ?_, ?_⟩
  · refine ⟨[], ?_⟩
    dsimp only
    decide +kernel
  · refine ⟨lab, [3, 7, 0, 0, 0, 9, 0, 0, 0, 0, 0, 0, 0, 0, 0, 1, 121, 97, 31, 108, 199, 209, 209, 114, 249, 201, 216, 186, 241, 6, 196, 216], ?_⟩
    dsimp only
    decide +kernel
  · refine ⟨lab, ([3, 7, 0, 0, 0, 5, 0, 0, 0, 0, 0, 0, 0, 0, 0, 1] ++ List.replicate 16 0), ?_⟩
    dsimp only
    exact ⟨by decide +kernel, fun k hk => by have h : k = 7 := Option.some.inj (hk.symm.trans (by decide +kernel)); subst h; decide +kernel, by decide +kernel⟩
  · refine ⟨lab, [3, 7, 0, 0, 0, 5, 0, 0, 0, 0, 0, 0, 0, 0, 0, 1, 166, 113, 222, 240, 210, 103, 225, 133, 114, 232, 39, 40, 127, 226, 4, 208], 7, ?_⟩
    dsimp only
    decide +kernel
  · refine ⟨lab.onFn 5 (fun x => { x with lastSeq := 1, accepted := [⟨1, [3, 7, 0, 0, 0, 5, 0, 0, 0, 0, 0, 0, 0, 0, 0, 1, 166, 113, 222, 240, 210, 103, 225, 133, 114, 232, 39, 40, 127, 226, 4, 208], some []⟩] }), [3, 7, 0, 0, 0, 5, 0, 0, 0, 0, 0, 0, 0, 0, 0, 1, 166, 113, 222, 240, 210, 103, 225, 133, 114, 232, 39, 40, 127, 226, 4, 208], 7, ⟨1, [3, 7, 0, 0, 0, 5, 0, 0, 0, 0, 0, 0, 0, 0, 0, 1, 166, 113, 222, 240, 210, 103, 225, 133, 114, 232, 39, 40, 127, 226, 4, 208], some []⟩, [], ?_⟩
    dsimp only
    decide +kernel

/-- The hypotheses of IdentityTagAndFirmware can be met. -/
theorem witness_IdentityTagAndFirmware :
    (∃ (s : State) (s0 : State) (r : Req),
      let p := r.payload
      Takes s 0x0101 r s0 ∧ (payOk p [] = true)) ∧
    (∃ (s : State) (s0 : State) (r : Req),
      let p := r.payload
      Takes s 0x0102 r s0 ∧ (r.fn = 0) ∧ (s0.thm.opKey = none) ∧ (r.key = some s0.fuses.claimKey) ∧ (payOk p [(0, 32)] = true) ∧ (s0.tacked = false)) ∧
    (∃ (s : State) (s0 : State) (r : Req),
      let p := r.payload
      let f := beAt p 0 2
      Takes s 0x0103 r s0 ∧ (r.notOperator = false) ∧ (f < 1024) ∧ ((s0.fn f).st = .stopped) ∧ (s0.longOn f = false) ∧ (s0.tacked = false) ∧ (payOk p [(0, 2), (2, 32)] = true)) ∧
    (∃ (s : State) (s0 : State) (r : Req),
      let p := r.payload
      Takes s 0x0104 r s0 ∧ (r.notOperator = false) ∧ (payOk p [(0, 1)] = true) ∧ (s0.tacked = false) ∧ (s0.longOn 1024 = false) ∧ (beAt p 0 1 = 1)) ∧
    (∃ (s : State) (s0 : State) (r : Req),
      let p := r.payload
      Takes s 0x0104 r s0 ∧ (r.notOperator = false) ∧ (payOk p [(0, 1)] = true) ∧ (s0.tacked = false) ∧ (s0.longOn 1024 = false) ∧ (beAt p 0 1 = 0)) ∧
    (∃ (s : State) (s0 : State) (r : Req),
      let p := r.payload
      let off := beAt p 32 8
      let body := s0.quoteBody r.fn (p.take 32) (beAt p 40 1 = 1)
      Takes s 0x0201 r s0 ∧ (payOk p [(0, 32), (32, 8), (40, 1)] = true) ∧ (beAt p 40 1 ≤ 1) ∧ (s0.winOk r.fn off (body.length + 3604) true = true) ∧ (s0.tacked = false) ∧ ((∀ l ∈ s0.thm.long, l.fn = r.fn → l.req.cmd ∉ quoteConflicts)) ∧ (s0.flash.failed = false) ∧ (s0.boot.nextSig < 2 ^ 40)) ∧
    (∃ (s : State) (s0 : State) (r : Req),
      let p := r.payload
      let o := beAt p 0 2
      let n := beAt p 2 1
      let S := fun (c : Nat) (l : List (Nat × Nat)) => Takes s c r s0 ∧ r.notOperator = false ∧ payOk p l = true
      (S 0x0C01 [(0, 2), (2, 1)]) ∧ (1 ≤ n) ∧ (n ≤ 224) ∧ (o + n ≤ 4096)) ∧
    (∃ (s : State) (s0 : State) (r : Req),
      let p := r.payload
      let o := beAt p 0 2
      let n := beAt p 2 1
      let S := fun (c : Nat) (l : List (Nat × Nat)) => Takes s c r s0 ∧ r.notOperator = false ∧ payOk p l = true
      (S 0x0C02 [(0, 2), (2, 1), (8, n)]) ∧ (s0.flash.locked = false) ∧ (1 ≤ n) ∧ (n ≤ 216) ∧ (16 ≤ o) ∧ (o + n ≤ 4096) ∧ (s0.tacked = false) ∧ (s0.flash.failed = false) ∧ (s0.flash.count < 2 ^ 32 - 1)) ∧
    (∃ (s : State) (s0 : State) (r : Req),
      let p := r.payload
      let S := fun (c : Nat) (l : List (Nat × Nat)) => Takes s c r s0 ∧ r.notOperator = false ∧ payOk p l = true
      (S 0x0C03 []) ∧ (s0.tacked = false) ∧ (s0.flash.locked = true)) ∧
    (∃ (s : State) (s0 : State) (r : Req),
      let p := r.payload
      let S := fun (c : Nat) (l : List (Nat × Nat)) => Takes s c r s0 ∧ r.notOperator = false ∧ payOk p l = true
      (S 0x0C03 []) ∧ (s0.tacked = false) ∧ (s0.flash.locked = false) ∧ (s0.flash.count < 2 ^ 32 - 1)) ∧
    (∃ (s : State) (s0 : State) (s1 : State) (r : Req) (bs : List Byte),
      let p := r.payload
      let o := beAt p 0 2
      let S := fun (c : Nat) (l : List (Nat × Nat)) => Takes s c r s0 ∧ r.notOperator = false ∧ payOk p l = true
      let quiet := s0.tacked = false ∧ s0.trialRuns = false ∧ (∀ l ∈ s0.thm.long, l.req.cmd ≠ 0x0D01)
      (S 0x0D01 [(0, 2), (8, 8), (16, 4), (24, 32)]) ∧ (o < 1024) ∧ ((s0.fn o).st ≠ .free) ∧ (beAt p 16 4 ≤ 100659200) ∧ quiet ∧ (s0.readImage o (beAt p 8 8) (beAt p 16 4) ((p.drop 24).take 32) = (s1, some bs))) ∧
    (∃ (s : State) (s0 : State) (r : Req),
      let p := r.payload
      let v := beAt p 0 1
      let S := fun (c : Nat) (l : List (Nat × Nat)) => Takes s c r s0 ∧ r.notOperator = false ∧ payOk p l = true
      let quiet := s0.tacked = false ∧ s0.trialRuns = false ∧ (∀ l ∈ s0.thm.long, l.req.cmd ≠ 0x0D01)
      (S 0x0D02 [(0, 1)]) ∧ (v ≤ 1) ∧ quiet ∧ ((∀ e ∈ s0.fns, e.2.service = true ∨ e.2.st ≠ .running ∧ e.2.st ≠ .stopping)) ∧ (v = s0.boot.slot) ∧ ((s0.slot v).state = .active)) ∧
    (∃ (s : State) (s0 : State) (r : Req),
      let p := r.payload
      let v := beAt p 0 1
      let S := fun (c : Nat) (l : List (Nat × Nat)) => Takes s c r s0 ∧ r.notOperator = false ∧ payOk p l = true
      let quiet := s0.tacked = false ∧ s0.trialRuns = false ∧ (∀ l ∈ s0.thm.long, l.req.cmd ≠ 0x0D01)
      (S 0x0D02 [(0, 1)]) ∧ (v ≤ 1) ∧ quiet ∧ ((∀ e ∈ s0.fns, e.2.service = true ∨ e.2.st ≠ .running ∧ e.2.st ≠ .stopping)) ∧ (v = s0.boot.slot) ∧ ((s0.slot v).state = .valid)) ∧
    (∃ (s : State) (s0 : State) (r : Req),
      let p := r.payload
      let v := beAt p 0 1
      let S := fun (c : Nat) (l : List (Nat × Nat)) => Takes s c r s0 ∧ r.notOperator = false ∧ payOk p l = true
      let quiet := s0.tacked = false ∧ s0.trialRuns = false ∧ (∀ l ∈ s0.thm.long, l.req.cmd ≠ 0x0D01)
      (S 0x0D02 [(0, 1)]) ∧ (v ≤ 1) ∧ quiet ∧ ((∀ e ∈ s0.fns, e.2.service = true ∨ e.2.st ≠ .running ∧ e.2.st ≠ .stopping)) ∧ (v ≠ s0.boot.slot) ∧ ((s0.slot v).state = .valid) ∧ (s0.bootable (s0.slot v) = true)) ∧
    (∃ (s : State) (s0 : State) (r : Req),
      let p := r.payload
      let S := fun (c : Nat) (l : List (Nat × Nat)) => Takes s c r s0 ∧ r.notOperator = false ∧ payOk p l = true
      (S 0x0D03 [])) := by
  refine ⟨?_, ?_, ?_, ?_, ?_, ?_, ?_, ?_, ?_, ?_, ?_, ?_, ?_, ?_, ?_⟩
  · refine ⟨asks lab (opReq 0x0101 []), asked lab, (opReq 0x0101 []), ?_⟩
    dsimp only
    exact ⟨takes_asks _ _ _ (by decide +kernel) rfl (by decide +kernel), by decide +kernel⟩
  · refine ⟨asks { lab with thm := { lab.thm with opKey := none } } { opReq 0x0102 (List.replicate 32 0) with key := some lab.fuses.claimKey }, asked { lab with thm := { lab.thm with opKey := none } }, { opReq 0x0102 (List.replicate 32 0) with key := some lab.fuses.claimKey }, ?_⟩
    dsimp only
    exact ⟨takes_asks _ _ _ (by decide +kernel) rfl (by decide +kernel), by decide +kernel, by decide +kernel, by decide +kernel, by decide +kernel, by decide +kernel⟩
  · refine ⟨asks lab (opReq 0x0103 ([0, 6] ++ List.replicate 32 0)), asked lab, (opReq 0x0103 ([0, 6] ++ List.replicate 32 0)), ?_⟩
    dsimp only
    exact ⟨takes_asks _ _ _ (by decide +kernel) rfl (by decide +kernel), by decide +kernel, by decide +kernel, by decide +kernel, by decide +kernel, by decide +kernel, by decide +kernel⟩
  · refine ⟨asks lab (opReq 0x0104 [1]), asked lab, (opReq 0x0104 [1]), ?_⟩
    dsimp only
    exact ⟨takes_asks _ _ _ (by decide +kernel) rfl (by decide +kernel), by decide +kernel, by decide +kernel, by decide +kernel, by decide +kernel, by decide +kernel⟩
  · refine ⟨asks lab (opReq 0x0104 [0]), asked lab, (opReq 0x0104 [0]), ?_⟩
    dsimp only
    exact ⟨takes_asks _ _ _ (by decide +kernel) rfl (by decide +kernel), by decide +kernel, by decide +kernel, by decide +kernel, by decide +kernel, by decide +kernel⟩
  · refine ⟨asks lab (fnReq 0x0201 (List.replicate 41 0)), asked lab, (fnReq 0x0201 (List.replicate 41 0)), ?_⟩
    dsimp only
    exact ⟨takes_asks _ _ _ (by decide +kernel) rfl (by decide +kernel), by decide +kernel, by decide +kernel, by decide +kernel, by decide +kernel, by decide +kernel, by decide +kernel, by decide +kernel⟩
  · refine ⟨asks lab (opReq 0x0C01 [15, 32, 224]), asked lab, (opReq 0x0C01 [15, 32, 224]), ?_⟩
    dsimp only
    exact ⟨⟨takes_asks _ _ _ (by decide +kernel) rfl (by decide +kernel), by decide +kernel⟩, by decide +kernel, by decide +kernel, by decide +kernel⟩
  · refine ⟨asks lab (opReq 0x0C02 [0, 16, 1, 0, 0, 0, 0, 0, 0]), asked lab, (opReq 0x0C02 [0, 16, 1, 0, 0, 0, 0, 0, 0]), ?_⟩
    dsimp only
    exact ⟨⟨takes_asks _ _ _ (by decide +kernel) rfl (by decide +kernel), by decide +kernel⟩, by decide +kernel, by decide +kernel, by decide +kernel, by decide +kernel, by decide +kernel, by decide +kernel, by decide +kernel, by decide +kernel⟩
  · refine ⟨asks ({ lab with flash := lab.flash.tagWrite 6 [1] }) (opReq 0x0C03 []), asked ({ lab with flash := lab.flash.tagWrite 6 [1] }), (opReq 0x0C03 []), ?_⟩
    dsimp only
    exact ⟨⟨takes_asks _ _ _ (by decide +kernel) rfl (by decide +kernel), by decide +kernel⟩, by decide +kernel, by decide +kernel⟩
  · refine ⟨asks lab (opReq 0x0C03 []), asked lab, (opReq 0x0C03 []), ?_⟩
    dsimp only
    exact ⟨⟨takes_asks _ _ _ (by decide +kernel) rfl (by decide +kernel), by decide +kernel⟩, by decide +kernel, by decide +kernel, by decide +kernel⟩
  · refine ⟨asks (labImage ([76, 75, 84, 80, 1, 0, 0, 0, 4] ++ List.replicate 55 0 ++ [9, 0, 0, 0])) (opReq 0x0D01 ([0, 5] ++ List.replicate 17 0 ++ [68, 0, 0, 0, 0, 41, 83, 151, 136, 176, 36, 186, 124, 247, 73, 166, 123, 188, 237, 20, 218, 218, 122, 84, 64, 240, 68, 71, 144, 173, 119, 0, 143, 98, 121, 111, 21])), asked (labImage ([76, 75, 84, 80, 1, 0, 0, 0, 4] ++ List.replicate 55 0 ++ [9, 0, 0, 0])), asked (labImage ([76, 75, 84, 80, 1, 0, 0, 0, 4] ++ List.replicate 55 0 ++ [9, 0, 0, 0])), (opReq 0x0D01 ([0, 5] ++ List.replicate 17 0 ++ [68, 0, 0, 0, 0, 41, 83, 151, 136, 176, 36, 186, 124, 247, 73, 166, 123, 188, 237, 20, 218, 218, 122, 84, 64, 240, 68, 71, 144, 173, 119, 0, 143, 98, 121, 111, 21])), ([76, 75, 84, 80, 1, 0, 0, 0, 4] ++ List.replicate 55 0 ++ [9, 0, 0, 0]), ?_⟩
    dsimp only
    exact ⟨⟨takes_asks _ _ _ (by decide +kernel) rfl (by decide +kernel), by decide +kernel⟩, by decide +kernel, by decide +kernel, by decide +kernel, by decide +kernel, by decide +kernel⟩
  · refine ⟨asks ({ (lab.onFn 5 (fun x => { x with st := .stopped })) with flash := { lab.flash with slotA := { state := .active, factory := true }, slotB := { state := .empty, factory := true } } }) (opReq 0x0D02 [0]), asked ({ (lab.onFn 5 (fun x => { x with st := .stopped })) with flash := { lab.flash with slotA := { state := .active, factory := true }, slotB := { state := .empty, factory := true } } }), (opReq 0x0D02 [0]), ?_⟩
    dsimp only
    exact ⟨⟨takes_asks _ _ _ (by decide +kernel) rfl (by decide +kernel), by decide +kernel⟩, by decide +kernel, by decide +kernel, by decide +kernel, by decide +kernel, by decide +kernel⟩
  · refine ⟨asks ({ (lab.onFn 5 (fun x => { x with st := .stopped })) with flash := { lab.flash with slotA := { state := .valid, factory := true }, slotB := { state := .empty, factory := true } } }) (opReq 0x0D02 [0]), asked ({ (lab.onFn 5 (fun x => { x with st := .stopped })) with flash := { lab.flash with slotA := { state := .valid, factory := true }, slotB := { state := .empty, factory := true } } }), (opReq 0x0D02 [0]), ?_⟩
    dsimp only
    exact ⟨⟨takes_asks _ _ _ (by decide +kernel) rfl (by decide +kernel), by decide +kernel⟩, by decide +kernel, by decide +kernel, by decide +kernel, by decide +kernel, by decide +kernel⟩
  · refine ⟨asks ({ (lab.onFn 5 (fun x => { x with st := .stopped })) with flash := { lab.flash with slotA := { state := .active, factory := true }, slotB := { state := .valid, factory := true } } }) (opReq 0x0D02 [1]), asked ({ (lab.onFn 5 (fun x => { x with st := .stopped })) with flash := { lab.flash with slotA := { state := .active, factory := true }, slotB := { state := .valid, factory := true } } }), (opReq 0x0D02 [1]), ?_⟩
    dsimp only
    exact ⟨⟨takes_asks _ _ _ (by decide +kernel) rfl (by decide +kernel), by decide +kernel⟩, by decide +kernel, by decide +kernel, by decide +kernel, by decide +kernel, by decide +kernel, by decide +kernel⟩
  · refine ⟨asks lab (opReq 0x0D03 []), asked lab, (opReq 0x0D03 []), ?_⟩
    dsimp only
    exact ⟨takes_asks _ _ _ (by decide +kernel) rfl (by decide +kernel), by decide +kernel⟩

/-- The hypotheses of FunctionsStartAndStop can be met. -/
theorem witness_FunctionsStartAndStop :
    (∃ (s : State) (s0 : State) (r : Req),
      let p := r.payload
      let f := beAt p 0 2
      Takes s 0x0301 r s0 ∧ (r.notOperator = false) ∧ (payOk p [(0, 2), (2, 32)] = true) ∧ (0 < f) ∧ (f < 1024) ∧ (s0.tacked = false) ∧ ((s0.fn f).st = .free) ∧ (s0.inService f = false)) ∧
    (∃ (s : State) (s0 : State) (r : Req),
      let p := r.payload
      let f := beAt p 0 2
      Takes s 0x0302 r s0 ∧ (r.notOperator = false) ∧ (payOk p [(0, 2)] = true) ∧ (0 < f) ∧ (f < 1024) ∧ ((s0.fn f).st = .stopped) ∧ (s0.longOn f = false) ∧ (s0.tacked = false)) ∧
    (∃ (s : State) (s0 : State) (r : Req),
      let p := r.payload
      let g := r.fn
      let x := s0.fn g
      Takes s 0x0303 r s0 ∧ (payOk p [] = true) ∧ (s0.longOn g = false) ∧ (s0.tacked = false) ∧ (x.st = .running)) ∧
    (∃ (s : State) (s0 : State) (r : Req),
      let p := r.payload
      let g := r.fn
      let x := s0.fn g
      Takes s 0x0303 r s0 ∧ (payOk p [] = true) ∧ (s0.longOn g = false) ∧ (s0.tacked = false) ∧ (x.st = .stopped) ∧ ((∀ v ∈ x.vtmap, ∃ t, v = some t ∧ (s0.tile t).retired = false)) ∧ (s0.pathsOk (s0.tilesOf g) (s0.coresOf g) = true)) ∧
    (∃ (s : State) (s0 : State) (r : Req) (c : _),
      let p := r.payload
      let g := r.fn
      let x := s0.fn g
      Takes s 0x0304 r s0 ∧ (payOk p [(0, 1)] = true) ∧ (beAt p 0 1 ≤ 1) ∧ (x.st = .running) ∧ (x.charge = some c)) ∧
    (∃ (s : State) (s0 : State) (r : Req),
      let p := r.payload
      let g := r.fn
      let x := s0.fn g
      Takes s 0x0304 r s0 ∧ (payOk p [(0, 1)] = true) ∧ (beAt p 0 1 ≤ 1) ∧ (x.st = .running) ∧ (x.charge = none)) ∧
    (∃ (s : State) (s0 : State) (r : Req),
      let p := r.payload
      let g := r.fn
      let x := s0.fn g
      Takes s 0x0304 r s0 ∧ (payOk p [(0, 1)] = true) ∧ (beAt p 0 1 ≤ 1) ∧ (x.st = .stopping)) ∧
    (∃ (s : State) (s0 : State) (r : Req),
      let p := r.payload
      Takes s 0x0307 r s0 ∧ (payOk p [] = true)) ∧
    (∃ (s : State) (f : FnId) (c : Charge),
      (s.live = true) ∧ ((s.fn f).charge = some c) ∧ ((s.fn f).st = .running)) ∧
    (∃ (s : State) (f : FnId),
      (s.live = true) ∧ ((s.fn f).st = .stopping) ∧ ((s.fn f).abort = false)) ∧
    (∃ (s : State) (f : FnId),
      let s1 := if (s.fn f).abort then s.cutAll f else s
      (s.live = true) ∧ ((s.fn f).st = .stopping) ∧ (s1.quiet f = true)) := by
  refine ⟨?_, ?_, ?_, ?_, ?_, ?_, ?_, ?_, ?_, ?_, ?_⟩
  · refine ⟨asks lab (opReq 0x0301 ([3, 255] ++ List.replicate 32 0)), asked lab, (opReq 0x0301 ([3, 255] ++ List.replicate 32 0)), ?_⟩
    dsimp only
    exact ⟨takes_asks _ _ _ (by decide +kernel) rfl (by decide +kernel), by decide +kernel, by decide +kernel, by decide +kernel, by decide +kernel, by decide +kernel, by decide +kernel, by decide +kernel⟩
  · refine ⟨asks lab (opReq 0x0302 [0, 6]), asked lab, (opReq 0x0302 [0, 6]), ?_⟩
    dsimp only
    exact ⟨takes_asks _ _ _ (by decide +kernel) rfl (by decide +kernel), by decide +kernel, by decide +kernel, by decide +kernel, by decide +kernel, by decide +kernel, by decide +kernel, by decide +kernel⟩
  · refine ⟨asks lab (fnReq 0x0303 []), asked lab, (fnReq 0x0303 []), ?_⟩
    dsimp only
    exact ⟨takes_asks _ _ _ (by decide +kernel) rfl (by decide +kernel), by decide +kernel, by decide +kernel, by decide +kernel, by decide +kernel⟩
  · refine ⟨asks (lab.onFn 5 (fun x => { x with st := .stopped })) (fnReq 0x0303 []), asked (lab.onFn 5 (fun x => { x with st := .stopped })), (fnReq 0x0303 []), ?_⟩
    dsimp only
    exact ⟨takes_asks _ _ _ (by decide +kernel) rfl (by decide +kernel), by decide +kernel, by decide +kernel, by decide +kernel, by decide +kernel, by decide +kernel, by decide +kernel⟩
  · refine ⟨asks (lab.onFn 5 (fun x => { x with charge := some ⟨0, 0, 0⟩ })) (fnReq 0x0304 [1]), asked (lab.onFn 5 (fun x => { x with charge := some ⟨0, 0, 0⟩ })), (fnReq 0x0304 [1]), ⟨0, 0, 0⟩, ?_⟩
    dsimp only
    exact ⟨takes_asks _ _ _ (by decide +kernel) rfl (by decide +kernel), by decide +kernel, by decide +kernel, by decide +kernel, by decide +kernel⟩
  · refine ⟨asks lab (fnReq 0x0304 [1]), asked lab, (fnReq 0x0304 [1]), ?_⟩
    dsimp only
    exact ⟨takes_asks _ _ _ (by decide +kernel) rfl (by decide +kernel), by decide +kernel, by decide +kernel, by decide +kernel, by decide +kernel⟩
  · refine ⟨asks (lab.onFn 5 (fun x => { x with st := .stopping })) (fnReq 0x0304 [1]), asked (lab.onFn 5 (fun x => { x with st := .stopping })), (fnReq 0x0304 [1]), ?_⟩
    dsimp only
    exact ⟨takes_asks _ _ _ (by decide +kernel) rfl (by decide +kernel), by decide +kernel, by decide +kernel, by decide +kernel⟩
  · refine ⟨asks lab (fnReq 0x0307 []), asked lab, (fnReq 0x0307 []), ?_⟩
    dsimp only
    exact ⟨takes_asks _ _ _ (by decide +kernel) rfl (by decide +kernel), by decide +kernel⟩
  · refine ⟨lab.onFn 5 (fun x => { x with charge := some ⟨0, 0, 0⟩ }), 5, ⟨0, 0, 0⟩, ?_⟩
    decide +kernel
  · refine ⟨lab.onFn 5 (fun x => { x with st := .stopping }), 5, ?_⟩
    decide +kernel
  · refine ⟨lab.onFn 5 (fun x => { x with st := .stopping }), 5, ?_⟩
    dsimp only
    decide +kernel

/-- The hypotheses of AssignmentAndWithdrawal can be met. -/
theorem witness_AssignmentAndWithdrawal :
    (∃ (s : State) (s0 : State) (r : Req),
      let p := r.payload
      let f := beAt p 0 2
      let A := fun (k : Nat) (l : List (Nat × Nat)) => Assigns s k l r s0
      let ts := maskTiles (beMask p 4 10)
      (A 1 [(4, 10), (16, 4), (20, 4)]) ∧ (beAt p 16 4 + beAt p 20 4 ≤ s0.slabPages) ∧ ((∀ t ∈ ts, (s0.tile t).retired = false ∧ ((s0.tile t).owner = none ∨ (s0.tile t).owner = some f))) ∧ (s0.pathsOk (ts ++ s0.tilesOf f) (s0.coresOf f) = true)) ∧
    (∃ (s : State) (s0 : State) (r : Req),
      let p := r.payload
      let f := beAt p 0 2
      let A := fun (k : Nat) (l : List (Nat × Nat)) => Assigns s k l r s0
      (A 2 [(4, 1), (6, 10), (16, 4), (20, 4)]) ∧ (beAt p 4 1 < 32) ∧ (s0.badSpread f (BitVec.ofNat 80 (beMask p 6 10)) (beAt p 16 4) (beAt p 20 4) = false) ∧ (s0.pathsOk (s0.tilesOf f) [] = true)) ∧
    (∃ (s : State) (s0 : State) (r : Req),
      let p := r.payload
      let f := beAt p 0 2
      let A := fun (k : Nat) (l : List (Nat × Nat)) => Assigns s k l r s0
      let a := beAt p 4 2
      let n := beAt p 6 2
      let group := beAt p 8 1 = 1
      (A 3 [(4, 2), (6, 2), (8, 1)]) ∧ (a + n ≤ 8192) ∧ (beAt p 8 1 ≤ 1) ∧ ((∀ e ∈ s0.rings, a ≤ e.1 → e.1 < a + n → e.2.valid = true → e.2.fn = f)) ∧ ((group → (s0.rings.filter (fun e => e.2.valid && e.2.group && !(a ≤ e.1 && e.1 < a + n))).length + n ≤ 512))) ∧
    (∃ (s : State) (s0 : State) (r : Req),
      let p := r.payload
      let f := beAt p 0 2
      let A := fun (k : Nat) (l : List (Nat × Nat)) => Assigns s k l r s0
      let a := beAt p 4 2
      let n := beAt p 6 2
      (A 4 [(4, 2), (6, 2)]) ∧ (a + n ≤ 16384) ∧ ((∀ e ∈ s0.fns, e.1 ≠ f → e.2.fenceBase + e.2.fences ≤ a ∨ a + n ≤ e.2.fenceBase))) ∧
    (∃ (s : State) (s0 : State) (r : Req),
      let p := r.payload
      let f := beAt p 0 2
      let A := fun (k : Nat) (l : List (Nat × Nat)) => Assigns s k l r s0
      let cs := (List.range 32).filter (fun c => (beMask p 4 4).testBit c)
      (A 5 [(4, 4)]) ∧ (s0.fuses.part ≠ 3) ∧ ((∀ c ∈ cs, c ∉ s0.flash.withheldCores ∧ ((s0.core c).fn = none ∨ (s0.core c).fn = some f))) ∧ (s0.pathsOk (s0.tilesOf f) (cs ++ s0.coresOf f) = true)) ∧
    (∃ (s : State) (s0 : State) (r : Req),
      let p := r.payload
      let f := beAt p 0 2
      let A := fun (k : Nat) (l : List (Nat × Nat)) => Assigns s k l r s0
      (A 6 [(4, 1), (8, 4)]) ∧ (beAt p 4 1 < 32) ∧ (beAt p 8 4 ≤ 1048576) ∧ (beAt p 8 4 ≤ s0.setCapacity f (beAt p 4 1))) ∧
    (∃ (s : State) (s0 : State) (r : Req),
      let p := r.payload
      let f := beAt p 0 2
      let A := fun (k : Nat) (l : List (Nat × Nat)) => Assigns s k l r s0
      let vs := ((p.drop 8).take (beAt p 4 1)).map (fun b => b.toNat)
      (A 7 [(4, 1), (8, beAt p 4 1)]) ∧ (1 ≤ beAt p 4 1) ∧ (beAt p 4 1 ≤ 80) ∧ vs.Nodup ∧ ((∀ t ∈ vs, t < 80 ∧ (s0.tile t).owner = some f ∧ (s0.tile t).retired = false))) ∧
    (∃ (s : State) (s0 : State) (r : Req),
      let p := r.payload
      let A := fun (k : Nat) (l : List (Nat × Nat)) => Assigns s k l r s0
      (A 8 [(8, 8), (16, 2)]) ∧ (1 ≤ beAt p 16 2) ∧ (beAt p 16 2 ≤ 10000)) ∧
    (∃ (s : State) (d : DomId),
      let y := s.dom d
      (y.ungating = true)) ∧
    (∃ (s : State) (s0 : State) (r : Req),
      let p := r.payload
      let f := beAt p 0 2
      let x := s0.fn f
      let W := fun (k len : Nat) (l : List (Nat × Nat)) => Takes s 0x0306 r s0 ∧ r.notOperator = false ∧ f < 1024 ∧ x.st = .stopped ∧ s0.longOn f = false ∧ s0.tacked = false ∧ beAt p 2 1 = k ∧ len ≤ p.length ∧ restZero p ([(0, 2), (2, 1)] ++ l) = true
      (W 1 14 [(4, 10), (16, 4), (20, 4)]) ∧ ((∀ t ∈ maskTiles (beMask p 4 10), (s0.tile t).owner = some f ∨ ((s0.tile t).retired = true ∧ x.vtmap.contains (some t) = true)))) ∧
    (∃ (s : State) (s0 : State) (r : Req),
      let p := r.payload
      let f := beAt p 0 2
      let x := s0.fn f
      let W := fun (k len : Nat) (l : List (Nat × Nat)) => Takes s 0x0306 r s0 ∧ r.notOperator = false ∧ f < 1024 ∧ x.st = .stopped ∧ s0.longOn f = false ∧ s0.tacked = false ∧ beAt p 2 1 = k ∧ len ≤ p.length ∧ restZero p ([(0, 2), (2, 1)] ++ l) = true
      (W 2 5 [(4, 1), (6, 10), (16, 4), (20, 4)]) ∧ (beAt p 4 1 < 32) ∧ (((s0.slab (s0.spreadTile f none)).spread.get {} (beAt p 4 1)).valid = true)) ∧
    (∃ (s : State) (s0 : State) (r : Req),
      let p := r.payload
      let f := beAt p 0 2
      let x := s0.fn f
      let a := beAt p 4 2
      let n := beAt p 6 2
      let W := fun (k len : Nat) (l : List (Nat × Nat)) => Takes s 0x0306 r s0 ∧ r.notOperator = false ∧ f < 1024 ∧ x.st = .stopped ∧ s0.longOn f = false ∧ s0.tacked = false ∧ beAt p 2 1 = k ∧ len ≤ p.length ∧ restZero p ([(0, 2), (2, 1)] ++ l) = true
      (W 3 8 [(4, 2), (6, 2), (8, 1)]) ∧ ((a, n) ∈ x.ringRanges)) ∧
    (∃ (s : State) (s0 : State) (r : Req),
      let p := r.payload
      let f := beAt p 0 2
      let x := s0.fn f
      let a := beAt p 4 2
      let n := beAt p 6 2
      let W := fun (k len : Nat) (l : List (Nat × Nat)) => Takes s 0x0306 r s0 ∧ r.notOperator = false ∧ f < 1024 ∧ x.st = .stopped ∧ s0.longOn f = false ∧ s0.tacked = false ∧ beAt p 2 1 = k ∧ len ≤ p.length ∧ restZero p ([(0, 2), (2, 1)] ++ l) = true
      (W 4 8 [(4, 2), (6, 2)]) ∧ (x.fences ≠ 0) ∧ (x.fenceBase = a) ∧ (x.fences = n)) ∧
    (∃ (s : State) (s0 : State) (r : Req),
      let p := r.payload
      let f := beAt p 0 2
      let x := s0.fn f
      let W := fun (k len : Nat) (l : List (Nat × Nat)) => Takes s 0x0306 r s0 ∧ r.notOperator = false ∧ f < 1024 ∧ x.st = .stopped ∧ s0.longOn f = false ∧ s0.tacked = false ∧ beAt p 2 1 = k ∧ len ≤ p.length ∧ restZero p ([(0, 2), (2, 1)] ++ l) = true
      (W 5 8 [(4, 4)]) ∧ (s0.fuses.part ≠ 3) ∧ ((∀ c < 32, (beMask p 4 4).testBit c = true → (s0.core c).fn = some f))) ∧
    (∃ (s : State) (s0 : State) (r : Req),
      let p := r.payload
      let f := beAt p 0 2
      let x := s0.fn f
      let W := fun (k len : Nat) (l : List (Nat × Nat)) => Takes s 0x0306 r s0 ∧ r.notOperator = false ∧ f < 1024 ∧ x.st = .stopped ∧ s0.longOn f = false ∧ s0.tacked = false ∧ beAt p 2 1 = k ∧ len ≤ p.length ∧ restZero p ([(0, 2), (2, 1)] ++ l) = true
      (W 6 5 [(4, 1), (8, 4)]) ∧ (x.winValid = true) ∧ (x.winSet = beAt p 4 1)) := by
  refine ⟨?_, ?_, ?_, ?_, ?_, ?_, ?_, ?_, ?_, ?_, ?_, ?_, ?_, ?_, ?_⟩
  · refine ⟨asks lab (opReq 0x0305 [0, 6, 1, 0, 0, 0, 0, 0, 0, 0, 0, 0, 0, 4, 0, 0, 0, 0, 0, 8, 0, 0, 0, 4]), asked lab, (opReq 0x0305 [0, 6, 1, 0, 0, 0, 0, 0, 0, 0, 0, 0, 0, 4, 0, 0, 0, 0, 0, 8, 0, 0, 0, 4]), ?_⟩
    dsimp only
    exact ⟨assigns_asks _ _ _ _ (by decide +kernel) ⟨rfl, by decide +kernel⟩ (by decide +kernel) (by decide +kernel), by decide +kernel, by decide +kernel, by decide +kernel⟩
  · refine ⟨asks ({ lab with fns := lab.fns.set {} 6 { st := .stopped, vtmap := [some 2] }, tiles := lab.tiles.set {} 2 { owner := some 6 }, slabs := lab.slabs.set {} 2 { ext := ⟨0, 4, 6, true⟩ } }) (opReq 0x0305 [0, 6, 2, 0, 31, 0, 0, 0, 0, 0, 0, 0, 0, 0, 0, 1, 0, 0, 0, 0, 0, 0, 0, 4]), asked ({ lab with fns := lab.fns.set {} 6 { st := .stopped, vtmap := [some 2] }, tiles := lab.tiles.set {} 2 { owner := some 6 }, slabs := lab.slabs.set {} 2 { ext := ⟨0, 4, 6, true⟩ } }), (opReq 0x0305 [0, 6, 2, 0, 31, 0, 0, 0, 0, 0, 0, 0, 0, 0, 0, 1, 0, 0, 0, 0, 0, 0, 0, 4]), ?_⟩
    dsimp only
    exact ⟨assigns_asks _ _ _ _ (by decide +kernel) ⟨rfl, by decide +kernel⟩ (by decide +kernel) (by decide +kernel), by decide +kernel, by decide +kernel, by decide +kernel⟩
  · refine ⟨asks lab (opReq 0x0305 [0, 6, 3, 0, 31, 255, 0, 1, 1]), asked lab, (opReq 0x0305 [0, 6, 3, 0, 31, 255, 0, 1, 1]), ?_⟩
    dsimp only
    exact ⟨assigns_asks _ _ _ _ (by decide +kernel) ⟨rfl, by decide +kernel⟩ (by decide +kernel) (by decide +kernel), by decide +kernel, by decide +kernel, by decide +kernel, by decide +kernel⟩
  · refine ⟨asks lab (opReq 0x0305 [0, 6, 4, 0, 63, 255, 0, 1]), asked lab, (opReq 0x0305 [0, 6, 4, 0, 63, 255, 0, 1]), ?_⟩
    dsimp only
    exact ⟨assigns_asks _ _ _ _ (by decide +kernel) ⟨rfl, by decide +kernel⟩ (by decide +kernel) (by decide +kernel), by decide +kernel, by decide +kernel⟩
  · refine ⟨asks lab (opReq 0x0305 [0, 6, 5, 0, 128, 0, 0, 0]), asked lab, (opReq 0x0305 [0, 6, 5, 0, 128, 0, 0, 0]), ?_⟩
    dsimp only
    exact ⟨assigns_asks _ _ _ _ (by decide +kernel) ⟨rfl, by decide +kernel⟩ (by decide +kernel) (by decide +kernel), by decide +kernel, by decide +kernel, by decide +kernel⟩
  · refine ⟨asks ({ lab with fns := lab.fns.set {} 6 { st := .stopped, vtmap := [some 2] }, tiles := lab.tiles.set {} 2 { owner := some 6 }, slabs := lab.slabs.set {} 2 { ext := ⟨0, 4, 6, true⟩, spread := [(31, { members := 1, granules := 4, valid := true })] } }) (opReq 0x0305 [0, 6, 6, 0, 31, 0, 0, 0, 0, 0, 0, 4]), asked ({ lab with fns := lab.fns.set {} 6 { st := .stopped, vtmap := [some 2] }, tiles := lab.tiles.set {} 2 { owner := some 6 }, slabs := lab.slabs.set {} 2 { ext := ⟨0, 4, 6, true⟩, spread := [(31, { members := 1, granules := 4, valid := true })] } }), (opReq 0x0305 [0, 6, 6, 0, 31, 0, 0, 0, 0, 0, 0, 4]), ?_⟩
    dsimp only
    exact ⟨assigns_asks _ _ _ _ (by decide +kernel) ⟨rfl, by decide +kernel⟩ (by decide +kernel) (by decide +kernel), by decide +kernel, by decide +kernel, by decide +kernel⟩
  · refine ⟨asks ({ lab with tiles := lab.tiles.set {} 79 { owner := some 6 } }) (opReq 0x0305 [0, 6, 7, 0, 1, 0, 0, 0, 79]), asked ({ lab with tiles := lab.tiles.set {} 79 { owner := some 6 } }), (opReq 0x0305 [0, 6, 7, 0, 1, 0, 0, 0, 79]), ?_⟩
    dsimp only
    exact ⟨assigns_asks _ _ _ _ (by decide +kernel) ⟨rfl, by decide +kernel⟩ (by decide +kernel) (by decide +kernel), by decide +kernel, by decide +kernel, by decide +kernel, by decide +kernel⟩
  · refine ⟨asks lab (opReq 0x0305 ([0, 6, 8] ++ List.replicate 12 0 ++ [5, 39, 16])), asked lab, (opReq 0x0305 ([0, 6, 8] ++ List.replicate 12 0 ++ [5, 39, 16])), ?_⟩
    dsimp only
    exact ⟨assigns_asks _ _ _ _ (by decide +kernel) ⟨rfl, by decide +kernel⟩ (by decide +kernel) (by decide +kernel), by decide +kernel, by decide +kernel⟩
  · refine ⟨lab.setDom 0 { lab.dom 0 with ungating := true }, 0, ?_⟩
    dsimp only
    decide +kernel
  · refine ⟨asks (lab.onFn 5 (fun x => { x with st := .stopped, ringRanges := [(0, 1)] })) (opReq 0x0306 [0, 5, 1, 0, 0, 0, 0, 0, 0, 0, 0, 0, 0, 3]), asked (lab.onFn 5 (fun x => { x with st := .stopped, ringRanges := [(0, 1)] })), (opReq 0x0306 [0, 5, 1, 0, 0, 0, 0, 0, 0, 0, 0, 0, 0, 3]), ?_⟩
    dsimp only
    exact ⟨⟨takes_asks _ _ _ (by decide +kernel) rfl (by decide +kernel), by decide +kernel⟩, by decide +kernel⟩
  · refine ⟨asks (lab.onFn 5 (fun x => { x with st := .stopped, ringRanges := [(0, 1)] })) (opReq 0x0306 [0, 5, 2, 0, 0]), asked (lab.onFn 5 (fun x => { x with st := .stopped, ringRanges := [(0, 1)] })), (opReq 0x0306 [0, 5, 2, 0, 0]), ?_⟩
    dsimp only
    exact ⟨⟨takes_asks _ _ _ (by decide +kernel) rfl (by decide +kernel), by decide +kernel⟩, by decide +kernel, by decide +kernel⟩
  · refine ⟨asks (lab.onFn 5 (fun x => { x with st := .stopped, ringRanges := [(0, 1)] })) (opReq 0x0306 [0, 5, 3, 0, 0, 0, 0, 1]), asked (lab.onFn 5 (fun x => { x with st := .stopped, ringRanges := [(0, 1)] })), (opReq 0x0306 [0, 5, 3, 0, 0, 0, 0, 1]), ?_⟩
    dsimp only
    exact ⟨⟨takes_asks _ _ _ (by decide +kernel) rfl (by decide +kernel), by decide +kernel⟩, by decide +kernel⟩
  · refine ⟨asks (lab.onFn 5 (fun x => { x with st := .stopped, ringRanges := [(0, 1)] })) (opReq 0x0306 [0, 5, 4, 0, 0, 0, 0, 4]), asked (lab.onFn 5 (fun x => { x with st := .stopped, ringRanges := [(0, 1)] })), (opReq 0x0306 [0, 5, 4, 0, 0, 0, 0, 4]), ?_⟩
    dsimp only
    exact ⟨⟨takes_asks _ _ _ (by decide +kernel) rfl (by decide +kernel), by decide +kernel⟩, by decide +kernel, by decide +kernel, by decide +kernel⟩
  · refine ⟨asks (lab.onFn 5 (fun x => { x with st := .stopped, ringRanges := [(0, 1)] })) (opReq 0x0306 [0, 5, 5, 0, 0, 0, 0, 1]), asked (lab.onFn 5 (fun x => { x with st := .stopped, ringRanges := [(0, 1)] })), (opReq 0x0306 [0, 5, 5, 0, 0, 0, 0, 1]), ?_⟩
    dsimp only
    exact ⟨⟨takes_asks _ _ _ (by decide +kernel) rfl (by decide +kernel), by decide +kernel⟩, by decide +kernel, by decide +kernel⟩
  · refine ⟨asks (lab.onFn 5 (fun x => { x with st := .stopped, ringRanges := [(0, 1)] })) (opReq 0x0306 [0, 5, 6, 0, 0]), asked (lab.onFn 5 (fun x => { x with st := .stopped, ringRanges := [(0, 1)] })), (opReq 0x0306 [0, 5, 6, 0, 0]), ?_⟩
    dsimp only
    exact ⟨⟨takes_asks _ _ _ (by decide +kernel) rfl (by decide +kernel), by decide +kernel⟩, by decide +kernel, by decide +kernel⟩

/-- The hypotheses of ResourceCommands can be met. -/
theorem witness_ResourceCommands :
    (∃ (s : State) (s0 : State) (r : Req) (t : Nat),
      let p := r.payload
      let f := r.fn
      let S := fun (c : Nat) (l : List (Nat × Nat)) => Takes s c r s0 ∧ payOk p l = true
      let pg := beAt p 4 4
      let b := s0.slab t
      (S 0x0308 [(0, 1), (4, 4)]) ∧ (s0.vtile f (beAt p 0 1) = some t) ∧ ((s0.tile t).retired = false) ∧ (b.ext.valid = true) ∧ (b.ext.fn = f) ∧ (b.ext.basePage ≤ pg) ∧ (pg < b.ext.basePage + b.ext.pages) ∧ ((∃ e, b.retireOf pg = some e ∧ e.retired = false)) ∧ (s0.longOn f = false) ∧ (s0.tacked = false)) ∧
    (∃ (s : State) (s0 : State) (r : Req) (ps : _),
      let p := r.payload
      let f := r.fn
      let S := fun (c : Nat) (l : List (Nat × Nat)) => Takes s c r s0 ∧ payOk p l = true
      (S 0x0309 [(0, 8), (8, 4), (12, 1)]) ∧ (beAt p 0 8 % 64 = 0) ∧ (1 ≤ beAt p 8 4) ∧ (beAt p 8 4 ≤ 2 ^ 20) ∧ (beAt p 12 1 < 128) ∧ (s0.pieces f none (beAt p 8 4 * 64 / 65536 + 2) (beAt p 0 8) (beAt p 8 4 * 64) = some ps) ∧ ((∀ q ∈ ps, (s0.tile q.1).retired = false ∧ (s0.slab q.1).isRetired (q.2.1 / 65536) = false)) ∧ (s0.tacked = false)) ∧
    (∃ (s : State) (s0 : State) (r : Req) (k : Nat),
      let p := r.payload
      let f := r.fn
      let a := beAt p 0 2
      let S := fun (c : Nat) (l : List (Nat × Nat)) => Takes s c r s0 ∧ payOk p l = true
      let idle := (s0.fn f).st = .stopped ∧ s0.longOn f = false ∧ s0.tacked = false
      (S 0x0401 [(0, 2), (8, 8), (16, 8), (24, 1)]) ∧ (s0.localRing f a = some k) ∧ (beAt p 8 8 % 64 = 0) ∧ (beAt p 8 8 < 2 ^ 62) ∧ (beAt p 16 8 % 8 = 0) ∧ (beAt p 16 8 < 2 ^ 62) ∧ (6 ≤ beAt p 24 1) ∧ (beAt p 24 1 ≤ 16) ∧ idle) ∧
    (∃ (s : State) (s0 : State) (r : Req),
      let p := r.payload
      let f := r.fn
      let a := beAt p 0 2
      let n := beAt p 2 1
      let S := fun (c : Nat) (l : List (Nat × Nat)) => Takes s c r s0 ∧ payOk p l = true
      (S 0x0402 [(0, 2), (2, 1)]) ∧ (1 ≤ n) ∧ (n ≤ 28) ∧ (a + n ≤ (s0.ringsOf f).length)) ∧
    (∃ (s : State) (s0 : State) (r : Req),
      let p := r.payload
      let f := r.fn
      let x := s0.fn f
      let a := beAt p 0 2
      let n := beAt p 2 1
      let S := fun (c : Nat) (l : List (Nat × Nat)) => Takes s c r s0 ∧ payOk p l = true
      (S 0x0403 [(0, 2), (2, 1)]) ∧ (1 ≤ n) ∧ (n ≤ 28) ∧ (a + n ≤ x.fences)) ∧
    (∃ (s : State) (s0 : State) (r : Req),
      let p := r.payload
      let f := r.fn
      let x := s0.fn f
      let a := beAt p 0 2
      let n := beAt p 2 1
      let S := fun (c : Nat) (l : List (Nat × Nat)) => Takes s c r s0 ∧ payOk p l = true
      (S 0x0404 [(0, 2), (2, 1), (8, 8)]) ∧ (n ≤ 1) ∧ (a < x.fences) ∧ (s0.tacked = false)) ∧
    (∃ (s : State) (s0 : State) (r : Req),
      let p := r.payload
      let f := r.fn
      let S := fun (c : Nat) (l : List (Nat × Nat)) => Takes s c r s0 ∧ payOk p l = true
      (S 0x0B02 [(0, 1), (1, 1)]) ∧ (1 ≤ beAt p 1 1) ∧ (beAt p 1 1 ≤ 37) ∧ (beAt p 0 1 + beAt p 1 1 ≤ s0.vtiles f) ∧ ((∀ i < beAt p 1 1, s0.tileRetired (s0.vtile f (beAt p 0 1 + i)) = false))) := by
  refine ⟨?_, ?_, ?_, ?_, ?_, ?_, ?_⟩
  · refine ⟨asks (lab.onSlab 0 (fun b => { b with retire := [(31, ⟨15, true, false⟩)] })) (fnReq 0x0308 [0, 0, 0, 0, 0, 0, 0, 15]), asked (lab.onSlab 0 (fun b => { b with retire := [(31, ⟨15, true, false⟩)] })), (fnReq 0x0308 [0, 0, 0, 0, 0, 0, 0, 15]), 0, ?_⟩
    dsimp only
    exact ⟨⟨takes_asks _ _ _ (by decide +kernel) rfl (by decide +kernel), by decide +kernel⟩, by decide +kernel, by decide +kernel, by decide +kernel, by decide +kernel, by decide +kernel, by decide +kernel, ⟨⟨15, true, false⟩, by decide +kernel, rfl⟩, by decide +kernel, by decide +kernel⟩
  · refine ⟨asks lab (fnReq 0x0309 [0, 0, 0, 0, 0, 0, 0, 0, 0, 0, 0, 1, 127]), asked lab, (fnReq 0x0309 [0, 0, 0, 0, 0, 0, 0, 0, 0, 0, 0, 1, 127]), [(0, 0, 64)], ?_⟩
    dsimp only
    exact ⟨⟨takes_asks _ _ _ (by decide +kernel) rfl (by decide +kernel), by decide +kernel⟩, by decide +kernel, by decide +kernel, by decide +kernel, by decide +kernel, by decide +kernel, by decide +kernel, by decide +kernel⟩
  · refine ⟨asks (lab.onFn 5 (fun x => { x with st := .stopped, ringRanges := [(0, 1)] })) (fnReq 0x0401 (List.replicate 24 0 ++ [16])), asked (lab.onFn 5 (fun x => { x with st := .stopped, ringRanges := [(0, 1)] })), (fnReq 0x0401 (List.replicate 24 0 ++ [16])), 0, ?_⟩
    dsimp only
    exact ⟨⟨takes_asks _ _ _ (by decide +kernel) rfl (by decide +kernel), by decide +kernel⟩, by decide +kernel, by decide +kernel, by decide +kernel, by decide +kernel, by decide +kernel, by decide +kernel, by decide +kernel, by decide +kernel⟩
  · refine ⟨asks lab (fnReq 0x0402 [0, 0, 1]), asked lab, (fnReq 0x0402 [0, 0, 1]), ?_⟩
    dsimp only
    exact ⟨⟨takes_asks _ _ _ (by decide +kernel) rfl (by decide +kernel), by decide +kernel⟩, by decide +kernel, by decide +kernel, by decide +kernel⟩
  · refine ⟨asks lab (fnReq 0x0403 [0, 0, 4]), asked lab, (fnReq 0x0403 [0, 0, 4]), ?_⟩
    dsimp only
    exact ⟨⟨takes_asks _ _ _ (by decide +kernel) rfl (by decide +kernel), by decide +kernel⟩, by decide +kernel, by decide +kernel, by decide +kernel⟩
  · refine ⟨asks lab (fnReq 0x0404 ([0, 3, 1] ++ List.replicate 13 0)), asked lab, (fnReq 0x0404 ([0, 3, 1] ++ List.replicate 13 0)), ?_⟩
    dsimp only
    exact ⟨⟨takes_asks _ _ _ (by decide +kernel) rfl (by decide +kernel), by decide +kernel⟩, by decide +kernel, by decide +kernel, by decide +kernel⟩
  · refine ⟨asks lab (fnReq 0x0B02 [0, 2]), asked lab, (fnReq 0x0B02 [0, 2]), ?_⟩
    dsimp only
    exact ⟨⟨takes_asks _ _ _ (by decide +kernel) rfl (by decide +kernel), by decide +kernel⟩, by decide +kernel, by decide +kernel, by decide +kernel, by decide +kernel⟩

/-- The hypotheses of WindowCommands can be met. -/
theorem witness_WindowCommands :
    (∃ (s : State) (s0 : State) (r : Req) (l : Long),
      let p := r.payload
      let f := r.fn
      let a := beAt p 0 4
      let n := beAt p 4 4
      let ps := s0.winRange f a n
      Takes s 0x0501 r s0 ∧ (payOk p [(0, 4), (4, 4), (8, 1)] = true) ∧ ((s0.fn f).st = .running) ∧ (beAt p 8 1 ≤ 2) ∧ (s0.inWindow f a n = true) ∧ (ps.any s0.pageRetired = false) ∧ (s0.tacked = false) ∧ ((∀ l ∈ s0.thm.long, l.fn = f → l.req.cmd = 0x0501)) ∧ ((∀ q ∈ ps, (s0.pflagOf q).pending = false))) ∧
    (∃ (s : State) (r : Req) (g : FnId) (l : Long),
      let p := r.payload
      (s.thm.long.find? (fun l => l.fn = g.val && l.req.cmd = 0x0501 && (s.winRange g l.first l.pages).all (fun p => !(s.heldPages g).contains p)) = some l) ∧ (s.thmRuns = true)) ∧
    (∃ (s : State) (g : FnId) (l : Long),
      (s.thm.long.find? (fun l => l.fn = g.val && l.req.cmd = 0x0501) = some l) ∧ (s.thmRuns = true) ∧ (s.tacked = false)) ∧
    (∃ (s : State) (s0 : State) (r : Req),
      let p := r.payload
      let f := r.fn
      let a := beAt p 0 4
      Takes s 0x0502 r s0 ∧ (payOk p [(0, 4), (4, 2)] = true) ∧ (1 ≤ beAt p 4 2) ∧ (beAt p 4 2 ≤ 896) ∧ (s0.inWindow f a (beAt p 4 2) = true) ∧ ((s0.winRange f a (beAt p 4 2)).any s0.pageRetired = false)) := by
  refine ⟨?_, ?_, ?_, ?_⟩
  · refine ⟨asks lab (fnReq 0x0501 [0, 0, 0, 0, 0, 0, 0, 4, 2]), asked lab, (fnReq 0x0501 [0, 0, 0, 0, 0, 0, 0, 4, 2]), ⟨fnReq 0x0501 [], 5, none, 3, 1⟩, ?_⟩
    dsimp only
    exact ⟨takes_asks _ _ _ (by decide +kernel) rfl (by decide +kernel), by decide +kernel, by decide +kernel, by decide +kernel, by decide +kernel, by decide +kernel, by decide +kernel, by decide +kernel, by decide +kernel⟩
  · refine ⟨{ lab with thm := { lab.thm with long := [⟨fnReq 0x0501 [], 5, none, 3, 1⟩] } }, fnReq 0 [], 5, ⟨fnReq 0x0501 [], 5, none, 3, 1⟩, ?_⟩
    dsimp only
    decide +kernel
  · refine ⟨{ lab with thm := { lab.thm with long := [⟨fnReq 0x0501 [], 5, none, 3, 1⟩] } }, 5, ⟨fnReq 0x0501 [], 5, none, 3, 1⟩, ?_⟩
    decide +kernel
  · refine ⟨asks lab (fnReq 0x0502 [0, 0, 0, 0, 0, 4]), asked lab, (fnReq 0x0502 [0, 0, 0, 0, 0, 4]), ?_⟩
    dsimp only
    exact ⟨takes_asks _ _ _ (by decide +kernel) rfl (by decide +kernel), by decide +kernel, by decide +kernel, by decide +kernel, by decide +kernel, by decide +kernel⟩

/-- The hypotheses of LoadCommands can be met. -/
theorem witness_LoadCommands :
    (∃ (s : State) (s0 : State) (s1 : State) (r : Req) (bs : List Byte) (im : Image),
      let p := r.payload
      let vs := maskBits (beMask p 0 10)
      Takes s 0x0601 r s0 ∧ (payOk p [(0, 10), (16, 8), (24, 4), (32, 32)] = true) ∧ (s0.readImage r.fn (beAt p 16 8) (beAt p 24 4) ((p.drop 32).take 32) = (s1, some bs)) ∧ (Image.parse bs = some im) ∧ ((∀ v ∈ vs, ∃ t, s0.vtile r.fn v = some t ∧ (s1.tile t).retired = false)) ∧ (s1.busyFor r.fn = false)) ∧
    (∃ (s : State) (s0 : State) (s1 : State) (r : Req) (bs : List Byte) (ps : List (Nat × Nat × Nat)) (q : Pattern),
      let p := r.payload
      let cs := (s0.localCores r.fn (beMask p 0 4)).filterMap id
      Takes s 0x0602 r s0 ∧ (payOk p [(0, 4), (8, 8), (16, 4), (24, 8), (32, 8), (40, 32)] = true) ∧ (s0.readImage r.fn (beAt p 8 8) (beAt p 16 4) ((p.drop 40).take 32) = (s1, some bs)) ∧ (s0.fuses.part ≠ 3) ∧ (none ∉ s0.localCores r.fn (beMask p 0 4)) ∧ (s0.pieces r.fn none (beAt p 16 4 / 65536 + 2) (beAt p 24 8) (beAt p 16 4) = some ps) ∧ ((∀ q ∈ ps, (s1.pflagOf (q.1, q.2.1 / 65536)).thimble true = true ∧ s1.pageRetired (q.1, q.2.1 / 65536) = false)) ∧ ((∀ c ∈ cs, c ∉ s1.flash.withheldCores)) ∧ (s1.busyFor r.fn = false)) ∧
    (∃ (s : State) (s0 : State) (s1 : State) (r : Req) (bs : List Byte) (q : Pattern),
      let p := r.payload
      let f := beAt p 0 2
      let idle := fun (f : Nat) => (s0.fn f).st = .stopped ∧ s0.longOn f = false ∧ s0.tacked = false
      let op := r.notOperator = false ∧ s0.fuses.part ≠ 3 ∧ f < 1024 ∧ idle f ∧ beAt p 2 1 ≤ 63
      let slot := beAt p 2 1
      Takes s 0x0603 r s0 ∧ op ∧ (payOk p [(0, 2), (2, 1), (8, 8), (16, 4), (24, 32)] = true) ∧ (s0.readImage f (beAt p 8 8) (beAt p 16 4) ((p.drop 24).take 32) = (s1, some bs)) ∧ (Pattern.parse bs = some q) ∧ (s1.busyFor f = false) ∧ ((s1.fn f).patterns.get none slot = none) ∧ ((s1.fn f).patUsed + bs.length ≤ 262144)) ∧
    (∃ (s : State) (s0 : State) (r : Req),
      let p := r.payload
      let f := beAt p 0 2
      let idle := fun (f : Nat) => (s0.fn f).st = .stopped ∧ s0.longOn f = false ∧ s0.tacked = false
      let op := r.notOperator = false ∧ s0.fuses.part ≠ 3 ∧ f < 1024 ∧ idle f ∧ beAt p 2 1 ≤ 63
      Takes s 0x0604 r s0 ∧ op ∧ (payOk p [(0, 2), (2, 1)] = true)) ∧
    (∃ (s : State) (s0 : State) (r : Req) (c : _),
      let p := r.payload
      Takes s 0x0605 r s0 ∧ (s0.fuses.part ≠ 3) ∧ (payOk p [(0, 1)] = true) ∧ (beAt p 0 1 ≤ 63) ∧ ((s0.fn r.fn).patterns.get none (beAt p 0 1) = some c)) ∧
    (∃ (s : State) (g : FnId) (l : Long) (rest : List Long) (st : _) (out : _),
      (s.thmRuns = true) ∧ (takeFirst (fun l => l.fn = g.val && l.result.isSome) s.thm.long = some (l, rest)) ∧ (l.result = some (st, out))) := by
  refine ⟨?_, ?_, ?_, ?_, ?_, ?_⟩
  · refine ⟨asks (labImage ([76, 75, 84, 80, 1, 0, 0, 0, 4] ++ List.replicate 55 0 ++ [9, 0, 0, 0])) (fnReq 0x0601 ([0, 0, 0, 0, 0, 0, 0, 0, 0, 2] ++ List.replicate 17 0 ++ [68, 0, 0, 0, 0, 41, 83, 151, 136, 176, 36, 186, 124, 247, 73, 166, 123, 188, 237, 20, 218, 218, 122, 84, 64, 240, 68, 71, 144, 173, 119, 0, 143, 98, 121, 111, 21])), asked (labImage ([76, 75, 84, 80, 1, 0, 0, 0, 4] ++ List.replicate 55 0 ++ [9, 0, 0, 0])), asked (labImage ([76, 75, 84, 80, 1, 0, 0, 0, 4] ++ List.replicate 55 0 ++ [9, 0, 0, 0])), (fnReq 0x0601 ([0, 0, 0, 0, 0, 0, 0, 0, 0, 2] ++ List.replicate 17 0 ++ [68, 0, 0, 0, 0, 41, 83, 151, 136, 176, 36, 186, 124, 247, 73, 166, 123, 188, 237, 20, 218, 218, 122, 84, 64, 240, 68, 71, 144, 173, 119, 0, 143, 98, 121, 111, 21])), ([76, 75, 84, 80, 1, 0, 0, 0, 4] ++ List.replicate 55 0 ++ [9, 0, 0, 0]), { entry := 0, code := [9, 0, 0, 0], data := [], dataAddr := 0, digest := sha256v ([76, 75, 84, 80, 1, 0, 0, 0, 4] ++ List.replicate 55 0 ++ [9, 0, 0, 0]) }, ?_⟩
    dsimp only
    exact ⟨takes_asks _ _ _ (by decide +kernel) rfl (by decide +kernel), by decide +kernel, by decide +kernel, by decide +kernel, fun v hv => ⟨1, by revert v; decide +kernel⟩, by decide +kernel⟩
  · refine ⟨asks (labImage ([76, 75, 84, 80, 1, 0, 0, 0, 4] ++ List.replicate 55 0 ++ [9, 0, 0, 0])) (fnReq 0x0602 ([0, 0, 0, 1] ++ List.replicate 15 0 ++ [68, 0, 0, 0, 0, 32, 0, 0, 0, 0, 1, 0, 0, 0, 0, 0, 0, 0, 0, 0, 0, 41, 83, 151, 136, 176, 36, 186, 124, 247, 73, 166, 123, 188, 237, 20, 218, 218, 122, 84, 64, 240, 68, 71, 144, 173, 119, 0, 143, 98, 121, 111, 21])), asked (labImage ([76, 75, 84, 80, 1, 0, 0, 0, 4] ++ List.replicate 55 0 ++ [9, 0, 0, 0])), asked (labImage ([76, 75, 84, 80, 1, 0, 0, 0, 4] ++ List.replicate 55 0 ++ [9, 0, 0, 0])), (fnReq 0x0602 ([0, 0, 0, 1] ++ List.replicate 15 0 ++ [68, 0, 0, 0, 0, 32, 0, 0, 0, 0, 1, 0, 0, 0, 0, 0, 0, 0, 0, 0, 0, 41, 83, 151, 136, 176, 36, 186, 124, 247, 73, 166, 123, 188, 237, 20, 218, 218, 122, 84, 64, 240, 68, 71, 144, 173, 119, 0, 143, 98, 121, 111, 21])), ([76, 75, 84, 80, 1, 0, 0, 0, 4] ++ List.replicate 55 0 ++ [9, 0, 0, 0]), [(0, 589824, 68)], ⟨0, false, [], [], [], [], []⟩, ?_⟩
    dsimp only
    exact ⟨takes_asks _ _ _ (by decide +kernel) rfl (by decide +kernel), by decide +kernel, by decide +kernel, by decide +kernel, by decide +kernel, by decide +kernel, by decide +kernel, by decide +kernel, by decide +kernel⟩
  · refine ⟨asks (labImage ([80, 78, 70, 83, 1, 0, 0, 0, 1] ++ List.replicate 58 0 ++ [128])) (opReq 0x0603 ([0, 5, 63] ++ List.replicate 16 0 ++ [68, 0, 0, 0, 0, 98, 133, 178, 36, 6, 155, 16, 77, 212, 238, 200, 16, 50, 185, 180, 249, 208, 51, 229, 109, 121, 249, 63, 118, 86, 67, 35, 35, 180, 13, 3, 93])), asked (labImage ([80, 78, 70, 83, 1, 0, 0, 0, 1] ++ List.replicate 58 0 ++ [128])), asked (labImage ([80, 78, 70, 83, 1, 0, 0, 0, 1] ++ List.replicate 58 0 ++ [128])), (opReq 0x0603 ([0, 5, 63] ++ List.replicate 16 0 ++ [68, 0, 0, 0, 0, 98, 133, 178, 36, 6, 155, 16, 77, 212, 238, 200, 16, 50, 185, 180, 249, 208, 51, 229, 109, 121, 249, 63, 118, 86, 67, 35, 35, 180, 13, 3, 93])), patImage, ⟨0, false, [0, 0, 0, 0], [], [0x80000000], [], []⟩, ?_⟩
    dsimp only
    exact ⟨takes_asks _ _ _ (by decide +kernel) rfl (by decide +kernel), by decide +kernel, by decide +kernel, by decide +kernel, by decide +kernel, by decide +kernel, by decide +kernel, by decide +kernel⟩
  · refine ⟨asks (labImage ([80, 78, 70, 83, 1, 0, 0, 0, 1] ++ List.replicate 58 0 ++ [128])) (opReq 0x0604 [0, 5, 63]), asked (labImage ([80, 78, 70, 83, 1, 0, 0, 0, 1] ++ List.replicate 58 0 ++ [128])), (opReq 0x0604 [0, 5, 63]), ?_⟩
    dsimp only
    exact ⟨takes_asks _ _ _ (by decide +kernel) rfl (by decide +kernel), by decide +kernel, by decide +kernel⟩
  · refine ⟨asks (lab.onFn 5 (fun x => { x with patterns := [(63, some ⟨[], [], true⟩)] })) (fnReq 0x0605 [63]), asked (lab.onFn 5 (fun x => { x with patterns := [(63, some ⟨[], [], true⟩)] })), (fnReq 0x0605 [63]), ⟨[], [], true⟩, ?_⟩
    dsimp only
    exact ⟨takes_asks _ _ _ (by decide +kernel) rfl (by decide +kernel), by decide +kernel, by decide +kernel, by decide +kernel, by decide +kernel⟩
  · refine ⟨{ lab with thm := { lab.thm with long := [{ req := fnReq 0x0601 [], fn := 5, result := some (0, []) }] } }, 5, { req := fnReq 0x0601 [], fn := 5, result := some (0, []) }, [], 0, [], ?_⟩
    decide +kernel

/-- The hypotheses of RefusalsComeInOrder can be met. -/
theorem witness_RefusalsComeInOrder :
    (∃ (s : State) (s0 : State) (r : Req),
      Takes s 0x0301 r s0 ∧ (r.notOperator = true)) ∧
    (∃ (s : State) (s0 : State) (r : Req),
      let p := r.payload
      let f := beAt p 0 2
      Takes s 0x0301 r s0 ∧ (r.notOperator = false) ∧ (f = 0 ∨ 1024 ≤ f)) ∧
    (∃ (s : State) (s0 : State) (r : Req),
      let p := r.payload
      let f := beAt p 0 2
      Takes s 0x0301 r s0 ∧ (r.notOperator = false) ∧ (payOk p [(0, 2), (2, 32)] = true) ∧ (0 < f) ∧ (f < 1024) ∧ (s0.tacked = false) ∧ ((s0.fn f).st ≠ .free)) ∧
    (∃ (s : State) (s0 : State) (r : Req),
      let p := r.payload
      let f := beAt p 0 2
      Takes s 0x0302 r s0 ∧ (r.notOperator = false) ∧ (0 < f) ∧ (f < 1024) ∧ ((s0.fn f).st = .free)) ∧
    (∃ (s : State) (s0 : State) (r : Req),
      let p := r.payload
      let f := beAt p 0 2
      Takes s 0x0302 r s0 ∧ (r.notOperator = false) ∧ (payOk p [(0, 2)] = true) ∧ (0 < f) ∧ (f < 1024) ∧ ((s0.fn f).st = .running)) ∧
    (∃ (s : State) (s0 : State) (r : Req),
      Takes s 0x0102 r s0 ∧ (s0.thm.opKey.isSome = true)) ∧
    (∃ (s : State) (s0 : State) (r : Req),
      Takes s 0x0C02 r s0 ∧ (s0.flash.locked = true)) ∧
    (∃ (s : State) (s0 : State) (r : Req),
      Takes s 0x0602 r s0 ∧ (s0.fuses.part = 3)) ∧
    (∃ (s : State) (r : Req) (q : List Req),
      (takeFirst s.mayStart s.thm.queue = some (r, q)) ∧ (r.cmd = 0x0303) ∧ (s.gone r = true)) ∧
    (∃ (s : State) (s0 : State) (r : Req),
      let p := r.payload
      let f := beAt p 0 2
      Takes s 0x0404 r s0 ∧ (payOk p [(0, 2), (2, 1), (8, 8)] = true) ∧ (beAt p 2 1 ≤ 1) ∧ (f < (s0.fn r.fn).fences) ∧ (s0.tacked = true)) := by
  refine ⟨?_, ?_, ?_, ?_, ?_, ?_, ?_, ?_, ?_, ?_⟩
  · refine ⟨asks lab (fnReq 0x0301 []), asked lab, (fnReq 0x0301 []), ?_⟩
    exact ⟨takes_asks _ _ _ (by decide +kernel) rfl (by decide +kernel), by decide +kernel⟩
  · refine ⟨asks lab (opReq 0x0301 [4, 0]), asked lab, (opReq 0x0301 [4, 0]), ?_⟩
    dsimp only
    exact ⟨takes_asks _ _ _ (by decide +kernel) rfl (by decide +kernel), by decide +kernel, by decide +kernel⟩
  · refine ⟨asks lab (opReq 0x0301 ([0, 6] ++ List.replicate 32 0)), asked lab, (opReq 0x0301 ([0, 6] ++ List.replicate 32 0)), ?_⟩
    dsimp only
    exact ⟨takes_asks _ _ _ (by decide +kernel) rfl (by decide +kernel), by decide +kernel, by decide +kernel, by decide +kernel, by decide +kernel, by decide +kernel, by decide +kernel⟩
  · refine ⟨asks lab (opReq 0x0302 [3, 255]), asked lab, (opReq 0x0302 [3, 255]), ?_⟩
    dsimp only
    exact ⟨takes_asks _ _ _ (by decide +kernel) rfl (by decide +kernel), by decide +kernel, by decide +kernel, by decide +kernel, by decide +kernel⟩
  · refine ⟨asks lab (opReq 0x0302 [0, 5]), asked lab, (opReq 0x0302 [0, 5]), ?_⟩
    dsimp only
    exact ⟨takes_asks _ _ _ (by decide +kernel) rfl (by decide +kernel), by decide +kernel, by decide +kernel, by decide +kernel, by decide +kernel, by decide +kernel⟩
  · refine ⟨asks lab (opReq 0x0102 []), asked lab, (opReq 0x0102 []), ?_⟩
    exact ⟨takes_asks _ _ _ (by decide +kernel) rfl (by decide +kernel), by decide +kernel⟩
  · refine ⟨asks ({ lab with flash := lab.flash.tagWrite 6 [1] }) (opReq 0x0C02 []), asked ({ lab with flash := lab.flash.tagWrite 6 [1] }), (opReq 0x0C02 []), ?_⟩
    exact ⟨takes_asks _ _ _ (by decide +kernel) rfl (by decide +kernel), by decide +kernel⟩
  · refine ⟨asks ({ lab with fuses := { lab.fuses with part := 3 } }) (fnReq 0x0602 []), asked ({ lab with fuses := { lab.fuses with part := 3 } }), (fnReq 0x0602 []), ?_⟩
    exact ⟨takes_asks _ _ _ (by decide +kernel) rfl (by decide +kernel), by decide +kernel⟩
  · refine ⟨asks lab { fnReq 0x0303 [] with fn := 9 }, { fnReq 0x0303 [] with fn := 9 }, [], ?_⟩
    decide +kernel
  · refine ⟨asks ({ lab with trc := { lab.trc with tack := .held } }) (fnReq 0x0404 ([0, 3] ++ List.replicate 14 0)), asked ({ lab with trc := { lab.trc with tack := .held } }), (fnReq 0x0404 ([0, 3] ++ List.replicate 14 0)), ?_⟩
    dsimp only
    exact ⟨takes_asks _ _ _ (by decide +kernel) rfl (by decide +kernel), by decide +kernel, by decide +kernel, by decide +kernel, by decide +kernel⟩

/-- The hypotheses of FabricAndConnectionCommands can be met. -/
theorem witness_FabricAndConnectionCommands :
    (∃ (s : State) (s0 : State) (r : Req),
      let p := r.payload
      let f := beAt p 0 2
      let first := beAt p 2 2
      let n := beAt p 4 1
      let op := r.notOperator = false
      let idle := f < 1024 ∧ (s0.fn f).st = .stopped ∧ s0.longOn f = false ∧ s0.tacked = false
      let es := (List.range n).map (fun i => peerEntry (s0.fn f).slice ((p.drop (8 + 8 * i)).take 8))
      Takes s 0x0701 r s0 ∧ op ∧ idle ∧ (payOk p [(0, 2), (2, 2), (4, 1), (8, 8 * n)] = true) ∧ (1 ≤ n) ∧ (n ≤ 27) ∧ (first + n ≤ 16384) ∧ (none ∉ es)) ∧
    (∃ (s : State) (s0 : State) (r : Req),
      let p := r.payload
      let f := beAt p 0 2
      let first := beAt p 2 2
      let op := r.notOperator = false
      let idle := f < 1024 ∧ (s0.fn f).st = .stopped ∧ s0.longOn f = false ∧ s0.tacked = false
      Takes s 0x0702 r s0 ∧ op ∧ idle ∧ (payOk p [(0, 2), (2, 2)] = true) ∧ (first ≤ 4095) ∧ ((first = 0 ∨ s0.fab.addr.isSome = true ∧ (first ∈ s0.slicesBut f ∨ (s0.slicesBut f).length < 64)))) ∧
    (∃ (s : State) (s0 : State) (r : Req),
      let p := r.payload
      let op := r.notOperator = false
      let k := beAt p 1 1
      let e := beAt p 8 8
      let rs := (List.range k).map (fun i => beAt p (8 + 8 * i) 8)
      let v := fun (i : Nat) => Config.connValue (s0.freeCtr + i)
      Takes s 0x0703 r s0 ∧ op ∧ ((s0.fuses.part = 3 → (if beAt p 0 1 = 0 then e % 256 = 0 ∧ e / 2 ^ 8 % 2 ^ 20 < 2 ^ 14 else ∀ v ∈ rs, v / 2 ^ 17 % 8 = 0))) ∧ (payOk p [(0, 1), (1, 1), (8, 8 * k)] = true) ∧ (s0.tacked = false) ∧ (beAt p 0 1 = 0) ∧ (k = 1) ∧ ((s0.fab.sameSizes e = true ∨ s0.noneRunning = true))) ∧
    (∃ (s : State) (s0 : State) (r : Req) (x : Fab),
      let p := r.payload
      let f := beAt p 0 2
      let op := r.notOperator = false
      let k := beAt p 1 1
      let e := beAt p 8 8
      let rs := (List.range k).map (fun i => beAt p (8 + 8 * i) 8)
      let v := fun (i : Nat) => Config.connValue (s0.freeCtr + i)
      Takes s 0x0703 r s0 ∧ op ∧ ((s0.fuses.part = 3 → (if beAt p 0 1 = 0 then e % 256 = 0 ∧ e / 2 ^ 8 % 2 ^ 20 < 2 ^ 14 else ∀ v ∈ rs, v / 2 ^ 17 % 8 = 0))) ∧ (payOk p [(0, 1), (1, 1), (8, 8 * k)] = true) ∧ (s0.tacked = false) ∧ (beAt p 0 1 = 1) ∧ (1 ≤ k) ∧ (k ≤ 27) ∧ ((∀ v ∈ rs, v % 4096 ≠ 0)) ∧ ((∀ f ∈ s0.fns, f.2.st = .running ∨ f.2.st = .stopping → ∀ v ∈ rs, v % 4096 ≠ f.2.slice)) ∧ (s0.fab.writeRoutes (rs.map routeImage) = some x)) ∧
    (∃ (s : State) (s0 : State) (r : Req),
      let p := r.payload
      let op := r.notOperator = false
      let k := beAt p 1 1
      Takes s 0x0704 r s0 ∧ op ∧ (payOk p [(0, 1), (1, 1), (2, 1)] = true) ∧ (beAt p 0 1 = 0) ∧ (k = 0) ∧ (beAt p 2 1 = 1)) ∧
    (∃ (s : State) (s0 : State) (r : Req),
      let p := r.payload
      let op := r.notOperator = false
      let k := beAt p 1 1
      Takes s 0x0704 r s0 ∧ op ∧ (payOk p [(0, 1), (1, 1), (2, 1)] = true) ∧ (beAt p 0 1 = 1) ∧ (1 ≤ beAt p 2 1) ∧ (beAt p 2 1 ≤ 28) ∧ (k + beAt p 2 1 ≤ 64)) ∧
    (∃ (s : State) (s0 : State) (r : Req),
      let p := r.payload
      let e := beAt p 8 8
      Takes s 0x0503 r s0 ∧ (payOk p [(0, 16), (16, 4), (20, 4), (24, 2)] = true) ∧ (beAt p 16 4 < 2 ^ 24) ∧ (beAt p 20 4 < 2 ^ 24) ∧ (beAt p 24 2 ∈ [1024, 2048, 4096]) ∧ (s0.tacked = false) ∧ ((s0.eth.conns.filter (fun e => e.2.map (·.fn) = some r.fn)).length < 16) ∧ (s0.eth.conns.length < 1024)) ∧
    (∃ (s : State) (s0 : State) (r : Req),
      let p := r.payload
      Takes s 0x0504 r s0 ∧ (payOk p [(0, 4)] = true) ∧ ((s0.conn (beAt p 0 4)).map (·.fn) = some r.fn) ∧ (s0.tacked = false)) := by
  refine ⟨?_, ?_, ?_, ?_, ?_, ?_, ?_, ?_⟩
  · refine ⟨asks lab (opReq 0x0701 [0, 6, 63, 255, 1, 0, 0, 0, 0, 0, 0, 0, 128, 0, 0, 0]), asked lab, (opReq 0x0701 [0, 6, 63, 255, 1, 0, 0, 0, 0, 0, 0, 0, 128, 0, 0, 0]), ?_⟩
    dsimp only
    exact ⟨takes_asks _ _ _ (by decide +kernel) rfl (by decide +kernel), by decide +kernel, by decide +kernel, by decide +kernel, by decide +kernel, by decide +kernel, by decide +kernel, by decide +kernel⟩
  · refine ⟨asks ({ lab with fab := { lab.fab with addr := some 0 } }) (opReq 0x0702 [0, 6, 15, 255]), asked ({ lab with fab := { lab.fab with addr := some 0 } }), (opReq 0x0702 [0, 6, 15, 255]), ?_⟩
    dsimp only
    exact ⟨takes_asks _ _ _ (by decide +kernel) rfl (by decide +kernel), by decide +kernel, by decide +kernel, by decide +kernel, by decide +kernel, by decide +kernel⟩
  · refine ⟨asks lab (opReq 0x0703 ([0, 1] ++ List.replicate 14 0)), asked lab, (opReq 0x0703 ([0, 1] ++ List.replicate 14 0)), ?_⟩
    dsimp only
    exact ⟨takes_asks _ _ _ (by decide +kernel) rfl (by decide +kernel), by decide +kernel, by decide +kernel, by decide +kernel, by decide +kernel, by decide +kernel, by decide +kernel, by decide +kernel⟩
  · refine ⟨asks lab (opReq 0x0703 ([1, 1] ++ List.replicate 13 0 ++ [1])), asked lab, (opReq 0x0703 ([1, 1] ++ List.replicate 13 0 ++ [1])), { lab.fab with routes := [(0, 1)] }, ?_⟩
    dsimp only
    exact ⟨takes_asks _ _ _ (by decide +kernel) rfl (by decide +kernel), by decide +kernel, by decide +kernel, by decide +kernel, by decide +kernel, by decide +kernel, by decide +kernel, by decide +kernel, by decide +kernel, by decide +kernel, by decide +kernel⟩
  · refine ⟨asks lab (opReq 0x0704 [0, 0, 1]), asked lab, (opReq 0x0704 [0, 0, 1]), ?_⟩
    dsimp only
    exact ⟨takes_asks _ _ _ (by decide +kernel) rfl (by decide +kernel), by decide +kernel, by decide +kernel, by decide +kernel, by decide +kernel, by decide +kernel⟩
  · refine ⟨asks lab (opReq 0x0704 [1, 36, 28]), asked lab, (opReq 0x0704 [1, 36, 28]), ?_⟩
    dsimp only
    exact ⟨takes_asks _ _ _ (by decide +kernel) rfl (by decide +kernel), by decide +kernel, by decide +kernel, by decide +kernel, by decide +kernel, by decide +kernel, by decide +kernel⟩
  · refine ⟨asks lab (fnReq 0x0503 (List.replicate 17 0 ++ [255, 255, 255, 0, 255, 255, 255, 16, 0])), asked lab, (fnReq 0x0503 (List.replicate 17 0 ++ [255, 255, 255, 0, 255, 255, 255, 16, 0])), ?_⟩
    dsimp only
    exact ⟨takes_asks _ _ _ (by decide +kernel) rfl (by decide +kernel), by decide +kernel, by decide +kernel, by decide +kernel, by decide +kernel, by decide +kernel, by decide +kernel, by decide +kernel⟩
  · refine ⟨asks ({ lab with eth := { lab.eth with conns := [(16, some { fn := 5, gid := 2, peerQpn := 3, peerPsn := 4, mtu := 4096, psn := 5, rkeyWin := 6, rkeyRing := 7 })] } }) (fnReq 0x0504 [0, 0, 0, 16]), asked ({ lab with eth := { lab.eth with conns := [(16, some { fn := 5, gid := 2, peerQpn := 3, peerPsn := 4, mtu := 4096, psn := 5, rkeyWin := 6, rkeyRing := 7 })] } }), (fnReq 0x0504 [0, 0, 0, 16]), ?_⟩
    dsimp only
    exact ⟨takes_asks _ _ _ (by decide +kernel) rfl (by decide +kernel), by decide +kernel, by decide +kernel, by decide +kernel⟩

/-- The hypotheses of ObservationCommands can be met. -/
theorem witness_ObservationCommands :
    (∃ (s : State) (s0 : State) (r : Req),
      let p := r.payload
      let w := beAt p 0 2
      let S := fun (c : Nat) (l : List (Nat × Nat)) => Takes s c r s0 ∧ payOk p l = true
      let op := r.notOperator = false
      (S 0x0801 [(0, 2), (4, 4)]) ∧ op ∧ ((w = 0 ∨ 600 ≤ w)) ∧ (100 ≤ beAt p 4 4) ∧ (beAt p 4 4 ≤ 3600000)) ∧
    (∃ (s : State) (s0 : State) (r : Req),
      let p := r.payload
      let S := fun (c : Nat) (l : List (Nat × Nat)) => Takes s c r s0 ∧ payOk p l = true
      let op := r.notOperator = false
      (S 0x0802 []) ∧ op) ∧
    (∃ (s : State) (s0 : State) (r : Req),
      let p := r.payload
      let S := fun (c : Nat) (l : List (Nat × Nat)) => Takes s c r s0 ∧ payOk p l = true
      let ids := (List.range (beAt p 1 1)).map (fun i => beAt p (4 + 4 * i) 4)
      (S 0x0901 [(0, 1), (1, 1), (4, 4 * beAt p 1 1)]) ∧ (1 ≤ beAt p 1 1) ∧ (beAt p 1 1 ≤ 27) ∧ ((∀ v ∈ ids, s0.idOk r.fn v = true ∧ s0.idAbsent v = false ∧ s0.idRetired r.fn v = false)) ∧ (beAt p 0 1 = 0)) ∧
    (∃ (s : State) (s0 : State) (r : Req),
      let p := r.payload
      let S := fun (c : Nat) (l : List (Nat × Nat)) => Takes s c r s0 ∧ payOk p l = true
      let ids := (List.range (beAt p 1 1)).map (fun i => beAt p (4 + 4 * i) 4)
      (S 0x0901 [(0, 1), (1, 1), (4, 4 * beAt p 1 1)]) ∧ (1 ≤ beAt p 1 1) ∧ (beAt p 1 1 ≤ 27) ∧ ((∀ v ∈ ids, s0.idOk r.fn v = true ∧ s0.idAbsent v = false ∧ s0.idRetired r.fn v = false)) ∧ (beAt p 0 1 = 1)) ∧
    (∃ (s : State) (s0 : State) (r : Req) (x : _),
      let p := r.payload
      let S := fun (c : Nat) (l : List (Nat × Nat)) => Takes s c r s0 ∧ payOk p l = true
      let ids := (List.range (beAt p 1 1)).map (fun i => beAt p (4 + 4 * i) 4)
      (S 0x0901 [(0, 1), (1, 1), (4, 4 * beAt p 1 1)]) ∧ (1 ≤ beAt p 1 1) ∧ (beAt p 1 1 ≤ 27) ∧ ((∀ v ∈ ids, s0.idOk r.fn v = true ∧ s0.idAbsent v = false ∧ s0.idRetired r.fn v = false)) ∧ (beAt p 0 1 = 2) ∧ (s0.snap = some x)) ∧
    (∃ (s : State) (s0 : State) (r : Req),
      let p := r.payload
      let S := fun (c : Nat) (l : List (Nat × Nat)) => Takes s c r s0 ∧ payOk p l = true
      (S 0x0902 [(0, 1), (2, 2), (4, 16)]) ∧ (s0.tacked = false) ∧ (beAt p 0 1 = 0)) ∧
    (∃ (s : State) (s0 : State) (r : Req),
      let p := r.payload
      let S := fun (c : Nat) (l : List (Nat × Nat)) => Takes s c r s0 ∧ payOk p l = true
      (S 0x0902 [(0, 1), (2, 2), (4, 16)]) ∧ (s0.tacked = false) ∧ (beAt p 0 1 = 1)) ∧
    (∃ (s : State) (s0 : State) (r : Req) (b : Blk),
      let p := r.payload
      let S := fun (c : Nat) (l : List (Nat × Nat)) => Takes s c r s0 ∧ payOk p l = true
      let n := beAt p 4 1
      (S 0x0903 [(0, 1), (1, 1), (2, 2), (4, 1)]) ∧ (1 ≤ n) ∧ (n ≤ 7) ∧ (beAt p 0 1 = 0xFF) ∧ (b.hasRing = true) ∧ (beAt p 1 1 = b.code)) ∧
    (∃ (s : State) (s0 : State) (r : Req) (key : Nat),
      let p := r.payload
      let S := fun (c : Nat) (l : List (Nat × Nat)) => Takes s c r s0 ∧ payOk p l = true
      let n := beAt p 4 1
      (S 0x0903 [(0, 1), (1, 1), (2, 2), (4, 1)]) ∧ (1 ≤ n) ∧ (n ≤ 7) ∧ (beAt p 0 1 ≠ 0xFF) ∧ (beAt p 1 1 ≤ 22) ∧ ((if r.fn = 0 then beAt p 0 1 < 80 ∧ key = beAt p 0 1 else s0.vtile r.fn (beAt p 0 1) = some key))) ∧
    (∃ (s : State) (s0 : State) (r : Req),
      let p := r.payload
      let S := fun (c : Nat) (l : List (Nat × Nat)) => Takes s c r s0 ∧ payOk p l = true
      (S 0x0904 [(0, 1), (1, 1), (4, 4), (8, 8), (16, 4), (20, 2), (24, 16), (40, 4)]) ∧ (beAt p 1 1 ≤ 100) ∧ (beAt p 4 4 % 2 = 0) ∧ (beAt p 4 4 < 2 ^ 23) ∧ ((beAt p 0 1 % 4 = 1 → beAt p 8 8 % 64 = 0 ∧ beAt p 16 4 % 64 = 0 ∧ 4096 ≤ beAt p 16 4 ∧ beAt p 16 4 ≤ 2 ^ 31 ∧ (s0.slabCheck r.fn none (beAt p 8 8) (beAt p 16 4) true false).isOk = true)) ∧ ((if r.fn = 0 then beAt p 40 4 % 2 = 0 ∧ beAt p 40 4 < 2 ^ 23 else beAt p 40 4 = 0)) ∧ (s0.tacked = false)) ∧
    (∃ (s : State) (s0 : State) (r : Req),
      let p := r.payload
      let S := fun (c : Nat) (l : List (Nat × Nat)) => Takes s c r s0 ∧ payOk p l = true
      let op := r.notOperator = false
      (S 0x0A01 []) ∧ op ∧ (s0.tacked = false)) ∧
    (∃ (s : State) (s0 : State) (r : Req),
      let p := r.payload
      let S := fun (c : Nat) (l : List (Nat × Nat)) => Takes s c r s0 ∧ payOk p l = true
      let op := r.notOperator = false
      (S 0x0A02 []) ∧ op ∧ (s0.tacked = true)) ∧
    (∃ (s : State) (s0 : State) (r : Req) (key : Nat),
      let p := r.payload
      let S := fun (c : Nat) (l : List (Nat × Nat)) => Takes s c r s0 ∧ payOk p l = true
      let op := r.notOperator = false
      (S 0x0A03 [(0, 1), (1, 1), (2, 1), (4, 2), (6, 1)]) ∧ op ∧ (1 ≤ beAt p 6 1) ∧ (beAt p 6 1 ≤ 6) ∧ (s0.trc.tack = .held) ∧ ((beAt p 0 1 = 0 ∧ beAt p 1 1 < 80 ∧ beAt p 2 1 ≤ 3 ∧ (s0.tile (beAt p 1 1)).retired = false ∧ key = beAt p 1 1 * 4 + beAt p 2 1 ∨ beAt p 0 1 = 1 ∧ beAt p 1 1 < 20 ∧ beAt p 2 1 ≤ 5 ∧ s0.portAbsent (beAt p 1 1) = false ∧ key = 0x1000 + beAt p 1 1 * 8 + beAt p 2 1))) ∧
    (∃ (s : State) (s0 : State) (r : Req) (b : Blk),
      let p := r.payload
      let S := fun (c : Nat) (l : List (Nat × Nat)) => Takes s c r s0 ∧ payOk p l = true
      let inst := beAt p 2 2
      (S 0x0B01 [(0, 1), (2, 2)]) ∧ (r.key.isSome = true) ∧ (beAt p 0 1 = b.code) ∧ ((b.hasInst inst = true ∨ b = .thm ∧ inst < 3)) ∧ ((b = .lnk → s0.portAbsent inst = false)) ∧ ((r.fn = 0 ∨ b.perTile = true ∧ (s0.tile (inst % 256)).owner = some r.fn))) ∧
    (∃ (s : State) (s0 : State) (r : Req) (b : Blk),
      let p := r.payload
      let S := fun (c : Nat) (l : List (Nat × Nat)) => Takes s c r s0 ∧ payOk p l = true
      let op := r.notOperator = false
      let inst := beAt p 2 2
      (S 0x0B03 [(0, 1), (2, 2), (4, 4)]) ∧ op ∧ (beAt p 0 1 = b.code) ∧ (b.hasInst inst = true) ∧ ((b = .lnk → s0.portAbsent inst = false)) ∧ ((b.perTile = true → (s0.tile (inst % 256)).retired = false))) := by
  refine ⟨?_, ?_, ?_, ?_, ?_, ?_, ?_, ?_, ?_, ?_, ?_, ?_, ?_, ?_, ?_⟩
  · refine ⟨asks lab (opReq 0x0801 [2, 88, 0, 0, 0, 54, 238, 128]), asked lab, (opReq 0x0801 [2, 88, 0, 0, 0, 54, 238, 128]), ?_⟩
    dsimp only
    exact ⟨⟨takes_asks _ _ _ (by decide +kernel) rfl (by decide +kernel), by decide +kernel⟩, by decide +kernel, by decide +kernel, by decide +kernel, by decide +kernel⟩
  · refine ⟨asks lab (opReq 0x0802 []), asked lab, (opReq 0x0802 []), ?_⟩
    dsimp only
    exact ⟨⟨takes_asks _ _ _ (by decide +kernel) rfl (by decide +kernel), by decide +kernel⟩, by decide +kernel⟩
  · refine ⟨asks lab (fnReq 0x0901 ([0, 1, 0, 0] ++ beBytes 4 0x01000201)), asked lab, (fnReq 0x0901 ([0, 1, 0, 0] ++ beBytes 4 0x01000201)), ?_⟩
    dsimp only
    exact ⟨⟨takes_asks _ _ _ (by decide +kernel) rfl (by decide +kernel), by decide +kernel⟩, by decide +kernel, by decide +kernel, by decide +kernel, by decide +kernel⟩
  · refine ⟨asks lab (fnReq 0x0901 ([1, 1, 0, 0] ++ beBytes 4 0x01000201)), asked lab, (fnReq 0x0901 ([1, 1, 0, 0] ++ beBytes 4 0x01000201)), ?_⟩
    dsimp only
    exact ⟨⟨takes_asks _ _ _ (by decide +kernel) rfl (by decide +kernel), by decide +kernel⟩, by decide +kernel, by decide +kernel, by decide +kernel, by decide +kernel⟩
  · refine ⟨asks ({ lab with snap := some ⟨0, [], 0⟩ }) (fnReq 0x0901 ([2, 1, 0, 0] ++ beBytes 4 0x01000201)), asked ({ lab with snap := some ⟨0, [], 0⟩ }), (fnReq 0x0901 ([2, 1, 0, 0] ++ beBytes 4 0x01000201)), ⟨0, [], 0⟩, ?_⟩
    dsimp only
    exact ⟨⟨takes_asks _ _ _ (by decide +kernel) rfl (by decide +kernel), by decide +kernel⟩, by decide +kernel, by decide +kernel, by decide +kernel, by decide +kernel, by decide +kernel⟩
  · refine ⟨asks lab (fnReq 0x0902 ([0, 0, 0, 1] ++ List.replicate 16 0)), asked lab, (fnReq 0x0902 ([0, 0, 0, 1] ++ List.replicate 16 0)), ?_⟩
    dsimp only
    exact ⟨⟨takes_asks _ _ _ (by decide +kernel) rfl (by decide +kernel), by decide +kernel⟩, by decide +kernel, by decide +kernel⟩
  · refine ⟨asks lab (fnReq 0x0902 ([1] ++ List.replicate 19 0)), asked lab, (fnReq 0x0902 ([1] ++ List.replicate 19 0)), ?_⟩
    dsimp only
    exact ⟨⟨takes_asks _ _ _ (by decide +kernel) rfl (by decide +kernel), by decide +kernel⟩, by decide +kernel, by decide +kernel⟩
  · refine ⟨asks lab (fnReq 0x0903 [255, 22, 0, 0, 7]), asked lab, (fnReq 0x0903 [255, 22, 0, 0, 7]), .trc, ?_⟩
    dsimp only
    exact ⟨⟨takes_asks _ _ _ (by decide +kernel) rfl (by decide +kernel), by decide +kernel⟩, by decide +kernel, by decide +kernel, by decide +kernel, by decide +kernel, by decide +kernel⟩
  · refine ⟨asks lab (opReq 0x0903 [79, 22, 0, 0, 1]), asked lab, (opReq 0x0903 [79, 22, 0, 0, 1]), 79, ?_⟩
    dsimp only
    exact ⟨⟨takes_asks _ _ _ (by decide +kernel) rfl (by decide +kernel), by decide +kernel⟩, by decide +kernel, by decide +kernel, by decide +kernel, by decide +kernel, by decide +kernel⟩
  · refine ⟨asks lab (fnReq 0x0904 ([3, 100, 0, 0, 0, 0, 0, 2] ++ List.replicate 36 0)), asked lab, (fnReq 0x0904 ([3, 100, 0, 0, 0, 0, 0, 2] ++ List.replicate 36 0)), ?_⟩
    dsimp only
    exact ⟨⟨takes_asks _ _ _ (by decide +kernel) rfl (by decide +kernel), by decide +kernel⟩, by decide +kernel, by decide +kernel, by decide +kernel, by decide +kernel, by decide +kernel, by decide +kernel⟩
  · refine ⟨asks lab (opReq 0x0A01 []), asked lab, (opReq 0x0A01 []), ?_⟩
    dsimp only
    exact ⟨⟨takes_asks _ _ _ (by decide +kernel) rfl (by decide +kernel), by decide +kernel⟩, by decide +kernel, by decide +kernel⟩
  · refine ⟨asks ({ lab with trc := { lab.trc with tack := .held } }) (opReq 0x0A02 []), asked ({ lab with trc := { lab.trc with tack := .held } }), (opReq 0x0A02 []), ?_⟩
    dsimp only
    exact ⟨⟨takes_asks _ _ _ (by decide +kernel) rfl (by decide +kernel), by decide +kernel⟩, by decide +kernel, by decide +kernel⟩
  · refine ⟨asks ({ lab with trc := { lab.trc with tack := .held } }) (opReq 0x0A03 [1, 19, 5, 0, 0, 0, 6]), asked ({ lab with trc := { lab.trc with tack := .held } }), (opReq 0x0A03 [1, 19, 5, 0, 0, 0, 6]), 0x109D, ?_⟩
    dsimp only
    exact ⟨⟨takes_asks _ _ _ (by decide +kernel) rfl (by decide +kernel), by decide +kernel⟩, by decide +kernel, by decide +kernel, by decide +kernel, by decide +kernel, by decide +kernel⟩
  · refine ⟨asks lab (opReq 0x0B01 [16, 0, 0, 2]), asked lab, (opReq 0x0B01 [16, 0, 0, 2]), .thm, ?_⟩
    dsimp only
    exact ⟨⟨takes_asks _ _ _ (by decide +kernel) rfl (by decide +kernel), by decide +kernel⟩, by decide +kernel, by decide +kernel, by decide +kernel, by decide +kernel, by decide +kernel⟩
  · refine ⟨asks lab (opReq 0x0B03 [6, 0, 0, 19, 255, 255, 255, 255]), asked lab, (opReq 0x0B03 [6, 0, 0, 19, 255, 255, 255, 255]), .lnk, ?_⟩
    dsimp only
    exact ⟨⟨takes_asks _ _ _ (by decide +kernel) rfl (by decide +kernel), by decide +kernel⟩, by decide +kernel, by decide +kernel, by decide +kernel, by decide +kernel, by decide +kernel⟩

/-- The hypotheses of RingDoorbellsAndFetches can be met. -/
theorem witness_RingDoorbellsAndFetches :
    (∃ (s : State) (c : CoreId) (n : Nat) (f : Nat) (r : Nat) (tail : W32),
      let g := s.ring r
      let core := s.coreFn c = some f ∧ s.localRing f n = some r
      let runs := (s.fn g.fn).st = .running ∧ g.sized = true
      let near := (tail - g.done).toNat ≤ 2 ^ g.sizeLog2
      core ∧ runs ∧ near) ∧
    (∃ (s : State) (c : CoreId) (n : Nat) (f : Nat) (r : Nat) (tail : W32),
      let g := s.ring r
      let core := s.coreFn c = some f ∧ s.localRing f n = some r
      let runs := (s.fn g.fn).st = .running ∧ g.sized = true
      let near := (tail - g.done).toNat ≤ 2 ^ g.sizeLog2
      core ∧ runs ∧ (¬ near)) ∧
    (∃ (s : State) (c : CoreId) (n : Nat) (f : Nat) (r : Nat),
      let g := s.ring r
      let core := s.coreFn c = some f ∧ s.localRing f n = some r
      core ∧ ((s.fn g.fn).st ≠ .running)) ∧
    (∃ (s : State) (c : CoreId) (n : Nat) (f : Nat),
      (s.coreFn c = some f) ∧ (s.localRing f n = none)) ∧
    (∃ (s : State) (q : BitVec 24) (n : Nat) (f : Nat) (r : Nat) (tail : W32) (k : Conn),
      let g := s.ring r
      let rdma := s.boot.pgood = true ∧ s.fatal.cause = 0 ∧ s.eth.link = true ∧ s.conn q.toNat = some k ∧ k.fn = f ∧ s.localRing f n = some r ∧ s.tacked = false
      let runs := (s.fn g.fn).st = .running ∧ g.sized = true
      let near := (tail - g.done).toNat ≤ 2 ^ g.sizeLog2
      rdma ∧ runs ∧ near) ∧
    (∃ (s : State) (q : BitVec 24) (n : Nat) (f : Nat) (r : Nat) (k : Conn),
      let g := s.ring r
      let rdma := s.boot.pgood = true ∧ s.fatal.cause = 0 ∧ s.eth.link = true ∧ s.conn q.toNat = some k ∧ k.fn = f ∧ s.localRing f n = some r ∧ s.tacked = false
      rdma ∧ ((s.fn g.fn).st ≠ .running)) ∧
    (∃ (s : State) (q : QuadId) (r : Nat) (ps : List (Nat × Nat × Nat)),
      let s1 : State := { s with dspNext := s.dspNext.set 0 q (turnKey (r, s.ring r) + 1) }
      let g := s.ring r
      let s2 := (s1.readPieces ps).1
      let raw := leVal (s1.readPieces ps).2.1
      let clean := (s1.readPieces ps).2.2.1 = false ∧ (s1.readPieces ps).2.2.2 = false
      let done := s1.slabCheck g.fn none g.doneAddr.toNat 8 true false
      let waits := (ringSerial raw = true ∨ g.group = true) ∧ ∃ c ∈ g.cmds, c.signalled = false
      (s.live = true) ∧ (s.nextRing q = some r) ∧ (s1.slabCheck g.fn none (g.base.toNat + 64 * (g.head.toNat % 2 ^ g.sizeLog2)) 64 false false = .ok ps) ∧ clean ∧ (¬ waits) ∧ (s2.ringMalformed g.fn g.group raw = false) ∧ (s2.copyCheck g.fn raw = []) ∧ (done.isOk = true)) ∧
    (∃ (s : State) (q : QuadId) (r : Nat) (ps : List (Nat × Nat × Nat)),
      let s1 : State := { s with dspNext := s.dspNext.set 0 q (turnKey (r, s.ring r) + 1) }
      let g := s.ring r
      let raw := leVal (s1.readPieces ps).2.1
      let clean := (s1.readPieces ps).2.2.1 = false ∧ (s1.readPieces ps).2.2.2 = false
      let waits := (ringSerial raw = true ∨ g.group = true) ∧ ∃ c ∈ g.cmds, c.signalled = false
      (s.live = true) ∧ (s.nextRing q = some r) ∧ (s1.slabCheck g.fn none (g.base.toNat + 64 * (g.head.toNat % 2 ^ g.sizeLog2)) 64 false false = .ok ps) ∧ clean ∧ waits) ∧
    (∃ (s : State) (q : QuadId) (r : Nat) (ps : List (Nat × Nat × Nat)),
      let s1 : State := { s with dspNext := s.dspNext.set 0 q (turnKey (r, s.ring r) + 1) }
      let g := s.ring r
      let s2 := (s1.readPieces ps).1
      let raw := leVal (s1.readPieces ps).2.1
      let clean := (s1.readPieces ps).2.2.1 = false ∧ (s1.readPieces ps).2.2.2 = false
      let done := s1.slabCheck g.fn none g.doneAddr.toNat 8 true false
      let waits := (ringSerial raw = true ∨ g.group = true) ∧ ∃ c ∈ g.cmds, c.signalled = false
      (s.live = true) ∧ (s.nextRing q = some r) ∧ (s1.slabCheck g.fn none (g.base.toNat + 64 * (g.head.toNat % 2 ^ g.sizeLog2)) 64 false false = .ok ps) ∧ clean ∧ (¬ waits) ∧ (s2.ringMalformed g.fn g.group raw = true) ∧ (s2.copyCheck g.fn raw = []) ∧ (done.isOk = true)) ∧
    (∃ (s : State) (q : QuadId) (r : Nat) (ps : List (Nat × Nat × Nat)),
      let s1 : State := { s with dspNext := s.dspNext.set 0 q (turnKey (r, s.ring r) + 1) }
      let g := s.ring r
      let s2 := (s1.readPieces ps).1
      let raw := leVal (s1.readPieces ps).2.1
      let clean := (s1.readPieces ps).2.2.1 = false ∧ (s1.readPieces ps).2.2.2 = false
      let done := s1.slabCheck g.fn none g.doneAddr.toNat 8 true false
      let waits := (ringSerial raw = true ∨ g.group = true) ∧ ∃ c ∈ g.cmds, c.signalled = false
      (s.live = true) ∧ (s.nextRing q = some r) ∧ (s1.slabCheck g.fn none (g.base.toNat + 64 * (g.head.toNat % 2 ^ g.sizeLog2)) 64 false false = .ok ps) ∧ clean ∧ (¬ waits) ∧ (s2.copyCheck g.fn raw = []) ∧ (done.isOk = false)) ∧
    (∃ (s : State) (q : QuadId) (r : Nat) (ps : List (Nat × Nat × Nat)),
      let s1 : State := { s with dspNext := s.dspNext.set 0 q (turnKey (r, s.ring r) + 1) }
      let g := s.ring r
      let clean := (s1.readPieces ps).2.2.1 = false ∧ (s1.readPieces ps).2.2.2 = false
      let done := s1.slabCheck g.fn none g.doneAddr.toNat 8 true false
      (s.live = true) ∧ (s.nextRing q = some r) ∧ (s1.slabCheck g.fn none (g.base.toNat + 64 * (g.head.toNat % 2 ^ g.sizeLog2)) 64 false false = .ok ps) ∧ (¬ clean) ∧ (done.isOk = true)) ∧
    (∃ (s : State) (q : QuadId) (r : Nat) (ps : List (Nat × Nat × Nat)),
      let s1 : State := { s with dspNext := s.dspNext.set 0 q (turnKey (r, s.ring r) + 1) }
      let g := s.ring r
      let clean := (s1.readPieces ps).2.2.1 = false ∧ (s1.readPieces ps).2.2.2 = false
      let done := s1.slabCheck g.fn none g.doneAddr.toNat 8 true false
      (s.live = true) ∧ (s.nextRing q = some r) ∧ (s1.slabCheck g.fn none (g.base.toNat + 64 * (g.head.toNat % 2 ^ g.sizeLog2)) 64 false false = .ok ps) ∧ (¬ clean) ∧ (done.isOk = false)) := by
  refine ⟨?_, ?_, ?_, ?_, ?_, ?_, ?_, ?_, ?_, ?_, ?_, ?_⟩
  · refine ⟨lab, 0, 0, 5, 0, 64, ?_⟩
    dsimp only
    decide +kernel
  · refine ⟨lab, 0, 0, 5, 0, 65, ?_⟩
    dsimp only
    decide +kernel
  · refine ⟨lab.onFn 5 (fun x => { x with st := .stopping }), 0, 0, 5, 0, ?_⟩
    dsimp only
    decide +kernel
  · refine ⟨lab, 0, 1, 5, ?_⟩
    decide +kernel
  · refine ⟨{ lab with eth := { lab.eth with conns := [(16, some { fn := 5, gid := 2, peerQpn := 3, peerPsn := 4, mtu := 4096, psn := 5, rkeyWin := 6, rkeyRing := 7 })] } }, 16, 0, 5, 0, 64, { fn := 5, gid := 2, peerQpn := 3, peerPsn := 4, mtu := 4096, psn := 5, rkeyWin := 6, rkeyRing := 7 }, ?_⟩
    dsimp only
    decide +kernel
  · refine ⟨({ lab with eth := { lab.eth with conns := [(16, some { fn := 5, gid := 2, peerQpn := 3, peerPsn := 4, mtu := 4096, psn := 5, rkeyWin := 6, rkeyRing := 7 })] } } : State).onFn 5 (fun x => { x with st := .stopping }), 16, 0, 5, 0, { fn := 5, gid := 2, peerQpn := 3, peerPsn := 4, mtu := 4096, psn := 5, rkeyWin := 6, rkeyRing := 7 }, ?_⟩
    dsimp only
    decide +kernel
  · refine ⟨lab.onRing 0 (fun g => { g with tail := 1 }), 0, 0, [(0, 0, 64)], ?_⟩
    dsimp only
    decide +kernel
  · refine ⟨lab.onRing 0 (fun g => { g with tail := 1, group := true, cmds := [{ idx := 0, raw := 0 }] }), 0, 0, [(0, 0, 64)], ?_⟩
    dsimp only
    decide +kernel
  · refine ⟨(lab.onRing 0 (fun g => { g with tail := 1 })).onSlab 0 (fun b => { b with data := [(0, 7)] }), 0, 0, [(0, 0, 64)], ?_⟩
    dsimp only
    decide +kernel
  · refine ⟨lab.onRing 0 (fun g => { g with tail := 1, doneAddr := 0x100000 }), 0, 0, [(0, 0, 64)], ?_⟩
    dsimp only
    decide +kernel
  · refine ⟨(lab.onRing 0 (fun g => { g with tail := 1 })).onSlab 0 (fun b => { b with mdata := [(0, 0x80)] }), 0, 0, [(0, 0, 64)], ?_⟩
    dsimp only
    decide +kernel
  · refine ⟨(lab.onRing 0 (fun g => { g with tail := 1, doneAddr := 0x100000 })).onSlab 0 (fun b => { b with mdata := [(0, 0x80)] }), 0, 0, [(0, 0, 64)], ?_⟩
    dsimp only
    decide +kernel

/-- The hypotheses of RingCommands can be met. -/
theorem witness_RingCommands :
    (∃ (s : State) (s1 : State) (r : RingId) (c : RCmd),
      Begins s r 0 c s1) ∧
    (∃ (s : State) (s1 : State) (r : RingId) (c : RCmd),
      let raw := c.raw
      let f := (s1.ring r).fn
      let ts := (s1.launchTiles f raw).filterMap id
      Begins s r 1 c s1 ∧ (ts = [])) ∧
    (∃ (s : State) (s1 : State) (r : RingId) (c : RCmd),
      let raw := c.raw
      let f := (s1.ring r).fn
      let ts := (s1.launchTiles f raw).filterMap id
      Begins s r 1 c s1 ∧ (ts ≠ [])) ∧
    (∃ (s : State) (s1 : State) (r : RingId) (c : RCmd),
      let raw := c.raw
      let f := (s1.ring r).fn
      Begins s r 2 c s1 ∧ (s1.copyLost f raw = [])) ∧
    (∃ (s : State) (s1 : State) (r : RingId) (c : RCmd),
      let raw := c.raw
      let f := (s1.ring r).fn
      Begins s r 2 c s1 ∧ (s1.copyLost f raw ≠ [])) ∧
    (∃ (s : State) (s1 : State) (r : RingId) (c : RCmd),
      Begins s r 3 c s1) ∧
    (∃ (s : State) (s1 : State) (r : RingId) (c : RCmd),
      Begins s r 4 c s1) ∧
    (∃ (s : State) (r : RingId) (c : RCmd),
      let first := fun (p : RCmd → Bool) => s.ringLive r = true ∧ (s.ring r).cmds.find? p = some c
      (first (fun c => ringOp c.raw = 1 && !c.complete && !c.cut && s.launchDone c))) ∧
    (∃ (s : State) (r : RingId) (c : RCmd),
      let first := fun (p : RCmd → Bool) => s.ringLive r = true ∧ (s.ring r).cmds.find? p = some c
      let held := fun (s : State) => (s.waitLatch (s.ring r).fn c).released
      (first (fun c => ringOp c.raw = 3 && c.run && !c.complete && !c.cut)) ∧ (held s = true)) ∧
    (∃ (s : State) (r : RingId) (c : RCmd) (ps : _),
      let first := fun (p : RCmd → Bool) => s.ringLive r = true ∧ (s.ring r).cmds.find? p = some c
      (first (fun c => c.complete && !c.signalled && !c.cut)) ∧ (s.slabCheck (s.ring r).fn none (s.ring r).doneAddr.toNat 8 true false = .ok ps)) := by
  refine ⟨?_, ?_, ?_, ?_, ?_, ?_, ?_, ?_, ?_, ?_⟩
  · refine ⟨lab.onRing 0 (fun g => { g with cmds := [{ idx := 0, raw := 0 }] }), (lab.onRing 0 (fun g => { g with cmds := [{ idx := 0, raw := 0 }] })).onCmd 0 0 (fun c => { c with run := true }), 0, { idx := 0, raw := 0 }, ?_⟩
    exact ⟨by decide +kernel, by decide +kernel, rfl⟩
  · refine ⟨lab.onRing 0 (fun g => { g with cmds := [{ idx := 0, raw := 1 }] }), (lab.onRing 0 (fun g => { g with cmds := [{ idx := 0, raw := 1 }] })).onCmd 0 0 (fun c => { c with run := true }), 0, { idx := 0, raw := 1 }, ?_⟩
    dsimp only
    exact ⟨⟨by decide +kernel, by decide +kernel, rfl⟩, by decide +kernel⟩
  · refine ⟨(lab.onTile 1 (fun x => { x with image := some { entry := 0, code := [0, 0, 0, 0], data := [], dataAddr := 0, digest := 0 } })).onRing 0 (fun g => { g with cmds := [{ idx := 0, raw := 1 + 2 * 2 ^ 64 }] }), ((lab.onTile 1 (fun x => { x with image := some { entry := 0, code := [0, 0, 0, 0], data := [], dataAddr := 0, digest := 0 } })).onRing 0 (fun g => { g with cmds := [{ idx := 0, raw := 1 + 2 * 2 ^ 64 }] })).onCmd 0 0 (fun c => { c with run := true }), 0, { idx := 0, raw := 1 + 2 * 2 ^ 64 }, ?_⟩
    dsimp only
    exact ⟨⟨by decide +kernel, by decide +kernel, rfl⟩, by decide +kernel⟩
  · refine ⟨lab.onRing 0 (fun g => { g with cmds := [{ idx := 0, raw := 2 + 2 ^ 128 + 64 * 2 ^ 192 }] }), (lab.onRing 0 (fun g => { g with cmds := [{ idx := 0, raw := 2 + 2 ^ 128 + 64 * 2 ^ 192 }] })).onCmd 0 0 (fun c => { c with run := true }), 0, { idx := 0, raw := 2 + 2 ^ 128 + 64 * 2 ^ 192 }, ?_⟩
    dsimp only
    exact ⟨⟨by decide +kernel, by decide +kernel, rfl⟩, by decide +kernel⟩
  · refine ⟨lab.onRing 0 (fun g => { g with cmds := [{ idx := 0, raw := 2 + 2 ^ 84 + 64 * 2 ^ 192 }] }), (lab.onRing 0 (fun g => { g with cmds := [{ idx := 0, raw := 2 + 2 ^ 84 + 64 * 2 ^ 192 }] })).onCmd 0 0 (fun c => { c with run := true }), 0, { idx := 0, raw := 2 + 2 ^ 84 + 64 * 2 ^ 192 }, ?_⟩
    dsimp only
    exact ⟨⟨by decide +kernel, by decide +kernel, rfl⟩, by decide +kernel⟩
  · refine ⟨lab.onRing 0 (fun g => { g with cmds := [{ idx := 0, raw := 3 }] }), (lab.onRing 0 (fun g => { g with cmds := [{ idx := 0, raw := 3 }] })).onCmd 0 0 (fun c => { c with run := true }), 0, { idx := 0, raw := 3 }, ?_⟩
    exact ⟨by decide +kernel, by decide +kernel, rfl⟩
  · refine ⟨lab.onRing 0 (fun g => { g with cmds := [{ idx := 0, raw := 4 }] }), (lab.onRing 0 (fun g => { g with cmds := [{ idx := 0, raw := 4 }] })).onCmd 0 0 (fun c => { c with run := true }), 0, { idx := 0, raw := 4 }, ?_⟩
    exact ⟨by decide +kernel, by decide +kernel, rfl⟩
  · refine ⟨lab.onRing 0 (fun g => { g with cmds := [{ idx := 0, raw := 1, run := true }] }), 0, { idx := 0, raw := 1, run := true }, ?_⟩
    dsimp only
    decide +kernel
  · refine ⟨lab.onRing 0 (fun g => { g with cmds := [{ idx := 0, raw := 3, run := true }] }), 0, { idx := 0, raw := 3, run := true }, ?_⟩
    dsimp only
    decide +kernel
  · refine ⟨lab.onRing 0 (fun g => { g with cmds := [{ idx := 0, raw := 0, run := true, complete := true }] }), 0, { idx := 0, raw := 0, run := true, complete := true }, [(0, 4096, 8)], ?_⟩
    dsimp only
    decide +kernel

/-- The hypotheses of CollectivesAreQueuedAndRun can be met. -/
theorem witness_CollectivesAreQueuedAndRun :
    (∃ (s : State) (s1 : State) (s2 : State) (r : RingId) (k : RCmd) (b : Bool) (ps : List (Nat × Nat × Nat)) (g : Group),
      let f := (s1.ring r).fn
      let a := fld k.raw 16 0 64
      let none0 : Group := { id := 0, addr := a, size := 0, rank := 0, timeoutUs := 0, vpkgs := [], addrs := [], fns := [] }
      let c0 : Coll := { fn := f, ring := r, idx := k.idx, raw := k.raw, quad := r / 2048, barrier := b, opseq := 0, group := none0 }
      let c := { c0 with group := g }
      (Begins s r (if b then 6 else 5) k s1) ∧ (s1.slabCheck f none a 64 true false = .ok ps) ∧ (c0.badBody = false) ∧ (s1.loadGroup f a ps = (s2, some g)) ∧ (c.badSize = false) ∧ (s2.collOverlap c = false) ∧ ((∀ p ∈ c.srcRanges, (s2.slabCheck f none p.1 p.2 false false).isOk = true)) ∧ ((∀ p ∈ c.dstRanges, (s2.slabCheck f none p.1 p.2 true false).isOk = true)) ∧ ((g.multiRack = true → (s2.ring r).group = true))) ∧
    (∃ (s : State) (c : Coll),
      let first := s.colls.find? (fun c => c.admitted && !c.running && c.abort = 0)
      (s.live = true) ∧ (first = some c) ∧ (s.collFits c = true)) ∧
    (∃ (s : State) (c : Coll),
      let first := s.colls.find? (fun c => c.admitted && !c.running && c.abort = 0)
      (s.live = true) ∧ (first.filter s.collFits = none) ∧ (s.colls.find? s.collMayStart = some c)) ∧
    (∃ (s : State) (c : Coll) (f : FnId) (gid : BitVec 16),
      (s.live = true) ∧ (s.colls.find? (fun c => c.fn = f.val && c.group.id = gid.toNat && c.admitted) = some c)) ∧
    (∃ (s : State) (c : Coll) (f : FnId) (gid : BitVec 16) (a : Arrive),
      let reach := s.collReach c c.quad c.group.addr (64 + 16 * c.group.size) true
      (s.live = true) ∧ (s.collOf f gid.toNat = some c) ∧ (c.finished = true) ∧ (c.final = some a) ∧ (reach = none)) ∧
    (∃ (s : State) (c : Coll) (f : FnId) (gid : BitVec 16) (a : Arrive) (n : _) (r : _),
      let reach := s.collReach c c.quad c.group.addr (64 + 16 * c.group.size) true
      (s.live = true) ∧ (s.collOf f gid.toNat = some c) ∧ (c.finished = true) ∧ (c.final = some a) ∧ (reach = some (n, r))) := by
  refine ⟨?_, ?_, ?_, ?_, ?_, ?_⟩
  · refine ⟨({ lab with groups := [(5, { id := 9, addr := 64, size := 1, rank := 0, timeoutUs := 1000, vpkgs := [0], addrs := [0], fns := [5] })] } : State).onRing 0 (fun g => { g with cmds := [{ idx := 0, raw := 6 + 64 * 2 ^ 128 }] }), (({ lab with groups := [(5, { id := 9, addr := 64, size := 1, rank := 0, timeoutUs := 1000, vpkgs := [0], addrs := [0], fns := [5] })] } : State).onRing 0 (fun g => { g with cmds := [{ idx := 0, raw := 6 + 64 * 2 ^ 128 }] })).onCmd 0 0 (fun c => { c with run := true }), (({ lab with groups := [(5, { id := 9, addr := 64, size := 1, rank := 0, timeoutUs := 1000, vpkgs := [0], addrs := [0], fns := [5] })] } : State).onRing 0 (fun g => { g with cmds := [{ idx := 0, raw := 6 + 64 * 2 ^ 128 }] })).onCmd 0 0 (fun c => { c with run := true }), 0, { idx := 0, raw := 6 + 64 * 2 ^ 128 }, true, [(0, 64, 64)], { id := 9, addr := 64, size := 1, rank := 0, timeoutUs := 1000, vpkgs := [0], addrs := [0], fns := [5] }, ?_⟩
    dsimp only
    exact ⟨⟨by decide +kernel, by decide +kernel, rfl⟩, by decide +kernel, by decide +kernel, by decide +kernel, by decide +kernel, by decide +kernel, by decide +kernel, by decide +kernel, by decide +kernel⟩
  · refine ⟨{ lab with colls := [{ fn := 5, ring := 0, idx := 0, raw := 6 + 64 * 2 ^ 128, quad := 0, barrier := true, group := { id := 9, addr := 64, size := 1, rank := 0, timeoutUs := 1000, vpkgs := [0], addrs := [0], fns := [5] }, opseq := 1, admitted := true }] }, { fn := 5, ring := 0, idx := 0, raw := 6 + 64 * 2 ^ 128, quad := 0, barrier := true, group := { id := 9, addr := 64, size := 1, rank := 0, timeoutUs := 1000, vpkgs := [0], addrs := [0], fns := [5] }, opseq := 1, admitted := true }, ?_⟩
    dsimp only
    decide +kernel
  · refine ⟨{ lab with colls := [{ fn := 5, ring := 0, idx := 0, raw := 6 + 64 * 2 ^ 128, quad := 0, barrier := true, group := { id := 9, addr := 64, size := 1, rank := 0, timeoutUs := 1000, vpkgs := [0], addrs := [0], fns := [5] }, opseq := 1 }] }, { fn := 5, ring := 0, idx := 0, raw := 6 + 64 * 2 ^ 128, quad := 0, barrier := true, group := { id := 9, addr := 64, size := 1, rank := 0, timeoutUs := 1000, vpkgs := [0], addrs := [0], fns := [5] }, opseq := 1 }, ?_⟩
    dsimp only
    decide +kernel
  · refine ⟨{ lab with colls := [{ fn := 5, ring := 0, idx := 0, raw := 6 + 64 * 2 ^ 128, quad := 0, barrier := true, group := { id := 9, addr := 64, size := 1, rank := 0, timeoutUs := 1000, vpkgs := [0], addrs := [0], fns := [5] }, opseq := 1, admitted := true }] }, { fn := 5, ring := 0, idx := 0, raw := 6 + 64 * 2 ^ 128, quad := 0, barrier := true, group := { id := 9, addr := 64, size := 1, rank := 0, timeoutUs := 1000, vpkgs := [0], addrs := [0], fns := [5] }, opseq := 1, admitted := true }, 5, 9, ?_⟩
    decide +kernel
  · refine ⟨{ lab with colls := [{ fn := 5, ring := 0, idx := 0, raw := 6 + 64 * 2 ^ 128, quad := 0, barrier := true, group := { id := 9, addr := 64, size := 1, rank := 0, timeoutUs := 1000, vpkgs := [0], addrs := [0], fns := [5] }, opseq := 1, admitted := true, running := true, final := some ⟨0, 0, 0, 0, false⟩, arrive := some ⟨0, 0, 0, 0, false⟩, chunks := [(131071, { rackVal := some ⟨[], false, false⟩, passed := true })] }] }, { fn := 5, ring := 0, idx := 0, raw := 6 + 64 * 2 ^ 128, quad := 0, barrier := true, group := { id := 9, addr := 64, size := 1, rank := 0, timeoutUs := 1000, vpkgs := [0], addrs := [0], fns := [5] }, opseq := 1, admitted := true, running := true, final := some ⟨0, 0, 0, 0, false⟩, arrive := some ⟨0, 0, 0, 0, false⟩, chunks := [(131071, { rackVal := some ⟨[], false, false⟩, passed := true })] }, 5, 9, ⟨0, 0, 0, 0, false⟩, ?_⟩
    dsimp only
    decide +kernel
  · refine ⟨{ lab with colls := [{ fn := 5, ring := 0, idx := 0, raw := 6 + 64 * 2 ^ 128, quad := 0, barrier := true, group := { id := 9, addr := 0x100000, size := 1, rank := 0, timeoutUs := 1000, vpkgs := [0], addrs := [0], fns := [5] }, opseq := 1, admitted := true, running := true, final := some ⟨0, 0, 0, 0, false⟩, arrive := some ⟨0, 0, 0, 0, false⟩, chunks := [(131071, { rackVal := some ⟨[], false, false⟩, passed := true })] }] }, { fn := 5, ring := 0, idx := 0, raw := 6 + 64 * 2 ^ 128, quad := 0, barrier := true, group := { id := 9, addr := 0x100000, size := 1, rank := 0, timeoutUs := 1000, vpkgs := [0], addrs := [0], fns := [5] }, opseq := 1, admitted := true, running := true, final := some ⟨0, 0, 0, 0, false⟩, arrive := some ⟨0, 0, 0, 0, false⟩, chunks := [(131071, { rackVal := some ⟨[], false, false⟩, passed := true })] }, 5, 9, ⟨0, 0, 0, 0, false⟩, 1, .outside, ?_⟩
    dsimp only
    decide +kernel

/-- The hypotheses of CoreAccesses can be met. -/
theorem witness_CoreAccesses :
    (∃ (s : State) (c : CoreId) (f : Nat) (i : Nat),
      (s.coreFn c = some f) ∧ (¬ i < (s.fn f).fences)) ∧
    (∃ (s : State) (c : CoreId) (f : Nat) (i : Nat),
      (s.coreFn c = some f) ∧ (i < (s.fn f).fences) ∧ (i < 16384)) ∧
    (∃ (s : State) (c : CoreId) (f : Nat) (i : Nat),
      (s.coreFn c = some f) ∧ (¬ i < (s.fn f).fences) ∧ (i < 16384)) ∧
    (∃ (s : State) (c : CoreId) (f : Nat) (i : Nat) (r : Nat),
      (s.coreFn c = some f) ∧ (s.localRing f i = some r) ∧ (i < 8192)) := by
  refine ⟨?_, ?_, ?_, ?_⟩
  · refine ⟨lab, 0, 5, 4, ?_⟩
    decide +kernel
  · refine ⟨lab, 0, 5, 3, ?_⟩
    decide +kernel
  · refine ⟨lab, 0, 5, 4, ?_⟩
    decide +kernel
  · refine ⟨lab, 0, 5, 0, 0, ?_⟩
    decide +kernel

/-- The hypotheses of CollectivePackets can be met. -/
theorem witness_CollectivePackets :
    (∃ (s : State) (q : QuadId) (p : FPkt) (rest : List FPkt) (c : Coll),
      let s1 : State := { s with collIn := rest }
      let T := fun (ok : FPkt → Bool) => s.live = true ∧ takeFirst ok s.collIn = some (p, rest)
      let runs := s1.collFor p = some c ∧ c.running = true
      (T (fun p => p.kind = 8 && chunkQuad p.chunk = q)) ∧ runs) ∧
    (∃ (s : State) (q : QuadId) (p : FPkt) (rest : List FPkt) (c : Coll),
      let s1 : State := { s with collIn := rest }
      let T := fun (ok : FPkt → Bool) => s.live = true ∧ takeFirst ok s.collIn = some (p, rest)
      let runs := s1.collFor p = some c ∧ c.running = true
      (T (fun p => p.kind = 9 && chunkQuad p.chunk = q)) ∧ runs) ∧
    (∃ (s : State) (q : QuadId) (p : FPkt) (rest : List FPkt) (c : Coll),
      let s1 : State := { s with collIn := rest }
      let T := fun (ok : FPkt → Bool) => s.live = true ∧ takeFirst ok s.collIn = some (p, rest)
      let runs := s1.collFor p = some c ∧ c.running = true
      (T (fun p => p.kind = 10 && chunkQuad p.chunk = q)) ∧ runs) ∧
    (∃ (s : State) (q : QuadId) (p : FPkt) (rest : List FPkt) (c : Coll),
      let s1 : State := { s with collIn := rest }
      let T := fun (ok : FPkt → Bool) => s.live = true ∧ takeFirst ok s.collIn = some (p, rest)
      (T (fun p => p.kind = 11 && p.noticeCode = 1 && s.noticeQuad p = q && !s.grantEarly p)) ∧ (s1.collFor p = some c)) ∧
    (∃ (s : State) (q : QuadId) (p : FPkt) (rest : List FPkt) (c : Coll),
      let s1 : State := { s with collIn := rest }
      let T := fun (ok : FPkt → Bool) => s.live = true ∧ takeFirst ok s.collIn = some (p, rest)
      (T (fun p => p.kind = 11 && p.noticeCode ≠ 1 && s.noticeQuad p = q)) ∧ (s1.collFor p = some c) ∧ (c.admitted = true) ∧ (2 ≤ p.noticeCode) ∧ (p.noticeCode ≤ 4) ∧ (c.abort = 0)) ∧
    (∃ (s : State) (q : QuadId) (p : FPkt) (rest : List FPkt),
      let T := fun (ok : FPkt → Bool) => s.live = true ∧ takeFirst ok s.collIn = some (p, rest)
      (T (fun p => p.kind = 11 && p.noticeCode ≠ 1 && s.noticeQuad p = q)) ∧ (¬ (2 ≤ p.noticeCode ∧ p.noticeCode ≤ 4))) ∧
    (∃ (s : State) (q : QuadId) (p : FPkt) (rest : List FPkt),
      let s1 : State := { s with collIn := rest }
      let T := fun (ok : FPkt → Bool) => s.live = true ∧ takeFirst ok s.collIn = some (p, rest)
      (T (fun p => p.kind = 11 && p.noticeCode ≠ 1 && s.noticeQuad p = q)) ∧ ((s1.collFor p).filter (·.admitted) = none) ∧ (2 ≤ p.noticeCode) ∧ (p.noticeCode ≤ 4)) := by
  refine ⟨?_, ?_, ?_, ?_, ?_, ?_, ?_⟩
  · refine ⟨{ lab with colls := [{ fn := 5, ring := 0, idx := 0, raw := 6 + 64 * 2 ^ 128, quad := 0, barrier := true, group := { id := 9, addr := 64, size := 1, rank := 0, timeoutUs := 1000, vpkgs := [0], addrs := [0], fns := [5] }, opseq := 1, admitted := true, running := true }], collIn := [{ kind := 8, dstFn := 5, aux := 9 + 1 * 65536 + 0 }] }, 0, { kind := 8, dstFn := 5, aux := 9 + 1 * 65536 + 0 }, [], { fn := 5, ring := 0, idx := 0, raw := 6 + 64 * 2 ^ 128, quad := 0, barrier := true, group := { id := 9, addr := 64, size := 1, rank := 0, timeoutUs := 1000, vpkgs := [0], addrs := [0], fns := [5] }, opseq := 1, admitted := true, running := true }, ?_⟩
    dsimp only
    decide +kernel
  · refine ⟨{ lab with colls := [{ fn := 5, ring := 0, idx := 0, raw := 6 + 64 * 2 ^ 128, quad := 0, barrier := true, group := { id := 9, addr := 64, size := 1, rank := 0, timeoutUs := 1000, vpkgs := [0], addrs := [0], fns := [5] }, opseq := 1, admitted := true, running := true }], collIn := [{ kind := 9, dstFn := 5, aux := 9 + 1 * 65536 + 3 * 2 ^ 49 }] }, 0, { kind := 9, dstFn := 5, aux := 9 + 1 * 65536 + 3 * 2 ^ 49 }, [], { fn := 5, ring := 0, idx := 0, raw := 6 + 64 * 2 ^ 128, quad := 0, barrier := true, group := { id := 9, addr := 64, size := 1, rank := 0, timeoutUs := 1000, vpkgs := [0], addrs := [0], fns := [5] }, opseq := 1, admitted := true, running := true }, ?_⟩
    dsimp only
    decide +kernel
  · refine ⟨{ lab with colls := [{ fn := 5, ring := 0, idx := 0, raw := 6 + 64 * 2 ^ 128, quad := 0, barrier := true, group := { id := 9, addr := 64, size := 1, rank := 0, timeoutUs := 1000, vpkgs := [0], addrs := [0], fns := [5] }, opseq := 1, admitted := true, running := true }], collIn := [{ kind := 10, dstFn := 5, aux := 9 + 1 * 65536 + 0 }] }, 0, { kind := 10, dstFn := 5, aux := 9 + 1 * 65536 + 0 }, [], { fn := 5, ring := 0, idx := 0, raw := 6 + 64 * 2 ^ 128, quad := 0, barrier := true, group := { id := 9, addr := 64, size := 1, rank := 0, timeoutUs := 1000, vpkgs := [0], addrs := [0], fns := [5] }, opseq := 1, admitted := true, running := true }, ?_⟩
    dsimp only
    decide +kernel
  · refine ⟨{ lab with colls := [{ fn := 5, ring := 0, idx := 0, raw := 6 + 64 * 2 ^ 128, quad := 0, barrier := true, group := { id := 9, addr := 64, size := 1, rank := 0, timeoutUs := 1000, vpkgs := [0], addrs := [0], fns := [5] }, opseq := 1, admitted := true, running := true }], collIn := [{ kind := 11, dstFn := 5, aux := 9 + 1 * 65536 + 2 ^ 32 + 3 * 2 ^ 40 }] }, 0, { kind := 11, dstFn := 5, aux := 9 + 1 * 65536 + 2 ^ 32 + 3 * 2 ^ 40 }, [], { fn := 5, ring := 0, idx := 0, raw := 6 + 64 * 2 ^ 128, quad := 0, barrier := true, group := { id := 9, addr := 64, size := 1, rank := 0, timeoutUs := 1000, vpkgs := [0], addrs := [0], fns := [5] }, opseq := 1, admitted := true, running := true }, ?_⟩
    dsimp only
    decide +kernel
  · refine ⟨{ lab with colls := [{ fn := 5, ring := 0, idx := 0, raw := 6 + 64 * 2 ^ 128, quad := 0, barrier := true, group := { id := 9, addr := 64, size := 1, rank := 0, timeoutUs := 1000, vpkgs := [0], addrs := [0], fns := [5] }, opseq := 1, admitted := true, running := true }], collIn := [{ kind := 11, dstFn := 5, aux := 9 + 1 * 65536 + 2 * 2 ^ 32 }] }, 0, { kind := 11, dstFn := 5, aux := 9 + 1 * 65536 + 2 * 2 ^ 32 }, [], { fn := 5, ring := 0, idx := 0, raw := 6 + 64 * 2 ^ 128, quad := 0, barrier := true, group := { id := 9, addr := 64, size := 1, rank := 0, timeoutUs := 1000, vpkgs := [0], addrs := [0], fns := [5] }, opseq := 1, admitted := true, running := true }, ?_⟩
    dsimp only
    decide +kernel
  · refine ⟨{ lab with colls := [{ fn := 5, ring := 0, idx := 0, raw := 6 + 64 * 2 ^ 128, quad := 0, barrier := true, group := { id := 9, addr := 64, size := 1, rank := 0, timeoutUs := 1000, vpkgs := [0], addrs := [0], fns := [5] }, opseq := 1, admitted := true, running := true }], collIn := [{ kind := 11, dstFn := 5, aux := 9 + 1 * 65536 + 5 * 2 ^ 32 }] }, 0, { kind := 11, dstFn := 5, aux := 9 + 1 * 65536 + 5 * 2 ^ 32 }, [], ?_⟩
    dsimp only
    decide +kernel
  · refine ⟨{ lab with colls := [{ fn := 5, ring := 0, idx := 0, raw := 6 + 64 * 2 ^ 128, quad := 0, barrier := true, group := { id := 9, addr := 64, size := 1, rank := 0, timeoutUs := 1000, vpkgs := [0], addrs := [0], fns := [5] }, opseq := 1 }], collIn := [{ kind := 11, dstFn := 5, aux := 9 + 1 * 65536 + 4 * 2 ^ 32 }] }, 0, { kind := 11, dstFn := 5, aux := 9 + 1 * 65536 + 4 * 2 ^ 32 }, [], ?_⟩
    dsimp only
    decide +kernel

/-- The hypotheses of EthernetLinkAndFrames can be met. -/
theorem witness_EthernetLinkAndFrames :
    (∃ (s : State),
      let e := s.eth
      (s.boot.pgood = true) ∧ (s.fatal.cause = 0) ∧ (e.training = true)) ∧
    (∃ (s : State),
      (s.ethRuns = true)) ∧
    (∃ (s : State),
      let e := s.eth
      (e.training = true) ∧ (e.everUp = false)) ∧
    (∃ (s : State) (a : BitVec 128),
      let e := s.eth
      (s.ethRuns = true) ∧ (s.ownAddr a = false) ∧ (e.mayTake a = true)) ∧
    (∃ (s : State) (q : BitVec 24) (k : Conn),
      (s.ethRuns = true) ∧ (s.conn q.toNat = some k)) ∧
    (∃ (s : State) (q : BitVec 24) (k : Conn) (t : Nat),
      (s.ethRuns = true) ∧ (s.conn q.toNat = some k) ∧ (k.cnpGot = some t) ∧ (t + 55000 ≤ s.timeNs)) ∧
    (∃ (s : State) (q : BitVec 24) (k : Conn) (t : Nat),
      (s.ethRuns = true) ∧ (s.conn q.toNat = some k) ∧ (k.cnpGot = none ∨ k.cnpGot = some t ∧ s.timeNs < t + 55000)) ∧
    (∃ (s : State) (m : List Byte) (occ : List Nat),
      let p := frameClass m
      let s1 := s.pfcBuffers occ
      let room := s1.ethRoom p (occ.getD p 0) m.length
      (s.ethRuns = true) ∧ (room = false) ∧ (s1.eth.netrec.pfcMask.testBit p = true)) ∧
    (∃ (s : State) (m : List Byte) (occ : List Nat),
      let p := frameClass m
      let s1 := s.pfcBuffers occ
      let room := s1.ethRoom p (occ.getD p 0) m.length
      (s.ethRuns = true) ∧ (room = false) ∧ (s1.eth.netrec.pfcMask.testBit p = false)) ∧
    (∃ (s : State) (m : List Byte) (occ : List Nat),
      let p := frameClass m
      let s1 := s.pfcBuffers occ
      let room := s1.ethRoom p (occ.getD p 0) m.length
      (s.ethRuns = true) ∧ (room = true) ∧ (m.length < 64 ∨ 9220 < m.length)) ∧
    (∃ (s : State) (m : List Byte) (occ : List Nat),
      let p := frameClass m
      let s1 := s.pfcBuffers occ
      let room := s1.ethRoom p (occ.getD p 0) m.length
      (s.ethRuns = true) ∧ (room = true) ∧ (64 ≤ m.length) ∧ (m.length ≤ 9216) ∧ (fcs (m.take (m.length - 4)) ≠ m.drop (m.length - 4))) := by
  refine ⟨?_, ?_, ?_, ?_, ?_, ?_, ?_, ?_, ?_, ?_, ?_⟩
  · refine ⟨{ lab with eth := { lab.eth with link := false, training := true } }, ?_⟩
    dsimp only
    decide +kernel
  · refine ⟨lab, ?_⟩
    decide +kernel
  · refine ⟨{ lab with eth := { lab.eth with training := true, everUp := false } }, ?_⟩
    dsimp only
    decide +kernel
  · refine ⟨{ lab with eth := { lab.eth with learned := [0x20010000000000000000000000000001] } }, 0x20010000000000000000000000000001, ?_⟩
    dsimp only
    decide +kernel
  · refine ⟨{ lab with eth := { lab.eth with conns := [(16, some { fn := 5, gid := 2, peerQpn := 3, peerPsn := 4, mtu := 4096, psn := 5, rkeyWin := 6, rkeyRing := 7 })] } }, 16, { fn := 5, gid := 2, peerQpn := 3, peerPsn := 4, mtu := 4096, psn := 5, rkeyWin := 6, rkeyRing := 7 }, ?_⟩
    decide +kernel
  · refine ⟨{ { lab with eth := { lab.eth with conns := [(16, some { fn := 5, gid := 2, peerQpn := 3, peerPsn := 4, mtu := 4096, psn := 5, rkeyWin := 6, rkeyRing := 7, cnpGot := some 0 })] } } with timeNs := 55000 }, 16, { fn := 5, gid := 2, peerQpn := 3, peerPsn := 4, mtu := 4096, psn := 5, rkeyWin := 6, rkeyRing := 7, cnpGot := some 0 }, 0, ?_⟩
    decide +kernel
  · refine ⟨{ lab with eth := { lab.eth with conns := [(16, some { fn := 5, gid := 2, peerQpn := 3, peerPsn := 4, mtu := 4096, psn := 5, rkeyWin := 6, rkeyRing := 7 })] } }, 16, { fn := 5, gid := 2, peerQpn := 3, peerPsn := 4, mtu := 4096, psn := 5, rkeyWin := 6, rkeyRing := 7 }, 0, ?_⟩
    decide +kernel
  · refine ⟨{ lab with eth := { lab.eth with netrec := { lab.eth.netrec with pfcMask := 1 } } }, [], [2097153], ?_⟩
    dsimp only
    decide +kernel
  · refine ⟨lab, [], [Config.lossyBuffer + 1], ?_⟩
    dsimp only
    exact ⟨by decide +kernel, by rw [lossy_stays]; exact lossy_full, by rw [lossy_stays]; decide +kernel⟩
  · refine ⟨lab, List.replicate 63 0, [], ?_⟩
    dsimp only
    decide +kernel
  · refine ⟨lab, List.replicate 64 0, [], ?_⟩
    dsimp only
    decide +kernel

/-- The hypotheses of RdmaRequests can be met. -/
theorem witness_RdmaRequests :
    (∃ (s : State) (q : BitVec 24) (key : W32) (k : Conn),
      (s.ethRuns = true) ∧ (s.conn q.toNat = some k) ∧ (s.region k.fn key = .none)) ∧
    (∃ (s : State) (q : BitVec 24) (k : Conn),
      (s.ethRuns = true) ∧ (s.conn q.toNat = some k) ∧ (16 ≤ s.eth.outstanding q.toNat)) ∧
    (∃ (s : State) (q : BitVec 24) (key : W32) (k : Conn),
      (s.ethRuns = true) ∧ (s.conn q.toNat = some k) ∧ (s.eth.outstanding q.toNat < 16) ∧ (s.region k.fn key = .none)) ∧
    (∃ (s : State) (q : BitVec 24) (key : W32) (va : W64) (d : List Byte) (k : Conn) (ps : List (Nat × Nat × Nat)),
      let a := va.toNat
      (s.ethRuns = true) ∧ (s.conn q.toNat = some k) ∧ (s.region k.fn key = .window) ∧ (s.tacked = false) ∧ (s.windowReq k.fn a d.length true = .ok ps)) ∧
    (∃ (s : State) (q : BitVec 24) (key : W32) (va : W64) (d : List Byte) (code : Nat) (k : Conn),
      let a := va.toNat
      (s.ethRuns = true) ∧ (s.conn q.toNat = some k) ∧ (s.region k.fn key = .window) ∧ (s.tacked = false) ∧ (s.windowReq k.fn a d.length true = .error code)) ∧
    (∃ (s : State) (q : BitVec 24) (key : W32) (k : Conn),
      (s.ethRuns = true) ∧ (s.conn q.toNat = some k) ∧ (s.region k.fn key = .window) ∧ (s.tacked = true)) ∧
    (∃ (s : State) (q : BitVec 24) (key : W32) (va : W64) (d : List Byte) (k : Conn) (ps : List (Nat × Nat × Nat)),
      let a := va.toNat
      (s.ethRuns = true) ∧ (s.conn q.toNat = some k) ∧ (s.region k.fn key = .ring) ∧ (s.tacked = false) ∧ (a < 2 ^ 40) ∧ (s.entryReq k.fn a d.length true = .ok ps)) ∧
    (∃ (s : State) (q : BitVec 24) (key : W32) (va : W64) (d : List Byte) (k : Conn),
      let a := va.toNat
      (s.ethRuns = true) ∧ (s.conn q.toNat = some k) ∧ (s.region k.fn key = .ring) ∧ (2 ^ 40 ≤ a) ∧ (a % 8 = 0) ∧ (d.length = 4 ∨ d.length = 8)) ∧
    (∃ (s : State) (s1 : State) (q : BitVec 24) (key : W32) (va : W64) (bs : List Byte) (n : Nat) (k : Conn) (ps : List (Nat × Nat × Nat)) (u : _),
      let a := va.toNat
      (s.ethRuns = true) ∧ (s.conn q.toNat = some k) ∧ (s.eth.outstanding q.toNat < 16) ∧ (s.region k.fn key = .window) ∧ (s.windowReq k.fn a n false = .ok ps) ∧ (s.readPieces ps = (s1, bs, false, u))) ∧
    (∃ (s : State) (s1 : State) (q : BitVec 24) (key : W32) (va : W64) (bs : List Byte) (n : Nat) (k : Conn) (ps : List (Nat × Nat × Nat)) (u : _),
      let a := va.toNat
      (s.ethRuns = true) ∧ (s.conn q.toNat = some k) ∧ (s.eth.outstanding q.toNat < 16) ∧ (s.region k.fn key = .window) ∧ (s.windowReq k.fn a n false = .ok ps) ∧ (s.readPieces ps = (s1, bs, true, u))) ∧
    (∃ (s : State) (s1 : State) (q : BitVec 24) (d : List Byte) (k : Conn) (c : Nat) (l : List Nat),
      (s.ethRuns = true) ∧ (s.conn q.toNat = some k) ∧ (s.coresOf k.fn = c :: l) ∧ (d.length ≤ 9216) ∧ (s.tacked = false) ∧ ((s.fn k.fn).st = .running) ∧ ((s.core c).rxDone ≠ (s.core c).rxTail) ∧ (s.fqFill k.fn c d = (s1, 0))) ∧
    (∃ (s : State) (q : BitVec 24) (d : List Byte) (k : Conn) (c : Nat) (l : List Nat),
      (s.ethRuns = true) ∧ (s.conn q.toNat = some k) ∧ (s.coresOf k.fn = c :: l) ∧ (d.length ≤ 9216) ∧ (s.tacked = false) ∧ ((s.fn k.fn).st = .running) ∧ ((s.core c).rxDone = (s.core c).rxTail)) := by
  refine ⟨?_, ?_, ?_, ?_, ?_, ?_, ?_, ?_, ?_, ?_, ?_, ?_⟩
  · refine ⟨{ lab with eth := { lab.eth with conns := [(16, some { fn := 5, gid := 2, peerQpn := 3, peerPsn := 4, mtu := 4096, psn := 5, rkeyWin := 6, rkeyRing := 7 })] } }, 16, 8, { fn := 5, gid := 2, peerQpn := 3, peerPsn := 4, mtu := 4096, psn := 5, rkeyWin := 6, rkeyRing := 7 }, ?_⟩
    decide +kernel
  · refine ⟨{ lab with eth := { lab.eth with conns := [(16, some { fn := 5, gid := 2, peerQpn := 3, peerPsn := 4, mtu := 4096, psn := 5, rkeyWin := 6, rkeyRing := 7 })], answers := List.replicate 16 { qpn := 16, gid := 2, peerQpn := 3, vlan := 0, pcp := 0, dscp := 0, held := true, ans := .data [] } } }, 16, { fn := 5, gid := 2, peerQpn := 3, peerPsn := 4, mtu := 4096, psn := 5, rkeyWin := 6, rkeyRing := 7 }, ?_⟩
    decide +kernel
  · refine ⟨{ lab with eth := { lab.eth with conns := [(16, some { fn := 5, gid := 2, peerQpn := 3, peerPsn := 4, mtu := 4096, psn := 5, rkeyWin := 6, rkeyRing := 7 })] } }, 16, 8, { fn := 5, gid := 2, peerQpn := 3, peerPsn := 4, mtu := 4096, psn := 5, rkeyWin := 6, rkeyRing := 7 }, ?_⟩
    decide +kernel
  · refine ⟨{ lab with eth := { lab.eth with conns := [(16, some { fn := 5, gid := 2, peerQpn := 3, peerPsn := 4, mtu := 4096, psn := 5, rkeyWin := 6, rkeyRing := 7 })] } }, 16, 6, 262143, [1], { fn := 5, gid := 2, peerQpn := 3, peerPsn := 4, mtu := 4096, psn := 5, rkeyWin := 6, rkeyRing := 7 }, [(0, 786431, 1)], ?_⟩
    dsimp only
    exact ⟨by decide +kernel, by decide +kernel, by decide +kernel, by decide +kernel, except_ok (by decide +kernel)⟩
  · refine ⟨{ lab with eth := { lab.eth with conns := [(16, some { fn := 5, gid := 2, peerQpn := 3, peerPsn := 4, mtu := 4096, psn := 5, rkeyWin := 6, rkeyRing := 7 })] } }, 16, 6, 262144, [1], 0x61, { fn := 5, gid := 2, peerQpn := 3, peerPsn := 4, mtu := 4096, psn := 5, rkeyWin := 6, rkeyRing := 7 }, ?_⟩
    dsimp only
    exact ⟨by decide +kernel, by decide +kernel, by decide +kernel, by decide +kernel, except_error (by decide +kernel)⟩
  · refine ⟨{ ({ lab with eth := { lab.eth with conns := [(16, some { fn := 5, gid := 2, peerQpn := 3, peerPsn := 4, mtu := 4096, psn := 5, rkeyWin := 6, rkeyRing := 7 })] } } : State) with trc := { lab.trc with tack := .held } }, 16, 6, { fn := 5, gid := 2, peerQpn := 3, peerPsn := 4, mtu := 4096, psn := 5, rkeyWin := 6, rkeyRing := 7 }, ?_⟩
    decide +kernel
  · refine ⟨{ lab with eth := { lab.eth with conns := [(16, some { fn := 5, gid := 2, peerQpn := 3, peerPsn := 4, mtu := 4096, psn := 5, rkeyWin := 6, rkeyRing := 7 })] } }, 16, 7, 4032, List.replicate 64 1, { fn := 5, gid := 2, peerQpn := 3, peerPsn := 4, mtu := 4096, psn := 5, rkeyWin := 6, rkeyRing := 7 }, [(0, 4032, 64)], ?_⟩
    dsimp only
    exact ⟨by decide +kernel, by decide +kernel, by decide +kernel, by decide +kernel, by decide +kernel, except_ok (by decide +kernel)⟩
  · refine ⟨{ lab with eth := { lab.eth with conns := [(16, some { fn := 5, gid := 2, peerQpn := 3, peerPsn := 4, mtu := 4096, psn := 5, rkeyWin := 6, rkeyRing := 7 })] } }, 16, 7, 2 ^ 40, [1, 0, 0, 0], { fn := 5, gid := 2, peerQpn := 3, peerPsn := 4, mtu := 4096, psn := 5, rkeyWin := 6, rkeyRing := 7 }, ?_⟩
    dsimp only
    decide +kernel
  · refine ⟨{ lab with eth := { lab.eth with conns := [(16, some { fn := 5, gid := 2, peerQpn := 3, peerPsn := 4, mtu := 4096, psn := 5, rkeyWin := 6, rkeyRing := 7 })] } }, { lab with eth := { lab.eth with conns := [(16, some { fn := 5, gid := 2, peerQpn := 3, peerPsn := 4, mtu := 4096, psn := 5, rkeyWin := 6, rkeyRing := 7 })] } }, 16, 6, 262143, [0], 1, { fn := 5, gid := 2, peerQpn := 3, peerPsn := 4, mtu := 4096, psn := 5, rkeyWin := 6, rkeyRing := 7 }, [(0, 786431, 1)], false, ?_⟩
    dsimp only
    exact ⟨by decide +kernel, by decide +kernel, by decide +kernel, by decide +kernel, except_ok (by decide +kernel), by decide +kernel⟩
  · refine ⟨State.onSlab { lab with eth := { lab.eth with conns := [(16, some { fn := 5, gid := 2, peerQpn := 3, peerPsn := 4, mtu := 4096, psn := 5, rkeyWin := 6, rkeyRing := 7 })] } } 0 (fun b => { b with mdata := [(8192, 0x80)] }), State.onSlab { lab with eth := { lab.eth with conns := [(16, some { fn := 5, gid := 2, peerQpn := 3, peerPsn := 4, mtu := 4096, psn := 5, rkeyWin := 6, rkeyRing := 7 })] } } 0 (fun b => { b with mdata := [(8192, 0x80)] }), 16, 6, 0, [0], 1, { fn := 5, gid := 2, peerQpn := 3, peerPsn := 4, mtu := 4096, psn := 5, rkeyWin := 6, rkeyRing := 7 }, [(0, 524288, 1)], false, ?_⟩
    dsimp only
    exact ⟨by decide +kernel, by decide +kernel, by decide +kernel, by decide +kernel, except_ok (by decide +kernel), by decide +kernel⟩
  · refine ⟨State.onCore { lab with eth := { lab.eth with conns := [(16, some { fn := 5, gid := 2, peerQpn := 3, peerPsn := 4, mtu := 4096, psn := 5, rkeyWin := 6, rkeyRing := 7 })] } } 0 (fun x => { x with rxTail := 1, fqMem := [(0x2008, 64)] }), (State.fqFill (State.onCore { lab with eth := { lab.eth with conns := [(16, some { fn := 5, gid := 2, peerQpn := 3, peerPsn := 4, mtu := 4096, psn := 5, rkeyWin := 6, rkeyRing := 7 })] } } 0 (fun x => { x with rxTail := 1, fqMem := [(0x2008, 64)] })) 5 0 [1]).1, 16, [1], { fn := 5, gid := 2, peerQpn := 3, peerPsn := 4, mtu := 4096, psn := 5, rkeyWin := 6, rkeyRing := 7 }, 0, [], ?_⟩
    decide +kernel
  · refine ⟨{ lab with eth := { lab.eth with conns := [(16, some { fn := 5, gid := 2, peerQpn := 3, peerPsn := 4, mtu := 4096, psn := 5, rkeyWin := 6, rkeyRing := 7 })] } }, 16, [1], { fn := 5, gid := 2, peerQpn := 3, peerPsn := 4, mtu := 4096, psn := 5, rkeyWin := 6, rkeyRing := 7 }, 0, [], ?_⟩
    decide +kernel

/-- The hypotheses of ChainFrames can be met. -/
theorem witness_ChainFrames :
    (∃ (s : State),
      (s.chainRuns = true)) ∧
    (∃ (s : State) (m : List Byte),
      let n := beAt m 4 2
      let whole := n ≤ 256 ∧ m.length = 8 + n
      (s.chainRuns = true) ∧ (¬ whole)) ∧
    (∃ (s : State) (m : List Byte),
      let n := beAt m 4 2
      let b := m.take (6 + n)
      let whole := n ≤ 256 ∧ m.length = 8 + n
      (s.chainRuns = true) ∧ whole ∧ (chainCrc b ≠ m.drop (6 + n))) ∧
    (∃ (s : State) (m : List Byte),
      let n := beAt m 4 2
      let b := m.take (6 + n)
      let dest := beAt b 1 1
      let whole := n ≤ 256 ∧ m.length = 8 + n
      let good := whole ∧ chainCrc b = m.drop (6 + n)
      (s.chainRuns = true) ∧ good ∧ (dest = s.stch.index) ∧ (dest < 0xFE)) ∧
    (∃ (s : State) (m : List Byte),
      let n := beAt m 4 2
      let b := m.take (6 + n)
      let dest := beAt b 1 1
      let whole := n ≤ 256 ∧ m.length = 8 + n
      let good := whole ∧ chainCrc b = m.drop (6 + n)
      (s.chainRuns = true) ∧ good ∧ (dest ≠ s.stch.index ∨ dest = 0xFE) ∧ (dest ≠ 0xFF)) ∧
    (∃ (s : State) (m : List Byte),
      let n := beAt m 4 2
      let b := m.take (6 + n)
      let dest := beAt b 1 1
      let type := beAt b 0 1
      let whole := n ≤ 256 ∧ m.length = 8 + n
      let good := whole ∧ chainCrc b = m.drop (6 + n)
      (s.chainRuns = true) ∧ good ∧ (dest = 0xFF) ∧ (¬ (type = 1 ∧ n = 1))) ∧
    (∃ (s : State) (m : List Byte),
      let n := beAt m 4 2
      let b := m.take (6 + n)
      let dest := beAt b 1 1
      let type := beAt b 0 1
      let whole := n ≤ 256 ∧ m.length = 8 + n
      let good := whole ∧ chainCrc b = m.drop (6 + n)
      (s.chainRuns = true) ∧ good ∧ (dest = 0xFF) ∧ (type = 1) ∧ (n = 1)) ∧
    (∃ (s : State) (b : List Byte) (rest : List (List Byte)),
      let p := chainPayload b
      let K := fun (ok : List Byte → Bool) => s.chainRuns = true ∧ takeFirst ok s.stch.inbox = some (b, rest)
      (K (fun b => beAt b 0 1 = 1)) ∧ (p.length = 1)) ∧
    (∃ (s : State) (b : List Byte) (rest : List (List Byte)),
      let p := chainPayload b
      let v := beAt p 0 2
      let s1 : State := { s with stch := { s.stch with inbox := rest } }
      let K := fun (ok : List Byte → Bool) => s.chainRuns = true ∧ takeFirst ok s.stch.inbox = some (b, rest)
      (K (fun b => beAt b 0 1 = 2)) ∧ (s1.chainServes = true) ∧ (p.length = 2) ∧ (s1.noneRunning = true) ∧ (tb v 15 = false)) ∧
    (∃ (s : State) (b : List Byte) (rest : List (List Byte)),
      let p := chainPayload b
      let v := beAt p 0 2
      let s1 : State := { s with stch := { s.stch with inbox := rest } }
      let K := fun (ok : List Byte → Bool) => s.chainRuns = true ∧ takeFirst ok s.stch.inbox = some (b, rest)
      (K (fun b => beAt b 0 1 = 2)) ∧ (s1.chainServes = true) ∧ (p.length = 2) ∧ (s1.noneRunning = true) ∧ (tb v 15 = true) ∧ (s.flash.locked = true)) ∧
    (∃ (s : State) (b : List Byte) (rest : List (List Byte)),
      let p := chainPayload b
      let v := beAt p 0 2
      let s1 : State := { s with stch := { s.stch with inbox := rest } }
      let K := fun (ok : List Byte → Bool) => s.chainRuns = true ∧ takeFirst ok s.stch.inbox = some (b, rest)
      (K (fun b => beAt b 0 1 = 2)) ∧ (s1.chainServes = true) ∧ (p.length = 2) ∧ (s1.noneRunning = true) ∧ (tb v 15 = true) ∧ (s.flash.locked = false)) ∧
    (∃ (s : State) (b : List Byte) (rest : List (List Byte)),
      let p := chainPayload b
      let s1 : State := { s with stch := { s.stch with inbox := rest } }
      let K := fun (ok : List Byte → Bool) => s.chainRuns = true ∧ takeFirst ok s.stch.inbox = some (b, rest)
      (K (fun b => beAt b 0 1 = 2)) ∧ (s1.chainServes = true) ∧ (p.length = 2) ∧ (s1.noneRunning = false)) ∧
    (∃ (s : State) (b : List Byte) (rest : List (List Byte)),
      let K := fun (ok : List Byte → Bool) => s.chainRuns = true ∧ takeFirst ok s.stch.inbox = some (b, rest)
      (K (fun b => beAt b 0 1 = 3))) ∧
    (∃ (s : State) (b : List Byte) (rest : List (List Byte)),
      let p := chainPayload b
      let K := fun (ok : List Byte → Bool) => s.chainRuns = true ∧ takeFirst ok s.stch.inbox = some (b, rest)
      (K (fun b => beAt b 0 1 = 4)) ∧ (p = []) ∧ (s.fatal.cause = 0)) ∧
    (∃ (s : State) (b : List Byte) (rest : List (List Byte)),
      let p := chainPayload b
      let K := fun (ok : List Byte → Bool) => s.chainRuns = true ∧ takeFirst ok s.stch.inbox = some (b, rest)
      (K (fun b => beAt b 0 1 = 4)) ∧ (p = []) ∧ (s.fatal.cause ≠ 0)) ∧
    (∃ (s : State) (b : List Byte) (rest : List (List Byte)),
      let K := fun (ok : List Byte → Bool) => s.chainRuns = true ∧ takeFirst ok s.stch.inbox = some (b, rest)
      let works := s.boot.pgood = true ∧ s.fatal.cause = 0
      (K (fun b => beAt b 0 1 = 5 && chainPayload b = [0x81])) ∧ works) ∧
    (∃ (s : State) (b : List Byte) (rest : List (List Byte)),
      let K := fun (ok : List Byte → Bool) => s.chainRuns = true ∧ takeFirst ok s.stch.inbox = some (b, rest)
      let works := s.boot.pgood = true ∧ s.fatal.cause = 0
      (K (fun b => beAt b 0 1 = 5 && chainPayload b = [0x82])) ∧ works) ∧
    (∃ (s : State) (b : List Byte) (rest : List (List Byte)),
      let p := chainPayload b
      let K := fun (ok : List Byte → Bool) => s.chainRuns = true ∧ takeFirst ok s.stch.inbox = some (b, rest)
      (K (fun b => beAt b 0 1 = 6)) ∧ (s.boot.pgood = true) ∧ (s.boot.fail ≠ 2) ∧ (s.fatal.cause ≠ 1) ∧ (chainCodes.contains (beAt p 0 2) = true)) ∧
    (∃ (s : State),
      (s.chainRuns = true) ∧ (s.stch.upstreamLost = false)) ∧
    (∃ (s : State),
      (s.chainRuns = true) ∧ (s.stch.upstreamLost = true)) := by
  refine ⟨?_, ?_, ?_, ?_, ?_, ?_, ?_, ?_, ?_, ?_, ?_, ?_, ?_, ?_, ?_, ?_, ?_, ?_, ?_, ?_⟩
  · refine ⟨lab, ?_⟩
    decide +kernel
  · refine ⟨lab, [], ?_⟩
    dsimp only
    decide +kernel
  · refine ⟨lab, [3, 3, 254, 0, 0, 0, 0, 0], ?_⟩
    dsimp only
    decide +kernel
  · refine ⟨{ lab with stch := { lab.stch with index := 3 } }, [3, 3, 254, 0, 0, 0, 19, 53], ?_⟩
    dsimp only
    decide +kernel
  · refine ⟨{ lab with stch := { lab.stch with index := 3 } }, [3, 254, 254, 0, 0, 0, 13, 25], ?_⟩
    dsimp only
    decide +kernel
  · refine ⟨{ lab with stch := { lab.stch with index := 3 } }, [5, 255, 254, 0, 0, 1, 129, 158, 176], ?_⟩
    dsimp only
    decide +kernel
  · refine ⟨lab, [1, 255, 254, 0, 0, 1, 0, 222, 223], ?_⟩
    dsimp only
    decide +kernel
  · refine ⟨{ lab with stch := { lab.stch with inbox := [[1, 255, 254, 0, 0, 1, 254]] } }, [1, 255, 254, 0, 0, 1, 254], [], ?_⟩
    dsimp only
    decide +kernel
  · refine ⟨{ (lab.onFn 5 (fun x => { x with st := .stopped })) with stch := { lab.stch with inbox := [[2, 255, 254, 0, 0, 2, 63, 255]] } }, [2, 255, 254, 0, 0, 2, 63, 255], [], ?_⟩
    dsimp only
    decide +kernel
  · refine ⟨{ ({ (lab.onFn 5 (fun x => { x with st := .stopped })) with flash := lab.flash.tagWrite 6 [1] } : State) with stch := { lab.stch with inbox := [[2, 255, 254, 0, 0, 2, 191, 255]] } }, [2, 255, 254, 0, 0, 2, 191, 255], [], ?_⟩
    dsimp only
    decide +kernel
  · refine ⟨{ ({ (lab.onFn 5 (fun x => { x with st := .stopped })) with flash := lab.flash.tagWrite 6 [0] } : State) with stch := { lab.stch with inbox := [[2, 255, 254, 0, 0, 2, 191, 255]] } }, [2, 255, 254, 0, 0, 2, 191, 255], [], ?_⟩
    dsimp only
    decide +kernel
  · refine ⟨{ lab with stch := { lab.stch with inbox := [[2, 255, 254, 0, 0, 2, 63, 255]] } }, [2, 255, 254, 0, 0, 2, 63, 255], [], ?_⟩
    dsimp only
    decide +kernel
  · refine ⟨{ lab with stch := { lab.stch with inbox := [[3, 255, 254, 0, 0, 0]] } }, [3, 255, 254, 0, 0, 0], [], ?_⟩
    dsimp only
    decide +kernel
  · refine ⟨{ lab with stch := { lab.stch with inbox := [[4, 255, 254, 0, 0, 0]] } }, [4, 255, 254, 0, 0, 0], [], ?_⟩
    dsimp only
    decide +kernel
  · refine ⟨{ ({ lab with fatal := { lab.fatal with cause := 2 } } : State) with stch := { lab.stch with inbox := [[4, 255, 254, 0, 0, 0]] } }, [4, 255, 254, 0, 0, 0], [], ?_⟩
    dsimp only
    decide +kernel
  · refine ⟨{ lab with stch := { lab.stch with inbox := [[5, 255, 254, 0, 0, 1, 129]] } }, [5, 255, 254, 0, 0, 1, 129], [], ?_⟩
    dsimp only
    decide +kernel
  · refine ⟨{ lab with stch := { lab.stch with inbox := [[5, 255, 254, 0, 0, 1, 130]] } }, [5, 255, 254, 0, 0, 1, 130], [], ?_⟩
    dsimp only
    decide +kernel
  · refine ⟨{ lab with stch := { lab.stch with inbox := [[6, 255, 254, 0, 0, 2, 1, 1]] } }, [6, 255, 254, 0, 0, 2, 1, 1], [], ?_⟩
    dsimp only
    decide +kernel
  · refine ⟨lab, ?_⟩
    decide +kernel
  · refine ⟨{ lab with stch := { lab.stch with upstreamLost := true } }, ?_⟩
    decide +kernel

/-- The hypotheses of PortStates can be met. -/
theorem witness_PortStates :
    (∃ (s : State) (p : PortId) (x : Partner) (lanes : BitVec 8),
      let st := (s.port p).st
      let m := s.goodLanes p lanes
      let four := m &&& 0x0F = 0x0F ∨ m &&& 0xF0 = 0xF0
      (s.portRuns p = true) ∧ (st = .training ∨ st = .retrain) ∧ four ∧ (partnerFits p x = true)) ∧
    (∃ (s : State) (p : PortId) (x : Partner) (lanes : BitVec 8),
      let st := (s.port p).st
      let m := s.goodLanes p lanes
      let four := m &&& 0x0F = 0x0F ∨ m &&& 0xF0 = 0xF0
      (s.portRuns p = true) ∧ (st = .training ∨ st = .retrain) ∧ four ∧ (partnerFits p x = false)) ∧
    (∃ (s : State) (p : PortId) (lanes : BitVec 8),
      let st := (s.port p).st
      let m := s.goodLanes p lanes
      let four := m &&& 0x0F = 0x0F ∨ m &&& 0xF0 = 0xF0
      (s.portRuns p = true) ∧ (st = .training) ∧ (¬ four)) ∧
    (∃ (s : State) (p : PortId),
      let st := (s.port p).st
      (s.portRuns p = true) ∧ (st = .active8 ∨ st = .active4)) ∧
    (∃ (s : State) (p : PortId),
      let st := (s.port p).st
      (s.portRuns p = true) ∧ (st = .miswired)) ∧
    (∃ (s : State) (p : PortId),
      let st := (s.port p).st
      (s.portRuns p = true) ∧ (st = .retrain)) ∧
    (∃ (s : State) (p : PortId),
      let st := (s.port p).st
      (s.portRuns p = true) ∧ (st = .down) ∧ (8 ≤ s.boot.order)) ∧
    (∃ (s : State) (p : PortId),
      let st := (s.port p).st
      (s.portRuns p = true) ∧ (st ≠ .fenced)) ∧
    (∃ (s : State) (p : PortId),
      let st := (s.port p).st
      (s.portRuns p = true) ∧ (st.inService = true)) ∧
    (∃ (s : State) (p : PortId),
      (s.portRuns p = true)) ∧
    (∃ (p : Nat),
      (p < 20)) := by
  refine ⟨?_, ?_, ?_, ?_, ?_, ?_, ?_, ?_, ?_, ?_, ?_⟩
  · refine ⟨lab.onPort 19 (fun x => { x with st := .training }), 19, ⟨0, true, 18, false⟩, 0x0F, ?_⟩
    dsimp only
    decide +kernel
  · refine ⟨lab.onPort 19 (fun x => { x with st := .training }), 19, ⟨0, true, 19, false⟩, 0x0F, ?_⟩
    dsimp only
    decide +kernel
  · refine ⟨lab.onPort 19 (fun x => { x with st := .training }), 19, 0x3C, ?_⟩
    dsimp only
    decide +kernel
  · refine ⟨lab.onPort 19 (fun x => { x with st := .active4 }), 19, ?_⟩
    dsimp only
    decide +kernel
  · refine ⟨lab.onPort 19 (fun x => { x with st := .miswired }), 19, ?_⟩
    dsimp only
    decide +kernel
  · refine ⟨lab.onPort 19 (fun x => { x with st := .retrain }), 19, ?_⟩
    dsimp only
    decide +kernel
  · refine ⟨lab, 19, ?_⟩
    dsimp only
    decide +kernel
  · refine ⟨lab, 19, ?_⟩
    dsimp only
    decide +kernel
  · refine ⟨lab.onPort 19 (fun x => { x with st := .retrain }), 19, ?_⟩
    dsimp only
    decide +kernel
  · refine ⟨lab.onPort 19 (fun x => { x with st := .active8 }), 19, ?_⟩
    decide +kernel
  · refine ⟨19, ?_⟩
    decide +kernel

/-- The hypotheses of FabricPackets can be met. -/
theorem witness_FabricPackets :
    (∃ (s : State) (p : PortId) (m : List Byte),
      let x := s.port p
      (s.portRuns p = true) ∧ (x.st.active = true) ∧ (x.replayFrom = none) ∧ (s.trc.tack = .none) ∧ (FPkt.parse m = none)) ∧
    (∃ (s : State) (p : PortId) (m : List Byte) (q : FPkt),
      let x := s.port p
      (s.portRuns p = true) ∧ (x.st.active = true) ∧ (x.replayFrom = none) ∧ (s.trc.tack = .none) ∧ (FPkt.parse m = some q)) ∧
    (∃ (s : State) (p : PortId) (vc : Fin 6),
      let x := s.port p
      let k := 0x1000 + p.val * 8 + vc.val
      (s.portRuns p = true) ∧ (x.st.active = true) ∧ (x.replayFrom = none) ∧ (s.trc.tack ≠ .none) ∧ ((s.trc.logs.get {} k).closed = false)) ∧
    (∃ (s : State) (p : PortId),
      let x := s.port p
      (s.portRuns p = true) ∧ (x.st.active = true)) ∧
    (∃ (s : State) (p : PortId) (vc : Fin 6) (e : PortPkt),
      let x := s.port p
      (s.portRuns p = true) ∧ (s.trc.tack = .none) ∧ (x.queue.find? (fun e => e.vc = vc.val) = some e)) := by
  refine ⟨?_, ?_, ?_, ?_, ?_⟩
  · refine ⟨lab.onPort 19 (fun x => { x with st := .active4 }), 19, [], ?_⟩
    dsimp only
    decide +kernel
  · refine ⟨lab.onPort 19 (fun x => { x with st := .active8 }), 19, List.replicate 7 0 ++ [12] ++ List.replicate 24 0, { kind := 3 }, ?_⟩
    dsimp only
    decide +kernel
  · refine ⟨{ (lab.onPort 19 (fun x => { x with st := .active8 })) with trc := { lab.trc with tack := .stopping } }, 19, 5, ?_⟩
    dsimp only
    decide +kernel
  · refine ⟨lab.onPort 19 (fun x => { x with st := .active8 }), 19, ?_⟩
    dsimp only
    decide +kernel
  · refine ⟨lab.onPort 19 (fun x => { x with queue := [⟨5, none, {}⟩] }), 19, 5, ⟨5, none, {}⟩, ?_⟩
    dsimp only
    decide +kernel

/-- The hypotheses of SetpointsAndShortfall can be met. -/
theorem witness_SetpointsAndShortfall :
    (∃ (s : State) (d : DomId),
      let x := s.dom d
      (s.govRuns = true) ∧ (x.gated = false) ∧ (x.slewing = false)) ∧
    (∃ (s : State) (d : DomId),
      let x := s.dom d
      (s.boot.pgood = true) ∧ (x.slewing = true)) ∧
    (∃ (s : State) (d : DomId),
      let x := s.dom d
      (s.boot.pgood = true) ∧ (x.slewing = true) ∧ (x.acked = true) ∧ (x.droop = false)) ∧
    (∃ (s : State),
      (s.boot.pgood = true)) ∧
    (∃ (s : State) (d : DomId) (rate : Nat),
      let x := s.dom d
      (s.govRuns = true) ∧ (x.gated = false) ∧ (x.slewing = false) ∧ (x.shortfall = false) ∧ (x.vset = s.fuses.vnom d x.op + s.fuses.age d) ∧ (rate * 100 < targetRate x.op * 98)) ∧
    (∃ (s : State) (d : DomId) (rate : Nat),
      let x := s.dom d
      (s.govRuns = true) ∧ (x.shortfall = true) ∧ (targetRate x.op ≤ rate)) ∧
    (∃ (s : State),
      (s.govRuns = true)) := by
  refine ⟨?_, ?_, ?_, ?_, ?_, ?_, ?_⟩
  · refine ⟨lab.setDom 19 { lab.dom 19 with gated := false }, 19, ?_⟩
    dsimp only
    decide +kernel
  · refine ⟨lab.setDom 19 { lab.dom 19 with slewing := true }, 19, ?_⟩
    dsimp only
    decide +kernel
  · refine ⟨lab.setDom 19 { lab.dom 19 with slewing := true, acked := true }, 19, ?_⟩
    dsimp only
    decide +kernel
  · refine ⟨lab, ?_⟩
    decide +kernel
  · refine ⟨lab.setDom 19 { lab.dom 19 with gated := false, op := 1, vset := lab.fuses.vnom 19 1 + lab.fuses.age 19 }, 19, 0, ?_⟩
    dsimp only
    decide +kernel
  · refine ⟨lab.setDom 19 { lab.dom 19 with shortfall := true }, 19, 100000, ?_⟩
    dsimp only
    decide +kernel
  · refine ⟨lab, ?_⟩
    decide +kernel

/-- The hypotheses of ThermalAndCurrentCeilings can be met. -/
theorem witness_ThermalAndCurrentCeilings :
    (∃ (s : State),
      (s.govRuns = true)) ∧
    (∃ (s : State) (d : DomId) (t : TileId),
      (s.govRuns = true) ∧ (domainOf t = d.val)) := by
  refine ⟨?_, ?_⟩
  · refine ⟨lab, ?_⟩
    decide +kernel
  · refine ⟨lab, 0, 0, ?_⟩
    decide +kernel

/-- The hypotheses of GovernorRuns can be met. -/
theorem witness_GovernorRuns :
    (∃ (s : State),
      (s.govRuns = true)) ∧
    (∃ (s : State),
      (s.govRuns = true) ∧ (s.pwr.tackInWindow = false) ∧ (s.tacked = false)) ∧
    (∃ (s : State),
      (s.govRuns = true) ∧ (s.pwr.grantW ≠ 0)) ∧
    (∃ (s : State) (d : DomId),
      let ts := (List.range 80).filter (fun t => domainOf t = d.val)
      (s.govRuns = true) ∧ ((s.dom d).gated = false) ∧ ((∀ t ∈ ts, (s.tile t).owner = none ∨ (s.tile t).retired = true))) := by
  refine ⟨?_, ?_, ?_, ?_⟩
  · refine ⟨lab, ?_⟩
    decide +kernel
  · refine ⟨lab, ?_⟩
    decide +kernel
  · refine ⟨{ lab with pwr := { lab.pwr with grantW := 600 } }, ?_⟩
    decide +kernel
  · refine ⟨lab.setDom 19 { lab.dom 19 with gated := false }, 19, ?_⟩
    dsimp only
    decide +kernel

/-- The hypotheses of SupplyFaultsAndTheFatalLatch can be met. -/
theorem witness_SupplyFaultsAndTheFatalLatch :
    (∃ (s : State),
      (s.fatal.cause = 0) ∧ (s.fatal.pendingCause = 0) ∧ (s.boot.pgood = true)) ∧
    (∃ (s : State),
      (s.fatal.cause = 0) ∧ (s.fatal.pendingCause = 0) ∧ (s.boot.v3p3 = true)) ∧
    (∃ (s : State),
      (s.fatal.pendingCause ≠ 0) ∧ (s.fatal.cause = 0)) ∧
    (∃ (s : State),
      (s.fatal.cause ≠ 0)) ∧
    (∃ (a : Nat) (b : Nat),
      (a < 1000) ∧ (b < 500)) := by
  refine ⟨?_, ?_, ?_, ?_, ?_⟩
  · refine ⟨lab, ?_⟩
    decide +kernel
  · refine ⟨lab, ?_⟩
    decide +kernel
  · refine ⟨{ lab with fatal := { lab.fatal with pendingCause := 3 } }, ?_⟩
    decide +kernel
  · refine ⟨{ lab with fatal := { lab.fatal with cause := 3 } }, ?_⟩
    decide +kernel
  · refine ⟨999, 499, ?_⟩
    decide +kernel

/-- The hypotheses of TimeBaseFollowsItsSources can be met. -/
theorem witness_TimeBaseFollowsItsSources :
    (∃ (s : State),
      let x := s.timeBase
      (s.boot.pgood = true) ∧ (x.timeref = true)) ∧
    (∃ (s : State),
      let x := s.timeBase
      (s.boot.pgood = true) ∧ (x.timeref = false)) ∧
    (∃ (s : State),
      (s.boot.pgood = true)) ∧
    (∃ (s : State),
      let x := s.timeBase
      (s.boot.pgood = true) ∧ (x.state = 2)) ∧
    (∃ (s : State) (dom : Byte),
      (s.boot.pgood = true) ∧ (s.eth.link = true) ∧ (s.fatal.cause = 0) ∧ (dom.toNat = s.eth.netrec.ptpDomain)) ∧
    (∃ (s : State) (p : PortId),
      (s.boot.pgood = true) ∧ (p.val < 6 ∨ 14 ≤ p.val) ∧ (s.portAbsent p = false) ∧ ((s.port p).st.active = true)) := by
  refine ⟨?_, ?_, ?_, ?_, ?_, ?_⟩
  · refine ⟨lab, ?_⟩
    dsimp only
    decide +kernel
  · refine ⟨{ lab with timeBase := { lab.timeBase with timeref := false } }, ?_⟩
    dsimp only
    decide +kernel
  · refine ⟨lab, ?_⟩
    decide +kernel
  · refine ⟨{ lab with timeBase := { lab.timeBase with state := 2 } }, ?_⟩
    dsimp only
    decide +kernel
  · refine ⟨lab, 0, ?_⟩
    decide +kernel
  · refine ⟨lab.onPort 19 (fun x => { x with st := .active8 }), 19, ?_⟩
    decide +kernel

/-- The hypotheses of ErrorRegistersLatchTheFirst can be met. -/
theorem witness_ErrorRegistersLatchTheFirst :
    (∃ (s : State) (b : Blk) (i : Nat) (m : Nat),
      let r := s.err b i
      (m ≠ 0) ∧ (r.stat = 0)) ∧
    (∃ (s : State) (b : Blk) (i : Nat) (m : Nat),
      let r := s.err b i
      (m ≠ 0) ∧ (r.first.toNat / 128 % 2 = 0)) ∧
    (∃ (s : State) (b : Blk) (i : Nat) (m : Nat),
      let r := s.err b i
      let cls := b.maskCls m
      (m ≠ 0) ∧ (r.first.toNat / 128 % 2 = 1) ∧ (cls.code ≤ r.first.toNat / 32 % 4)) ∧
    (∃ (s : State) (b : Blk) (i : Nat) (m : Nat),
      let r := s.err b i
      let cls := b.maskCls m
      (m ≠ 0) ∧ (r.first.toNat / 128 % 2 = 1) ∧ (r.first.toNat / 32 % 4 < cls.code)) ∧
    (∃ (b : Blk) (m : Nat),
      let cls := b.maskCls m
      (m ≠ 0) ∧ (cls = .c)) ∧
    (∃ (b : Blk) (m : Nat),
      let cls := b.maskCls m
      (m ≠ 0) ∧ (cls ≠ .c)) ∧
    (∃ (m : Nat),
      (m ≠ 0)) := by
  refine ⟨?_, ?_, ?_, ?_, ?_, ?_, ?_⟩
  · refine ⟨lab, .opa, 79, 2 ^ 15, ?_⟩
    dsimp only
    decide +kernel
  · refine ⟨lab, .opa, 79, 2 ^ 15, ?_⟩
    dsimp only
    decide +kernel
  · refine ⟨lab.setErr .opa 79 { stat := 1, first := 0xE0 }, .opa, 79, 2 ^ 15, ?_⟩
    dsimp only
    decide +kernel
  · refine ⟨lab.setErr .opa 79 { stat := 1, first := 0x80 }, .opa, 79, 2 ^ 15, ?_⟩
    dsimp only
    decide +kernel
  · refine ⟨.lnk, 1, ?_⟩
    dsimp only
    decide +kernel
  · refine ⟨.opa, 1, ?_⟩
    dsimp only
    decide +kernel
  · refine ⟨2 ^ 15, ?_⟩
    decide +kernel

/-- The hypotheses of RegisterWrites can be met. -/
theorem witness_RegisterWrites :
    (∃ (s : State),
      (s.regWrites = true)) ∧
    (∃ (s : State) (b : Blk) (i : Nat) (w : W32),
      (s.regWrites = true) ∧ (b.hasInst i = true) ∧ (w.getLsbD 29 = false)) ∧
    (∃ (s : State) (b : Blk) (i : Nat) (w : W32),
      (s.regWrites = true) ∧ (b.hasInst i = true) ∧ (w.getLsbD 29 = true)) ∧
    (∃ (s : State) (r : Reg),
      (s.regWrites = true) ∧ (thimbleOnly r = true)) ∧
    (∃ (b : Blk) (i : Nat),
      (b.hasInst i = true)) ∧
    (∃ (s : State),
      (s.regWrites = false)) := by
  refine ⟨?_, ?_, ?_, ?_, ?_, ?_⟩
  · refine ⟨lab, ?_⟩
    decide +kernel
  · refine ⟨lab, .opa, 79, 0, ?_⟩
    decide +kernel
  · refine ⟨lab, .opa, 79, 0x20000000, ?_⟩
    decide +kernel
  · refine ⟨lab, .fnCfg 5, ?_⟩
    decide +kernel
  · refine ⟨.opa, 79, ?_⟩
    decide +kernel
  · refine ⟨{ lab with fatal := { lab.fatal with cause := 3 } }, ?_⟩
    decide +kernel

/-- The hypotheses of MeshScrubAndRetirement can be met. -/
theorem witness_MeshScrubAndRetirement :
    (∃ (s : State) (t : TileId) (d : Dir) (n : Nat),
      (s.live = true) ∧ (neighbour t d = some n) ∧ (s.lostHalves t d < 2)) ∧
    (∃ (s : State) (t : TileId) (d : Dir) (n : Nat),
      (s.live = true) ∧ (neighbour t d = some n) ∧ (s.lostHalves t d = 0)) ∧
    (∃ (s : State) (t : TileId) (d : Dir) (n : Nat),
      (s.live = true) ∧ (neighbour t d = some n) ∧ (s.lostHalves t d = 1)) ∧
    (∃ (s : State) (t : TileId) (d : Dir) (n : Nat),
      let x := s.tile t
      let b := s.slab t
      let cw := b.scrubFrom 33 b.scrubPos
      (s.live = true) ∧ (neighbour t d = some n) ∧ (b.scrubEnable = true) ∧ (x.retired = false) ∧ (cw + 1 < s.slabPages * 1024)) ∧
    (∃ (s : State) (t : TileId) (d : Dir) (n : Nat),
      let x := s.tile t
      let b := s.slab t
      let cw := b.scrubFrom 33 b.scrubPos
      (s.live = true) ∧ (neighbour t d = some n) ∧ (b.scrubEnable = true) ∧ (x.retired = false) ∧ (s.slabPages * 1024 ≤ cw + 1)) ∧
    (∃ (s : State) (t : TileId) (d : Dir) (n : Nat) (f : Nat),
      let x := s.tile t
      (s.live = true) ∧ (neighbour t d = some n) ∧ (x.retireReq = true) ∧ (x.retired = false) ∧ ((∀ f, x.owner = some f → (s.fn f).st = .stopped))) ∧
    (∃ (s : State) (t : TileId) (d : Dir) (n : Nat) (f : Nat),
      let x := s.tile t
      (s.live = true) ∧ (neighbour t d = some n) ∧ (x.retireReq = true) ∧ (x.retired = false) ∧ (x.owner = some f) ∧ ((s.fn f).st = .running)) := by
  refine ⟨?_, ?_, ?_, ?_, ?_, ?_, ?_⟩
  · refine ⟨lab.setHalves 78 .east 1, 78, .east, 79, ?_⟩
    decide +kernel
  · refine ⟨lab, 78, .east, 79, ?_⟩
    decide +kernel
  · refine ⟨lab.setHalves 78 .east 1, 78, .east, 79, ?_⟩
    decide +kernel
  · refine ⟨lab, 78, .east, 79, ?_⟩
    dsimp only
    decide +kernel
  · refine ⟨lab.onSlab 78 (fun b => { b with scrubPos := lab.slabPages * 1024 - 1 }), 78, .east, 79, ?_⟩
    dsimp only
    decide +kernel
  · refine ⟨lab.setTile 79 { retireReq := true, owner := some 6 }, 79, .west, 78, 5, ?_⟩
    dsimp only
    exact ⟨by decide +kernel, by decide +kernel, by decide +kernel, by decide +kernel, fun f h => by have e : f = 6 := (Option.some.inj (h.symm.trans (by decide +kernel : _ = some 6))); subst e; decide +kernel⟩
  · refine ⟨lab.setTile 79 { retireReq := true, owner := some 5 }, 79, .west, 78, 5, ?_⟩
    dsimp only
    decide +kernel

/-- The hypotheses of TackIsTakenAndEnded can be met. -/
theorem witness_TackIsTakenAndEnded :
    (∃ (s : State),
      (s.trc.pinArmed = true) ∧ (s.boot.pgood = true) ∧ (s.boot.order = 10)) ∧
    (∃ (s : State),
      (s.trc.pinArmed = true) ∧ (s.boot.order ≠ 10)) ∧
    (∃ (s : State) (p : PortId),
      let works := s.boot.pgood = true ∧ s.fatal.cause = 0
      works ∧ (s.portCut p = true) ∧ (s.trc.tack = .none)) ∧
    (∃ (s : State),
      let works := s.boot.pgood = true ∧ s.fatal.cause = 0
      works ∧ (s.trc.tack = .stopping)) ∧
    (∃ (s : State),
      let works := s.boot.pgood = true ∧ s.fatal.cause = 0
      works ∧ (s.trc.tack = .none)) ∧
    (∃ (s : State),
      let works := s.boot.pgood = true ∧ s.fatal.cause = 0
      works ∧ (s.trc.tack = .stopping) ∧ (s.logsClosed = true) ∧ (s.trc.resumeWait = false)) ∧
    (∃ (s : State),
      let works := s.boot.pgood = true ∧ s.fatal.cause = 0
      works) ∧
    (∃ (s : State) (p : PortId),
      let works := s.boot.pgood = true ∧ s.fatal.cause = 0
      works ∧ (s.portCut p = true)) ∧
    (∃ (s : State),
      (s.trc.tack = .none)) := by
  refine ⟨?_, ?_, ?_, ?_, ?_, ?_, ?_, ?_, ?_⟩
  · refine ⟨lab, ?_⟩
    decide +kernel
  · refine ⟨State.reset, ?_⟩
    decide +kernel
  · refine ⟨(lab.onPort 19 (fun x => { x with st := .active8 })), 19, ?_⟩
    dsimp only
    decide +kernel
  · refine ⟨{ lab with trc := { lab.trc with tack := .stopping } }, ?_⟩
    dsimp only
    decide +kernel
  · refine ⟨lab, ?_⟩
    dsimp only
    decide +kernel
  · refine ⟨{ lab with trc := { lab.trc with tack := .stopping } }, ?_⟩
    dsimp only
    decide +kernel
  · refine ⟨lab, ?_⟩
    dsimp only
    decide +kernel
  · refine ⟨(lab.onPort 19 (fun x => { x with st := .active8 })), 19, ?_⟩
    dsimp only
    decide +kernel
  · refine ⟨lab, ?_⟩
    decide +kernel

/-- The hypotheses of PowerAndReset can be met. -/
theorem witness_PowerAndReset :
    (∃ (s : State),
      (s.boot.v3p3 = false)) ∧
    (∃ (s : State),
      (s.boot.v3p3 = true) ∧ (s.boot.pgood = false)) ∧
    (∃ (a : Nat) (b : Nat),
      (a < 10500 ∨ b < 3000)) ∧
    (∃ (s : State) (ns : Nat),
      (2000 ≤ ns) ∧ (s.boot.pgood = true) ∧ (s.fatal.cause = 0)) ∧
    (∃ (ns : Nat),
      (ns < 2000)) ∧
    (∃ (s : State),
      (s.boot.trial = true) ∧ (3 ≤ s.boot.order) ∧ (s.boot.order < 7)) ∧
    (∃ (s : State) (o : Nat) (l : List Byte),
      (s.boot.v3p3 = true) ∧ (s.fatal.cause = 0) ∧ (o + l.length ≤ 100659200)) := by
  refine ⟨?_, ?_, ?_, ?_, ?_, ?_, ?_⟩
  · refine ⟨{ lab with boot := { v3p3 := false, pgood := false } }, ?_⟩
    decide +kernel
  · refine ⟨{ lab with boot := { pgood := false } }, ?_⟩
    decide +kernel
  · refine ⟨10499, 2999, ?_⟩
    decide +kernel
  · refine ⟨lab, 2000, ?_⟩
    decide +kernel
  · refine ⟨1999, ?_⟩
    decide +kernel
  · refine ⟨{ lab with boot := { trial := true, order := 6 } }, ?_⟩
    decide +kernel
  · refine ⟨lab, 100659200, [], ?_⟩
    decide +kernel

/-- The hypotheses of ResetLeavesWhatPersists can be met. -/
theorem witness_ResetLeavesWhatPersists :
    (∃ (s : State),
      (s.boot.pgood = true) ∧ (s.fatal.cause = 0)) := by
  · refine ⟨lab, ?_⟩
    decide +kernel

/-- The hypotheses of BootReachesItsOrder can be met. -/
theorem witness_BootReachesItsOrder :
    (∃ (s : State) (x : SelfTest),
      (s.boot.pgood = true) ∧ (s.boot.order = 2) ∧ (s.boot.fail = 0) ∧ (s.fatal.cause = 0) ∧ (x.comparatorFail = true)) ∧
    (∃ (s : State) (x : SelfTest),
      (s.boot.pgood = true) ∧ (s.boot.order = 2) ∧ (s.boot.fail = 0) ∧ (s.fatal.cause = 0) ∧ (x.comparatorFail = false) ∧ (x.flashFail = true ∨ s.flash.failed = true)) ∧
    (∃ (s : State) (m : BitVec 2) (x : SelfTest) (s2 : State),
      let s1 : State := { s with boot := { s.boot with order := 3, mode := m.toNat, modeBad := m.toNat = 3 } }
      (s.boot.pgood = true) ∧ (s.boot.order = 2) ∧ (s.boot.fail = 0) ∧ (s.fatal.cause = 0) ∧ (x.comparatorFail = false) ∧ (x.flashFail = false) ∧ (s.flash.failed = false) ∧ ((s1.recover m.toNat).pickSlot (m.toNat = 1) = (s2, none))) ∧
    (∃ (s : State) (m : BitVec 2) (x : SelfTest) (n : Nat) (b : Byte) (s2 : State),
      let s1 : State := { s with boot := { s.boot with order := 3, mode := m.toNat, modeBad := m.toNat = 3 } }
      (s.boot.pgood = true) ∧ (s.boot.order = 2) ∧ (s.boot.fail = 0) ∧ (s.fatal.cause = 0) ∧ (x.comparatorFail = false) ∧ (x.flashFail = false) ∧ (s.flash.failed = false) ∧ ((s1.recover m.toNat).pickSlot (m.toNat = 1) = (s2, some n)) ∧ (x.unitFail = some b)) ∧
    (∃ (s : State) (m : BitVec 2) (x : SelfTest) (n : Nat) (s2 : State),
      let s1 : State := { s with boot := { s.boot with order := 3, mode := m.toNat, modeBad := m.toNat = 3 } }
      (s.boot.pgood = true) ∧ (s.boot.order = 2) ∧ (s.boot.fail = 0) ∧ (s.fatal.cause = 0) ∧ (x.comparatorFail = false) ∧ (x.flashFail = false) ∧ (s.flash.failed = false) ∧ ((s1.recover m.toNat).pickSlot (m.toNat = 1) = (s2, some n)) ∧ (x.unitFail = none)) := by
  refine ⟨?_, ?_, ?_, ?_, ?_⟩
  · refine ⟨State.reset, { comparatorFail := true, flashFail := false, flashCorrected := false, unitFail := none, failedTiles := [], badPages := [], failedDomains := [], failedCores := [], downLinks := [], failedLanes := [], noOscillator := false }, ?_⟩
    decide +kernel
  · refine ⟨State.reset, { comparatorFail := false, flashFail := true, flashCorrected := false, unitFail := none, failedTiles := [], badPages := [], failedDomains := [], failedCores := [], downLinks := [], failedLanes := [], noOscillator := false }, ?_⟩
    decide +kernel
  · refine ⟨{ State.reset with flash := { State.reset.flash with slotA := {} } }, 0, { comparatorFail := false, flashFail := false, flashCorrected := false, unitFail := none, failedTiles := [], badPages := [], failedDomains := [], failedCores := [], downLinks := [], failedLanes := [], noOscillator := false }, { State.reset with flash := { State.reset.flash with slotA := {} }, boot := { State.reset.boot with order := 3, mode := 0, modeBad := false } }, ?_⟩
    dsimp only
    decide +kernel
  · refine ⟨({ State.reset with flash := { State.reset.flash with slotB := { state := .valid, factory := true } } } : State), 1, { comparatorFail := false, flashFail := false, flashCorrected := false, unitFail := some 7, failedTiles := [], badPages := [], failedDomains := [], failedCores := [], downLinks := [], failedLanes := [], noOscillator := false }, 1, 7, { ({ State.reset with flash := { State.reset.flash with slotB := { state := .valid, factory := true } } } : State) with boot := { ({ State.reset with flash := { State.reset.flash with slotB := { state := .valid, factory := true } } } : State).boot with order := 3, mode := 1, modeBad := false } }, ?_⟩
    dsimp only
    decide +kernel
  · refine ⟨State.reset, 0, { comparatorFail := false, flashFail := false, flashCorrected := false, unitFail := none, failedTiles := [], badPages := [], failedDomains := [], failedCores := [], downLinks := [], failedLanes := [], noOscillator := false }, 0, { State.reset with boot := { State.reset.boot with order := 3, mode := 0, modeBad := false } }, ?_⟩
    dsimp only
    decide +kernel

/-- The hypotheses of FatalCauseStaysLatched can be met. -/
theorem witness_FatalCauseStaysLatched :
    (∃ (i : Instr) (s : State) (u : State),
      (s.fatal.cause ≠ 0) ∧ ((∀ a b, a < 1000 → b < 500 → i ≠ .fatalLatchClear a b)) ∧ (exec i s = .next u)) := by
  · refine ⟨.tackNRise, { lab with fatal := { lab.fatal with cause := 3 } }, { lab with fatal := { lab.fatal with cause := 3 } }, ?_⟩
    exact ⟨by decide +kernel, fun a b _ _ => nofun, rfl⟩

/-- The hypotheses of KeysFusesAndTagAreaAreGuarded can be met. -/
theorem witness_KeysFusesAndTagAreaAreGuarded :
    (∃ (i : Instr) (s : State) (u : State),
      (exec i s = .next u)) ∧
    (∃ (i : Instr) (s : State) (u : State),
      (exec i s = .next u) ∧ (i ≠ .claim) ∧ (i ≠ .rekey) ∧ ((∀ m x, i ≠ .bootSequence m x))) ∧
    (∃ (i : Instr) (s : State) (u : State),
      (exec i s = .next u) ∧ ((∀ m x, i ≠ .bootSequence m x))) ∧
    (∃ (i : Instr) (s : State) (u : State),
      (exec i s = .next u) ∧ (i ≠ .tagWrite) ∧ (i ≠ .tagLock) ∧ (i ≠ .setaddr) ∧ ((∀ m x, i ≠ .bootSequence m x))) := by
  refine ⟨?_, ?_, ?_, ?_⟩
  · refine ⟨.tackNRise, lab, lab, ?_⟩
    exact rfl
  · refine ⟨.tackNRise, lab, lab, ?_⟩
    exact ⟨rfl, nofun, nofun, fun _ _ => nofun⟩
  · refine ⟨.tackNRise, lab, lab, ?_⟩
    exact ⟨rfl, fun _ _ => nofun⟩
  · refine ⟨.tackNRise, lab, lab, ?_⟩
    exact ⟨rfl, nofun, nofun, nofun, fun _ _ => nofun⟩

/-- The hypotheses of SignatureIndicesNeverFall can be met. -/
theorem witness_SignatureIndicesNeverFall :
    (∃ (s : State) (u : State),
      (s.boot.nextSig ≤ s.flash.sigBlock * 4096) ∧ (step s = .next u)) := by
  · refine ⟨lab, { lab with timeNs := lab.timeNs + 1 }, ?_⟩
    exact ⟨by decide +kernel, rfl⟩

/-! What is not well formed is refused: one term for each check of `Instr.wellFormed`. -/

theorem test_long_datagram_refused (m : List Byte) (h : m.length = 65528) :
    (Instr.skelistMessageReceive m ⟨⟨1, 2⟩, 1⟩).wellFormed = false := by
  simp [Instr.wellFormed, h]
theorem test_ring_number_refused : (Instr.ringDoorbell (.core 0) 8192 0).wellFormed = false := by decide
theorem test_fence_add_index_refused : (Instr.coreFenceAdd 0 16384 1).wellFormed = false := by decide
theorem test_fence_set_index_refused : (Instr.coreFenceSet 0 16384 1).wellFormed = false := by decide
theorem test_rdma_read_length_refused : (Instr.rdmaRead 16 6 0 (2 ^ 32)).wellFormed = false := by decide
theorem test_rdma_write_length_refused (m : List Byte) (h : m.length = 2 ^ 32) :
    (Instr.rdmaWrite 16 6 0 m).wellFormed = false := by
  simp [Instr.wellFormed, h]
theorem test_rdma_send_length_refused (m : List Byte) (h : m.length = 2 ^ 32) :
    (Instr.rdmaSend 16 m).wellFormed = false := by
  simp [Instr.wellFormed, h]
theorem test_long_ethernet_frame_refused (m : List Byte) (h : m.length = 16385) :
    (Instr.ethFrameReceive m ⟨true, []⟩).wellFormed = false := by
  simp [Instr.wellFormed, h]
theorem test_many_occupancies_refused : (Instr.ethFrameReceive [] ⟨true, List.replicate 9 0⟩).wellFormed = false := by decide
theorem test_long_chain_frame_refused (m : List Byte) (h : m.length = 513) :
    (Instr.stchFrameReceive m true).wellFormed = false := by
  simp [Instr.wellFormed, h]
theorem test_long_fabric_packet_refused (m : List Byte) (h : m.length = 2081) :
    (Instr.fabricPacketReceive 0 0 m).wellFormed = false := by
  simp [Instr.wellFormed, h]
theorem test_long_reading_refused : (Instr.govMeasureWindow true (List.replicate 33 0)).wellFormed = false := by decide
theorem test_many_periods_refused : (Instr.paceWindow (List.replicate 21 (0, 1)) []).wellFormed = false := by decide
theorem test_long_ageing_record_refused (l : List (DomId × Fin 8 × Int)) (h : l.length = 161) : (Instr.ageingRecord l).wellFormed = false := by
  simp [Instr.wellFormed, h]
theorem test_block_code_refused : (Instr.errInject 0 0 0).wellFormed = false := by decide
theorem test_block_instance_refused : (Instr.errInject 1 1024 0).wellFormed = false := by decide
theorem test_count_block_refused : (Instr.errCountRead 23 0).wellFormed = false := by decide
theorem test_count_instance_refused : (Instr.errCountRead 1 1024).wellFormed = false := by decide
theorem test_bad_page_refused : (Instr.bootSequence 0 ⟨false, false, false, none, [], [(0, 131072)], [], [], [], [], false⟩).wellFormed =
    false := by decide
theorem test_jtag_range_refused : (Instr.jtagImageWrite 0 0x5FFFFFF [1, 2]).wellFormed = false := by decide
theorem test_many_credits_refused : (Instr.lnkControlFlitReceive 0 0 (List.replicate 7 (0, 1))).wellFormed = false := by decide
theorem test_add_is_well_formed : (Instr.aluAdd 79 31 31 31).wellFormed = true := by decide

/-! Number formats: the worked examples of spec/02. -/

/-- A magnitude as a number. -/
def num (m : Nat) (e : Int) : Machine.Num := .fin false m e

/-- Spec/02, quantising one block to F8M: 3,000, −0.75, 2⁻⁹, −0 and ones. -/
theorem test_quantise_f8m : quantBlock .f8m .rne 12 .one
    ([num 3000 0, .fin true 3 (-2), num 1 (-9), .fin true 0 0] ++ List.replicate 28 (num 1 0)) (List.replicate 32 0) =
    (0x82, [0x7C, 0x9C, 0x00, 0x00] ++ List.replicate 28 0x20, { flush := 1 }) := by decide +kernel
/-- The same block with 4,000 in front takes the next scale. -/
theorem test_quantise_f8m_next_scale : let q := quantBlock .f8m .rne 12 .one (num 4000 0 :: List.replicate 31 (num 1 0)) (List.replicate 32 0)
    (q.1, q.2.1.headD 0) = (0x83, 0x78) := by decide +kernel
/-- Spec/02, stochastic rounding of 0x1_FC05 to BF16 with 12 bits: the first draw rounds up, the second does not. -/
theorem test_stochastic_round_up : (convert .bf16 (num 1029 (-10)) .stoch 12 0x7A3C09156E42D0B8 false).1 = 0x3F81 := by decide +kernel
theorem test_stochastic_round_down : (convert .bf16 (num 1029 (-10)) .stoch 12 0xC01E44A719D30F62 false).1 = 0x3F80 := by decide +kernel

/-! Order-free arithmetic: the worked examples of spec/03. -/

/-- Table 3.9, element 3 of the column edge. -/
theorem test_align_truncates : align (num 1025 40) 64 24 = ⟨512, .fin, .trunc⟩ := by decide +kernel
/-- Table 3.9: the four products. -/
def dot (t : Tag) : Acc :=
  ((((({ trunc := true } : Acc).addProduct 12582912 10485760 .fin).addProduct 524288 0 t).addProduct (-8388608) 12582912 .fin).addProduct
    512 8388608 .fin)
theorem test_dot_product_integer : (dot .nan).int = 0x18010000_0000 ∧ (dot .nan).tag = .nan := by decide +kernel
theorem test_dot_product_nan_word : ((dot .nan).toSeam 82).toNat = 0x07190052_00000000_00001801_00000000 := by decide +kernel
theorem test_dot_product_to_f19 : (outConvert .f19 (dot .fin).int 82 .fin .one .rne 12 0).1 = 0x3F600 := by decide +kernel
theorem test_dot_product_to_f32 : (outConvert .f32 (dot .fin).int 82 .fin .one .rne 12 0).1 = 0x7EC00800 := by decide +kernel
/-- Spec/03, combining two seam words. -/
theorem test_seam_words_add : ((seamAdd ((dot .fin).toSeam 82) (Seam.ofNat 0x00FB0050_FFFFFFFF_FFFFFFFF_FFFC0000)).1).toNat =
    0x04600050_00000000_00006003_FFFC0000 := by decide +kernel
theorem test_seam_adder_agrees : (seamAdd ((dot .fin).toSeam 82) (Seam.ofNat 0x00FB0050_FFFFFFFF_FFFFFFFF_FFFC0000)).2 = false := by
  decide +kernel

/-! The special functions, the Gusset and the page walker: spec/07, spec/08 and spec/09. -/

/-- Spec/07: the reciprocal of 3.0. -/
theorem test_reciprocal_of_three : (sfuBuiltin 0x03 (num 3 0)).v.toCode .f32 = 0x3EAAAAAB := by decide +kernel

/-- Spec/08: the row after block 2, and its rebase by 11. -/
def lateRow : GRow := { l := seamOf 0x2800010 (-23) .fin false false false, o := [seamOf 0x1200004000000 (-45) .fin false false false],
                        m := 40, b := some 5, empty := false }
theorem test_rebase_truncates : let r := lateRow.rebase 11
    (r.l.int, r.o.map (·.int), r.b, r.trunc, r.rebases) = (0x5000, [0x2400008000], some 16, true, 1) := by decide +kernel

/-- Spec/09, token 100,000 of a page of F8M at address 0. -/
theorem test_token_place : appendSpans ⟨0, 4, 32, true, false, false, false, 0⟩ 8608 100000 =
    [(8608, 16), (4096, 128), (12288, 128), (16512, 4), (16768, 4)] := by decide +kernel

/-- A slab whose page table for tag 7 lies at 0: directory entry 1 names a leaf at 65,536, whose entry 538 names a page at
131,072 with 33 tokens. -/
def paged : State :=
  lab.onSlab 0 (fun b => { b with data := (putBytes (putBytes [] 16 (PtEntry.bytes ⟨65536, 0, 0, true, false, true, false, 7⟩))
    (65536 + 8608) (PtEntry.bytes ⟨131072, 4, 33, true, false, false, false, 7⟩)) })
theorem test_page_table_walk : let r := paged.walkTable 5 0 7 0 1562
    (r.2.1, r.2.2.map (fun e => (e.1.addr, e.2))) = (0, some (131072, 65536 + 8608)) := by decide +kernel
theorem test_page_walk_checks_the_tag : (paged.walkTable 5 0 8 0 1562).2.1 = 3 := by decide +kernel

/-! Slab memory: the worked example of spec/10, and its code. -/

/-- A function of 80 virtual tiles whose number 35 is tile 43. -/
def spread72 : State :=
  { lab with
    fns := [(5, { st := .running, vtmap := List.replicate 35 (some 1) ++ [some 43] ++ List.replicate 44 (some 1) })],
    slabs := [(0, { spread := [(2, { members := BitVec.ofNat 80 (2 ^ 72 - 1), basePage := 2048, granules := 64, valid := true })] }),
              (43, { ext := { pages := 131072, fn := 5, valid := true } })] }
theorem test_spread_address : spread72.resolve 5 (some 0) 0x2000020004A31234 = some (43, 0x08101234) := by decide +kernel
theorem test_local_address : spread72.resolve 5 (some 0) 0x0000004608101234 = some (43, 0x08101234) := by decide +kernel
/-- A codeword one of whose check symbols differs is corrected. -/
theorem test_one_check_symbol_corrected : cwDecode 0x050000 = .corrected 65 5 := by decide +kernel
theorem test_sound_codeword_clean : cwDecode 0 = .clean := by decide +kernel

/-! Checks of messages and frames against the published check values of their algorithms. -/

theorem test_sha256_abc : sha256v [0x61, 0x62, 0x63] = 0xba7816bf8f01cfea414140de5dae2223b00361a396177a9cb410ff61f20015ad := by
  decide +kernel
theorem test_crc32_digits : crc32 [0x31, 0x32, 0x33, 0x34, 0x35, 0x36, 0x37, 0x38, 0x39] = 0xCBF43926 := by decide +kernel
theorem test_crc16_digits : chainCrc [0x31, 0x32, 0x33, 0x34, 0x35, 0x36, 0x37, 0x38, 0x39] = [0x29, 0xB1] := by decide +kernel

/-! Commands, one step each. -/

/-- The state after a command; the state itself where the command does not go on. -/
def after (c : Instr) (s : State) : State :=
  match exec c s with
  | .next t => t
  | _ => s

/-- Spec/04: 0x0000_0012_3456_0000 takes LUI, ORI and SHI. The words are those of Tables 4.2 to 4.4. -/
theorem test_lui :
    ((after (.lui 0 ⟨5, 0, 0x0012⟩) (prog 0x1CA00012 (fun x => x))).tile 0).reg 5 = 0x120000 := by decide +kernel
theorem test_ori :
    ((after (.ori 0 ⟨5, 5, 0x3456⟩) (prog 0x0CA53456 (fun x => x.setReg 5 0x120000))).tile 0).reg 5 = 0x123456 := by decide +kernel
theorem test_shi_sll :
    ((after (.shiSll 0 5 5 0 16) (prog 0x18A50010 (fun x => x.setReg 5 0x123456))).tile 0).reg 5 = 0x1234560000 := by decide +kernel
theorem test_sra_keeps_the_sign :
    ((after (.aluSra 0 1 2 3) (prog 0x00221807 (fun x => (x.setReg 2 (-8)).setReg 3 65))).tile 0).reg 1 = -4 := by decide +kernel
theorem test_mulh_is_signed :
    ((after (.aluMulh 0 1 2 2) (prog 0x0022100A (fun x => (x.setReg 1 5).setReg 2 (-1)))).tile 0).reg 1 = 0 := by decide +kernel
theorem test_mulhu_is_unsigned :
    ((after (.aluMulhu 0 1 2 2) (prog 0x00221009 (fun x => x.setReg 2 (-1)))).tile 0).reg 1 = -2 := by decide +kernel
theorem test_slt_is_signed :
    ((after (.aluSlt 0 1 2 3) (prog 0x0022180B (fun x => x.setReg 2 (-1)))).tile 0).reg 1 = 1 := by decide +kernel
theorem test_sltu_is_unsigned :
    ((after (.aluSltu 0 1 2 3) (prog 0x0022180C (fun x => (x.setReg 1 5).setReg 2 (-1)))).tile 0).reg 1 = 0 := by decide +kernel
theorem test_sext32 :
    ((after (.aluSext32 0 1 2 0) (prog 0x0022000F (fun x => x.setReg 2 0x180000000))).tile 0).reg 1 = 0xFFFFFFFF80000000 := by decide +kernel
theorem test_register_zero_discards :
    ((after (.addi 0 ⟨0, 0, 7⟩) (prog 0x04000007 (fun x => x))).tile 0).reg 0 = 0 ∧ ((after (.addi 0 ⟨0, 0, 7⟩) (prog 0x04000007 (fun x => x))).tile 0).pc = 4 := by decide +kernel
theorem test_addi_extends_its_sign :
    ((after (.addi 0 ⟨1, 0, 0xFFFF⟩) (prog 0x0420FFFF (fun x => x))).tile 0).reg 1 = -1 := by decide +kernel
theorem test_jal_links :
    ((after (.jal 0 1 3) (prog 0x38200003 (fun x => x))).tile 0).reg 1 = 4 ∧ ((after (.jal 0 1 3) (prog 0x38200003 (fun x => x))).tile 0).pc = 12 := by decide +kernel
theorem test_misaligned_load_stops :
    ((after (.lw 0 ⟨1, 0, 2⟩) (prog 0x48200002 (fun x => x))).err .tseq 0).stat ≠ 0 := by decide +kernel
/-- The command of another instruction than the one at the PC retires nothing (R99, R100). -/
theorem test_other_word_stays :
    ((after (.addi 0 ⟨1, 0, 1⟩) (prog 0x08000000 (fun x => x))).tile 0).pc = 0 := by decide +kernel

/-- Spec/13: ENUM with NEXT 0 gives index 0 and sends NEXT 1 on with HOPS 1. -/
def enumState : State := { lab with stch := { lab.stch with inbox := [[1, 0xFF, 0xFE, 0, 0, 1, 0]] } }
theorem test_enum_takes_its_index : (after .enumFrame enumState).stch.index = 0 := by decide +kernel
theorem test_enum_sends_the_next : ((after .enumFrame enumState).stch.out.headD []).take 7 = [1, 0xFF, 0xFE, 1, 0, 1, 1] := by
  decide +kernel
/-- Spec/13: SETADDR with payload 95 49 assigns 0x1549. -/
theorem test_setaddr : (after .setaddr { State.reset with
    boot := { State.reset.boot with order := 10 },
    stch := { State.reset.stch with inbox := [[2, 1, 0xFE, 0, 0, 2, 0x95, 0x49]] } }).fab.addr = some 0x1549 := by
  decide +kernel

/-- Spec/14: the route from rack (1, 6, 0), slot 13, to rack (6, 2, 2), slot 14, with X and Z closed and TRAY_EN 1. -/
def route : FPkt :=
  { lab with fab := { lab.fab with xsM1 := 7, ysM1 := 7, zsM1 := 3 } }.routed 0x1B0001 0x0E0D { dst := 0x328E, flow := 5 }
theorem test_route_bytes : (route.header.drop 8).take 4 = [0x13, 0x21, 0x03, 0xB5] := by decide +kernel
theorem test_route_second_hop : let h := (route.hop none).1.hop (some 15)
    (h.1.hx, h.1.vcB, h.2.1) = (1, true, some 15) := by decide +kernel

/-- Spec/17: a brown-out in D9: PWR_ERR_FIRST, and THM_FATAL once the safe state is entered. -/
theorem test_brownout_first : ((after (.brownout 9) lab).err .pwr 0).first = 0xE1 ∧ ((after (.brownout 9) lab).err .pwr 0).stat = 2 := by
  decide +kernel
theorem test_brownout_fatal : (after .fatalEntry (after (.brownout 9) lab)).fatal.reg = 0xFE92 := by decide +kernel

/-- Spec/16: at 103.5 °C the thermal ceiling falls by one point; at 100 °C it rises by one. -/
theorem test_ceiling_falls : ((after (.thermCeilingStep 9) (lab.setDom 9 { lab.dom 9 with therm := 6, tileTemp := [(18, 1656)] })).dom
    9).therm = 5 := by decide +kernel
theorem test_ceiling_rises : ((after (.thermCeilingStep 9) (lab.setDom 9 { lab.dom 9 with therm := 5, tileTemp := [(18, 1600)] })).dom
    9).therm = 6 := by decide +kernel

/-- Spec/18: identifier 0x0305_0244 is the 8-bit products of virtual tile 5 with F8M on both edges. -/
theorem test_counter_identifier : (idBlk 0x03050244, idInst 0x03050244, idEv 0x03050244) = (some .opa, 5, 2) ∧
    ctrKnown .opa 2 0x44 = true := by decide +kernel

/-- Spec/12: FN_STOP of function 37 in DRAIN mode: its header, SEQ and MAC under the key 9 with BOOT_EPOCH 12; a resent
request is not carried out again and nothing is sent at once. -/
def stopHead : List Byte := [0x03, 0x04, 0x00, 0x00, 0x00, 0x25, 0x00, 0x01, 0, 0, 0, 0, 0, 0, 0, 5, 0]
def stopState : State :=
  { lab with thm := { lab.thm with bootEpoch := 12 }, fns := lab.fns.set {} 37 { st := .running, key := 9, lastSeq := 4 } }
def stopMsg : List Byte := stopHead ++ [0xED, 0xC7, 0x8D, 0xA4, 0xA1, 0xDE, 0xC7, 0xA3, 0x8F, 0x09, 0x5C, 0xC6, 0x05, 0xD7, 0x71, 0xA1]
def sentStop : State := stopState.receiveMsg stopMsg .chain
theorem test_signed_stop_is_accepted : (sentStop.fn 37).lastSeq = 5 ∧ sentStop.thm.queue.map (·.cmd) = [0x0304] := by decide +kernel
theorem test_resent_stop_waits : (sentStop.receiveMsg stopMsg .chain).thm.queue.length = 1 ∧
    (sentStop.receiveMsg stopMsg .chain).stch.own = [] := by decide +kernel

end Sys2Proof.Tests
end

section
/-! Register writes by access code, Thimble's own registers and the safe state (O51: R12, R328, R476 to R478, R484, R544). -/

namespace Sys2Proof.Machine

/-! The rows of register access, as the dispatcher runs them. -/

theorem exec_registerWrite (r : RegTarget) (v : BitVec 192) (s : State) :
    exec (.registerWrite r v) s = execRegisterWrite r v s := rfl

theorem exec_errInject (block inst : Nat) (w : W32) (s : State) :
    exec (.errInject block inst w) s = execErrInject block inst w s := rfl

theorem exec_errCountRead (block inst : Nat) (s : State) :
    exec (.errCountRead block inst) s = execErrCountRead block inst s := rfl

/-- The block codes of R344 read back. -/
@[simp] theorem Blk.ofCode_code (b : Blk) : Blk.ofCode b.code = some b := by
  cases b <;> rfl

/-! Three cases of REGISTER_WRITE: it reaches the register, the safe state blocks it (R484), or it comes through Thimble
and the register is one that only Thimble's commands change (R328). -/

theorem registerWrite_reaches {s : State} {path : RegPath} {r : Reg} (v : BitVec 192) (hw : s.regWrites = true)
    (hp : path = .jtag ∨ thimbleOnly r = false) :
    exec (.registerWrite ⟨path, r⟩ v) s = .next (s.writeReg r v) := by
  rw [exec_registerWrite, execRegisterWrite]
  rcases hp with rfl | hr
  · simp [hw]
  · simp [hw, hr]

theorem registerWrite_blocked {s : State} (r : RegTarget) (v : BitVec 192) (hw : s.regWrites = false) :
    exec (.registerWrite r v) s = .next s := by
  simp [exec_registerWrite, execRegisterWrite, hw]

theorem registerWrite_thimbleOnly (s : State) {r : Reg} (v : BitVec 192) (hr : thimbleOnly r = true) :
    exec (.registerWrite ⟨.thimble, r⟩ v) s = .next s := by
  simp [exec_registerWrite, execRegisterWrite, hr]

/-- A register on whose value a write by address has no effect takes no write by either path. -/
theorem registerWrite_readOnly {s : State} {r : Reg} (path : RegPath) (v : BitVec 192) (hr : s.writeReg r v = s) :
    exec (.registerWrite ⟨path, r⟩ v) s = .next s := by
  simp [exec_registerWrite, execRegisterWrite, hr]

/-! The registers themselves: ERR_STAT is w1c, ERR_CTL is rw and its bit 29 injects the cause numbered in bits 28:24. -/

theorem State.writeReg_errStat (s : State) (b : Blk) (i : Nat) (v : BitVec 192) :
    s.writeReg (.errStat b.code i) v = s.clearErr b i (BitVec.ofNat 32 (wfld v 0 32)) := by
  simp [State.writeReg]

theorem State.writeErrCtl_stores {s : State} {b : Blk} {i : Nat} {w : W32} (hi : b.hasInst i = true)
    (h29 : w.getLsbD 29 = false) :
    s.writeErrCtl b i w.toNat = s.setErr b i { s.err b i with ctl := BitVec.ofNat 32 (w.toNat % 2 ^ 21) } := by
  have hbit : w.toNat.testBit 29 = false := h29
  simp [State.writeErrCtl, hi, hbit]

theorem State.writeErrCtl_injects {s : State} {b : Blk} {i : Nat} {w : W32} (hi : b.hasInst i = true)
    (h29 : w.getLsbD 29 = true) :
    s.writeErrCtl b i w.toNat = (s.setErr b i { s.err b i with ctl := BitVec.ofNat 32 (w.toNat % 2 ^ 21) }).inject b i
      (w.toNat / 2 ^ 24 % 32) := by
  have hbit : w.toNat.testBit 29 = true := h29
  simp [State.writeErrCtl, hi, hbit]

theorem errInject_writes {s : State} (b : Blk) (i : Nat) (w : W32) (hw : s.regWrites = true) :
    exec (.errInject b.code i w) s = .next (s.writeErrCtl b i w.toNat) := by
  simp [exec_errInject, execErrInject, hw]

theorem errCountRead_endsCrossing (s : State) {b : Blk} {i : Nat} (hi : b.hasInst i = true) :
    exec (.errCountRead b.code i) s = .next (s.setErr b i { s.err b i with crossing := false }) := by
  simp [exec_errCountRead, execErrCountRead, hi]

/-- Settles O51: each clause is one case of the write (it reaches the register, Thimble keeps the register for its
commands, or the safe state blocks it) and what the register's access code makes of it. -/
theorem registerWrites : Obligations.RegisterWrites := by
  intro s b i v w r f t n g d k path
  refine ⟨fun hw => ⟨?errStat, ?errCtl, ?inject, registerWrite_thimbleOnly s v, ?fnCfg, ?fence, ?scrub, ?readOnly⟩,
    errCountRead_endsCrossing s, registerWrite_blocked _ v⟩
  case errStat => exact (registerWrite_reaches v hw (.inr rfl)).trans (by rw [State.writeReg_errStat]; rfl)
  case errCtl => intro hi h29; rw [errInject_writes b i w hw, State.writeErrCtl_stores hi h29]
  case inject => intro hi h29; rw [errInject_writes b i w hw, State.writeErrCtl_injects hi h29]
  case fnCfg => exact registerWrite_reaches v hw (.inl rfl)
  case fence => exact registerWrite_reaches v hw (.inr rfl)
  case scrub => exact registerWrite_reaches v hw (.inr rfl)
  case readOnly =>
    intro r hr
    refine registerWrite_readOnly path v ?_
    simp only [List.mem_cons, List.not_mem_nil, or_false] at hr
    rcases hr with rfl | rfl | rfl | rfl | rfl | rfl | rfl | rfl | rfl | rfl | rfl | rfl | rfl <;> rfl

end Sys2Proof.Machine
end

section
/-! Canonical memories, the state after reset, registers and tallies (O5, O3, O6, O13: R94, R103, R104, R117, R284). -/

namespace Sys2Proof.Machine

/-- Settles O5: a step idles, which touches no memory, or runs the front command, which keeps every memory canonical. -/
theorem everyStepKeepsMemoriesCanonical : Obligations.EveryStepKeepsMemoriesCanonical := by
  intro s t hs hst
  unfold step at hst
  split at hst
  case h_1 => cases hst; exact hs
  case h_2 c rest _ =>
    obtain ⟨u, hu, hwf⟩ := exec_memWf c { s with pending := rest } hs
    cases hu.symm.trans hst
    exact hwf

/-- Settles O3: every part of the reset state holds its default but function 0, which is STOPPED. -/
theorem resetState : Obligations.ResetState := by
  refine ⟨rfl, fun f => ?_, fun _ => ⟨rfl, rfl, rfl, fun _ => rfl⟩, fun _ => rfl, fun _ => rfl,
    fun _ _ => ⟨rfl, rfl, rfl, rfl, rfl⟩, fun _ => ⟨rfl, rfl, rfl⟩, rfl, rfl, rfl, rfl, rfl, rfl⟩
  by_cases hf : f = 0
  · subst hf; rfl
  · rw [if_neg hf]
    simp [State.fn, State.reset, SMap.get, Ne.symm hf]

/-- Settles O6. -/
theorem registerZeroDiscardsWrites : Obligations.RegisterZeroDiscardsWrites :=
  fun x r q v => ⟨rfl, rfl, Tile.setReg_reg x r q v⟩

/-- Settles O13: the difference of two 32-bit words is the integers' difference modulo 2^32. -/
theorem tallyComparison : Obligations.TallyComparison := by
  intro t v
  have hsub : ((t - v).toNat : Int) = ((t.toNat : Int) - v.toNat) % 2 ^ 32 := by
    rw [BitVec.toNat_sub]
    omega
  rw [tallyOk, decide_eq_true_iff, ← hsub]
  omega

end Sys2Proof.Machine
end

section
/-! ALU and immediate instructions, branches, jumps and words that are no instruction (O7, O8, O15: R94, R98 to R100,
R136, Tables 4.2 to 4.4). -/

namespace Sys2Proof.Machine

/-- An instruction whose effect is a write of its tile retires with it. -/
theorem retires_of_go {i : Instr} {s : State} {t : TileId} {w : Nat} {f : State → Tile → SeqOut} {x : Tile} {npc : Int}
    (hexec : exec i s = .next (s.seqStep t w f)) (h : Runs s t w)
    (hf : f s (s.tile t) = .go (s.setTile t x) npc) (hp : InProgram npc) : Retires i s t x npc.toNat :=
  ⟨_, hexec, State.seqStep_go s t w f x npc h hf hp⟩

/-- An instruction whose effect is a write of RD retires with it and goes on with the next word. -/
theorem retires_of_wrReg {i : Instr} {s : State} {t : TileId} {w : Nat} {rd : BitVec 5} {v : State → Tile → W64} {r : W64}
    (hexec : exec i s = .next (s.seqStep t w (wrReg t rd v))) (hp : (s.tile t).pc + 4 < 262144)
    (hv : v s (s.tile t) = r) (h : Runs s t w) : Retires i s t ((s.tile t).setReg rd r) ((s.tile t).pc + 4) :=
  hv ▸ ⟨_, hexec, State.seqStep_wrReg s t w rd v h hp⟩

/-- Writing back the tile that stands there leaves every tile as it was. -/
theorem State.setTile_tile_eq (s : State) (t u : Nat) : (s.setTile t (s.tile t)).tile u = s.tile u := by
  rw [State.setTile_tile]
  split
  · subst_vars; rfl
  · rfl

@[simp] theorem State.count_tile (s : State) (b : Blk) (i e u f n v : Nat) : (s.count b i e u f n).tile v = s.tile v := by
  obtain ⟨c, hc⟩ := State.count_eq s b i e u f n
  rw [hc]; rfl

@[simp] theorem State.countT_tile (s : State) (b : Blk) (t e u n v : Nat) : (s.countT b t e u n).tile v = s.tile v :=
  State.count_tile ..

/-- Retiring moves the PC of its tile and ends its waiting, and changes no other tile. -/
theorem State.retire_tile (s : State) (t npc u : Nat) :
    (s.retire t npc).tile u = if t = u then { s.tile u with pc := npc, wait := .none } else s.tile u := by
  rw [State.retire, State.countT_tile, State.onTile_tile]

/-- An instruction that changes nothing but the PC retires with the tile as it was. -/
theorem retired_unchanged (s : State) (t : TileId) (npc : Nat) : Retired s t (s.tile t) npc (s.retire t npc) := by
  obtain ⟨htile, hother, hrest, hctr⟩ := retired_setTile s t (s.tile t) npc
  have htiles : ∀ u, ((s.setTile t (s.tile t)).retire t npc).tile u = (s.retire t npc).tile u := by
    intro u
    rw [State.retire_tile, State.retire_tile, State.setTile_tile_eq]
  have hctrs : ((s.setTile t (s.tile t)).retire t npc).ctrs = (s.retire t npc).ctrs := by
    simp [State.retire, State.countT, State.count, State.ownerOr0, State.onTile]
  refine ⟨(htiles t).symm.trans htile, fun u hu => (htiles u).symm.trans (hother u hu), ?_, fun k => hctrs ▸ hctr k⟩
  obtain ⟨c, hc⟩ := State.countT_eq (s.onTile t (fun x => { x with pc := npc, wait := .none })) .tseq t 1 0 1
  rw [State.retire, hc]; rfl

theorem retires_unchanged {i : Instr} {s : State} {t : TileId} {w : Nat} {f : State → Tile → SeqOut} {npc : Int}
    (hexec : exec i s = .next (s.seqStep t w f)) (h : Runs s t w) (hf : f s (s.tile t) = .go s npc)
    (hp : InProgram npc) : Retires i s t (s.tile t) npc.toNat := by
  refine ⟨_, hexec, ?_⟩
  rw [State.seqStep_runs s t w f h, hf, State.finish_go _ _ _ _ hp]
  exact retired_unchanged s t npc.toNat

/-! Comparisons and extensions as the statements write them. -/

theorem b64_slt (a b : W64) : b64 (a.slt b) = if a.toInt < b.toInt then 1 else 0 := by
  simp [b64, BitVec.slt]

theorem b64_ult (a b : W64) : b64 (a.ult b) = if a.toNat < b.toNat then 1 else 0 := by
  simp [b64, BitVec.ult]

theorem ite_slt {α : Type} (a b : W64) (x y : α) : (if a.slt b then x else y) = if a.toInt < b.toInt then x else y := by
  simp [BitVec.slt]

/-- Settles O7: every instruction here writes RD with its value and goes on with the next word. -/
theorem aluAndImmediateInstructions : Obligations.AluAndImmediateInstructions := by
  refine ⟨fun s t rd rs1 rs2 hp => ?alu, fun s t f hi sh hp => ?imm⟩
  case alu =>
    intro x a b n W
    exact ⟨retires_of_wrReg rfl hp rfl, retires_of_wrReg rfl hp rfl, retires_of_wrReg rfl hp rfl,
      retires_of_wrReg rfl hp rfl, retires_of_wrReg rfl hp rfl, retires_of_wrReg rfl hp rfl,
      retires_of_wrReg rfl hp rfl, retires_of_wrReg rfl hp rfl, retires_of_wrReg rfl hp rfl,
      retires_of_wrReg rfl hp rfl, retires_of_wrReg rfl hp rfl, retires_of_wrReg rfl hp (b64_slt a b),
      retires_of_wrReg rfl hp (b64_ult a b), retires_of_wrReg rfl hp (ite_slt a b a b),
      retires_of_wrReg rfl hp (ite_slt a b b a), retires_of_wrReg rfl hp rfl⟩
  case imm =>
    intro x a se ze W shi
    have hslti : b64 (a.slt (f.imm.signExtend 64)) = if a.toInt < f.imm.toInt then 1 else 0 := by
      rw [b64_slt, BitVec.toInt_signExtend_of_le (by decide)]
    have hze : f.imm.setWidth 64 = ze := (BitVec.ofNat_toNat 64 f.imm).symm
    exact ⟨retires_of_wrReg rfl hp rfl, retires_of_wrReg rfl hp (congrArg (a &&& ·) hze),
      retires_of_wrReg rfl hp (congrArg (a ||| ·) hze), retires_of_wrReg rfl hp (congrArg (a ^^^ ·) hze),
      retires_of_wrReg rfl hp hslti, retires_of_wrReg rfl hp rfl, retires_of_wrReg rfl hp rfl,
      retires_of_wrReg rfl hp rfl, retires_of_wrReg rfl hp rfl⟩

/-- A branch goes where its comparison says and changes nothing else. -/
theorem retires_branch {i : Instr} {s : State} {t : TileId} {f : BFields} {op : Nat} {c : W64 → W64 → Bool} {d : Bool}
    (hexec : exec i s = .next (branchOp t f op c s)) (hc : c ((s.tile t).reg f.rs1) ((s.tile t).reg f.rs2) = d)
    (h : Runs s t (f.word op))
    (hp : InProgram (if d then ((s.tile t).pc : Int) + 4 * f.off.toInt else ((s.tile t).pc : Int) + 4)) :
    Retires i s t (s.tile t) (if d then ((s.tile t).pc : Int) + 4 * f.off.toInt else ((s.tile t).pc : Int) + 4).toNat :=
  retires_unchanged hexec h (by rw [← hc]) hp

theorem not_slt (a b : W64) : (!a.slt b) = decide (b.toInt ≤ a.toInt) := by
  simp [BitVec.slt, ← decide_not]

theorem not_ult (a b : W64) : (!a.ult b) = decide (b.toNat ≤ a.toNat) := by
  simp [BitVec.ult, ← decide_not]

/-- Clearing the two low bits of an address (JALR, Table 4.3). -/
theorem clearLow2_toNat (a : W64) : (a &&& 0xFFFFFFFFFFFFFFFC).toNat = a.toNat / 4 * 4 := by
  have hmask : (0xFFFFFFFFFFFFFFFC : W64).toNat = (2 ^ 62 - 1) * 2 ^ 2 := by decide
  rw [BitVec.toNat_and, hmask]
  refine Nat.eq_of_testBit_eq fun i => ?_
  rw [Nat.testBit_and, Nat.testBit_mul_two_pow, Nat.testBit_two_pow_sub_one, show 4 = 2 ^ 2 from rfl,
    Nat.testBit_mul_two_pow, Nat.testBit_div_two_pow]
  by_cases h2 : 2 ≤ i
  · by_cases h64 : i < 64
    · have hi : i - 2 < 62 := by omega
      simp [h2, hi]
    · have hbit : a.toNat.testBit i = false :=
        Nat.testBit_lt_two_pow (Nat.lt_of_lt_of_le a.isLt (Nat.pow_le_pow_right (by decide) (by omega)))
      simp [h2, hbit]
  · simp [h2]

/-- Settles O8: a branch changes nothing but the PC, and a jump only RD besides. -/
theorem branchesAndJumps : Obligations.BranchesAndJumps := by
  intro s t f g rd off x a b dest B link target
  refine ⟨retires_branch rfl rfl, retires_branch rfl rfl, retires_branch rfl rfl, retires_branch rfl (not_slt a b),
    retires_branch rfl rfl, retires_branch rfl (not_ult a b), fun h hp => retires_of_go rfl h rfl hp, fun h hp => ?_⟩
  have htarget : (((x.reg g.rs1 + g.imm.signExtend 64) &&& 0xFFFFFFFFFFFFFFFC).toNat : Int) = target :=
    congrArg _ (clearLow2_toNat _)
  exact retires_of_go (npc := target) rfl h (congrArg _ htarget) ⟨by omega, by omega⟩

/-- An instruction on a word that is none raises ILLEGAL. -/
theorem exec_illegal {i : Instr} {s : State} {t : TileId} {w : Nat} {f : State → Tile → SeqOut}
    (hexec : exec i s = .next (s.seqStep t w f)) (hr : s.seqReady t = true) (hw : seqWordOk (s.tile t).word = false) :
    exec i s = .next ((s.setTile t { s.tile t with faultPc := (s.tile t).pc, seqFault := true }).raiseT .tseq t 1) := by
  rw [hexec, State.seqStep_illegal s t w f hr hw]; rfl

/-! The opcode and the function code of a word (Table 4.2). -/

theorem encR_opcode {op fn : Nat} (rd rs1 rs2 : BitVec 5) (ho : op < 64) (hf : fn < 2048) :
    encR op rd rs1 rs2 fn / 2 ^ 26 % 64 = op := by
  have := rd.isLt; have := rs1.isLt; have := rs2.isLt
  unfold encR
  omega

theorem encR_fn {op fn : Nat} (rd rs1 rs2 : BitVec 5) (hf : fn < 2048) : encR op rd rs1 rs2 fn % 2048 = fn := by
  unfold encR
  omega

/-- TSIG and TSET of t63 are not implemented (R116). -/
theorem seqWordOk_t63 (g : RFields) (hg : g.fn = 63) : seqWordOk (g.word 0x31) = false ∧ seqWordOk (g.word 0x32) = false := by
  have hfn : g.fn.toNat = 63 := by rw [hg]; rfl
  have h31 : g.word 0x31 / 2 ^ 26 % 64 = 0x31 := encR_opcode _ _ _ (by decide) g.fn.isLt
  have h32 : g.word 0x32 / 2 ^ 26 % 64 = 0x32 := encR_opcode _ _ _ (by decide) g.fn.isLt
  have hlow : ∀ op, g.word op % 2048 = 63 := fun op => (encR_fn _ _ _ g.fn.isLt).trans hfn
  constructor
  · unfold seqWordOk; dsimp only; rw [h31, hlow]; rfl
  · unfold seqWordOk; dsimp only; rw [h32, hlow]; rfl

/-- Settles O15: whichever instruction is commanded, it runs as one step of the sequencer, which looks at the word first. -/
theorem illegalWordsDoNotRetire : Obligations.IllegalWordsDoNotRetire := by
  intro s t f g b rd r1 r2 off hi sh
  refine ⟨seqWordOk_t63 g, fun hr hw => ?_⟩
  repeat refine List.forall_mem_cons.mpr ⟨exec_illegal rfl hr hw, ?_⟩
  exact List.forall_mem_nil _

end Sys2Proof.Machine
end

section
/-! What recording an event or an error leaves of a tile, and loads and stores (O9 to O11: R101, R103, R104, R136, R283 to
R290, R557). -/

namespace Sys2Proof.Machine

/-- The tile but for the marks that recording an event or raising an error sets. -/
def Tile.unmarked (x : Tile) : Tile := { x with resync := false, tally24 := [], retireReq := false }

theorem foldl_tile_eq {α : Type} (u : Nat) (f : State → α → State) (h : ∀ s a, (f s a).tile u = s.tile u) (l : List α)
    (s : State) : (l.foldl f s).tile u = s.tile u := by
  induction l generalizing s with
  | nil => rfl
  | cons a l ih => rw [List.foldl_cons, ih, h]

@[simp] theorem State.traceAll_tile (s : State) (r : EvRec) (u : Nat) : (s.traceAll r).tile u = s.tile u := by
  unfold State.traceAll
  refine foldl_tile_eq u _ (fun s a => ?_) _ s
  dsimp only
  split
  · split
    · rw [State.count_tile]; rfl
    · rfl
  · rfl

/-- Recording an event changes no tile but for RESYNC. -/
theorem State.event_tile (s : State) (b : Blk) (i k : Nat) (f : Option Nat) (p : Nat) (j : Bool) (u : Nat) :
    ∃ r, (s.event b i k f p j).tile u = { s.tile u with resync := r } := by
  unfold State.event
  dsimp only
  rw [State.traceAll_tile]
  by_cases hk : evRingKey b i < 256
  · simp only [hk, decide_true, if_true]
    show ∃ r, (s.onTile (evRingKey b i) (fun x => { x with resync := false })).tile u = _
    rw [State.onTile_tile]
    split
    · exact ⟨false, rfl⟩
    · exact ⟨(s.tile u).resync, rfl⟩
  · simp only [hk, decide_false, if_false]
    exact ⟨(s.tile u).resync, rfl⟩

theorem State.event_unmarked (s : State) (b : Blk) (i k : Nat) (f : Option Nat) (p : Nat) (j : Bool) (u : Nat) :
    ((s.event b i k f p j).tile u).unmarked = (s.tile u).unmarked := by
  obtain ⟨r, hr⟩ := s.event_tile b i k f p j u
  rw [hr]; rfl

theorem State.triggerTack_unmarked (s : State) (o b u : Nat) :
    ((s.triggerTack o b).tile u).unmarked = (s.tile u).unmarked := by
  unfold State.triggerTack
  split
  · rfl
  · rw [State.event_unmarked]; rfl

@[simp] theorem State.charge_tile (s : State) (f : Nat) (c : Charge) (u : Nat) : (s.charge f c).tile u = s.tile u := by
  unfold State.charge
  split <;> rfl

theorem State.retireTally_unmarked (s : State) (b : Blk) (i m u : Nat) :
    ((s.retireTally b i m).tile u).unmarked = (s.tile u).unmarked := by
  unfold State.retireTally
  split
  · rw [State.onTile_tile]; split <;> rfl
  · split
    · rw [State.onTile_tile]; split <;> rfl
    · rfl

/-- Raising an error leaves every tile as it was but for its marks. -/
theorem State.raise_unmarked (s : State) (b : Blk) (i m : Nat) (sc : Scope) (j : Bool) (u : Nat) :
    ((s.raise b i m sc j).tile u).unmarked = (s.tile u).unmarked := by
  have tack : ∀ (c : Bool) (v : State) (o k : Nat),
      ((if c then v.triggerTack o k else v).tile u).unmarked = (v.tile u).unmarked := by
    intro c v o k; cases c
    · rfl
    · exact v.triggerTack_unmarked o k u
  have charge : ∀ (c : Bool) (v : State) (f : Nat) (x : Charge), (if c then v.charge f x else v).tile u = v.tile u := by
    intro c v f x; cases c <;> simp
  unfold State.raise
  split
  · rfl
  · dsimp only
    split
    · rw [charge, tack, State.event_unmarked, State.retireTally_unmarked]; rfl
    · rw [tack, State.event_unmarked, State.retireTally_unmarked]; rfl

theorem State.raiseT_unmarked (s : State) (b : Blk) (t m u : Nat) :
    ((s.raiseT b t m).tile u).unmarked = (s.tile u).unmarked := State.raise_unmarked ..

/-- An error of the sequencer (R136) leaves its tile as it was but for FAULT_PC and the fault itself. -/
theorem State.seqError_unmarked (s : State) (t m : Nat) : ((s.seqError t m).tile t).unmarked =
    { (s.tile t).unmarked with faultPc := (s.tile t).pc, seqFault := true } := by
  rw [State.seqError, State.raiseT_unmarked, State.onTile_tile, if_pos rfl]; rfl

/-- A cause that is raised stands in ERR_STAT of its block. -/
theorem ErrRegs.report_stat (r : ErrRegs) (b : Blk) (m : Nat) (sc : Scope) (j : Bool) {k : Nat} (hk : k < 32)
    (hm : m.testBit k = true) : (r.report b m sc j).stat.getLsbD k = true := by
  show (r.stat ||| BitVec.ofNat 32 m ||| _).getLsbD k = true
  rw [BitVec.getLsbD_or, BitVec.getLsbD_or, BitVec.getLsbD_ofNat]
  simp [hk, hm]

theorem State.raise_stat (s : State) (b : Blk) (i m : Nat) (sc : Scope) (j : Bool) {k : Nat} (hk : k < 32)
    (hm : m.testBit k = true) : ((s.raise b i m sc j).err b i).stat.getLsbD k = true := by
  have h0 : m ≠ 0 := by rintro rfl; simp at hm
  rw [State.raise_err s b i m sc j h0]
  exact ErrRegs.report_stat _ _ _ _ _ hk hm

/-! Instructions that go on with the next word, or to another state. -/

/-- An instruction that goes on to another state retires there. -/
theorem exec_of_go {i : Instr} {s s' : State} {t : TileId} {w : Nat} {f : State → Tile → SeqOut}
    (hexec : exec i s = .next (s.seqStep t w f)) (hp : (s.tile t).pc + 4 < 262144) (h : Runs s t w)
    (hf : f s (s.tile t) = .go s' ((s.tile t).pc + 4)) : exec i s = .next (s'.retire t ((s.tile t).pc + 4)) := by
  rw [hexec, State.seqStep_runs s t w f h, hf, State.finish_go _ _ _ _ ⟨by omega, by omega⟩]; rfl

theorem retires_next {i : Instr} {s : State} {t : TileId} {w : Nat} {f : State → Tile → SeqOut} {x : Tile}
    (hexec : exec i s = .next (s.seqStep t w f)) (hp : (s.tile t).pc + 4 < 262144) (h : Runs s t w)
    (hf : f s (s.tile t) = .go (s.setTile t x) ((s.tile t).pc + 4)) : Retires i s t x ((s.tile t).pc + 4) :=
  retires_of_go hexec h hf ⟨by omega, by omega⟩

/-- An instruction that raises causes of Table 4.13. -/
theorem exec_of_fault {i : Instr} {s s' : State} {t : TileId} {w m : Nat} {f : State → Tile → SeqOut}
    (hexec : exec i s = .next (s.seqStep t w f)) (h : Runs s t w) (hf : f s (s.tile t) = .fault s' m) :
    exec i s = .next (s'.seqError t m) := by
  rw [hexec, State.seqStep_runs s t w f h, hf]; rfl

/-! Loads. -/

theorem Tile.readFault_eq_zero {x : Tile} {align a n : Nat} (ha : a % align = 0) (hm : tmOk .scalar false a n = true)
    (hp : x.poisoned a n = false) : x.readFault align a n = 0 := by
  simp [Tile.readFault, ha, hm, hp]

theorem retires_load {i : Instr} {s : State} {t : TileId} {f : IFields} {code n : Nat}
    (hexec : exec i s = .next (loadOp t f code n s)) (hp : (s.tile t).pc + 4 < 262144) (h : Runs s t (f.word code))
    (ha : ((s.tile t).ea f).toNat % n = 0) (hm : tmOk .scalar false ((s.tile t).ea f).toNat n = true)
    (hc : (s.tile t).poisoned ((s.tile t).ea f).toNat n = false) :
    Retires i s t ((s.tile t).setReg f.rd (BitVec.ofNat 64 ((s.tile t).rd ((s.tile t).ea f).toNat n))) ((s.tile t).pc + 4) :=
  retires_next hexec hp h (if_neg (fun h0 => h0 (Tile.readFault_eq_zero ha hm hc)))

/-- A descriptor slot is written as it is, without poison. -/
theorem Tile.write_slot (x : Tile) (o : Nat) (bs : List Byte) (p : Bool) :
    x.write (0xD00000 + o) bs p = { x with slots := putBytes x.slots o bs } := by
  rw [Tile.write, if_pos (by omega), Nat.add_sub_cancel_left]

theorem retires_dld {s : State} {t : TileId} {f : IFields} (hp : (s.tile t).pc + 4 < 262144) (h : Runs s t (f.word 33))
    (ha : ((s.tile t).reg f.rs1).toNat % 64 = 0) (hm : tmOk .scalar false ((s.tile t).reg f.rs1).toNat 64 = true)
    (hc : (s.tile t).poisoned ((s.tile t).reg f.rs1).toNat 64 = false) :
    let x := s.tile t
    let bs := x.bytes (x.reg f.rs1).toNat 64
    Retires (.dld t f) s t { x with slots := putBytes x.slots (f.imm.toNat % 16 * 64) bs } (x.pc + 4) := by
  refine retires_next rfl hp h ?_
  rw [if_neg (fun h0 => h0 (Tile.readFault_eq_zero ha hm hc)), Tile.write_slot]

theorem exec_sld {s : State} {t : TileId} {f : IFields} {ps : List (Nat × Nat × Nat)} (hp : (s.tile t).pc + 4 < 262144)
    (h : Runs s t (f.word 24)) (ha : ((s.tile t).ea f).toNat % 8 = 0)
    (hc : s.slabCheck ((s.tile t).owner.getD 0) (some t.val) ((s.tile t).ea f).toNat 8 false false = .ok ps)
    (hu : (s.readPieces ps).2.2.1 = false) : exec (.sld t f) s =
      .next ((((s.readPieces ps).1.setTile t (((s.readPieces ps).1.tile t).setReg f.rd
        (BitVec.ofNat 64 (leVal (s.readPieces ps).2.1))))).retire t ((s.tile t).pc + 4)) := by
  refine exec_of_go rfl hp h ?_
  simp only [ha, hc, SlabRes.isOk, SlabRes.pieces, hu, ne_eq, not_true_eq_false, if_false, if_true, Bool.false_eq_true]

theorem exec_sst {s : State} {t : TileId} {f : IFields} {ps : List (Nat × Nat × Nat)} (hp : (s.tile t).pc + 4 < 262144)
    (h : Runs s t (f.word 25)) (ha : ((s.tile t).ea f).toNat % 8 = 0)
    (hc : s.slabCheck ((s.tile t).owner.getD 0) (some t.val) ((s.tile t).ea f).toNat 8 true false = .ok ps) :
    exec (.sst t f) s =
      .next ((s.writePieces ps (toLe 8 ((s.tile t).reg f.rd).toNat) false).retire t ((s.tile t).pc + 4)) := by
  refine exec_of_go rfl hp h ?_
  simp only [ha, hc, SlabRes.isOk, SlabRes.pieces, ne_eq, not_true_eq_false, if_false, if_true]

/-- Settles O9. -/
theorem loadsAndSlabStores : Obligations.LoadsAndSlabStores :=
  ⟨fun _ _ _ hp => ⟨retires_load rfl hp, retires_load rfl hp, retires_load rfl hp, retires_load rfl hp, retires_dld hp⟩,
    fun _ _ _ _ hp ha => ⟨fun h => exec_sld hp h ha, fun h => exec_sst hp h ha⟩⟩

end Sys2Proof.Machine
end

section
/-! Scalar stores, and accesses that raise ADDR_FAULT (O10, O11: R101, R103, R104, R136, Table 4.3). -/

namespace Sys2Proof.Machine

/-- The addresses that a scalar store may write (Table 4.6). -/
theorem tmOk_scalarWrite {a n : Nat} (h : tmOk .scalar true a n = true) (hn : n ≠ 0) :
    a + n ≤ 0x600000 ∨ (0x800000 ≤ a ∧ a + n ≤ 0x920000) ∨ (0xD00000 ≤ a ∧ a + n ≤ 0xD00400) := by
  simp only [tmOk, tmSpans, hn, List.any_cons, List.any_nil, decide_false, Bool.false_or, Bool.or_false, Bool.or_eq_true,
    Bool.and_eq_true, decide_eq_true_eq] at h
  omega

/-- A byte of tile memory after a write where scalar stores may write: the byte written, or as before. -/
theorem Tile.write_byte_of_tmOk (x : Tile) (a k : Nat) (bs : List Byte) (p : Bool) (hn : bs.length ≠ 0)
    (h : tmOk .scalar true a bs.length = true) :
    (x.write a bs p).byte k = if a ≤ k ∧ k < a + bs.length then bs.getD (k - a) 0 else x.byte k := by
  have hspan := tmOk_scalarWrite h hn
  by_cases hslot : 0xD00000 ≤ a
  · obtain ⟨o, rfl⟩ : ∃ o, a = 0xD00000 + o := ⟨a - 0xD00000, by omega⟩
    rw [Tile.write_slot]
    by_cases hk : 0xD00000 ≤ k ∧ k < 0xD00400
    · have hcode : ¬(0xC00000 ≤ k ∧ k < 0xC40000) := by omega
      simp only [Tile.byte, hcode, hk, if_false, and_self, if_true]
      rw [putBytes_get, show k - 0xD00000 - o = k - (0xD00000 + o) by omega]
      by_cases hin : 0xD00000 + o ≤ k ∧ k < 0xD00000 + o + bs.length
      · rw [if_pos (by omega), if_pos hin]
      · rw [if_neg (by omega), if_neg hin]
    · rw [if_neg (by omega)]
      simp only [Tile.byte, hk, if_false]; rfl
  · by_cases hrange : a ≤ k ∧ k < a + bs.length
    · have hcode : ¬(0xC00000 ≤ k ∧ k < 0xC40000) := by omega
      have hslots : ¬(0xD00000 ≤ k ∧ k < 0xD00400) := by omega
      have hacc : ¬(0xA00000 ≤ k ∧ k < 0xA28000) := by omega
      rw [if_pos hrange, Tile.write, if_neg hslot]
      simp only [Tile.byte, hcode, hslots, hacc, if_false]
      rw [putBytes_get, if_pos hrange]
    · have hmem : (putBytes x.mem a bs).get 0 k = x.mem.get 0 k := by rw [putBytes_get, if_neg hrange]
      rw [if_neg hrange, Tile.write, if_neg hslot]
      simp only [Tile.byte, hmem]; rfl

/-- A write of tile memory changes no other part of the tile. -/
theorem Tile.write_frame (x : Tile) (a : Nat) (bs : List Byte) (p : Bool) :
    { x.write a bs p with mem := x.mem, slots := x.slots, poison := x.poison } = x := by
  unfold Tile.write
  split <;> rfl

theorem toLe_getD (n v i : Nat) (hi : i < n) : (toLe n v).getD i 0 = BitVec.ofNat 8 (v / 256 ^ i) := by
  induction n generalizing v i with
  | zero => omega
  | succ n ih =>
    cases i with
    | zero => simp [toLe]
    | succ i => rw [toLe, List.getD_cons_succ, ih _ _ (by omega), Nat.div_div_eq_div_mul, Nat.pow_succ']

/-- The tile whose memory holds the low `n` bytes of a value at an address, and is as it was elsewhere. -/
def Stored (x : Tile) (a n v : Nat) (y : Tile) : Prop :=
  (∀ k, y.byte k = if a ≤ k ∧ k < a + n then BitVec.ofNat 8 (v / 256 ^ (k - a)) else x.byte k) ∧
    { y with mem := x.mem, slots := x.slots, poison := x.poison } = x

theorem stored_write (x : Tile) (a n v : Nat) (hn : n ≠ 0) (h : tmOk .scalar true a n = true) :
    Stored x a n v (x.write a (toLe n v) false) := by
  refine ⟨fun k => ?_, Tile.write_frame ..⟩
  have hlen := toLe_length n v
  rw [Tile.write_byte_of_tmOk x a k _ _ (by rwa [hlen]) (by rwa [hlen]), hlen]
  split
  · exact toLe_getD n v _ (by omega)
  · rfl

theorem retires_store {i : Instr} {s : State} {t : TileId} {f : IFields} {code n : Nat}
    (hexec : exec i s = .next (storeOp t f code n s)) (hn : n ≠ 0) (hp : (s.tile t).pc + 4 < 262144)
    (h : Runs s t (f.word code)) (ha : ((s.tile t).ea f).toNat % n = 0)
    (hm : tmOk .scalar true ((s.tile t).ea f).toNat n = true) :
    ∃ y, Retires i s t y ((s.tile t).pc + 4) ∧
      Stored (s.tile t) ((s.tile t).ea f).toNat n ((s.tile t).reg f.rd).toNat y :=
  ⟨_, retires_next hexec hp h (if_neg (by simp [ha, hm])), stored_write _ _ _ _ hn hm⟩

/-! DSW. -/

theorem encI_opcode {op imm : Nat} (rd rs1 : BitVec 5) (ho : op < 64) (hi : imm < 65536) :
    encI op rd rs1 imm / 2 ^ 26 % 64 = op := by
  have := rd.isLt; have := rs1.isLt
  unfold encI
  omega

theorem encI_imm {op imm : Nat} (rd rs1 : BitVec 5) (hi : imm < 65536) : encI op rd rs1 imm % 65536 = imm := by
  unfold encI
  omega

/-- A 64-bit DSW names an even word of its slot (Table 4.3). -/
theorem dsw_wide_even {f : IFields} (h : seqWordOk (f.word 32) = true) (hw : f.imm.toNat / 128 % 2 = 1) :
    f.imm.toNat / 256 % 2 = 0 := by
  have hop : f.word 32 / 2 ^ 26 % 64 = 32 := encI_opcode _ _ (by decide) f.imm.isLt
  have himm : f.word 32 % 65536 = f.imm.toNat := encI_imm _ _ f.imm.isLt
  unfold seqWordOk at h
  dsimp only at h
  rw [hop, himm] at h
  simp only [hw, decide_true, Bool.true_and, Bool.and_eq_true, Bool.not_eq_true', decide_eq_false_iff_not] at h
  omega

theorem retires_dsw {s : State} {t : TileId} {f : IFields} {n : Nat} (hp : (s.tile t).pc + 4 < 262144)
    (h : Runs s t (f.word 32)) (hn : (if f.imm.toNat / 128 % 2 = 1 then 8 else 4) = n)
    (hm : tmOk .scalar true (0xD00000 + f.imm.toNat / 4096 * 64 + f.imm.toNat / 256 % 16 * 4) n = true) (hn0 : n ≠ 0) :
    ∃ y, Retires (.dsw t f) s t y ((s.tile t).pc + 4) ∧
      Stored (s.tile t) (0xD00000 + f.imm.toNat / 4096 * 64 + f.imm.toNat / 256 % 16 * 4) n ((s.tile t).reg f.rd).toNat y :=
  ⟨_, retires_next rfl hp h (by rw [hn]), stored_write _ _ _ _ hn0 hm⟩

/-- A word, or two from an even one, of a descriptor slot may be written. -/
theorem tmOk_slotWord {w n : Nat} (hw : w < 65536) (hn : n = 4 ∨ (n = 8 ∧ w / 256 % 2 = 0)) :
    tmOk .scalar true (0xD00000 + w / 4096 * 64 + w / 256 % 16 * 4) n = true := by
  simp only [tmOk, tmSpans, List.any_cons, List.any_nil, Bool.or_false, Bool.or_eq_true, Bool.and_eq_true,
    decide_eq_true_eq]
  omega

/-- Settles O10. -/
theorem scalarStores : Obligations.ScalarStores := by
  intro s t f hp
  refine ⟨retires_store rfl (by decide) hp, retires_store rfl (by decide) hp, retires_store rfl (by decide) hp,
    retires_store rfl (by decide) hp, fun h hw => ?_, fun h hw => ?_⟩
  · exact retires_dsw hp h (if_neg (by omega)) (tmOk_slotWord f.imm.isLt (.inl rfl)) (by decide)
  · exact retires_dsw hp h (if_pos hw) (tmOk_slotWord f.imm.isLt (.inr ⟨rfl, dsw_wide_even h.2.2 hw⟩)) (by decide)

/-! Accesses that raise ADDR_FAULT. -/

/-- The instruction has raised ADDR_FAULT and has not retired (R101, R136). -/
def RaisesAddrFault (i : Instr) (s : State) (t : TileId) : Prop :=
  let x := s.tile t
  ∃ u, exec i s = .next u ∧ (u.tile t).pc = x.pc ∧ (u.tile t).regs = x.regs ∧ (u.tile t).mem = x.mem ∧
    (u.tile t).faultPc = x.pc ∧ (u.tile t).seqFault = true ∧ (u.err .tseq t).stat.getLsbD 1 = true

/-- An instruction whose fault has the bit of ADDR_FAULT among its causes. -/
theorem raisesAddrFault_of_fault {i : Instr} {s : State} {t : TileId} {w m : Nat} {f : State → Tile → SeqOut}
    (hexec : exec i s = .next (s.seqStep t w f)) (hm : m.testBit 1 = true) (h : Runs s t w)
    (hf : f s (s.tile t) = .fault s m) : RaisesAddrFault i s t := by
  have htile := s.seqError_unmarked t m
  exact ⟨s.seqError t m, exec_of_fault hexec h hf, (congrArg Tile.pc htile :), (congrArg Tile.regs htile :),
    (congrArg Tile.mem htile :), (congrArg Tile.faultPc htile :), (congrArg Tile.seqFault htile :),
    State.raise_stat _ _ _ _ _ _ (by decide) hm⟩

theorem Tile.readFault_addrFault {x : Tile} {align a n : Nat} (h : a % align ≠ 0 ∨ tmOk .scalar false a n = false) :
    (x.readFault align a n).testBit 1 = true := by
  have hbad : (decide (a % align ≠ 0) || !tmOk .scalar false a n) = true := by simpa using h
  unfold Tile.readFault
  rw [if_pos hbad]
  split <;> rfl

theorem loadOp_addrFault {i : Instr} {s : State} {t : TileId} {f : IFields} {code n : Nat}
    (hexec : exec i s = .next (loadOp t f code n s)) (h : Runs s t (f.word code))
    (hbad : ((s.tile t).ea f).toNat % n ≠ 0 ∨ tmOk .scalar false ((s.tile t).ea f).toNat n = false) :
    RaisesAddrFault i s t := by
  have hm := Tile.readFault_addrFault (x := s.tile t) hbad
  refine raisesAddrFault_of_fault hexec hm h (if_pos fun h0 => ?_)
  rw [h0] at hm
  simp at hm

theorem storeOp_addrFault {i : Instr} {s : State} {t : TileId} {f : IFields} {code n : Nat}
    (hexec : exec i s = .next (storeOp t f code n s)) (h : Runs s t (f.word code))
    (hbad : ((s.tile t).ea f).toNat % n ≠ 0 ∨ tmOk .scalar true ((s.tile t).ea f).toNat n = false) :
    RaisesAddrFault i s t :=
  raisesAddrFault_of_fault (m := 2) hexec rfl h (if_pos (by simpa using hbad))

theorem State.slabFault_addrFault (s : State) (f a : Nat) : (s.slabFault f a).testBit 1 = true := by
  unfold State.slabFault
  split <;> rfl

/-- Settles O11. -/
theorem misalignedAccessRaisesAddrFault : Obligations.MisalignedAccessRaisesAddrFault :=
  fun s _ _ => ⟨loadOp_addrFault rfl, loadOp_addrFault rfl, loadOp_addrFault rfl, loadOp_addrFault rfl,
    storeOp_addrFault rfl, storeOp_addrFault rfl, storeOp_addrFault rfl, storeOp_addrFault rfl,
    fun ha => ⟨fun h => raisesAddrFault_of_fault rfl (s.slabFault_addrFault _ _) h (if_pos ha),
      fun h => raisesAddrFault_of_fault rfl (s.slabFault_addrFault _ _) h (if_pos ha)⟩⟩

end Sys2Proof.Machine
end

section
/-! Waiting and resuming; tallies and system instructions (O12, O14: R102, R116 to R118, R131, R134, R496, Table 4.5). -/

namespace Sys2Proof.Machine

/-- A change of the sequencer's state, recorded in the event ring, changes nothing else of the tile but RESYNC. -/
theorem State.seqGoto_tile (s : State) (t : Nat) (new : SeqState) :
    ∃ r, (s.seqGoto t new).tile t = { s.tile t with seq := new, resync := r } := by
  unfold State.seqGoto
  dsimp only
  split
  case isTrue h => exact ⟨(s.tile t).resync, by rw [← h]⟩
  case isFalse h =>
    obtain ⟨r, hr⟩ := (s.onTile t (fun x => { x with seq := new })).event_tile .tseq t 4 (s.tile t).owner
      (new.code + (s.tile t).seq.code * 256) false t
    exact ⟨r, by rw [hr, State.onTile_tile, if_pos rfl]⟩

/-- A tile that stops waiting is as it was but for its sequencer's state and RESYNC. -/
theorem State.wakes_tile (s : State) (t : Nat) :
    ∃ r, (s.wakes t).tile t = { s.tile t with seq := .running, wait := .none, resync := r } := by
  obtain ⟨r, hr⟩ := s.seqGoto_tile t .running
  exact ⟨r, by rw [State.wakes, State.onTile_tile, if_pos rfl, hr]⟩

/-- A waiting sequencer whose instruction can go on now ends its waiting and finishes the instruction. -/
theorem State.seqResume_finish {s : State} {t : TileId} {w : Wait} {f : Wait → Option (State → Tile → SeqOut)}
    {g : State → Tile → SeqOut} (h : Waits s t w) (hf : f w = some g) (hg : ∀ v, g s (s.tile t) ≠ .wait v) :
    s.seqResume t f = (s.wakes t).finish t (g (s.wakes t) ((s.wakes t).tile t)) := by
  obtain ⟨hlive, hseq, hfault, hwait⟩ := h
  unfold State.seqResume
  simp only [hlive, hseq, hfault, hwait, hf, decide_true, Bool.not_false, Bool.and_self, if_true]
  cases hgs : g s (s.tile t) with
  | go s' npc => rfl
  | wait v => exact absurd hgs (hg v)
  | fault s' m => rfl

/-- A waiting instruction that goes on to another state retires there. -/
theorem exec_of_resume {i : Instr} {s s' : State} {t : TileId} {w : Wait} {f : Wait → Option (State → Tile → SeqOut)}
    {g : State → Tile → SeqOut} (hexec : exec i s = .next (s.seqResume t f)) (hp : (s.tile t).pc + 4 < 262144)
    (h : Waits s t w) (hf : f w = some g) (hg : ∀ v, g s (s.tile t) ≠ .wait v)
    (hgo : g (s.wakes t) ((s.wakes t).tile t) = .go s' ((s.tile t).pc + 4)) :
    exec i s = .next (s'.retire t ((s.tile t).pc + 4)) := by
  rw [hexec, State.seqResume_finish h hf hg, hgo, State.finish_go _ _ _ _ ⟨by omega, by omega⟩]; rfl

/-- An instruction that waits. -/
theorem exec_of_wait {i : Instr} {s : State} {t : TileId} {w : Nat} {v : Wait} {f : State → Tile → SeqOut}
    (hexec : exec i s = .next (s.seqStep t w f)) (h : Runs s t w) (hf : f s (s.tile t) = .wait v) :
    exec i s = .next (s.waits t v) := by
  rw [hexec, State.seqStep_runs s t w f h, hf, State.finish_wait]

/-- An instruction that goes on with the next word and does nothing else retires with the tile as it was. -/
theorem retires_next_unchanged {i : Instr} {s : State} {t : TileId} {w : Nat} {f : State → Tile → SeqOut}
    (hexec : exec i s = .next (s.seqStep t w f)) (hp : (s.tile t).pc + 4 < 262144) (h : Runs s t w)
    (hf : f s (s.tile t) = .go s ((s.tile t).pc + 4)) : Retires i s t (s.tile t) ((s.tile t).pc + 4) :=
  retires_unchanged hexec h hf ⟨by omega, by omega⟩

/-! Tallies. -/

theorem twaitTry_go {t : Tile} {n : Nat} {v : W32} (s : State) (h : (t.tally n - v).toNat < 2 ^ 31) :
    twaitTry n v s t = .go s (t.pc + 4) := if_pos (decide_eq_true h)

theorem twaitTry_wait {t : Tile} {n : Nat} {v : W32} (s : State) (h : ¬(t.tally n - v).toNat < 2 ^ 31) :
    twaitTry n v s t = .wait (.tally n v) := if_neg (by simpa [tallyOk] using h)

theorem exec_tallyWaitRelease {s : State} {t : TileId} {k : Nat} {v : W32} (hp : (s.tile t).pc + 4 < 262144)
    (h : Waits s t (.tally k v)) (hv : ((s.tile t).tally k - v).toNat < 2 ^ 31) :
    exec (.tallyWaitRelease t) s = .next ((s.wakes t).retire t ((s.tile t).pc + 4)) := by
  obtain ⟨r, hr⟩ := s.wakes_tile t
  refine exec_of_resume (g := twaitTry k v) rfl hp h rfl (fun w => ?_) ?_
  · rw [twaitTry_go s hv]; exact SeqOut.noConfusion
  · rw [hr]; exact twaitTry_go _ hv

/-- Settles O12. -/
theorem tallyInstructions : Obligations.TallyInstructions := by
  intro s t f k v x n w hp
  exact ⟨fun h => retires_next rfl hp h rfl, fun h => retires_next rfl hp h rfl,
    retires_of_wrReg rfl hp (BitVec.ofNat_toNat 64 _).symm,
    fun h hv => retires_next_unchanged rfl hp h (twaitTry_go s hv), fun h hv => exec_of_wait rfl h (twaitTry_wait s hv),
    exec_tallyWaitRelease hp⟩

/-! System instructions. -/

/-- RDSYS of a register of Table 4.5 other than STEPS. -/
theorem retires_rdsys {s : State} {t : TileId} {rd r : BitVec 5} {n : Nat} {v : W64} (hn : n < 256) (hsteps : n ≠ 4)
    (hp : (s.tile t).pc + 4 < 262144) (hv : s.sysReg t n = v) (h : Runs s t (encI 0x3C rd r n)) :
    Retires (.rdsys t ⟨rd, r, BitVec.ofNat 16 n⟩) s t ((s.tile t).setReg rd v) ((s.tile t).pc + 4) := by
  have himm : (BitVec.ofNat 16 n).toNat = n := Nat.mod_eq_of_lt (by omega)
  have hword : IFields.word ⟨rd, r, BitVec.ofNat 16 n⟩ 0x3C = encI 0x3C rd r n := congrArg (encI 0x3C rd r) himm
  refine retires_next rfl hp (hword ▸ h) ?_
  simp only [himm, Nat.mod_eq_of_lt hn, if_neg hsteps, hv]

theorem exec_rdsys_steps {s : State} {t : TileId} {rd r : BitVec 5} (hp : (s.tile t).pc + 4 < 262144)
    (h : Runs s t (encI 0x3C rd r 4)) : exec (.rdsys t ⟨rd, r, 4⟩) s =
      .next (({ s.setTile t ((s.tile t).setReg rd (Config.stepCount s.freeCtr)) with
        freeCtr := s.freeCtr + 1 } : State).retire t ((s.tile t).pc + 4)) :=
  exec_of_go rfl hp h rfl

/-- Releasing the launch arguments where no LAUNCH waits for the tile (R134). -/
theorem State.lackTile_release {s : State} {t : Nat} (ha : (s.tile t).argsHeld = true)
    (hl : s.pendingLaunch ((s.tile t).owner.getD 0) t = none) :
    s.lackTile t = s.setTile t { s.tile t with argsHeld := false, lacks := (s.tile t).lacks + 1 } := by
  have hl' : (s.setTile t { s.tile t with argsHeld := false, lacks := (s.tile t).lacks + 1 }).pendingLaunch
      ((s.tile t).owner.getD 0) t = none := hl
  rw [State.lackTile, if_pos ha]
  dsimp only
  rw [hl']

/-- Settles O14. -/
theorem systemInstructions : Obligations.SystemInstructions := by
  intro s t rd r r2 hi f hp x own R
  refine ⟨retires_rdsys (by decide) (by decide) hp rfl, retires_rdsys (by decide) (by decide) hp rfl,
    retires_rdsys (by decide) (by decide) hp (BitVec.ofNat_toNat 64 _).symm, retires_rdsys (by decide) (by decide) hp rfl,
    retires_rdsys (by decide) (by decide) hp rfl, retires_rdsys (by decide) (by decide) hp rfl,
    retires_rdsys (by decide) (by decide) hp rfl, retires_rdsys (by decide) (by decide) hp rfl,
    retires_rdsys (by decide) (by decide) hp rfl, fun h => ⟨_, exec_rdsys_steps hp h⟩, fun h => ?dseq,
    fun h => exec_of_go rfl hp h rfl, State.lackTile_release, fun h => retires_next_unchanged rfl hp h rfl,
    fun h => exec_of_go rfl hp h rfl, fun h => exec_of_go rfl hp h rfl⟩
  case dseq => exact retires_next rfl hp h (by rw [BitVec.ofNat_toNat])

end Sys2Proof.Machine
end

section
/-! Channels: sending, receiving and setting up endpoints (O17, O18: R122 to R127, R557). -/

namespace Sys2Proof.Machine

/-- A body for a tile of the same package enters the mesh with its source. -/
theorem State.chSend_local {s : State} {t k d : Nat} (b : ChBody) (hpkg : ((s.tile t).ep k).peerPkg = 0xFFFF)
    (hd : s.vtile ((s.tile t).owner.getD 0) ((s.tile t).ep k).peerVt = some d) (hpath : s.pathOk t d = true) :
    let f := (s.tile t).owner.getD 0
    let p : ChPkt := { src := t, dst := d, ep := ((s.tile t).ep k).peerEp, fn := f, srcPkg := 0xFFFF, srcVt := s.vtOf f t,
                       srcEp := k, body := b }
    s.chSend t k b = ({ s with noc := s.noc ++ [p] }, true) := by
  unfold State.chSend
  simp only [hpkg, hd, hpath, if_true, Bool.not_true, Bool.false_eq_true, if_false]

/-! MSEND. -/

/-- What MSEND does with what the attempt to send its message answers: it takes a credit, or raises CHAN_LOST. -/
def msendOutcome (t k credits npc : Nat) (p : State × Bool) : SeqOut :=
  if p.2 then .go (p.1.onTile t (fun y => y.setEp k { y.ep k with credits := credits - 1 })) npc else .fault p.1 128

/-- The message at an address of tile memory, as MSEND sends it. -/
def Tile.message (x : Tile) (a n : W64) : ChBody := .msg (x.bytes a.toNat n.toNat) (x.poisoned a.toNat n.toNat)

theorem msendTry_sends {x : Tile} {k size : Nat} {a n : W64} (t : Nat) (s : State) (hk : (x.ep k).kind = .send)
    (hg : (x.ep k).grant = .slots size) (hn : n.toNat ≤ size) (hc : (x.ep k).credits ≠ 0)
    (hm : tmOk .scalar false a.toNat n.toNat = true) :
    msendTry t k a n s x = msendOutcome t k (x.ep k).credits (x.pc + 4) (s.chSend t k (x.message a n)) := by
  unfold msendTry msendOutcome Tile.message
  simp only [hk, hg, hc, hm, ne_eq, not_true_eq_false, if_false, if_true, Nat.not_lt.mpr hn]
  generalize s.chSend t k _ = p
  obtain ⟨s1, ok⟩ := p
  cases ok <;> rfl

theorem msendTry_waits {x : Tile} {k size : Nat} {a n : W64} (t : Nat) (s : State) (hk : (x.ep k).kind = .send)
    (hg : (x.ep k).grant = .slots size) (hn : n.toNat ≤ size) (hc : (x.ep k).credits = 0) :
    msendTry t k a n s x = .wait (.credit k a n) := by
  unfold msendTry
  simp only [hk, hg, hc, ne_eq, not_true_eq_false, if_false, if_true, Nat.not_lt.mpr hn]

theorem msendOutcome_ne_wait (t k c npc : Nat) (p : State × Bool) (w : Wait) : msendOutcome t k c npc p ≠ .wait w := by
  unfold msendOutcome
  split <;> exact SeqOut.noConfusion

/-- MSEND retires where its message was sent and raises CHAN_LOST where it was not. -/
theorem State.finish_msendOutcome (s s1 : State) (t k c npc : Nat) (ok : Bool) (hp : npc < 262144) :
    s.finish t (msendOutcome t k c npc (s1, ok)) =
      if ok then (s1.onTile t (fun y => y.setEp k { y.ep k with credits := c - 1 })).retire t npc
      else s1.seqError t 128 := by
  cases ok
  · rfl
  · exact State.finish_go _ _ _ _ ⟨by omega, by omega⟩

/-! MRECV and MTRY. -/

theorem mrecvTry_message {x : Tile} {k len : Nat} {rest : List Nat} {rd : BitVec 5} (t : Nat) (s : State)
    (hk : (x.ep k).kind = .recvInline) (hl : (x.ep k).lens = len :: rest) :
    let e := x.ep k
    let v := BitVec.ofNat 64 (len * 2 ^ 32 + e.base + e.returned % (e.slotsM1 + 1) * 2 ^ e.slotLog2)
    mrecvTry t k rd s x =
      .go (s.setTile t ((x.setEp k { e with lens := rest, returned := e.returned + 1 }).setReg rd v)) (x.pc + 4) := by
  unfold mrecvTry Endpoint.next
  simp only [hk, hl, ne_eq, not_true_eq_false, if_false]

theorem mrecvTry_none {x : Tile} {k : Nat} {rd : BitVec 5} (t : Nat) (s : State) (hk : (x.ep k).kind = .recvInline)
    (hl : (x.ep k).lens = []) : mrecvTry t k rd s x = .wait (.recv k rd) := by
  unfold mrecvTry Endpoint.next
  simp only [hk, hl, ne_eq, not_true_eq_false, if_false]

theorem sendGo_sent {s s1 : State} {t k : Nat} {b : ChBody} {g : Endpoint → Endpoint} (x : Tile)
    (h : s.chSend t k b = (s1, true)) :
    sendGo t k b g s x = .go (s1.onTile t (fun y => y.setEp k (g (y.ep k)))) (x.pc + 4) := by
  unfold sendGo
  rw [h]

theorem exec_msend {s s1 : State} {t : TileId} {f : RFields} {size : Nat} {ok : Bool}
    (h : Runs s t (f.word 0x28)) (hk : ((s.tile t).ep f.fn.toNat).kind = .send)
    (hg : ((s.tile t).ep f.fn.toNat).grant = .slots size) (hn : ((s.tile t).reg f.rs2).toNat ≤ size)
    (hc : ((s.tile t).ep f.fn.toNat).credits ≠ 0)
    (hm : tmOk .scalar false ((s.tile t).reg f.rs1).toNat ((s.tile t).reg f.rs2).toNat = true)
    (hs : s.chSend t f.fn.toNat ((s.tile t).message ((s.tile t).reg f.rs1) ((s.tile t).reg f.rs2)) = (s1, ok)) :
    exec (.msend t f) s = .next (s.finish t (msendOutcome t f.fn.toNat ((s.tile t).ep f.fn.toNat).credits
      ((s.tile t).pc + 4) (s1, ok))) := by
  have hout := (msendTry_sends t s hk hg hn hc hm).trans (congrArg _ hs)
  rw [← hout]
  exact congrArg Host.Outcome.next (State.seqStep_runs s t _ _ h)

/-- A waiting MSEND whose endpoint has a credit sends its message: its tile is as it was when it began to wait. -/
theorem exec_msendCreditTaken {s s1 : State} {t : TileId} {k size : Nat} {a n : W64} {ok : Bool}
    (h : Waits s t (.credit k a n)) (hk : ((s.tile t).ep k).kind = .send) (hg : ((s.tile t).ep k).grant = .slots size)
    (hn : n.toNat ≤ size) (hc : ((s.tile t).ep k).credits ≠ 0) (hm : tmOk .scalar false a.toNat n.toNat = true)
    (hs : (s.wakes t).chSend t k ((s.tile t).message a n) = (s1, ok)) :
    exec (.msendCreditTaken t) s = .next ((s.wakes t).finish t (msendOutcome t k ((s.tile t).ep k).credits
      ((s.tile t).pc + 4) (s1, ok))) := by
  obtain ⟨r, hr⟩ := s.wakes_tile t
  have hgo : ∀ w, msendTry t k a n s (s.tile t) ≠ .wait w := by
    rw [msendTry_sends t s hk hg hn hc hm]
    exact msendOutcome_ne_wait _ _ _ _ _
  have hout : msendTry t k a n (s.wakes t) ((s.wakes t).tile t) =
      msendOutcome t k ((s.tile t).ep k).credits ((s.tile t).pc + 4) (s1, ok) := by
    rw [hr, ← hs]
    exact msendTry_sends (x := { s.tile t with seq := .running, wait := .none, resync := r }) t _ hk hg hn hc hm
  rw [← hout]
  exact congrArg Host.Outcome.next (State.seqResume_finish h rfl hgo)

/-- A waiting MRECV whose endpoint has a message returns it. -/
theorem exec_mrecvMessageReturned {s : State} {t : TileId} {k len : Nat} {rest : List Nat} {rd : BitVec 5}
    (hp : (s.tile t).pc + 4 < 262144) (h : Waits s t (.recv k rd)) (hk : ((s.tile t).ep k).kind = .recvInline)
    (hl : ((s.tile t).ep k).lens = len :: rest) :
    let e := (s.tile t).ep k
    let v := BitVec.ofNat 64 (len * 2 ^ 32 + e.base + e.returned % (e.slotsM1 + 1) * 2 ^ e.slotLog2)
    exec (.mrecvMessageReturned t) s = .next (((s.wakes t).setTile t
      ((((s.wakes t).tile t).setEp k { e with lens := rest, returned := e.returned + 1 }).setReg rd v)).retire t
        ((s.tile t).pc + 4)) := by
  obtain ⟨r, hr⟩ := s.wakes_tile t
  refine exec_of_resume (g := mrecvTry t k rd) rfl hp h rfl (fun w => ?_) ?_
  · rw [mrecvTry_message t s hk hl]; exact SeqOut.noConfusion
  · rw [hr]
    exact mrecvTry_message t _ (x := { s.tile t with seq := .running, wait := .none, resync := r }) hk hl

/-- MTRY of an endpoint with a message returns it as MRECV does. -/
theorem retires_mtry_message {s : State} {t : TileId} {f : RFields} {len : Nat} {rest : List Nat}
    (hp : (s.tile t).pc + 4 < 262144) (h : Runs s t (f.word 0x2A)) (hk : ((s.tile t).ep f.fn.toNat).kind = .recvInline)
    (hl : ((s.tile t).ep f.fn.toNat).lens = len :: rest) :
    let e := (s.tile t).ep f.fn.toNat
    let v := BitVec.ofNat 64 (len * 2 ^ 32 + e.base + e.returned % (e.slotsM1 + 1) * 2 ^ e.slotLog2)
    Retires (.mtry t f) s t
      (((s.tile t).setEp f.fn.toNat { e with lens := rest, returned := e.returned + 1 }).setReg f.rd v)
      ((s.tile t).pc + 4) :=
  retires_next rfl hp h (by rw [mrecvTry_message t s hk hl])

theorem retires_mtry_none {s : State} {t : TileId} {f : RFields} (hp : (s.tile t).pc + 4 < 262144)
    (h : Runs s t (f.word 0x2A)) (hk : ((s.tile t).ep f.fn.toNat).kind = .recvInline)
    (hl : ((s.tile t).ep f.fn.toNat).lens = []) :
    Retires (.mtry t f) s t ((s.tile t).setReg f.rd (BitVec.allOnes 64)) ((s.tile t).pc + 4) :=
  retires_next rfl hp h (by rw [mrecvTry_none t s hk hl])

theorem exec_mfree {s s1 : State} {t : TileId} {f : RFields} (hp : (s.tile t).pc + 4 < 262144)
    (h : Runs s t (f.word 0x2B)) (hk : ((s.tile t).ep f.fn.toNat).kind = .recvInline)
    (hlt : ((s.tile t).ep f.fn.toNat).freed < ((s.tile t).ep f.fn.toNat).returned)
    (hs : s.chSend t f.fn.toNat .credit = (s1, true)) :
    exec (.mfree t f) s = .next ((s1.onTile t (fun y => y.setEp f.fn.toNat
      { y.ep f.fn.toNat with freed := (y.ep f.fn.toNat).freed + 1 })).retire t ((s.tile t).pc + 4)) := by
  have hheld : ¬((s.tile t).ep f.fn.toNat).freed ≥ ((s.tile t).ep f.fn.toNat).returned := by omega
  refine exec_of_go rfl hp h ?_
  simp only [hk, hheld, ne_eq, not_true_eq_false, decide_false, Bool.or_self, Bool.false_eq_true, if_false]
  exact sendGo_sent _ hs

/-- Settles O17. -/
theorem messagesAreSentAndReturned : Obligations.MessagesAreSentAndReturned := by
  refine ⟨fun s t k d b => State.chSend_local b, ?msend, ?mrecv⟩
  case msend =>
    intro s s1 t f k size a n ok x e body sent hk hg hp hn
    have houtcome (v : State) := v.finish_msendOutcome s1 t k e.credits (x.pc + 4) ok hp
    refine ⟨fun h hf ha hl => ?_, fun h hc hm hs => (exec_msendCreditTaken h hk hg hn hc hm hs).trans (by rw [houtcome])⟩
    subst hf ha hl
    exact ⟨fun hc hm hs => (exec_msend h hk hg hn hc hm hs).trans (by rw [houtcome]),
      fun hc => exec_of_wait rfl h (msendTry_waits t s hk hg hn hc)⟩
  case mrecv =>
    intro s s1 t f rd k len rest x e e1 v hk hp
    refine ⟨fun hf => ?_, fun h hl => exec_mrecvMessageReturned hp h hk hl⟩
    subst hf
    exact ⟨fun h hl => retires_next rfl hp h (mrecvTry_message t s hk hl), fun h hl => retires_mtry_message hp h hk hl,
      fun h hl => retires_mtry_none hp h hk hl, fun h hl => exec_of_wait rfl h (mrecvTry_none t s hk hl),
      fun h hlt hs => exec_mfree hp h hk hlt hs⟩

/-! CHCFG and CHARM. -/

/-- CHCFG of an unconfigured endpoint from a record that can be read and is well formed. -/
theorem retires_chcfg {s : State} {t : TileId} {f : RFields} {e : Endpoint} (hp : (s.tile t).pc + 4 < 262144)
    (h : Runs s t (f.word 0x2C)) (hm : tmOk .scalar false ((s.tile t).reg f.rs1).toNat 24 = true)
    (hc : (s.tile t).poisoned ((s.tile t).reg f.rs1).toNat 24 = false)
    (he : s.chRecord t ((s.tile t).rd ((s.tile t).reg f.rs1).toNat 24) = some e)
    (hb : s.peerBad ((s.tile t).owner.getD 0) ((s.tile t).rd ((s.tile t).reg f.rs1).toNat 24) = false)
    (hk : ((s.tile t).ep f.fn.toNat).kind = .unconf) :
    Retires (.chcfg t f) s t ((s.tile t).setEp f.fn.toNat e) ((s.tile t).pc + 4) := by
  refine retires_next rfl hp h ?_
  have hread := Tile.readFault_eq_zero (Nat.mod_one _) hm hc
  simp only [hread, he, hb, hk, ne_eq, not_true_eq_false, if_false, if_true, Bool.false_eq_true, Nat.add_zero]

theorem exec_charm_inline {s s1 : State} {t : TileId} {f : RFields} (hp : (s.tile t).pc + 4 < 262144)
    (h : Runs s t (f.word 0x2D)) (ha : ((s.tile t).ep f.fn.toNat).armed = false)
    (hk : ((s.tile t).ep f.fn.toNat).kind = .recvInline)
    (hs : s.chSend t f.fn.toNat (.grantSlots (2 ^ ((s.tile t).ep f.fn.toNat).slotLog2)
      (((s.tile t).ep f.fn.toNat).slotsM1 + 1)) = (s1, true)) :
    exec (.charm t f) s = .next ((s1.onTile t (fun y => y.setEp f.fn.toNat { y.ep f.fn.toNat with armed := true })).retire t
      ((s.tile t).pc + 4)) := by
  refine exec_of_go rfl hp h ?_
  simp only [ha, hk, Bool.false_eq_true, if_false]
  exact sendGo_sent _ hs

theorem exec_charm_bulk {s s1 : State} {t : TileId} {f : RFields} (hp : (s.tile t).pc + 4 < 262144)
    (h : Runs s t (f.word 0x2D)) (ha : ((s.tile t).ep f.fn.toNat).armed = false)
    (hk : ((s.tile t).ep f.fn.toNat).kind = .recvBulk)
    (hs : s.chSend t f.fn.toNat (.grantBulk ((s.tile t).ep f.fn.toNat).window) = (s1, true)) :
    exec (.charm t f) s = .next ((s1.onTile t (fun y => y.setEp f.fn.toNat { y.ep f.fn.toNat with armed := true })).retire t
      ((s.tile t).pc + 4)) := by
  refine exec_of_go rfl hp h ?_
  simp only [ha, hk, Bool.false_eq_true, if_false]
  exact sendGo_sent _ hs

/-- Settles O18. -/
theorem channelSetup : Obligations.ChannelSetup :=
  fun _ _ _ _ _ hp => ⟨retires_chcfg hp, fun h ha => ⟨exec_charm_inline hp h ha, exec_charm_bulk hp h ha⟩⟩

end Sys2Proof.Machine
end

section
/-! Descriptors: DISS, starting and signalling (O16: R107 to R111, R232). -/

namespace Sys2Proof.Machine

/-- The state in which a descriptor has been put into its queue with the next sequence number, and counted (R108). -/
def State.issue (s : State) (t : Nat) (q : EngQ) (raw : Nat) : State :=
  (s.onTile t (fun y => { y.setEng q { y.eng q with queue := (y.eng q).queue ++ [{ raw := raw, dseq := y.dseq }] } with
    dseq := y.dseq + 1 })).countT .tseq t 3 (fld raw 0 0 4) 1

@[simp] theorem Tile.setEng_dseq (x : Tile) (q : EngQ) (e : Eng) : (x.setEng q e).dseq = x.dseq := by
  cases q <;> rfl

@[simp] theorem Tile.setEng_pc (x : Tile) (q : EngQ) (e : Eng) : (x.setEng q e).pc = x.pc := by
  cases q <;> rfl

theorem dissTry_go {s : State} {t n : Nat} {q : EngQ} (hq : engQ (fld ((s.tile t).slotRaw n) 0 0 4) = some q)
    (hh : headerOk ((s.tile t).slotRaw n) n = true) (hroom : ((s.tile t).eng q).queue.length < 16) :
    dissTry t n s (s.tile t) = .go (s.issue t q ((s.tile t).slotRaw n)) ((s.tile t).pc + 4) := by
  unfold dissTry State.issue State.onTile
  simp only [hq, hh, Eng.hasRoom, hroom, Bool.not_true, Bool.false_eq_true, if_false, decide_true, Tile.setEng_dseq,
    Tile.setEng_pc]

theorem dissTry_wait {s : State} {x : Tile} {t n : Nat} {q : EngQ} (hq : engQ (fld (x.slotRaw n) 0 0 4) = some q)
    (hh : headerOk (x.slotRaw n) n = true) (hroom : ¬(x.eng q).queue.length < 16) :
    dissTry t n s x = .wait (.queue q n) := by
  unfold dissTry
  simp only [hq, hh, Eng.hasRoom, hroom, Bool.not_true, Bool.false_eq_true, if_false, decide_false, Bool.not_false, if_true]

/-- A waiting DISS whose queue has room issues its descriptor: its tile is as it was when it began to wait. -/
theorem exec_dissQueueEntryFreed {s : State} {t : TileId} {n : Nat} {q : EngQ} (hp : (s.tile t).pc + 4 < 262144)
    (h : Waits s t (.queue q n)) (hq : engQ (fld ((s.tile t).slotRaw n) 0 0 4) = some q)
    (hh : headerOk ((s.tile t).slotRaw n) n = true) (hroom : ((s.tile t).eng q).queue.length < 16) :
    exec (.dissQueueEntryFreed t) s =
      .next (((s.wakes t).issue t q ((s.tile t).slotRaw n)).retire t ((s.tile t).pc + 4)) := by
  obtain ⟨r, hr⟩ := s.wakes_tile t
  have hraw : ((s.wakes t).tile t).slotRaw n = (s.tile t).slotRaw n := by rw [hr]; rfl
  have heng : ((s.wakes t).tile t).eng q = (s.tile t).eng q := by rw [hr]; rfl
  have hpc : ((s.wakes t).tile t).pc = (s.tile t).pc := by rw [hr]
  refine exec_of_resume (g := dissTry t n) rfl hp h rfl (fun w => ?_) ?_
  · rw [dissTry_go hq hh hroom]; exact SeqOut.noConfusion
  · rw [dissTry_go (hraw.symm ▸ hq) (hraw.symm ▸ hh) (heng.symm ▸ hroom), hraw, hpc]

/-! Starting. -/

theorem Tile.startable_head {x : Tile} {q : EngQ} {d : Desc} {l : List Desc} (hrun : (x.eng q).run = none)
    (hqueue : (x.eng q).queue = d :: l) (hwait : d.waitEn = true → tallyOk (x.tally d.waitTally) d.waitValue = true)
    (hgus : q = .opa ∨ q = .ve → x.gussetHolds = false) : x.startable q = some d := by
  have h1 : (d.waitEn && !tallyOk (x.tally d.waitTally) d.waitValue) = false := by
    cases hw : d.waitEn
    · rfl
    · simp [hwait hw]
  have h2 : ((q = .opa || q = .ve) && x.gussetHolds) = false := by
    by_cases hu : q = .opa ∨ q = .ve
    · simp [hgus hu]
    · simp [not_or.mp hu]
  unfold Tile.startable
  simp only [hrun, hqueue, h1, h2, Bool.false_eq_true, if_false]

theorem exec_descStart {s : State} {t : TileId} {q : EngQ} {d : Desc} {l : List Desc} (hlive : s.tileLive t = true)
    (hstart : (s.tile t).startable q = some d) (hqueue : ((s.tile t).eng q).queue = d :: l) :
    let c := (s.setTile t ((s.tile t).setEng q { (s.tile t).eng q with queue := l })).checkDesc t q d
    exec (.descStart t q) s = .next (if c.2 then c.1 else c.1.onTile t (fun y => y.setEng q { y.eng q with
      run := some { desc := d, anchCol := (y.anchorsFor q d.raw).1, anchRow := (y.anchorsFor q d.raw).2 } })) := by
  show Host.Outcome.next _ = _
  simp only [hlive, if_true, hstart, State.startDesc, State.onTile, hqueue, List.tail_cons]

/-! Signalling. -/

@[simp] theorem State.countDrained_tile (s : State) (t u : Nat) : (s.countDrained t).tile u = s.tile u := by
  unfold State.countDrained
  split
  · rfl
  · split <;> rfl

/-- The tile whose engine has signalled its running descriptor `r` (R111). -/
def Tile.signal (x : Tile) (q : EngQ) (r : Run) : Tile :=
  let y := x.setEng q { x.eng q with run := none }
  if r.desc.sigEn then y.addTally r.desc.sigTally 1 else y

theorem State.signalEng_tile {s : State} {t : Nat} {q : EngQ} {r : Run} (hrun : ((s.tile t).eng q).run = some r)
    (hdone : r.done = true) (u : Nat) :
    (s.signalEng t q).tile u = if t = u then (s.tile u).signal q r else s.tile u := by
  unfold State.signalEng
  simp only [hrun, hdone, if_true, State.countDrained_tile]
  exact State.onTile_tile ..

/-- Signalling frees the engine, leaves its queue, and raises one tally at most. -/
theorem Tile.signal_spec (x : Tile) (q : EngQ) (r : Run) :
    ((x.signal q r).eng q).run = none ∧ ((x.signal q r).eng q).queue = (x.eng q).queue ∧
      (∀ k, (x.signal q r).tally k = if r.desc.sigEn = true ∧ k = r.desc.sigTally then x.tally k + 1 else x.tally k) ∧
      (x.signal q r).regs = x.regs ∧ (x.signal q r).mem = x.mem ∧ (x.signal q r).pc = x.pc := by
  have heng : (x.signal q r).eng q = { x.eng q with run := none } := by
    unfold Tile.signal
    split <;> cases q <;> rfl
  refine ⟨by rw [heng], by rw [heng], fun k => ?_, ?_⟩
  · have htally : ∀ e, (x.setEng q e).tally = x.tally := fun e => by cases q <;> rfl
    unfold Tile.signal
    by_cases hs : r.desc.sigEn = true
    · simp only [hs, if_true, true_and, Tile.addTally, Tile.setTally_tally, htally]
      by_cases hk : k = r.desc.sigTally
      · rw [if_pos hk.symm, if_pos hk, hk]
      · rw [if_neg (fun h => hk h.symm), if_neg hk]
    · simp only [hs, Bool.false_eq_true, if_false, false_and, htally]
  · unfold Tile.signal
    split <;> cases q <;> exact ⟨rfl, rfl, rfl⟩

/-- A row that signals the running descriptor of an engine, once something has been counted. -/
theorem exec_signals {i : Instr} {s s' : State} {t : TileId} {q : EngQ} {r : Run} (hexec : exec i s = .next (s'.signalEng t q))
    (htile : ∀ u, s'.tile u = s.tile u) (hrun : ((s.tile t).eng q).run = some r) (hdone : r.done = true) :
    ∃ u, exec i s = .next u ∧ ((u.tile t).eng q).run = none ∧ ((u.tile t).eng q).queue = ((s.tile t).eng q).queue ∧
      (∀ k, (u.tile t).tally k = if r.desc.sigEn = true ∧ k = r.desc.sigTally then (s.tile t).tally k + 1
        else (s.tile t).tally k) ∧
      (u.tile t).regs = (s.tile t).regs ∧ (u.tile t).mem = (s.tile t).mem ∧ (u.tile t).pc = (s.tile t).pc ∧
      ∀ v, v ≠ t.val → u.tile v = s.tile v := by
  have hu := State.signalEng_tile (s := s') (t := t) (q := q) (by rw [htile]; exact hrun) hdone
  have ht : (s'.signalEng t q).tile t = (s.tile t).signal q r := by rw [hu, if_pos rfl, htile]
  obtain ⟨h1, h2, h3, h4, h5, h6⟩ := (s.tile t).signal_spec q r
  refine ⟨_, hexec, ?_⟩
  rw [ht]
  exact ⟨h1, h2, h3, h4, h5, h6, fun v hv => by rw [hu, if_neg (fun h => hv h.symm), htile]⟩

theorem exec_descSignal {s : State} {t : TileId} {q : EngQ} {r : Run} (hlive : s.tileLive t = true)
    (hrun : ((s.tile t).eng q).run = some r) (hdone : r.done = true) :
    exec (.descSignal t q) s = .next ((if q = .opa then s.countT .opa t 6 0 1 else s).signalEng t q) := by
  show Host.Outcome.next (if _ then _ else _) = _
  rw [if_pos (by simp [hlive, hrun, hdone])]

theorem exec_opaPassComplete {s : State} {t : TileId} {r : Run} (hlive : s.tileLive t = true)
    (hrun : (s.tile t).opa.run = some r) (hdone : r.done = true) :
    exec (.opaPassComplete t) s = .next ((s.countT .opa t 6 0 1).signalEng t .opa) := by
  show Host.Outcome.next (if _ then _ else _) = _
  rw [if_pos (by simp [hlive, hrun, hdone])]

/-- Settles O16. -/
theorem descriptorsIssueStartAndSignal : Obligations.DescriptorsIssueStartAndSignal := by
  refine ⟨?diss, ?start, ?signal⟩
  case diss =>
    intro s t f q n x raw e issued hq hh hp
    refine ⟨fun h hn hroom => ?_, fun h hn hroom => ?_, fun h hroom => exec_dissQueueEntryFreed hp h hq hh hroom⟩
    · subst hn
      exact exec_of_go rfl hp h (dissTry_go hq hh hroom)
    · subst hn
      exact exec_of_wait rfl h (dissTry_wait hq hh hroom)
  case start =>
    intro s t q d l x s1 hlive hrun hqueue hwait hgus
    exact exec_descStart hlive (Tile.startable_head hrun hqueue hwait hgus) hqueue
  case signal =>
    intro s t q r x S
    refine ⟨fun hlive hrun hdone => exec_signals (exec_descSignal hlive hrun hdone) (fun u => ?_) hrun hdone,
      fun hlive hrun hdone => exec_signals (exec_opaPassComplete hlive hrun hdone) (fun u => State.countT_tile ..) hrun hdone⟩
    split
    · exact State.countT_tile ..
    · rfl

end Sys2Proof.Machine
end

section
/-! The page walker and the DMA engine (O23: R112, R114, R115, R267, R269, R270, R276, R286). -/

namespace Sys2Proof.Machine

/-- An engine on a live tile runs the operation of its running descriptor. -/
theorem State.engStep_running {s : State} {t : Nat} {q : EngQ} {ok : Desc → Bool} {f : State → Run → State} {r : Run}
    (hlive : s.tileLive t = true) (hrun : ((s.tile t).eng q).run = some r) (hdone : r.done = false)
    (hok : ok r.desc = true) : s.engStep t q ok f = f s r := by
  unfold State.engStep Eng.running
  simp only [hlive, hrun, hdone, hok, Bool.not_false, Bool.and_self, if_true]

/-! The page walker. -/

/-- An APPEND as it comes to its next row: the first time, the rows that are not valid have their status. -/
def State.appendBegun (s : State) (t : Nat) (r : Run) : State :=
  if r.begun then s
  else s.onTile t (fun x => x.noStatus (AppD.of r.desc.raw)
    ((List.range 64).filter (fun i => !(AppD.of r.desc.raw).rows.contains i)))

/-- An APPEND as it ends its turn, with the rows that it has left. -/
def State.appendLeft (s : State) (t : Nat) (r : Run) (l : List Nat) : State :=
  s.onTile t (fun x => { x with pw := { x.pw with run := some { r with
    begun := true, done := l.isEmpty, rows := BitVec.ofNat 64 (l.foldl (fun m i => m + 2 ^ i) 0) } } })

section
variable {s : State} {t : TileId} {r : Run} (hlive : s.tileLive t = true) (hrun : (s.tile t).pw.run = some r)
  (hdone : r.done = false)
include hlive hrun hdone

theorem exec_pwAppend_last {sp : FSpec} (hop : r.desc.op = 1) (hsrc : (AppD.of r.desc.raw).src = some sp)
    (hleft : r.appendRows = []) : exec (.pwAppend t) s = .next ((s.appendBegun t r).appendLeft t r []) := by
  refine congrArg Host.Outcome.next ((State.engStep_running (q := .pw) hlive hrun hdone (decide_eq_true hop)).trans ?_)
  simp only [hsrc, hleft]
  rfl

theorem exec_pwAppend_row {sp : FSpec} {i : Nat} {l : List Nat} (hop : r.desc.op = 1)
    (hsrc : (AppD.of r.desc.raw).src = some sp) (hleft : r.appendRows = i :: l) :
    let g : Gens := { seed := (s.fn (s.ownerOr0 t)).seed, dseq := r.desc.dseq, tile := t }
    exec (.pwAppend t) s =
      .next (((s.appendBegun t r).appendRow t (s.ownerOr0 t) (AppD.of r.desc.raw) sp g i).appendLeft t r l) := by
  refine congrArg Host.Outcome.next ((State.engStep_running (q := .pw) hlive hrun hdone (decide_eq_true hop)).trans ?_)
  simp only [hsrc, hleft]
  rfl

/-- The look-aside entries that an INVALIDATE names (Table 9.6). -/
def invalidateHits (f raw : Nat) (p : Plb) : Bool :=
  decide (p.fn = f) && (match fld raw 8 0 2 with
    | 0 => true
    | 1 => decide (p.tag = fld raw 12 0 24)
    | _ => decide (p.tag = fld raw 12 0 24) && decide (fld raw 16 0 32 ≤ p.page) && decide (p.page < fld raw 20 0 32))

theorem pwInvalidate_tile (hop : r.desc.op = 2) : (s.pwInvalidate t).tile t =
    { s.tile t with
      plb := (s.tile t).plb.filter (fun p => !invalidateHits (s.ownerOr0 t) r.desc.raw p)
      pw := { (s.tile t).pw with run := some { r with done := true } } } := by
  have hstep := State.engStep_running (f := fun s r => (s.onTile t (fun x => { x with
    plb := x.plb.filter (fun p => !invalidateHits (s.ownerOr0 t) r.desc.raw p) })).engDone t .pw)
    (q := .pw) (ok := fun d => d.op = 2) hlive hrun hdone (decide_eq_true hop)
  refine (congrArg (State.tile · t) hstep).trans ?_
  dsimp only
  rw [State.engDone, State.onTile_tile, if_pos rfl, State.onTile_tile, if_pos rfl]
  simp only [Tile.eng, Tile.setEng, hrun, Option.map_some]

end

/-! The DMA engine. -/

theorem State.reportRefused_unmarked (s : State) (f : Nat) (c : SlabRes) (u : Nat) :
    ((s.reportRefused f c).tile u).unmarked = (s.tile u).unmarked := by
  unfold State.reportRefused
  split
  · rw [State.count_tile, State.raise_unmarked]
  · rw [State.raise_unmarked]
  · rfl

/-- Reporting refusals leaves the tile's owner, to whom each of them is charged. -/
theorem foldl_reportRefused (t f : Nat) (l : List SlabRes) (s : State) (hf : s.ownerOr0 t = f) :
    l.foldl (fun s c => s.reportRefused (s.ownerOr0 t) c) s = l.foldl (fun s c => s.reportRefused f c) s := by
  induction l generalizing s with
  | nil => rw [List.foldl_nil, List.foldl_nil]
  | cons c l ih =>
    have howner : (s.reportRefused f c).ownerOr0 t = s.ownerOr0 t :=
      (congrArg (fun x : Tile => x.owner.getD 0) (s.reportRefused_unmarked f c t) :)
    rw [List.foldl_cons, List.foldl_cons, hf]
    exact ih _ (howner.trans hf)

section
variable {s : State} {t : TileId} {r : Run} {op : Nat} {f : State → Run → DmaD → State} (hlive : s.tileLive t = true)
  (hrun : (s.tile t).dma.run = some r) (hdone : r.done = false) (hbegun : r.begun = false) (hack : r.ack = false)
include hlive hrun hdone hbegun hack

theorem State.dmaStep_moves (hop : r.desc.op = op) (hlost : s.dmaLost t r.desc.raw = []) :
    s.dmaStep t op f = f s r (DmaD.of r.desc.raw) := by
  refine (State.engStep_running (q := .dma) hlive hrun hdone (decide_eq_true hop)).trans ?_
  simp only [hbegun, hack, hlost, Bool.or_self, Bool.false_eq_true, if_false]

theorem State.dmaStep_refused (hop : r.desc.op = op) (hlost : s.dmaLost t r.desc.raw ≠ []) :
    s.dmaStep t op f =
      (((s.dmaLost t r.desc.raw).foldl (fun u c => u.reportRefused (s.ownerOr0 t) c) s).raiseT .dma t 2).onTile t
        (fun x => { x with dma := { x.dma with run := some { r with begun := true } } }) := by
  refine (State.engStep_running (q := .dma) hlive hrun hdone (decide_eq_true hop)).trans ?_
  simp only [hbegun, hack, Bool.or_self, Bool.false_eq_true, if_false]
  generalize s.dmaLost t r.desc.raw = l at hlost ⊢
  cases l with
  | nil => exact absurd rfl hlost
  | cons c l => rw [← foldl_reportRefused t _ _ s rfl]

end

/-- Settles O23. -/
theorem pageWalkerAndDma : Obligations.PageWalkerAndDma := by
  refine ⟨?walker, ?dma⟩
  case walker =>
    intro s t r sp hlive hrun hdone x d f raw tag left s1 left'
    refine ⟨exec_pwAppend_last hlive hrun hdone, fun i l => exec_pwAppend_row hlive hrun hdone, fun hop => ?_⟩
    have htile := pwInvalidate_tile hlive hrun hdone hop
    exact ⟨s.pwInvalidate t, rfl, (congrArg Tile.plb htile :), (congrArg (fun y : Tile => y.pw.run) htile :),
      (congrArg Tile.mem htile :), (congrArg Tile.regs htile :)⟩
  case dma =>
    intro s t r hlive hrun hdone hbegun hack d f lost rows stays
    have moves {op : Nat} (g : State → Run → DmaD → State) (hop : r.desc.op = op) (h : lost = []) :=
      congrArg (Host.Outcome.next (φ := Fault) (ρ := Refusal))
        (State.dmaStep_moves (f := g) hlive hrun hdone hbegun hack hop h)
    have refused {op : Nat} (g : State → Run → DmaD → State) (h : lost ≠ []) (hop : r.desc.op = op) :=
      congrArg (Host.Outcome.next (φ := Fault) (ρ := Refusal))
        (State.dmaStep_refused (f := g) hlive hrun hdone hbegun hack hop h)
    exact ⟨moves _, moves _, moves _, fun h => ⟨refused _ h, refused _ h, refused _ h⟩⟩

end Sys2Proof.Machine
end

section
/-! Loading and unloading programs, core images and patterns (O31: R135, R220 to R223, R337, R341, R345). -/

namespace Sys2Proof.Machine

/-- A function that is STOPPED, has no long command and no tack is not busy (R308, R337, R506). -/
theorem busyFor_of_idle {s : State} {f : Nat} (h : (s.fn f).st = .stopped ∧ s.longOn f = false ∧ s.tacked = false) :
    s.busyFor f = false := by
  obtain ⟨hst, hlong, htack⟩ := h
  simp [State.busyFor, hst, hlong, htack]

/-- A function that is not busy is STOPPED. -/
theorem stopped_of_not_busyFor {s : State} {f : Nat} (h : s.busyFor f = false) : (s.fn f).st = .stopped := by
  simp only [State.busyFor, Bool.or_eq_false_iff, decide_eq_false_iff_not, ne_eq, Decidable.not_not] at h
  obtain ⟨⟨hst, -⟩, -⟩ := h
  exact hst

/-- The function of a request has not gone where it is not FREE. -/
theorem not_gone_of_stopped {s : State} {r : Req} (h : (s.fn r.fn).st = .stopped) : s.gone r = false := by
  simp [State.gone, h]

theorem not_gone_of_operator (s : State) {r : Req} (h : r.notOperator = false) : s.gone r = false := by
  simp only [Req.notOperator, Bool.or_eq_false_iff, decide_eq_false_iff_not, ne_eq, Decidable.not_not] at h
  obtain ⟨hfn, -⟩ := h
  simp [State.gone, hfn]

theorem takes_not_gone {s s0 : State} {code : Nat} {r : Req} (h : Takes s code r s0) : s0.gone r = false := by
  obtain ⟨⟨q, -, rfl⟩, -, -, hg⟩ := h
  exact hg

/-! TILE_LOAD. -/

theorem execTileLoad_ok {s s0 s1 : State} {r : Req} {bs : List Byte} {im : Image} (h : Takes s 0x0601 r s0)
    (hpay : payOk r.payload [(0, 10), (16, 8), (24, 4), (32, 32)] = true)
    (hread : s0.readImage r.fn (beAt r.payload 16 8) (beAt r.payload 24 4) ((r.payload.drop 32).take 32) = (s1, some bs))
    (hparse : Image.parse bs = some im)
    (htiles : ∀ v ∈ maskBits (beMask r.payload 0 10), ∃ t, s0.vtile r.fn v = some t ∧ (s1.tile t).retired = false)
    (hbusy : s1.busyFor r.fn = false) :
    exec .tileLoad s = .next ((((maskBits (beMask r.payload 0 10)).filterMap (s0.vtile r.fn)).foldl
      (fun (s : State) t => s.loadImage t im) s1).holdLong r r.fn stOk []) := by
  have hnone : ((maskBits (beMask r.payload 0 10)).map (s0.vtile r.fn)).any Option.isNone = false := by
    simp only [List.any_map, List.any_eq_false, Function.comp_apply]
    intro v hv
    obtain ⟨t, ht, -⟩ := htiles v hv
    simp [ht]
  have hretired : ((maskBits (beMask r.payload 0 10)).map (s0.vtile r.fn)).any s1.tileRetired = false := by
    simp only [List.any_map, List.any_eq_false, Function.comp_apply]
    intro v hv
    obtain ⟨t, ht, hr⟩ := htiles v hv
    simp [ht, State.tileRetired, hr]
  refine congrArg Host.Outcome.next ((command_takes _ h).trans ?_)
  simp only [hread, Option.bind_some, hparse]
  rw [judge_ok _ _ _ _ (not_gone_of_stopped (stopped_of_not_busyFor hbusy)), List.filterMap_map]
  · rfl
  · simp [hpay, hnone, hretired, hbusy]

/-! HCORE_LOAD. -/

theorem execHcoreLoad_ok {s s0 s1 : State} {r : Req} {bs : List Byte} {ps : List (Nat × Nat × Nat)}
    (h : Takes s 0x0602 r s0)
    (hpay : payOk r.payload [(0, 4), (8, 8), (16, 4), (24, 8), (32, 8), (40, 32)] = true)
    (hread : s0.readImage r.fn (beAt r.payload 8 8) (beAt r.payload 16 4) ((r.payload.drop 40).take 32) = (s1, some bs))
    (hpart : s0.fuses.part ≠ 3) (hcores : none ∉ s0.localCores r.fn (beMask r.payload 0 4))
    (hps : s0.pieces r.fn none (beAt r.payload 16 4 / 65536 + 2) (beAt r.payload 24 8) (beAt r.payload 16 4) = some ps)
    (hpages : ∀ q ∈ ps, (s1.pflagOf (q.1, q.2.1 / 65536)).thimble true = true ∧ s1.pageRetired (q.1, q.2.1 / 65536) = false)
    (hheld : ∀ c ∈ (s0.localCores r.fn (beMask r.payload 0 4)).filterMap id, c ∉ s1.flash.withheldCores)
    (hbusy : s1.busyFor r.fn = false) :
    exec .hcoreLoad s = .next ((((s0.localCores r.fn (beMask r.payload 0 4)).filterMap id).foldl
      (fun (s : State) c => s.onCore c (fun x =>
        { x with entry := some (BitVec.ofNat 64 (beAt r.payload 32 8)), digest := sha256v bs }))
      (s1.writePieces ps bs false)).holdLong r r.fn stOk []) := by
  have hnone : (s0.localCores r.fn (beMask r.payload 0 4)).any Option.isNone = false := by
    simp only [List.any_eq_false, Option.isNone_iff_eq_none]
    rintro c hc rfl
    exact hcores hc
  have hflags : (ps.map (fun q => (q.1, q.2.1 / 65536))).any (fun q => !(s1.pflagOf q).thimble true) = false := by
    simp only [List.any_map, List.any_eq_false, Function.comp_apply]
    intro q hq
    simp [(hpages q hq).1]
  have hretired : (ps.map (fun q => (q.1, q.2.1 / 65536))).any s1.pageRetired = false := by
    simp only [List.any_map, List.any_eq_false, Function.comp_apply]
    intro q hq
    simp [(hpages q hq).2]
  have hwithheld : ((s0.localCores r.fn (beMask r.payload 0 4)).filterMap id).any
      (fun c => s1.flash.withheldCores.contains c) = false := by
    simp only [List.any_eq_false, List.contains_iff_mem]
    exact hheld
  refine congrArg Host.Outcome.next ((command_takes _ h).trans ?_)
  dsimp only
  rw [judge_ok _ _ _ _ (takes_not_gone h) (by simpa using hpart)]
  simp only [hread, hps, Option.getD_some]
  rw [judge_ok _ _ _ _ (not_gone_of_stopped (stopped_of_not_busyFor hbusy))]
  simp only [List.forall_mem_cons, hpay, hnone, hflags, hretired, hwithheld, hbusy, Option.isNone_some, Bool.not_true,
    Bool.or_self, true_and]
  exact List.forall_mem_nil _

/-! Patterns. -/

theorem execPatternLoad_ok {s s0 s1 : State} {r : Req} {bs : List Byte} {q : Pattern} (h : Takes s 0x0603 r s0)
    (hop : r.notOperator = false) (hpart : s0.fuses.part ≠ 3) (hf : beAt r.payload 0 2 < 1024)
    (hidle : (s0.fn (beAt r.payload 0 2)).st = .stopped) (hslot : beAt r.payload 2 1 ≤ 63)
    (hpay : payOk r.payload [(0, 2), (2, 1), (8, 8), (16, 4), (24, 32)] = true)
    (hread : s0.readImage (beAt r.payload 0 2) (beAt r.payload 8 8) (beAt r.payload 16 4) ((r.payload.drop 24).take 32) =
      (s1, some bs))
    (hparse : Pattern.parse bs = some q) (hbusy : s1.busyFor (beAt r.payload 0 2) = false)
    (hfree : (s1.fn (beAt r.payload 0 2)).patterns.get none (beAt r.payload 2 1) = none)
    (hroom : (s1.fn (beAt r.payload 0 2)).patUsed + bs.length ≤ 262144) :
    exec .patternLoad s = .next ((s1.setPattern (beAt r.payload 0 2) (beAt r.payload 2 1)
      (some { image := bs, report := (q.report bs).1, monotone := (q.report bs).2 })).holdLong r (beAt r.payload 0 2) stOk
        (q.report bs).1) := by
  refine congrArg Host.Outcome.next ((command_takes _ h).trans ?_)
  dsimp only
  rw [judge_ok _ _ _ _ (takes_not_gone h) (by simp [hop, hpart, hidle, hpay, hf, hslot])]
  simp only [hread, hparse, Option.bind_some, Option.map_some]
  rw [judge_ok _ _ _ _ (not_gone_of_operator s1 hop) (by simp [hbusy, hfree, hroom])]

theorem execPatternUnload_ok {s s0 : State} {r : Req} (h : Takes s 0x0604 r s0) (hop : r.notOperator = false)
    (hpart : s0.fuses.part ≠ 3) (hf : beAt r.payload 0 2 < 1024)
    (hidle : (s0.fn (beAt r.payload 0 2)).st = .stopped ∧ s0.longOn (beAt r.payload 0 2) = false ∧ s0.tacked = false)
    (hslot : beAt r.payload 2 1 ≤ 63) (hpay : payOk r.payload [(0, 2), (2, 1)] = true) :
    exec .patternUnload s =
      .next ((s0.setPattern (beAt r.payload 0 2) (beAt r.payload 2 1) none).reply r stOk []) := by
  refine congrArg Host.Outcome.next ((command_takes _ h).trans ?_)
  exact judge_ok _ _ _ _ (takes_not_gone h) (by simp [hop, hpart, hidle.1, hpay, hf, hslot, busyFor_of_idle hidle])

theorem execPatternQuery_ok {s s0 : State} {r : Req} {c : PatSlot} (h : Takes s 0x0605 r s0) (hpart : s0.fuses.part ≠ 3)
    (hpay : payOk r.payload [(0, 1)] = true) (hslot : beAt r.payload 0 1 ≤ 63)
    (hpat : (s0.fn r.fn).patterns.get none (beAt r.payload 0 1) = some c) :
    exec .patternQuery s = .next (s0.reply r stOk c.report) := by
  refine congrArg Host.Outcome.next ((command_takes _ h).trans ?_)
  dsimp only
  rw [judge_ok _ _ _ _ (takes_not_gone h) (by simp [hpart, hpay, hslot, hpat]), hpat]; rfl

theorem execLongCommandComplete_held {s : State} {g : FnId} {l : Long} {rest : List Long} {st : Nat} {out : List Byte}
    (hruns : s.thmRuns = true) (htake : takeFirst (fun l => l.fn = g.val && l.result.isSome) s.thm.long = some (l, rest))
    (hres : l.result = some (st, out)) :
    exec (.longCommandComplete g) s = .next ({ s with thm := { s.thm with long := rest } }.reply l.req st out) := by
  show Host.Outcome.next (if _ then _ else _) = _
  rw [if_pos hruns, htake]
  simp only [hres, Option.getD_some]

/-- Settles O31. -/
theorem loadCommands : Obligations.LoadCommands := by
  intro s s0 s1 r bs im ps q g l rest p f vs cs idle op slot put
  refine ⟨execTileLoad_ok, execHcoreLoad_ok, fun h hop => ?_, fun h hop => ?_, fun c => execPatternQuery_ok,
    fun st out => execLongCommandComplete_held⟩
  · obtain ⟨hkey, hpart, hf, hidle, hslot⟩ := hop
    exact execPatternLoad_ok h hkey hpart hf hidle.1 hslot
  · obtain ⟨hkey, hpart, hf, hidle, hslot⟩ := hop
    exact execPatternUnload_ok h hkey hpart hf hidle hslot

end Sys2Proof.Machine
end

section
/-! A credit return that an earlier acknowledgement for the same endpoint precedes (O19: R123, R125, R126). -/

namespace Sys2Proof.Machine

/-- A packet for endpoint 0 of tile 0 from endpoint 0 of virtual tile 0 of the same function, entering at a tile. -/
def packetToEp0 (src : Nat) (b : ChBody) : ChPkt :=
  { src := src, dst := 0, ep := 0, fn := 5, srcPkg := 0xFFFF, srcVt := 0, srcEp := 0, body := b }

/-- Function 5 runs on tile 0, whose endpoint 0 sends to virtual tile 0 with slots granted; an acknowledgement of bulk data
from tile 1, for which no BULK_SEND waits, and then a credit return from tile 2 are on their way to it. -/
def ackBeforeCredit : State :=
  let e : Endpoint := { kind := .send, peerPkg := 0xFFFF, grant := .slots 64 }
  let x : Tile := { owner := some 5, eps := [(0, e)] }
  { State.reset with
    fns := [(5, { st := .running })]
    tiles := [(0, x)]
    noc := [packetToEp0 1 .bulkAck, packetToEp0 2 .credit] }

/-- The packets still on their way after a command. -/
def packetsLeft : Host.Outcome State Fault Refusal → List ChPkt
  | .next u => u.noc
  | _ => []

/-- CHAN_CREDIT_ARRIVE takes the acknowledgement, the older packet, and leaves the credit return on its way. -/
theorem chanCreditArrive_takes_ack :
    packetsLeft (exec (.chanCreditArrive 0 0) ackBeforeCredit) = [packetToEp0 2 .credit] := by
  decide

/-- Refutes O19: its clause on credit returns says that CHAN_CREDIT_ARRIVE takes the oldest credit return for an endpoint
without a bulk grant. The row also takes an acknowledgement that no BULK_SEND waits for, here the older of the two
packets, so the credit return stays on its way. -/
theorem not_channelPacketsAndNoticesArrive : ¬ Obligations.ChannelPacketsAndNoticesArrive := by
  rintro ⟨harrive, -⟩
  obtain ⟨-, -, -, -, -, -, hcredit⟩ :=
    harrive ackBeforeCredit 0 0 (packetToEp0 2 .credit) [packetToEp0 1 .bulkAck]
  have hnext := hcredit ⟨by decide, by decide, by decide, by decide, by decide, by decide, by decide⟩
    (fun z => show Grant.slots 64 ≠ .bulk z from Grant.noConfusion)
  have hleft := chanCreditArrive_takes_ack.symm.trans (congrArg packetsLeft hnext)
  exact absurd hleft (by decide)

end Sys2Proof.Machine
end

section
/-! The outer-product array (O21: R144, R147, R152, R160). -/

namespace Sys2Proof.Machine

/-- A row of a pass reads the anchors of its run and nothing else of it. -/
theorem State.opaRow_congr {r q : Run} (hcol : q.anchCol = r.anchCol) (hrow : q.anchRow = r.anchRow) (s : State) (t : Nat)
    (d : OpaD) (c w : FSpec) (ls : List AlLine) (i : Nat) : s.opaRow t d q c w ls i = s.opaRow t d r c w ls i := by
  simp only [State.opaRow, hcol, hrow]

/-- The drain token of row `i` in the pass's bank is FREE (R160). -/
def State.rowFree (s : State) (t : Nat) (d : OpaD) (i : Nat) : Bool := !((s.tile t).bank d.bank).held.getLsbD i

/-- The run after a turn that found the rows `l` waiting: it keeps those from the first HELD row on. -/
def State.turnRun (s : State) (t : Nat) (d : OpaD) (r : Run) (l : List Nat) (f : SMap (BitVec 3)) : Run :=
  { r with
    begun := true
    rowFlags := f
    rows := BitVec.ofNat 64 ((l.dropWhile (s.rowFree t d)).foldl (fun m i => m + 2 ^ i) 0)
    done := (l.dropWhile (s.rowFree t d)).isEmpty }

/-- The rows `go` of a pass, run one after another. -/
def State.opaRows (s : State) (t : Nat) (d : OpaD) (r : Run) (c w : FSpec) (ls : List AlLine) (go : List Nat) : State :=
  go.foldl (fun u i => u.opaRow t d r c w ls i) s

/-- A turn of a pass on the rows `l`: those before the first HELD one run, and where none is left the record is
committed. -/
def State.opaTurn (s : State) (t : Nat) (d : OpaD) (r : Run) (c w : FSpec) (ls : List AlLine) (l : List Nat)
    (f : SMap (BitVec 3)) : State :=
  let q := s.turnRun t d r l f
  let u := s.opaRows t d q c w ls (l.takeWhile (s.rowFree t d))
  (if l.dropWhile (s.rowFree t d) = [] then u.onTile t (fun x => x.commitPass d q c w) else u).onTile t
    (fun x => { x with opa := { x.opa with run := some q } })

/-- The flags of the row lines of a pass with the valid rows `rows`. -/
def rowLineFlags (rows : List Nat) (ls : List AlLine) : SMap (BitVec 3) :=
  if rows = [] then []
  else ls.zipIdx.foldl (fun (m : SMap (BitVec 3)) l => m.set 0 l.2 (lineFlags l.1.ev l.1.poison)) []

/-- The rows of a turn may each be given a run of their own with the same anchors. The obligation does so: it works the run out
from the state before each row, where the rows that have drained in this turn are HELD already. -/
theorem State.foldl_opaRow_run {g : State → Run} {r : Run} (hg : ∀ u, (g u).anchCol = r.anchCol ∧ (g u).anchRow = r.anchRow)
    (s : State) (t : Nat) (d : OpaD) (c w : FSpec) (ls : List AlLine) (go : List Nat) :
    go.foldl (fun u i => u.opaRow t d (g u) c w ls i) s = s.opaRows t d r c w ls go := by
  have hrow : (fun u i => State.opaRow u t d (g u) c w ls i) = fun u i => u.opaRow t d r c w ls i :=
    funext fun u => funext fun i => State.opaRow_congr (hg u).1 (hg u).2 u t d c w ls i
  rw [hrow, State.opaRows]

section
variable {s : State} {t : Nat} {r : Run} {c w : FSpec} (hc : FSpec.parse (OpaD.of r.desc.raw).col.fmt false = some c)
  (hw : FSpec.parse (OpaD.of r.desc.raw).row.fmt false = some w)
include hc hw

/-- A pass that starts takes a turn on its valid rows. -/
theorem State.opaRun_start (hbegun : r.begun = false) :
    let d := OpaD.of r.desc.raw
    let ls := (s.tile t).rowLines d w r.anchRow (passClass c w).window
    s.opaRun t r = (s.opaBegin t d c w ls).opaTurn t d r c w ls d.rows (rowLineFlags d.rows ls) := by
  simp only [State.opaRun, hc, hw, hbegun, Run.waiting, Bool.false_eq_true, if_false, List.isEmpty_iff]
  rfl

/-- A pass that has started takes a turn on the rows that wait. -/
theorem State.opaRun_resume (hbegun : r.begun = true) :
    let d := OpaD.of r.desc.raw
    let ls := (s.tile t).rowLines d w r.anchRow (passClass c w).window
    s.opaRun t r = s.opaTurn t d r c w ls (r.waiting d) r.rowFlags := by
  simp only [State.opaRun, hc, hw, hbegun, if_true, List.isEmpty_iff]
  rfl

end

section
variable {s : State} {t : TileId} {r : Run} (hlive : s.tileLive t = true) (hrun : (s.tile t).opa.run = some r)
  (hdone : r.done = false) (hop : r.desc.op = 1)
include hlive hrun hdone hop

theorem exec_opaPass (hbegun : r.begun = false) : exec (.opaPass t) s = .next (s.opaRun t r) := by
  refine congrArg Host.Outcome.next ((State.engStep_running (q := .opa) hlive hrun hdone (decide_eq_true hop)).trans ?_)
  simp only [hbegun, Bool.false_eq_true, if_false]

theorem exec_opaRowStart {row : Idx64} (hbegun : r.begun = true)
    (hhead : (r.waiting (OpaD.of r.desc.raw)).head? = some row.val) :
    exec (.opaRowStart t row) s = .next (s.opaRun t r) := by
  refine congrArg Host.Outcome.next ((State.engStep_running (q := .opa) hlive hrun hdone (decide_eq_true hop)).trans ?_)
  simp only [hbegun, hhead, decide_true, Bool.and_self, if_true]

end

/-- Settles O21: both rows take a turn of the pass, on its valid rows or on those that wait. -/
theorem outerProductPasses : Obligations.OuterProductPasses := by
  intro s t r row c w hlive hrun hdone hop d ls free goes waits after runs flags hc hw
  have hturn (u : State) (l : List Nat) (f : SMap (BitVec 3)) : u.opaTurn t d r c w ls l f = runs u l f := by
    have hrows := State.foldl_opaRow_run (g := fun v => after v l f) (r := after u l f) (fun _ => ⟨rfl, rfl⟩) u t d c w ls
      (goes u l)
    simp only [runs, hrows]
    rfl
  refine ⟨fun hbegun => ?start, fun hbegun hhead => ?resume⟩
  case start => rw [exec_opaPass hlive hrun hdone hop hbegun, State.opaRun_start hc hw hbegun, ← hturn]; rfl
  case resume => rw [exec_opaRowStart hlive hrun hdone hop hbegun hhead, State.opaRun_resume hc hw hbegun, ← hturn]

end Sys2Proof.Machine
end

section
/-! The vector engine and the special functions (O20: R171, R178, R184, R186, R215, R219, R224). -/

namespace Sys2Proof.Machine

section
variable {s : State} {t : TileId} {r : Run} {op : Nat} (hlive : s.tileLive t = true) (hrun : (s.tile t).ve.run = some r)
  (hdone : r.done = false)
include hlive hrun hdone

/-- The vector engine runs a descriptor of its own, whose code is that of the row (R178, R184). -/
theorem State.engStep_isVe {f : State → Run → State} (hengine : r.desc.engine = 1) (hop : r.desc.op = op) :
    s.engStep t .ve (isVe op) f = f s r :=
  State.engStep_running (q := .ve) hlive hrun hdone (by simp [isVe, hengine, hop])

/-- An operation on elements goes over the vectors of the walk, in their order, and finishes (R171). -/
theorem State.engStep_veVectors (g : VeAcc → VeD → Vec → VeAcc) (hengine : r.desc.engine = 1) (hop : r.desc.op = op) :
    let v := VeD.of r.desc.raw
    s.engStep t .ve (isVe op) (fun s r => s.veVectors t r g) =
      (s.veFinish t v v.walk.length (v.walk.foldl (fun a w => g a v w) (s.veStart t r.desc))).engDone t .ve :=
  State.engStep_isVe hlive hrun hdone hengine hop

/-- An operation on rows goes over the rows of the walk and finishes (Table 6.2). -/
theorem State.engStep_veRows (g : VeAcc → VeD → Nat → List Vec → VeAcc) (hengine : r.desc.engine = 1)
    (hop : r.desc.op = op) :
    let v := VeD.of r.desc.raw
    s.engStep t .ve (isVe op) (fun s r => s.veRows t r g) =
      (s.veFinish t v v.walk.length
        ((v.rows v.red).foldl (fun a p => g a v p.1 p.2) (s.veStart t r.desc))).engDone t .ve :=
  State.engStep_isVe hlive hrun hdone hengine hop

/-- A special function's descriptor runs the built-in function of its code (R215). -/
theorem State.sfuFn_running (hengine : r.desc.engine = 2) (hop : r.desc.op = op) :
    s.sfuFn t op = s.sfuRun t r (sfuBuiltin op) false :=
  State.engStep_running (q := .ve) hlive hrun hdone (by simp [isSfu, hengine, hop])

/-- A code from 0x40 on runs the pattern of its slot (R215, R219), unchecked where it has no MONO_PASS (R224). -/
theorem exec_sfuPattern {p : PatSlot} {q : Pattern} (hengine : r.desc.engine = 2) (hlow : 0x40 ≤ r.desc.op)
    (hhigh : r.desc.op ≤ 0x7F) (hslot : (s.tile t).patterns.get none (r.desc.op - 0x40) = some p)
    (hparse : Pattern.parse p.image = some q) :
    exec (.sfuPattern t) s = .next (s.sfuRun t r q.eval (!p.monotone)) := by
  refine congrArg Host.Outcome.next
    ((State.engStep_running (q := .ve) hlive hrun hdone (by simp [hengine, hlow, hhigh])).trans ?_)
  simp only [hslot, hparse]

end

/-- Settles O20: each row runs its one operation over the vectors or the rows of the walk, or its one function. -/
theorem vectorAndSpecialFunctions : Obligations.VectorAndSpecialFunctions := by
  refine ⟨?operations, ?accRead, ?functions⟩
  case operations =>
    intro s t r hlive hrun hdone hengine v V R
    have vectors {op : Nat} (g : VeAcc → VeD → Vec → VeAcc) (hop : r.desc.op = op) :=
      congrArg (Host.Outcome.next (φ := Fault) (ρ := Refusal)) (State.engStep_veVectors hlive hrun hdone g hengine hop)
    have rows {op : Nat} (g : VeAcc → VeD → Nat → List Vec → VeAcc) (hop : r.desc.op = op) :=
      congrArg (Host.Outcome.next (φ := Fault) (ρ := Refusal)) (State.engStep_veRows hlive hrun hdone g hengine hop)
    exact ⟨vectors fun a v => a.map1 v id, vectors fun a v => a.map2 v Num.add, vectors fun a v => a.map2 v Num.sub,
      vectors fun a v => a.map2 v Num.mul, vectors VeAcc.mulAdd, vectors fun a v => a.map2 v Num.max,
      vectors fun a v => a.map2 v Num.min, vectors fun a v => a.useParam.map1 v fun x => x.mul v.paramNum,
      rows VeAcc.rsum, rows fun a v => a.rext v Num.max, rows fun a v => a.rext v Num.min, rows VeAcc.norm,
      rows VeAcc.norm, vectors VeAcc.rope, vectors VeAcc.gather, vectors VeAcc.permute, rows VeAcc.topk, rows VeAcc.topk,
      rows VeAcc.sample, vectors VeAcc.seamAdd, vectors VeAcc.seamCvt⟩
  case accRead =>
    intro s t r hlive hrun hdone hengine hop v valid s1
    exact congrArg Host.Outcome.next (State.engStep_isVe hlive hrun hdone hengine hop)
  case functions =>
    intro s t r p q hlive hrun hdone hengine F
    have function {op : Nat} (hop : r.desc.op = op) :=
      congrArg (Host.Outcome.next (φ := Fault) (ρ := Refusal)) (State.sfuFn_running hlive hrun hdone hengine hop)
    exact ⟨function, function, function, function, function, function, function, function, function, function, function,
      function, exec_sfuPattern hlive hrun hdone hengine⟩

end Sys2Proof.Machine
end

section
/-! The attention gusset (O22: R232, R236, R243, R244, R246, R248). -/

namespace Sys2Proof.Machine

/-- A Gusset operation ends: no row of the banks is valid, and the descriptor may signal (R232, R111). -/
def State.gusEnd (s : State) (t : Nat) : State :=
  (s.onTile t (fun x => { x with bank0 := { x.bank0 with rowValid := 0 }, bank1 := { x.bank1 with rowValid := 0 } })).engDone
    t .gus

/-- A sweep of ATTEND at one slot: the slot is read once for its rows, and passed over where no row is bound to it (R248).
The second component is the most blocks of a slot so far. -/
def State.attendSlot (f t : Nat) (d : GusD) (anch : SMap Int) (p : State × Nat) (i : Nat) : State × Nat :=
  let rows := d.rows.filter (fun r => d.slotOf r = i)
  let b := p.1.readSlot f t d i
  if rows.isEmpty then p
  else ((rows.foldl (fun s r => s.attendRow t d anch b.2.1 b.2.2 r) b.1).countT .gus t 5 0 b.2.1.length,
    max p.2 b.2.1.length)

/-- The sweep of ATTEND over its slots (R236, R243). -/
def State.attendSweep (s : State) (t : Nat) (d : GusD) (anch : SMap Int) : State :=
  let c := (List.range d.nslot).foldl (State.attendSlot (s.ownerOr0 t) t d anch) (s, 0)
  c.1.gusSteps t d c.2

theorem execGusAttend_sweeps (t : TileId) (s : State) :
    execGusAttend t s = .next (s.gusStep t 1 (fun s d anch => s.attendSweep t d anch)) := rfl

/-- The sweep of RECOMPUTE at one slot: as in ATTEND, but nothing is recomputed for a slot with VALID = 0 (R246, R248). -/
def State.recomputeSlot (f t : Nat) (d : GusD) (anch : SMap Int) (p : State × Nat) (i : Nat) : State × Nat :=
  let rows := d.rows.filter (fun r => d.slotOf r = i)
  let sl := (p.1.tile t).slot8 d i
  let b := p.1.readSlot f t d i
  if rows.isEmpty then p
  else if !sl.valid then (b.1, p.2)
  else ((rows.foldl (fun s r => s.recomputeRow t d anch sl b.2.1 b.2.2 r) b.1).countT .gus t 5 0 b.2.1.length,
    max p.2 b.2.1.length)

/-- The sweep of RECOMPUTE over its slots (R246). -/
def State.recomputeSweep (s : State) (t : Nat) (d : GusD) (anch : SMap Int) : State :=
  let c := (List.range d.nslot).foldl (State.recomputeSlot (s.ownerOr0 t) t d anch) (s, 0)
  c.1.gusSteps t d c.2

theorem execGusRecompute_sweeps (t : TileId) (s : State) :
    execGusRecompute t s = .next (s.gusStep t 4 (fun s d anch => s.recomputeSweep t d anch)) := rfl

section
variable {s : State} {t : TileId} {r : Run} (hlive : s.tileLive t = true) (hrun : (s.tile t).gus.run = some r)
  (hdone : r.done = false)
include hlive hrun hdone

/-- The Gusset takes its units once the array is free and the vector engine runs nothing (R232). -/
theorem exec_gusAcquire (hunits : r.acquired = false) (harray : (s.tile t).arrayFree = true)
    (hve : (s.tile t).ve.run = none) :
    exec (.gusAcquire t) s = .next (s.setTile t { s.tile t with
      gus := { (s.tile t).gus with run := some { r with acquired := true } } }) := by
  refine congrArg Host.Outcome.next ?_
  simp only [hlive, hrun, hunits, hdone, harray, hve, Bool.not_false, Bool.and_self, Option.isNone_none, if_true]

/-- With its units, the Gusset runs its operation with the anchors resolved at the start (R254), and ends. -/
theorem State.gusStep_acquired {op : Nat} (f : State → GusD → SMap Int → State) (hunits : r.acquired = true)
    (hop : r.desc.op = op) : s.gusStep t op f = (f s (GusD.of r.desc.raw) r.anchCol).gusEnd t :=
  (State.engStep_running (q := .gus) hlive hrun hdone (decide_eq_true hop)).trans (if_pos hunits)

theorem exec_gusAttend (hunits : r.acquired = true) (hop : r.desc.op = 1) :
    exec (.gusAttend t) s = .next ((s.attendSweep t (GusD.of r.desc.raw) r.anchCol).gusEnd t) :=
  (execGusAttend_sweeps t s).trans (congrArg Host.Outcome.next
    (State.gusStep_acquired hlive hrun hdone (fun s d anch => s.attendSweep t d anch) hunits hop))

theorem exec_gusRebase (hunits : r.acquired = true) (hop : r.desc.op = 2) :
    let d := GusD.of r.desc.raw
    exec (.gusRebase t) s = .next ((d.rows.foldl (fun s r => s.rebaseRow t d r) s).gusEnd t) :=
  congrArg Host.Outcome.next (State.gusStep_acquired hlive hrun hdone _ hunits hop)

theorem exec_gusFinalise (hunits : r.acquired = true) (hop : r.desc.op = 3) :
    let d := GusD.of r.desc.raw
    exec (.gusFinalise t) s = .next ((d.rows.foldl (fun s r => s.finaliseRow t d r) s).gusEnd t) :=
  congrArg Host.Outcome.next (State.gusStep_acquired hlive hrun hdone _ hunits hop)

theorem exec_gusRecompute (hunits : r.acquired = true) (hop : r.desc.op = 4) :
    exec (.gusRecompute t) s = .next ((s.recomputeSweep t (GusD.of r.desc.raw) r.anchCol).gusEnd t) :=
  (execGusRecompute_sweeps t s).trans (congrArg Host.Outcome.next
    (State.gusStep_acquired hlive hrun hdone (fun s d anch => s.recomputeSweep t d anch) hunits hop))

end

/-- Settles O22: the descriptor takes its units, and each operation runs over its rows or its slots and ends. -/
theorem gussetOperations : Obligations.GussetOperations := by
  intro s t r hlive hrun hdone x d Done q
  exact ⟨exec_gusAcquire hlive hrun hdone, exec_gusRebase hlive hrun hdone, exec_gusFinalise hlive hrun hdone,
    exec_gusAttend hlive hrun hdone, exec_gusRecompute hlive hrun hdone⟩

end Sys2Proof.Machine
end

section
/-! Rings, fence counters, pages, slab tags and stop records by command (O29: R296, R300, R315, R316, R321, Table 12.3). -/

namespace Sys2Proof.Machine

/-- A slab's retirement table with every entry of a page RETIRED (R300). -/
def releasePage (page : Nat) (m : SMap Retire) : SMap Retire :=
  (List.range 32).foldl (fun (m : SMap Retire) i =>
    if (m.get {} i).valid && (m.get {} i).page = page then m.set {} i { m.get {} i with retired := true } else m) m

theorem execPageRelease_ok {s s0 : State} {r : Req} {t : Nat} (h : Takes s 0x0308 r s0)
    (hpay : payOk r.payload [(0, 1), (4, 4)] = true) (htile : s0.vtile r.fn (beAt r.payload 0 1) = some t)
    (hserves : (s0.tile t).retired = false) (hvalid : (s0.slab t).ext.valid = true) (howner : (s0.slab t).ext.fn = r.fn)
    (hfirst : (s0.slab t).ext.basePage ≤ beAt r.payload 4 4)
    (hlast : beAt r.payload 4 4 < (s0.slab t).ext.basePage + (s0.slab t).ext.pages)
    (hretiring : ∃ e, (s0.slab t).retireOf (beAt r.payload 4 4) = some e ∧ e.retired = false)
    (hlong : s0.longOn r.fn = false) (htack : s0.tacked = false) :
    exec .pageRelease s = .next ((s0.onSlab t (fun b =>
      { b with retire := releasePage (beAt r.payload 4 4) b.retire })).reply r stOk []) := by
  obtain ⟨e, hpage, he⟩ := hretiring
  refine congrArg Host.Outcome.next ((command_takes _ h).trans ?_)
  simp only [htile]
  rw [judge_ok _ _ _ _ (takes_not_gone h)]
  · rfl
  · simp [hpay, State.tileRetired, hserves, hvalid, howner, hfirst, hlast, hpage, he, hlong, htack]

theorem execSlabTag_ok {s s0 : State} {r : Req} {ps : List (Nat × Nat × Nat)} (h : Takes s 0x0309 r s0)
    (hpay : payOk r.payload [(0, 8), (8, 4), (12, 1)] = true) (halign : beAt r.payload 0 8 % 64 = 0)
    (hmin : 1 ≤ beAt r.payload 8 4) (hmax : beAt r.payload 8 4 ≤ 2 ^ 20) (htag : beAt r.payload 12 1 < 128)
    (hps : s0.pieces r.fn none (beAt r.payload 8 4 * 64 / 65536 + 2) (beAt r.payload 0 8) (beAt r.payload 8 4 * 64) = some ps)
    (hserve : ∀ q ∈ ps, (s0.tile q.1).retired = false ∧ (s0.slab q.1).isRetired (q.2.1 / 65536) = false)
    (htack : s0.tacked = false) :
    exec .slabTag s = .next ((ps.foldl (fun s q => (List.range (q.2.2 / 64)).foldl (fun s i =>
      s.tagCw q.1 (q.2.1 / 64 + i) (beAt r.payload 12 1)) s) s0).reply r stOk []) := by
  have hfaulted : ps.any (fun q => (s0.tile q.1).retired || (s0.slab q.1).isRetired (q.2.1 / 65536)) = false := by
    simpa only [List.any_eq_false, Bool.or_eq_true, not_or, Bool.not_eq_true] using hserve
  refine congrArg Host.Outcome.next ((command_takes _ h).trans ?_)
  simp only [hps, Option.getD_some]
  refine judge_ok _ _ _ _ (takes_not_gone h) ?_
  simp only [List.forall_mem_cons, hpay, hfaulted, htack, Option.isNone_some, Bool.not_true, Bool.false_or, Bool.or_false,
    Bool.or_eq_false_iff, decide_eq_false_iff_not, true_and]
  exact ⟨by omega, List.forall_mem_nil _⟩

theorem execRingConfig_ok {s s0 : State} {r : Req} {k : Nat} (h : Takes s 0x0401 r s0)
    (hpay : payOk r.payload [(0, 2), (8, 8), (16, 8), (24, 1)] = true) (hring : s0.localRing r.fn (beAt r.payload 0 2) = some k)
    (hbase : beAt r.payload 8 8 % 64 = 0) (hbase62 : beAt r.payload 8 8 < 2 ^ 62) (hdone : beAt r.payload 16 8 % 8 = 0)
    (hdone62 : beAt r.payload 16 8 < 2 ^ 62) (hmin : 6 ≤ beAt r.payload 24 1) (hmax : beAt r.payload 24 1 ≤ 16)
    (hidle : (s0.fn r.fn).st = .stopped ∧ s0.longOn r.fn = false ∧ s0.tacked = false) :
    exec .ringConfig s = .next ((s0.onRing k (fun g =>
      { g with base := BitVec.ofNat 64 (beAt r.payload 8 8), doneAddr := BitVec.ofNat 64 (beAt r.payload 16 8),
               sizeLog2 := beAt r.payload 24 1 })).reply r stOk []) := by
  refine congrArg Host.Outcome.next ((command_takes _ h).trans ?_)
  simp only [hring, Option.getD_some]
  refine judge_ok _ _ _ _ (takes_not_gone h) ?_
  simp only [List.forall_mem_cons, hpay, busyFor_of_idle hidle, Option.isNone_some, Bool.not_true, Bool.false_or,
    Bool.or_eq_false_iff, decide_eq_false_iff_not, true_and]
  exact ⟨by omega, List.forall_mem_nil _⟩

theorem execRingRead_ok {s s0 : State} {r : Req} (h : Takes s 0x0402 r s0) (hpay : payOk r.payload [(0, 2), (2, 1)] = true)
    (hmin : 1 ≤ beAt r.payload 2 1) (hmax : beAt r.payload 2 1 ≤ 28)
    (hrings : beAt r.payload 0 2 + beAt r.payload 2 1 ≤ (s0.ringsOf r.fn).length) :
    exec .ringRead s = .next (s0.reply r stOk ((((s0.ringsOf r.fn).drop (beAt r.payload 0 2)).take (beAt r.payload 2 1)).flatMap
      (fun k => beBytes 4 (s0.ringCount k).1.toNat ++ beBytes 4 (s0.ringCount k).2.toNat))) := by
  refine congrArg Host.Outcome.next ((command_takes _ h).trans ?_)
  refine judge_ok _ _ _ _ (takes_not_gone h) ?_
  simp [hpay, hmax, hrings, Nat.ne_of_gt hmin]

theorem execFenceRead_ok {s s0 : State} {r : Req} (h : Takes s 0x0403 r s0) (hpay : payOk r.payload [(0, 2), (2, 1)] = true)
    (hmin : 1 ≤ beAt r.payload 2 1) (hmax : beAt r.payload 2 1 ≤ 28)
    (hfences : beAt r.payload 0 2 + beAt r.payload 2 1 ≤ (s0.fn r.fn).fences) :
    exec .fenceRead s = .next (s0.reply r stOk ((List.range (beAt r.payload 2 1)).flatMap
      (fun i => beBytes 8 (s0.fence ((s0.fn r.fn).fenceBase + beAt r.payload 0 2 + i)).toNat))) := by
  refine congrArg Host.Outcome.next ((command_takes _ h).trans ?_)
  refine judge_ok _ _ _ _ (takes_not_gone h) ?_
  simp [hpay, hmax, hfences, Nat.ne_of_gt hmin]

theorem execFenceWrite_ok {s s0 : State} {r : Req} (h : Takes s 0x0404 r s0)
    (hpay : payOk r.payload [(0, 2), (2, 1), (8, 8)] = true) (hset : beAt r.payload 2 1 ≤ 1)
    (hfence : beAt r.payload 0 2 < (s0.fn r.fn).fences) (htack : s0.tacked = false) :
    exec .fenceWrite s = .next ((s0.signalFence r.fn (beAt r.payload 0 2) (beAt r.payload 2 1 = 1)
      (BitVec.ofNat 64 (beAt r.payload 8 8))).reply r stOk []) := by
  refine congrArg Host.Outcome.next ((command_takes _ h).trans ?_)
  refine judge_ok _ _ _ _ (takes_not_gone h) ?_
  simp [hpay, hset, hfence, htack]

theorem execStopRecord_ok {s s0 : State} {r : Req} (h : Takes s 0x0B02 r s0) (hpay : payOk r.payload [(0, 1), (1, 1)] = true)
    (hmin : 1 ≤ beAt r.payload 1 1) (hmax : beAt r.payload 1 1 ≤ 37)
    (htiles : beAt r.payload 0 1 + beAt r.payload 1 1 ≤ s0.vtiles r.fn)
    (hserve : ∀ i < beAt r.payload 1 1, s0.tileRetired (s0.vtile r.fn (beAt r.payload 0 1 + i)) = false) :
    exec .stopRecord s = .next (s0.reply r stOk ((List.range (beAt r.payload 1 1)).flatMap (fun i =>
      let c := ((s0.vtile r.fn (beAt r.payload 0 1 + i)).map (fun t => (s0.fn r.fn).stop.tiles.get {} t)).getD {}
      beBytes 2 (min c.discarded 65535) ++ beBytes 2 (min c.cut 65535) ++ beBytes 2 (min c.drained 65535)))) := by
  refine congrArg Host.Outcome.next ((command_takes _ h).trans ?_)
  refine judge_ok _ _ _ _ (takes_not_gone h) ?_
  simpa [hpay, hmax, htiles, Nat.ne_of_gt hmin] using hserve

/-- Settles O29: none of the command's conditions holds, so it takes effect and answers OK. -/
theorem resourceCommands : Obligations.ResourceCommands := by
  intro s s0 r t k p f x a n S idle pg b release
  refine ⟨fun h => execPageRelease_ok h.1 h.2, fun ps h => execSlabTag_ok h.1 h.2, fun h => execRingConfig_ok h.1 h.2,
    fun h => execRingRead_ok h.1 h.2, fun h => execFenceRead_ok h.1 h.2, fun h hset hfence htack => ?fenceWrite,
    fun h => execStopRecord_ok h.1 h.2⟩
  case fenceWrite =>
    rw [execFenceWrite_ok h.1 h.2 hset hfence htack, State.signalFence]
    simp only [decide_eq_true_eq]; rfl

end Sys2Proof.Machine
end

section
/-! The mesh's links, the patrol scrub and the retirement of a tile (O52: R298, R302, R480, R488, R489). -/

namespace Sys2Proof.Machine

/-! The rows of the mesh, the scrub and the retirement, as the dispatcher runs them. -/

theorem exec_meshCrcRetry (t : TileId) (d : Dir) (s : State) : exec (.meshCrcRetry t d) s = execMeshCrcRetry t d s := rfl

theorem exec_meshHalfDown (t : TileId) (d : Dir) (s : State) : exec (.meshHalfDown t d) s = execMeshHalfDown t d s := rfl

theorem exec_meshLinkDown (t : TileId) (d : Dir) (s : State) : exec (.meshLinkDown t d) s = execMeshLinkDown t d s := rfl

theorem exec_patrolScrubRead (t : TileId) (s : State) : exec (.patrolScrubRead t) s = execPatrolScrubRead t s := rfl

theorem exec_tileRetire (t : TileId) (s : State) : exec (.tileRetire t) s = execTileRetire t s := rfl

/-- A live package has its supplies and no latched cause. -/
theorem powered_of_live {s : State} (h : s.live = true) : s.boot.pgood = true ∧ s.fatal.cause = 0 := by
  simp only [State.live, Bool.and_eq_true, decide_eq_true_eq] at h
  obtain ⟨⟨hcause, -⟩, hpgood⟩ := h
  exact ⟨hpgood, hcause⟩

/-! What reporting an error keeps. -/

/-- What every part of raising an error keeps, raising it keeps. -/
theorem State.raise_keeps {α : Type} (g : State → α) (b : Blk) (i m : Nat) (sc : Scope) (j : Bool)
    (herr : ∀ s x, g (s.setErr b i x) = g s) (htally : ∀ s, g (s.retireTally b i m) = g s)
    (hevent : ∀ s k f p, g (s.event b i k f p j) = g s) (htack : ∀ s o k, g (s.triggerTack o k) = g s)
    (hcharge : ∀ s f c, g (s.charge f c) = g s) (s : State) : g (s.raise b i m sc j) = g s := by
  have tack : ∀ (c : Bool) (v : State) (o k : Nat), g (if c then v.triggerTack o k else v) = g v := by
    intro c v o k; cases c
    · rfl
    · exact htack v o k
  have charge : ∀ (c : Bool) (v : State) (f : Nat) (x : Charge), g (if c then v.charge f x else v) = g v := by
    intro c v f x; cases c
    · rfl
    · exact hcharge v f x
  unfold State.raise
  split
  · rfl
  · dsimp only
    split
    · rw [charge, tack, hevent, htally, herr]
    · rw [tack, hevent, htally, herr]

/-- The halves of the mesh's links, the packets in flight within the package, and flash. -/
def State.links (s : State) : Mesh × List ChPkt × Flash := (s.mesh, s.noc, s.flash)

@[simp] theorem State.event_links (s : State) (b : Blk) (i k : Nat) (f : Option Nat) (p : Nat) (j : Bool) :
    (s.event b i k f p j).links = s.links :=
  (congrArg State.links (s.event_apart b i k f p j) :)

@[simp] theorem State.triggerTack_links (s : State) (o b : Nat) : (s.triggerTack o b).links = s.links := by
  unfold State.triggerTack
  split
  · rfl
  · rw [State.event_links]; rfl

@[simp] theorem State.charge_links (s : State) (f : Nat) (c : Charge) : (s.charge f c).links = s.links := by
  unfold State.charge
  split <;> rfl

@[simp] theorem State.retireTally_links (s : State) (b : Blk) (i m : Nat) : (s.retireTally b i m).links = s.links := by
  unfold State.retireTally
  split
  · rfl
  · split <;> rfl

@[simp] theorem State.raise_links (s : State) (b : Blk) (i m : Nat) (sc : Scope) (j : Bool) :
    (s.raise b i m sc j).links = s.links :=
  State.raise_keeps State.links b i m sc j (fun _ _ => rfl) (fun s => s.retireTally_links b i m)
    (fun s k f p => s.event_links b i k f p j) State.triggerTack_links State.charge_links s

/-- A report only adds to ERR_STAT (R474). -/
theorem ErrRegs.report_keeps_stat {r : ErrRegs} (b : Blk) (m : Nat) (sc : Scope) (j : Bool) {k : Nat}
    (h : r.stat.getLsbD k = true) : (r.report b m sc j).stat.getLsbD k = true := by
  show (r.stat ||| BitVec.ofNat 32 m ||| _).getLsbD k = true
  rw [BitVec.getLsbD_or, BitVec.getLsbD_or, h]; rfl

/-- Errors may have been reported and charged from one state to another: the links are as they were and no bit of any
ERR_STAT has been cleared. -/
def ReportsOnly (s u : State) : Prop :=
  u.links = s.links ∧ ∀ b i k, (s.err b i).stat.getLsbD k = true → (u.err b i).stat.getLsbD k = true

theorem ReportsOnly.refl (s : State) : ReportsOnly s s := ⟨rfl, fun _ _ _ h => h⟩

theorem ReportsOnly.trans {s u v : State} (hu : ReportsOnly s u) (hv : ReportsOnly u v) : ReportsOnly s v :=
  ⟨hv.1.trans hu.1, fun b i k h => hv.2 b i k (hu.2 b i k h)⟩

theorem ReportsOnly.foldl {α : Type} {f : State → α → State} (h : ∀ s a, ReportsOnly s (f s a)) (l : List α) (s : State) :
    ReportsOnly s (l.foldl f s) := by
  induction l generalizing s with
  | nil => exact .refl s
  | cons a l ih => exact (h s a).trans (ih (f s a))

theorem State.charge_reportsOnly (s : State) (f : Nat) (c : Charge) : ReportsOnly s (s.charge f c) := by
  refine ⟨s.charge_links f c, fun b i k h => ?_⟩
  rwa [State.err, State.charge_errs]

theorem State.raise_reportsOnly (s : State) (b : Blk) (i m : Nat) (sc : Scope) (j : Bool) :
    ReportsOnly s (s.raise b i m sc j) := by
  refine ⟨s.raise_links b i m sc j, fun c l k h => ?_⟩
  by_cases hm : m = 0
  · rwa [State.raise, if_pos hm]
  · rw [State.err, State.raise_errs s b i m sc j hm]
    show ((s.setErr b i _).err c l).stat.getLsbD k = true
    rw [State.setErr_err]
    split
    · rename_i hkey
      refine ErrRegs.report_keeps_stat b m sc j ?_
      rwa [State.err, hkey]
    · exact h

/-! The links of the mesh. -/

theorem exec_meshCrcRetry_live {s : State} {t : TileId} {d : Dir} {n : Nat} (hlive : s.live = true)
    (hn : neighbour t d = some n) (hhalves : s.lostHalves t d < 2) :
    exec (.meshCrcRetry t d) s = .next ((s.raise .mesh t 1 {}).count .mesh t 2 0 0 1) := by
  simp [exec_meshCrcRetry, execMeshCrcRetry, hlive, hn, hhalves]

theorem exec_meshHalfDown_live {s : State} {t : TileId} {d : Dir} {n : Nat} (hlive : s.live = true)
    (hn : neighbour t d = some n) (hhalves : s.lostHalves t d = 0) :
    exec (.meshHalfDown t d) s = .next ((s.setHalves t d 1).raise .mesh t 2 {}) := by
  simp [exec_meshHalfDown, execMeshHalfDown, hlive, hn, hhalves]

/-- A link out of service: both halves lost, the link recorded as DOWN, and its packets gone (R480). -/
def State.dropLink (s : State) (t : TileId) (d : Dir) : State :=
  { s with mesh := (s.setHalves t d 2).mesh, flash := { s.flash with downLinks := s.flash.downLinks ++ [(t.val, d)] },
           noc := s.noc.filter (fun p => !s.crosses p (t.val, dirCode d)) }

/-- The loss of a link's second half takes it out of service, raises LINK_DOWN at both its ends, and else only charges
functions and reports lost channel packets. -/
theorem exec_meshLinkDown_reports {s : State} {t : TileId} {d : Dir} {n : Nat} (hlive : s.live = true)
    (hn : neighbour t d = some n) (hhalves : s.lostHalves t d = 1) :
    ∃ u sc, exec (.meshLinkDown t d) s = .next u ∧
      ReportsOnly (((s.dropLink t d).raise .mesh t 4 sc).raise .mesh n 4 sc) u := by
  have hdown : (s.live && decide (s.lostHalves t d = 1)) = true := by simp [hlive, hhalves]
  rw [exec_meshLinkDown, execMeshLinkDown]
  simp only [hn, if_pos hdown]
  refine ⟨_, _, rfl, .trans (.foldl (fun u f => u.charge_reportsOnly f _) _ _) (.foldl (fun u p => ?_) _ _)⟩
  split
  · exact u.raise_reportsOnly _ _ _ _ _
  · exact .refl u

theorem exec_meshLinkDown_live {s : State} {t : TileId} {d : Dir} {n : Nat} (hlive : s.live = true)
    (hn : neighbour t d = some n) (hhalves : s.lostHalves t d = 1) :
    ∃ u, exec (.meshLinkDown t d) s = .next u ∧ u.lostHalves t d = 2 ∧
      u.noc = s.noc.filter (fun p => !s.crosses p (t.val, dirCode d)) ∧
      (u.err .mesh t).stat.getLsbD 2 = true ∧ (u.err .mesh n).stat.getLsbD 2 = true ∧
      u.flash.downLinks = s.flash.downLinks ++ [(t.val, d)] := by
  obtain ⟨u, sc, hu, hlinks, hstat⟩ := exec_meshLinkDown_reports hlive hn hhalves
  rw [State.raise_links, State.raise_links] at hlinks
  obtain ⟨hmesh, hnoc, hflash⟩ : u.mesh = (s.dropLink t d).mesh ∧ u.noc = (s.dropLink t d).noc ∧
      u.flash = (s.dropLink t d).flash := by simpa [State.links] using hlinks
  refine ⟨u, hu, ?halves, hnoc, ?receiver, ?sender, congrArg Flash.downLinks hflash⟩
  case halves =>
    rw [State.lostHalves, hmesh]
    exact SMap.get_set_self 0 s.mesh.halves _ 2
  case receiver =>
    exact hstat _ _ _ ((State.raise_reportsOnly _ _ _ _ _ _).2 _ _ _ (State.raise_stat _ _ _ _ _ _ (by decide) rfl))
  case sender => exact hstat _ _ _ (State.raise_stat _ _ _ _ _ _ (by decide) rfl)

/-! The patrol scrub. -/

/-- The state after the patrol scrub's read, which stays within the slab. -/
def State.scrubbed (s : State) (t cw : Nat) : State := if cw < s.slabPages * 1024 then (s.readCw t cw true).1 else s

/-- The patrol scrub reads a slab where it is enabled and the tile serves (R298). -/
theorem scrub_reads {s : State} {t : TileId} (hlive : s.live = true) (hon : (s.slab t).scrubEnable = true)
    (hserves : (s.tile t).retired = false) : (s.boot.pgood && decide (s.fatal.cause = 0) && (s.slab t).scrubEnable &&
      !(s.tile t).retired) = true := by
  obtain ⟨hpgood, hcause⟩ := powered_of_live hlive
  simp only [hpgood, hcause, hon, hserves, decide_true, Bool.not_false, Bool.and_self]

section
variable {s : State} {t : TileId} {cw : Nat} (hlive : s.live = true) (hon : (s.slab t).scrubEnable = true)
  (hserves : (s.tile t).retired = false) (hcw : (s.slab t).scrubFrom 33 (s.slab t).scrubPos = cw)
include hlive hon hserves hcw

theorem exec_patrolScrubRead_advances (hnext : cw + 1 < s.slabPages * 1024) : exec (.patrolScrubRead t) s =
    .next ((s.scrubbed t cw).onSlab t (fun b => { b with scrubPos := cw + 1 })) := by
  have hreads := scrub_reads hlive hon hserves
  rw [exec_patrolScrubRead, execPatrolScrubRead]
  simp only [if_pos hreads, hcw, ge_iff_le, if_neg (Nat.not_le.mpr hnext)]
  rfl

theorem exec_patrolScrubRead_wraps (hnext : s.slabPages * 1024 ≤ cw + 1) : exec (.patrolScrubRead t) s =
    .next ((((s.scrubbed t cw).onSlab t (fun b => { b with scrubPos := 0 })).orStat .slb t 8).count .slb t 3 0
      (((s.scrubbed t cw).tile t).owner.getD 0) 1) := by
  have hreads := scrub_reads hlive hon hserves
  rw [exec_patrolScrubRead, execPatrolScrubRead]
  simp only [if_pos hreads, hcw, ge_iff_le, if_pos hnext]
  rfl

end

/-! The retirement of a tile. -/

@[simp] theorem State.notify_tile (s : State) (f k : Nat) (p : List Byte) (u : Nat) :
    (s.notify f k p).tile u = s.tile u := by
  unfold State.notify
  dsimp only
  split
  · rfl
  · rw [State.sendUdp, State.count_tile]; rfl

/-- A retired tile is RETIRED and gated, and belongs to no function (R489). -/
theorem State.retireTile_tile (s : State) (t : Nat) : (s.retireTile t).tile t = { retired := true, gated := true } := by
  have retired : ∀ l, State.tile { s.setTile t { retired := true, gated := true } with flash := l } t =
      { retired := true, gated := true } := fun _ => s.setTile_tile_self t { retired := true, gated := true }
  unfold State.retireTile
  dsimp only
  rw [State.notify_tile]
  split
  · split
    · rw [State.notify_tile, retired]
    · rw [retired]
  · rw [retired]

section
variable {s : State} {t : TileId} (hlive : s.live = true) (hreq : (s.tile t).retireReq = true)
  (hserves : (s.tile t).retired = false)
include hlive hreq hserves

theorem exec_tileRetire_stopped (hstopped : ∀ f, (s.tile t).owner = some f → (s.fn f).st = .stopped) :
    exec (.tileRetire t) s = .next (s.retireTile t) := by
  rw [exec_tileRetire, execTileRetire]
  simp only [hlive, hreq, hserves, Bool.not_false, Bool.and_self, if_true]
  cases howner : (s.tile t).owner with
  | none => rfl
  | some f => simp only [hstopped f howner]

theorem exec_tileRetire_running {f : Nat} (howner : (s.tile t).owner = some f) (hrunning : (s.fn f).st = .running) :
    exec (.tileRetire t) s = .next (s.beginStop f true (s.fn f).charge) := by
  simp [exec_tileRetire, execTileRetire, hlive, hreq, hserves, howner, hrunning]

end

/-- Settles O52. -/
theorem meshScrubAndRetirement : Obligations.MeshScrubAndRetirement := by
  intro s t d n f hlive hn x b cw s1
  refine ⟨exec_meshCrcRetry_live hlive hn, exec_meshHalfDown_live hlive hn, exec_meshLinkDown_live hlive hn,
    fun hon hserves => exec_patrolScrubRead_advances hlive hon hserves rfl,
    fun hon hserves => exec_patrolScrubRead_wraps hlive hon hserves rfl, fun hreq hserves hstopped => ?_,
    fun hreq hserves => exec_tileRetire_running hlive hreq hserves⟩
  rw [exec_tileRetire_stopped hlive hreq hserves hstopped, State.retireTile_tile]
  exact ⟨rfl, rfl, rfl, rfl⟩

end Sys2Proof.Machine
end

section
/-! Functions are created, destroyed, started, stopped and queried (O27: R304 to R315, R354, Tables 11.4 and 12.3). -/

namespace Sys2Proof.Machine

/-- A long command waits for the end of its work (R337). -/
def State.awaits (s : State) (l : Long) : State := { s with thm := { s.thm with long := s.thm.long ++ [l] } }

theorem execFnCreate_ok {s s0 : State} {r : Req} (h : Takes s 0x0301 r s0) (hop : r.notOperator = false)
    (hpay : payOk r.payload [(0, 2), (2, 32)] = true) (hpos : 0 < beAt r.payload 0 2) (hf : beAt r.payload 0 2 < 1024)
    (htack : s0.tacked = false) (hst : (s0.fn (beAt r.payload 0 2)).st = .free)
    (hservice : s0.inService (beAt r.payload 0 2) = false) :
    exec .fnCreate s = .next ((s0.setFn (beAt r.payload 0 2)
      { st := .stopped, evSeq := (s0.fn (beAt r.payload 0 2)).evSeq,
        key := s0.unwrap r (s0.thm.opKey.getD 0) labelFnkey (beAt r.payload 0 2) ((r.payload.drop 2).take 32) }).reply
      r stOk []) := by
  refine congrArg Host.Outcome.next ((command_takes _ h).trans ?_)
  refine judge_ok _ _ _ _ (takes_not_gone h) ?_
  simp [hop, hpay, Nat.ne_of_gt hpos, hf, htack, hst, hservice]

theorem execFnDestroy_ok {s s0 : State} {r : Req} (h : Takes s 0x0302 r s0) (hop : r.notOperator = false)
    (hpay : payOk r.payload [(0, 2)] = true) (hpos : 0 < beAt r.payload 0 2) (hf : beAt r.payload 0 2 < 1024)
    (hst : (s0.fn (beAt r.payload 0 2)).st = .stopped) (hlong : s0.longOn (beAt r.payload 0 2) = false)
    (htack : s0.tacked = false) :
    exec .fnDestroy s = .next ((s0.destroyFn (beAt r.payload 0 2)).reply r stOk []) := by
  refine congrArg Host.Outcome.next ((command_takes _ h).trans ?_)
  refine judge_ok _ _ _ _ (takes_not_gone h) ?_
  simp [hop, hpay, Nat.ne_of_gt hpos, hf, hst, busyFor_of_idle ⟨hst, hlong, htack⟩]

/-! Starting. -/

section
variable {s s0 : State} {r : Req} (h : Takes s 0x0303 r s0) (hpay : payOk r.payload [] = true)
  (hlong : s0.longOn r.fn = false) (htack : s0.tacked = false)
include h hpay hlong htack

/-- FN_START of a RUNNING function changes nothing. -/
theorem execFnStart_running (hst : (s0.fn r.fn).st = .running) : exec .fnStart s = .next (s0.reply r stOk []) := by
  refine congrArg Host.Outcome.next ((command_takes _ h).trans ?_)
  dsimp only
  rw [judge_ok _ _ _ _ (takes_not_gone h) (by simp [hpay, hlong, htack, hst]), if_pos hst]

/-- A STOPPED function starts where its virtual tile map has no hole and no retired tile, and its paths are up. -/
theorem execFnStart_stopped (hst : (s0.fn r.fn).st = .stopped)
    (hmap : ∀ v ∈ (s0.fn r.fn).vtmap, ∃ t, v = some t ∧ (s0.tile t).retired = false)
    (hpaths : s0.pathsOk (s0.tilesOf r.fn) (s0.coresOf r.fn) = true) :
    exec .fnStart s = .next ((s0.startFn r.fn).reply r stOk []) := by
  have hhole : (s0.fn r.fn).hasHole = false := by
    simp only [Fn.hasHole, List.any_eq_false]
    intro v hv
    obtain ⟨t, rfl, -⟩ := hmap v hv
    simp
  have hserves : (s0.fn r.fn).vtmap.any s0.tileRetired = false := by
    simp only [List.any_eq_false]
    intro v hv
    obtain ⟨t, rfl, ht⟩ := hmap v hv
    simpa [State.tileRetired] using ht
  refine congrArg Host.Outcome.next ((command_takes _ h).trans ?_)
  dsimp only
  rw [judge_ok _ _ _ _ (takes_not_gone h), if_neg (by simp [hst])]
  refine List.forall_mem_cons.mpr ⟨by simp [hpay, hst, hhole], List.forall_mem_cons.mpr ⟨?_, by simp [hlong, htack, hst]⟩⟩
  show (_ && ((s0.fn r.fn).vtmap.any s0.tileRetired || _)) = false
  simp [hserves, hpaths]

end

/-! Stopping. -/

section
variable {s s0 : State} {r : Req} (h : Takes s 0x0304 r s0) (hpay : payOk r.payload [(0, 1)] = true)
  (hmode : beAt r.payload 0 1 ≤ 1)
include h hpay hmode

/-- FN_STOP finds an error charged to the function: the stop is that error's, in ABORT mode (R309). -/
theorem execFnStop_charged {c : Charge} (hst : (s0.fn r.fn).st = .running) (hcharge : (s0.fn r.fn).charge = some c) :
    exec .fnStop s = .next (((s0.recordFault c).beginStop r.fn true (some c)).reply r stOk []) := by
  refine congrArg Host.Outcome.next ((command_takes _ h).trans ?_)
  dsimp only
  rw [judge_ok _ _ _ _ (takes_not_gone h) (by simp [hpay, hmode, hst])]
  simp only [hst, hcharge]

/-- FN_STOP begins the stop and waits for its end (R313). -/
theorem execFnStop_begins (hst : (s0.fn r.fn).st = .running) (hcharge : (s0.fn r.fn).charge = none) :
    exec .fnStop s = .next ((s0.beginStop r.fn (beAt r.payload 0 1 = 1) none).awaits { req := r, fn := r.fn }) := by
  refine congrArg Host.Outcome.next ((command_takes _ h).trans ?_)
  dsimp only
  rw [judge_ok _ _ _ _ (takes_not_gone h) (by simp [hpay, hmode, hst])]
  simp only [hst, hcharge]; rfl

/-- FN_STOP of a STOPPING function may turn its stop into an ABORT, which cuts what still runs. -/
theorem execFnStop_stopping (hst : (s0.fn r.fn).st = .stopping) : exec .fnStop s =
    .next ((if beAt r.payload 0 1 = 1 ∧ (s0.fn r.fn).abort = false
      then (s0.onFn r.fn (fun x => { x with abort := true })).cutAll r.fn else s0).reply r stOk []) := by
  refine congrArg Host.Outcome.next ((command_takes _ h).trans ?_)
  dsimp only
  rw [judge_ok _ _ _ _ (takes_not_gone h) (by simp [hpay, hmode, hst])]
  simp only [hst, Bool.and_eq_true, decide_eq_true_eq, Bool.not_eq_true']

end

section
variable {s : State} {f : FnId} (hlive : s.live = true)
include hlive

theorem exec_fnFaultStop_charged {c : Charge} (hcharge : (s.fn f).charge = some c) (hst : (s.fn f).st = .running) :
    exec (.fnFaultStop f) s = .next ((s.recordFault c).beginStop f true (some c)) := by
  show execFnFaultStop f s = _
  simp only [execFnFaultStop, hcharge, hlive, hst, decide_true, Bool.and_self, if_true]

theorem exec_drainLimitExpire_cuts (hst : (s.fn f).st = .stopping) (habort : (s.fn f).abort = false) :
    exec (.drainLimitExpire f) s = .next (s.cutAll f) := by
  show execDrainLimitExpire f s = _
  simp only [execDrainLimitExpire, hlive, hst, habort, decide_true, Bool.not_false, Bool.and_self, if_true]

/-- A STOPPING function that has nothing started left becomes STOPPED, and its FN_STOP is answered (R313). -/
theorem exec_stopComplete_ends {s1 : State} (hst : (s.fn f).st = .stopping)
    (hcut : (if (s.fn f).abort then s.cutAll f else s) = s1) (hquiet : s1.quiet f = true) :
    exec (.stopComplete f) s = .next (((s1.endStop f).finishLong 0x0304 f stOk []).serviceStopped f) := by
  show execStopComplete f s = _
  simp only [execStopComplete, hlive, hst, hcut, hquiet, decide_true, Bool.and_self, if_true]

end

theorem execFnQuery_ok {s s0 : State} {r : Req} (h : Takes s 0x0307 r s0) (hpay : payOk r.payload [] = true) :
    exec .fnQuery s = .next (s0.reply r stOk (beBytes 4 (s0.fn r.fn).stateReg ++ beBytes 1 (s0.tilesOf r.fn).length ++
      beBytes 1 (s0.coresOf r.fn).length ++ beBytes 2 (s0.ringsOf r.fn).length ++ beBytes 2 (s0.fn r.fn).fences ++ [0, 0] ++
      beBytes 4 (s0.fn r.fn).winPages ++ (((s0.fn r.fn).lastStop.map (fun t => t.bytes r.fn)).getD (List.replicate 40 0)))) := by
  refine congrArg Host.Outcome.next ((command_takes _ h).trans ?_)
  dsimp only
  rw [judge_ok _ _ _ _ (takes_not_gone h) (by simp [hpay])]
  cases (s0.fn r.fn).lastStop <;> rfl

/-- Settles O27: each command takes effect because none of its conditions holds, and each row of a stop because its own does. -/
theorem functionsStartAndStop : Obligations.FunctionsStartAndStop := by
  refine ⟨?commands, ?stop⟩
  case commands =>
    intro s s0 r p f g x
    exact ⟨execFnCreate_ok, execFnDestroy_ok,
      fun h hpay hlong htack => ⟨execFnStart_running h hpay hlong htack, execFnStart_stopped h hpay hlong htack⟩,
      fun c h hpay hmode => execFnStop_charged h hpay hmode, execFnStop_begins, execFnStop_stopping,
      execFnQuery_ok⟩
  case stop =>
    intro s f c s1 hlive
    exact ⟨exec_fnFaultStop_charged hlive, exec_drainLimitExpire_cuts hlive, fun hst => exec_stopComplete_ends hlive hst rfl⟩

end Sys2Proof.Machine
end

section
/-! The kinds of FN_ASSIGN, the end of an ungating, and FN_WITHDRAW (O28: R303, R305, R343, R345, R448, Table 12.7). -/

namespace Sys2Proof.Machine

/-! FN_ASSIGN of tiles. -/

/-- Tiles become a function's, each with one extent. -/
def State.giveTiles (s : State) (f : Nat) (ts : List Nat) (first n : Nat) : State :=
  ts.foldl (fun s t => s.giveTile f t first n) s

/-- The domains of some tiles that are gated. -/
def State.coldDomains (s : State) (ts : List Nat) : List Nat :=
  ((ts.map domainOf).eraseDups).filter (fun d => (s.dom d).gated)

/-- Domains begin to ungate (R448). -/
def State.ungate (s : State) (ds : List Nat) : State :=
  { s with pwr := { s.pwr with doms := ds.foldl (fun (m : SMap Dom) d => m.modify {} d (fun x =>
                      { x with ungating := true })) s.pwr.doms } }

theorem execFnAssignTiles_ok {s s0 given : State} {r : Req} {ts : List Nat}
    (h : Assigns s 1 [(4, 10), (16, 4), (20, 4)] r s0) (hts : maskTiles (beMask r.payload 4 10) = ts)
    (hgiven : s0.giveTiles (beAt r.payload 0 2) ts (beAt r.payload 16 4) (beAt r.payload 20 4) = given)
    (hpages : beAt r.payload 16 4 + beAt r.payload 20 4 ≤ s0.slabPages)
    (hfree : ∀ t ∈ ts, (s0.tile t).retired = false ∧ ((s0.tile t).owner = none ∨
      (s0.tile t).owner = some (beAt r.payload 0 2)))
    (hpaths : s0.pathsOk (ts ++ s0.tilesOf (beAt r.payload 0 2)) (s0.coresOf (beAt r.payload 0 2)) = true) :
    exec .fnAssignTiles s = .next (if given.coldDomains ts = [] then given.reply r stOk []
      else (given.ungate (given.coldDomains ts)).awaits { req := r, fn := beAt r.payload 0 2 }) := by
  subst hts hgiven
  refine congrArg Host.Outcome.next ((assign_takes h rfl ?bad ?faulted ?taken).trans ?_)
  case bad => simpa using hpages
  case faulted =>
    have hserve : (maskTiles (beMask r.payload 4 10)).any (fun t => (s0.tile t).retired) = false := by
      simpa using fun t ht => (hfree t ht).1
    simp only [hserve, hpaths, Bool.not_true, Bool.or_self]
  case taken =>
    simp only [List.any_eq_false]
    intro t ht
    rcases (hfree t ht).2 with howner | howner <;> simp [howner]
  simp only [← List.isEmpty_iff]
  rfl

/-! The other kinds of FN_ASSIGN. -/

theorem execFnAssignSpread_ok {s s0 : State} {r : Req} (h : Assigns s 2 [(4, 1), (6, 10), (16, 4), (20, 4)] r s0)
    (hset : beAt r.payload 4 1 < 32) (hspread : s0.badSpread (beAt r.payload 0 2) (BitVec.ofNat 80 (beMask r.payload 6 10))
      (beAt r.payload 16 4) (beAt r.payload 20 4) = false)
    (hpaths : s0.pathsOk (s0.tilesOf (beAt r.payload 0 2)) [] = true) :
    exec .fnAssignSpread s = .next ((s0.setSpread (beAt r.payload 0 2) (beAt r.payload 4 1)
      ⟨BitVec.ofNat 80 (beMask r.payload 6 10), beAt r.payload 16 4, beAt r.payload 20 4, true⟩).reply r stOk []) :=
  congrArg Host.Outcome.next (assign_takes h rfl (by simp [hset, hspread]) (by simp [hpaths]) rfl)

theorem execFnAssignRings_ok {s s0 : State} {r : Req} {a n : Nat} (h : Assigns s 3 [(4, 2), (6, 2), (8, 1)] r s0)
    (ha : beAt r.payload 4 2 = a) (hn : beAt r.payload 6 2 = n) (hend : a + n ≤ 8192) (hgroup : beAt r.payload 8 1 ≤ 1)
    (hfree : ∀ e ∈ s0.rings, a ≤ e.1 → e.1 < a + n → e.2.valid = true → e.2.fn = beAt r.payload 0 2)
    (hroom : beAt r.payload 8 1 = 1 →
      (s0.rings.filter (fun e => e.2.valid && e.2.group && !(a ≤ e.1 && e.1 < a + n))).length + n ≤ 512) :
    exec .fnAssignRings s = .next ((((List.range n).foldl (fun (s : State) i => s.setRing (a + i)
      { fn := beAt r.payload 0 2, valid := true, group := beAt r.payload 8 1 = 1 }) s0).onFn (beAt r.payload 0 2) (fun x =>
        { x with ringRanges := x.ringRanges.filter (· ≠ (a, n)) ++ [(a, n)] })).reply r stOk []) := by
  subst ha hn
  refine congrArg Host.Outcome.next (assign_takes h rfl ?bad rfl ?taken)
  case bad => simp [hend, hgroup]
  case taken =>
    simp only [Bool.or_eq_false_iff, List.any_eq_false, Bool.and_eq_true, decide_eq_true_eq]
    refine ⟨?held, ?group⟩
    case held =>
      rintro e he ⟨⟨⟨hlow, hhigh⟩, hvalid⟩, hother⟩
      exact hother (hfree e he hlow hhigh hvalid)
    case group =>
      simpa only [Bool.and_eq_false_imp, decide_eq_true_eq, decide_eq_false_iff_not, gt_iff_lt, Nat.not_lt] using hroom

theorem execFnAssignFences_ok {s s0 : State} {r : Req} {a n : Nat} (h : Assigns s 4 [(4, 2), (6, 2)] r s0)
    (ha : beAt r.payload 4 2 = a) (hn : beAt r.payload 6 2 = n) (hend : a + n ≤ 16384)
    (hfree : ∀ e ∈ s0.fns, e.1 ≠ beAt r.payload 0 2 → e.2.fenceBase + e.2.fences ≤ a ∨ a + n ≤ e.2.fenceBase) :
    exec .fnAssignFences s =
      .next ((s0.onFn (beAt r.payload 0 2) (fun x => { x with fenceBase := a, fences := n })).reply r stOk []) := by
  subst ha hn
  refine congrArg Host.Outcome.next (assign_takes h rfl ?bad rfl ?taken)
  case bad => simpa using hend
  case taken =>
    simp only [List.any_eq_false, Bool.and_eq_true, decide_eq_true_eq]
    rintro e he ⟨⟨⟨⟨hother, -⟩, hbelow⟩, habove⟩, -⟩
    have := hfree e he hother
    omega

theorem execFnAssignCores_ok {s s0 : State} {r : Req} {cs : List Nat} (h : Assigns s 5 [(4, 4)] r s0)
    (hcs : (List.range 32).filter (fun c => (beMask r.payload 4 4).testBit c) = cs) (hpart : s0.fuses.part ≠ 3)
    (hfree : ∀ c ∈ cs, c ∉ s0.flash.withheldCores ∧ ((s0.core c).fn = none ∨ (s0.core c).fn = some (beAt r.payload 0 2)))
    (hpaths : s0.pathsOk (s0.tilesOf (beAt r.payload 0 2)) (cs ++ s0.coresOf (beAt r.payload 0 2)) = true) :
    exec .fnAssignCores s = .next (((List.range 32).foldl (fun s c => if (beMask r.payload 4 4).testBit c
      then s.resetCore c (some (beAt r.payload 0 2)) else s) s0).reply r stOk []) := by
  subst hcs
  refine congrArg Host.Outcome.next (assign_takes h ?unsup rfl ?faulted ?taken)
  case unsup => simpa using hpart
  case faulted =>
    have hheld : ((List.range 32).filter (fun c => (beMask r.payload 4 4).testBit c)).any
        (fun c => s0.flash.withheldCores.contains c) = false := by
      simp only [List.any_eq_false, List.contains_iff_mem]
      exact fun c hc => (hfree c hc).1
    simp only [hheld, hpaths, Bool.not_true, Bool.or_self]
  case taken =>
    simp only [List.any_eq_false, Bool.and_eq_true, decide_eq_true_eq]
    rintro c hc ⟨⟨hbit, hsome⟩, hother⟩
    rcases (hfree c (List.mem_filter.mpr ⟨hc, hbit⟩)).2 with howner | howner
    · simp [howner] at hsome
    · exact hother howner

theorem execFnAssignWindow_ok {s s0 : State} {r : Req} (h : Assigns s 6 [(4, 1), (8, 4)] r s0)
    (hset : beAt r.payload 4 1 < 32) (hmax : beAt r.payload 8 4 ≤ 1048576)
    (hpages : beAt r.payload 8 4 ≤ s0.setCapacity (beAt r.payload 0 2) (beAt r.payload 4 1)) :
    exec .fnAssignWindow s = .next ((s0.setWindow (beAt r.payload 0 2) (beAt r.payload 4 1) (beAt r.payload 8 4) true).reply
      r stOk []) :=
  congrArg Host.Outcome.next (assign_takes h rfl (by simp [hset, hmax, hpages]) rfl rfl)

theorem execFnAssignVtileMap_ok {s s0 : State} {r : Req} {vs : List Nat}
    (h : Assigns s 7 [(4, 1), (8, beAt r.payload 4 1)] r s0)
    (hvs : ((r.payload.drop 8).take (beAt r.payload 4 1)).map (fun b => b.toNat) = vs)
    (hmin : 1 ≤ beAt r.payload 4 1) (hmax : beAt r.payload 4 1 ≤ 80) (hnodup : vs.Nodup)
    (hown : ∀ t ∈ vs, t < 80 ∧ (s0.tile t).owner = some (beAt r.payload 0 2) ∧ (s0.tile t).retired = false) :
    exec .fnAssignVtileMap s =
      .next ((s0.onFn (beAt r.payload 0 2) (fun x => { x with vtmap := vs.map some })).reply r stOk []) := by
  obtain ⟨htakes, hop, hf, hst, hlong, htack, hfields⟩ := h
  have hserve : vs.any (fun t => (s0.tile t).retired) = false := by simpa using fun t ht => (hown t ht).2.2
  have hmine : vs.any (fun t => (s0.tile t).owner ≠ some (beAt r.payload 0 2)) = false := by
    simpa using fun t ht => (hown t ht).2.1
  have hexist : vs.any (fun t => decide (t ≥ 80) || (s0.tile t).owner.isNone && !(s0.tile t).retired) = false := by
    simp only [List.any_eq_false]
    intro t ht
    obtain ⟨hlt, howner, -⟩ := hown t ht
    simp [howner, hlt]
  refine congrArg Host.Outcome.next ((commandIf_takes _ htakes).trans ?_)
  simp only [hvs]
  refine judge_ok _ _ _ _ (not_gone_of_operator s0 hop) ?_
  have hpay : payOk r.payload [(0, 2), (2, 1), (4, 1), (8, beAt r.payload 4 1)] = true := hfields
  simp only [List.forall_mem_cons, hop, hst, hpay, hserve, hmine, hexist, hnodup, busyFor_of_idle ⟨hst, hlong, htack⟩]
  simp [hf, hmax, Nat.ne_of_gt hmin]

theorem execFnAssignSettings_ok {s s0 : State} {r : Req} (h : Assigns s 8 [(8, 8), (16, 2)] r s0)
    (hmin : 1 ≤ beAt r.payload 16 2) (hmax : beAt r.payload 16 2 ≤ 10000) :
    exec .fnAssignSettings s = .next ((s0.onFn (beAt r.payload 0 2) (fun x =>
      { x with seed := BitVec.ofNat 64 (beAt r.payload 8 8), drainLimit := beAt r.payload 16 2 })).reply r stOk []) :=
  congrArg Host.Outcome.next (assign_takes h rfl (by simp [hmax, Nat.ne_of_gt hmin]) rfl rfl)

/-! The end of an ungating. -/

/-- A domain comes to the state `y`, and its tiles in service run (R449). -/
def State.powerTiles (s : State) (d : Nat) (y : Dom) : State :=
  ((List.range 80).filter (fun t => domainOf t = d && !(s.tile t).retired)).foldl
    (fun s t => s.onTile t (fun y => { y with gated := false, resync := true })) (s.setDom d y)

/-- The waiting FN_ASSIGNs with no tile in a domain that ungates. -/
def State.readyAssigns (s : State) : List Long :=
  s.thm.long.filter (fun l => l.req.cmd = 0x0305 &&
    (maskTiles (beMask l.req.payload 4 10)).all (fun t => !(s.dom (domainOf t)).ungating))

/-- Those FN_ASSIGNs are answered (R448). -/
def State.answerAssigns (s : State) : State :=
  s.readyAssigns.foldl (fun (s : State) l => s.reply l.req stOk [])
    { s with thm := { s.thm with long := s.thm.long.filter (fun l => !s.readyAssigns.contains l) } }

/-- A step of the governor depends on its own work only through the state whose durations are up to date (R463). -/
theorem State.pwrStep_congr {s : State} {f g : State → State} (h : f s.accrue = g s.accrue) : s.pwrStep f = s.pwrStep g := by
  simp only [State.pwrStep, h]

theorem exec_domainUngateDone_ungating {s : State} {d : DomId} (h : (s.dom d).ungating = true) :
    exec (.domainUngateDone d) s = .next (s.pwrStep (fun u => (u.powerTiles d { s.dom d with
      gated := false, ungating := false, op := 1, vset := s.fuses.vnom d 1, target := s.fuses.vnom d 1,
      slewing := false }).answerAssigns)) := by
  show execDomainUngateDone d s = _
  simp only [execDomainUngateDone, if_pos h]
  exact congrArg Host.Outcome.next (State.pwrStep_congr rfl)

/-! FN_WITHDRAW. -/

/-- An FN_WITHDRAW of a kind under the operator key, for a STOPPED function with no conflict, its selecting fields within the
payload and the rest of it 0. -/
def Withdraws (s : State) (kind len : Nat) (fields : List (Nat × Nat)) (r : Req) (s0 : State) : Prop :=
  Takes s 0x0306 r s0 ∧ r.notOperator = false ∧ beAt r.payload 0 2 < 1024 ∧ (s0.fn (beAt r.payload 0 2)).st = .stopped ∧
    s0.longOn (beAt r.payload 0 2) = false ∧ s0.tacked = false ∧ beAt r.payload 2 1 = kind ∧ len ≤ r.payload.length ∧
    restZero r.payload ([(0, 2), (2, 1)] ++ fields) = true

theorem Withdraws.takes {s s0 : State} {kind len : Nat} {fields : List (Nat × Nat)} {r : Req}
    (h : Withdraws s kind len fields r s0) : Takes s 0x0306 r s0 := by
  obtain ⟨htakes, -⟩ := h
  exact htakes

theorem Withdraws.kind {s s0 : State} {kind len : Nat} {fields : List (Nat × Nat)} {r : Req}
    (h : Withdraws s kind len fields r s0) : beAt r.payload 2 1 = kind := by
  obtain ⟨-, -, -, -, -, -, hkind, -⟩ := h
  exact hkind

/-- Where what an FN_WITHDRAW names is held, none of its conditions holds. -/
theorem withdraw_judge {s s0 : State} {kind len : Nat} {fields : List (Nat × Nat)} {r : Req} {unsup held : Bool}
    (ok : State → State) (h : Withdraws s kind len fields r s0) (hunsup : unsup = false) (hheld : held = true) :
    s0.judge r [(r.notOperator, stDenied), (unsup, stUnsupported),
      (beAt r.payload 0 2 < 1024 && (s0.fn (beAt r.payload 0 2)).st = .free, stStopped),
      (beAt r.payload 0 2 ≥ 1024 || r.payload.length < len || !restZero r.payload ([(0, 2), (2, 1)] ++ fields) || !held,
        stBadArg),
      (s0.busyFor (beAt r.payload 0 2), stBusy)] ok = ok s0 := by
  obtain ⟨htakes, hop, hf, hst, hlong, htack, -, hlen, hrest⟩ := h
  refine judge_ok _ _ _ _ (takes_not_gone htakes) ?_
  simp only [List.forall_mem_cons, hop, hunsup, hst, hrest, hheld, busyFor_of_idle ⟨hst, hlong, htack⟩]
  simp [hf, hlen]

section
variable {s s0 : State} {r : Req}

theorem execFnWithdraw_tiles (h : Withdraws s 1 14 [(4, 10), (16, 4), (20, 4)] r s0)
    (hheld : ∀ t ∈ maskTiles (beMask r.payload 4 10), (s0.tile t).owner = some (beAt r.payload 0 2) ∨
      ((s0.tile t).retired = true ∧ (s0.fn (beAt r.payload 0 2)).vtmap.contains (some t) = true)) :
    exec .fnWithdraw s = .next (((maskTiles (beMask r.payload 4 10)).foldl (fun (s : State) t =>
      if (s.tile t).owner = some (beAt r.payload 0 2) then s.withdrawTile t
      else (s.onFn (beAt r.payload 0 2) (fun g => { g with vtmap := g.vtmap.map (fun v => if v = some t then none else v) })).onSlab
        t Slab.leaveFn) s0).reply r stOk []) := by
  refine congrArg Host.Outcome.next ((command_takes _ h.takes).trans ?_)
  simp only [h.kind]
  exact withdraw_judge _ h rfl (by simpa using hheld)

theorem execFnWithdraw_spread (h : Withdraws s 2 5 [(4, 1), (6, 10), (16, 4), (20, 4)] r s0) (hset : beAt r.payload 4 1 < 32)
    (hheld : ((s0.slab (s0.spreadTile (beAt r.payload 0 2) none)).spread.get {} (beAt r.payload 4 1)).valid = true) :
    exec .fnWithdraw s = .next ((s0.setSpread (beAt r.payload 0 2) (beAt r.payload 4 1) {}).reply r stOk []) := by
  refine congrArg Host.Outcome.next ((command_takes _ h.takes).trans ?_)
  simp only [h.kind]
  exact withdraw_judge _ h rfl (Bool.and_eq_true_iff.mpr ⟨decide_eq_true hset, hheld⟩)

theorem execFnWithdraw_rings (h : Withdraws s 3 8 [(4, 2), (6, 2), (8, 1)] r s0)
    (hheld : (beAt r.payload 4 2, beAt r.payload 6 2) ∈ (s0.fn (beAt r.payload 0 2)).ringRanges) :
    exec .fnWithdraw s = .next ((((List.range (beAt r.payload 6 2)).foldl (fun (s : State) i =>
      s.setRing (beAt r.payload 4 2 + i) {}) s0).onFn (beAt r.payload 0 2) (fun g =>
        { g with ringRanges := g.ringRanges.filter (· ≠ (beAt r.payload 4 2, beAt r.payload 6 2)) })).reply r stOk []) := by
  refine congrArg Host.Outcome.next ((command_takes _ h.takes).trans ?_)
  simp only [h.kind]
  exact withdraw_judge _ h rfl (List.contains_iff_mem.mpr hheld)

theorem execFnWithdraw_fences (h : Withdraws s 4 8 [(4, 2), (6, 2)] r s0) (hany : (s0.fn (beAt r.payload 0 2)).fences ≠ 0)
    (hbase : (s0.fn (beAt r.payload 0 2)).fenceBase = beAt r.payload 4 2)
    (hcount : (s0.fn (beAt r.payload 0 2)).fences = beAt r.payload 6 2) :
    exec .fnWithdraw s =
      .next ((s0.onFn (beAt r.payload 0 2) (fun g => { g with fenceBase := 0, fences := 0 })).reply r stOk []) := by
  refine congrArg Host.Outcome.next ((command_takes _ h.takes).trans ?_)
  simp only [h.kind]
  exact withdraw_judge _ h rfl (by simp [hany, ← hbase, ← hcount])

theorem execFnWithdraw_cores (h : Withdraws s 5 8 [(4, 4)] r s0) (hpart : s0.fuses.part ≠ 3)
    (hheld : ∀ c < 32, (beMask r.payload 4 4).testBit c = true → (s0.core c).fn = some (beAt r.payload 0 2)) :
    exec .fnWithdraw s = .next ((((List.range 32).filter (fun c => (beMask r.payload 4 4).testBit c)).foldl
      (fun (s : State) c => s.resetCore c none) s0).reply r stOk []) := by
  refine congrArg Host.Outcome.next ((command_takes _ h.takes).trans ?_)
  simp only [h.kind]
  refine withdraw_judge _ h (by simp [hpart]) (List.all_eq_true.mpr fun c hc => ?_)
  obtain ⟨hlt, hbit⟩ := List.mem_filter.mp hc
  exact decide_eq_true (hheld c (List.mem_range.mp hlt) hbit)

theorem execFnWithdraw_window (h : Withdraws s 6 5 [(4, 1), (8, 4)] r s0)
    (hvalid : (s0.fn (beAt r.payload 0 2)).winValid = true) (hset : (s0.fn (beAt r.payload 0 2)).winSet = beAt r.payload 4 1) :
    exec .fnWithdraw s = .next ((s0.setWindow (beAt r.payload 0 2) 0 0 false).reply r stOk []) := by
  refine congrArg Host.Outcome.next ((command_takes _ h.takes).trans ?_)
  simp only [h.kind]
  exact withdraw_judge _ h rfl (by simp [hvalid, hset])

end

/-- Settles O28: no shared condition of FN_ASSIGN or FN_WITHDRAW holds, nor one of the kind, so the kind takes effect. -/
theorem assignmentAndWithdrawal : Obligations.AssignmentAndWithdrawal := by
  refine ⟨?assign, ?withdraw⟩
  case assign =>
    intro s s0 r d p f A ts given cold a n group cs vs y v on ready
    exact ⟨fun h => execFnAssignTiles_ok h rfl rfl, execFnAssignSpread_ok, fun h => execFnAssignRings_ok h rfl rfl,
      fun h => execFnAssignFences_ok h rfl rfl, fun h => execFnAssignCores_ok h rfl, execFnAssignWindow_ok,
      fun h => execFnAssignVtileMap_ok h rfl, execFnAssignSettings_ok, exec_domainUngateDone_ungating⟩
  case withdraw =>
    intro s s0 r p f x a n W gives
    exact ⟨execFnWithdraw_tiles, execFnWithdraw_spread, execFnWithdraw_rings, execFnWithdraw_fences, execFnWithdraw_cores,
      execFnWithdraw_window⟩

end Sys2Proof.Machine
end

section
/-! Window transitions and their query (O30: R323 to R326, Table 12.3). -/

namespace Sys2Proof.Machine

theorem not_beyond_of_inWindow {s : State} {f a n : Nat} (h : s.inWindow f a n = true) : a + n ≤ (s.fn f).winPages := by
  simp only [State.inWindow, Bool.and_eq_true, decide_eq_true_eq] at h
  obtain ⟨⟨-, hle⟩, -⟩ := h
  exact hle

/-- A range of window pages becomes PENDING with its new flag (R325 step 1). -/
def State.pendPages (s : State) (ps : List (Nat × Nat)) (flag : Nat) : State :=
  ps.foldl (fun (s : State) q => s.onPflag q (fun h => { h with pending := true, newFlag := flag })) s

theorem execWinFlags_ok {s s0 : State} {r : Req} {ps : List (Nat × Nat)} (h : Takes s 0x0501 r s0)
    (hps : s0.winRange r.fn (beAt r.payload 0 4) (beAt r.payload 4 4) = ps)
    (hpay : payOk r.payload [(0, 4), (4, 4), (8, 1)] = true) (hst : (s0.fn r.fn).st = .running)
    (hflag : beAt r.payload 8 1 ≤ 2) (hin : s0.inWindow r.fn (beAt r.payload 0 4) (beAt r.payload 4 4) = true)
    (hserve : ps.any s0.pageRetired = false) (htack : s0.tacked = false)
    (hlong : ∀ l ∈ s0.thm.long, l.fn = r.fn → l.req.cmd = 0x0501) (hfree : ∀ q ∈ ps, (s0.pflagOf q).pending = false) :
    exec .winFlags s = .next ((s0.pendPages ps (beAt r.payload 8 1)).awaits
      { req := r, fn := r.fn, first := beAt r.payload 0 4, pages := beAt r.payload 4 4 }) := by
  refine congrArg Host.Outcome.next ((command_takes _ h).trans ?_)
  subst hps
  refine judge_ok _ _ _ _ (takes_not_gone h) ?_
  simpa [hpay, hst, hflag, not_beyond_of_inWindow hin, hin, hserve, htack] using And.intro hlong hfree

theorem exec_winTransitionComplete_ends {s : State} {g : FnId} {l : Long}
    (hfind : s.thm.long.find? (fun l => l.fn = g.val && l.req.cmd = 0x0501 &&
      (s.winRange g l.first l.pages).all (fun p => !(s.heldPages g).contains p)) = some l) (hruns : s.thmRuns = true) :
    exec (.winTransitionComplete g) s = .next (s.endTransition l true) := by
  show execWinTransitionComplete g s = _
  simp only [execWinTransitionComplete, hfind, if_pos hruns]

theorem exec_winTransitionTimeout_ends {s : State} {g : FnId} {l : Long}
    (hfind : s.thm.long.find? (fun l => l.fn = g.val && l.req.cmd = 0x0501) = some l) (hruns : s.thmRuns = true)
    (htack : s.tacked = false) : exec (.winTransitionTimeout g) s = .next (s.endTransition l false) := by
  show execWinTransitionTimeout g s = _
  simp only [execWinTransitionTimeout, hfind, hruns, htack, Bool.not_false, Bool.and_self, if_true]

theorem execWinQuery_ok {s s0 : State} {r : Req} (h : Takes s 0x0502 r s0) (hpay : payOk r.payload [(0, 4), (4, 2)] = true)
    (hmin : 1 ≤ beAt r.payload 4 2) (hmax : beAt r.payload 4 2 ≤ 896)
    (hin : s0.inWindow r.fn (beAt r.payload 0 4) (beAt r.payload 4 2) = true)
    (hserve : (s0.winRange r.fn (beAt r.payload 0 4) (beAt r.payload 4 2)).any s0.pageRetired = false) :
    exec .winQuery s = .next (s0.reply r stOk (pack2 ((s0.winRange r.fn (beAt r.payload 0 4) (beAt r.payload 4 2)).map
      (fun q => if (s0.pflagOf q).pending then 3 else (s0.pflagOf q).flag)))) := by
  refine congrArg Host.Outcome.next ((command_takes _ h).trans ?_)
  refine judge_ok _ _ _ _ (takes_not_gone h) ?_
  simp [hpay, hmax, hin, hserve, Nat.ne_of_gt hmin]

/-- Settles O30: WIN_FLAGS and WIN_QUERY meet none of their conditions, and a transition ends at its step 3 or its limit. -/
theorem windowCommands : Obligations.WindowCommands := by
  intro s s0 r g l p f a n ps s1
  exact ⟨fun h => execWinFlags_ok h rfl, exec_winTransitionComplete_ends, exec_winTransitionTimeout_ends, execWinQuery_ok⟩

end Sys2Proof.Machine
end

section
/-! Doorbells, and the turn of a dispatcher (O35: R316 to R319, R324, R327, R347, R418). -/

namespace Sys2Proof.Machine

/-! What a doorbell comes to. -/

section
variable {s : State} {r : Nat} {tail : W32}

/-- The state after a doorbell to a ring whose function does not run (R317). -/
def State.noteRefused (s : State) (r : Nat) : State :=
  (s.setRing r { s.ring r with refused := true }).count .dsp (r / 2048) 2 0 (s.ring r).fn 1

theorem State.doorbell_refused (hst : (s.fn (s.ring r).fn).st ≠ .running) :
    s.doorbell r tail = (s.noteRefused r, .refused) := if_pos hst

variable (hruns : (s.fn (s.ring r).fn).st = .running ∧ (s.ring r).sized = true)
include hruns

theorem State.doorbell_accepted (hnear : (tail - (s.ring r).done).toNat ≤ 2 ^ (s.ring r).sizeLog2) :
    s.doorbell r tail = (s.setRing r { s.ring r with tail := tail }, .accepted) := by
  obtain ⟨hst, hsized⟩ := hruns
  simp only [State.doorbell, hst, hsized, ne_eq, not_true_eq_false, if_false, if_true, gt_iff_lt,
    if_neg (Nat.not_lt.mpr hnear)]

theorem State.doorbell_bad (hfar : ¬ (tail - (s.ring r).done).toNat ≤ 2 ^ (s.ring r).sizeLog2) :
    s.doorbell r tail = (s.raiseDsp r 4, .bad) := by
  obtain ⟨hst, hsized⟩ := hruns
  simp only [State.doorbell, hst, hsized, ne_eq, not_true_eq_false, if_false, if_true, gt_iff_lt,
    if_pos (Nat.lt_of_not_le hfar)]

end

/-! How it is answered: to a core, and on a connection. -/

theorem exec_ringDoorbell (d : DoorSrc) (n : Nat) (tail : W32) (s : State) :
    exec (.ringDoorbell d n tail) s = execRingDoorbell d n tail s := rfl

section
variable {s : State} {f n r : Nat} {tail : W32}

theorem exec_ringDoorbell_core {c : CoreId} (h : s.coreFn c = some f ∧ s.localRing f n = some r) :
    exec (.ringDoorbell (.core c) n tail) s = .next (((s.doorbell r tail).1).coreAns c (.data 0)) := by
  obtain ⟨hcore, hring⟩ := h
  simp only [exec_ringDoorbell, execRingDoorbell, hcore, hring]

theorem exec_ringDoorbell_core_fault {c : CoreId} (hcore : s.coreFn c = some f) (hring : s.localRing f n = none) :
    exec (.ringDoorbell (.core c) n tail) s = .next (s.coreAns c .fault) := by
  simp only [exec_ringDoorbell, execRingDoorbell, hcore, hring]

/-- A doorbell arrives on a live connection of function `f` for its ring `r`, with no tack (R318, R506). -/
def RdmaRings (s : State) (q : BitVec 24) (k : Conn) (f n r : Nat) : Prop :=
  s.boot.pgood = true ∧ s.fatal.cause = 0 ∧ s.eth.link = true ∧ s.conn q.toNat = some k ∧ k.fn = f ∧
    s.localRing f n = some r ∧ s.tacked = false

variable {q : BitVec 24} {k : Conn} {s1 : State} (h : RdmaRings s q k f n r)
include h

theorem exec_ringDoorbell_rdma :
    exec (.ringDoorbell (.rdma q) n tail) s = .next (s.rdmaDoorbell q.toNat f n tail) := by
  obtain ⟨hpgood, hcause, hlink, hconn, rfl, -, -⟩ := h
  simp only [exec_ringDoorbell, execRingDoorbell, hpgood, hcause, hlink, hconn, decide_true, Bool.and_self, if_true]

theorem exec_ringDoorbell_rdma_ack (hdoor : s.doorbell r tail = (s1, .accepted)) :
    exec (.ringDoorbell (.rdma q) n tail) s = .next (s1.answer q.toNat .ack) := by
  rw [exec_ringDoorbell_rdma h]
  obtain ⟨-, -, -, -, -, hring, htack⟩ := h
  simp only [State.rdmaDoorbell, htack, hring, hdoor, Bool.false_eq_true, if_false]

theorem exec_ringDoorbell_rdma_nak (hdoor : s.doorbell r tail = (s1, .refused)) :
    exec (.ringDoorbell (.rdma q) n tail) s = .next ((s1.count .win 0 1 0x63 f 1).answer q.toNat (.nak 0x63)) := by
  rw [exec_ringDoorbell_rdma h]
  obtain ⟨-, -, -, -, -, hring, htack⟩ := h
  simp only [State.rdmaDoorbell, htack, hring, hdoor, Bool.false_eq_true, if_false]

end

/-! The turn of a dispatcher. -/

theorem exec_ringFetch {s : State} {q : QuadId} {r : Nat} (hlive : s.live = true) (hnext : s.nextRing q = some r) :
    exec (.ringFetch q) s =
      .next ({ s with dspNext := s.dspNext.set 0 q (turnKey (r, s.ring r) + 1) }.fetchRing r) := by
  show Host.Outcome.next (if s.live then _ else s) = _
  rw [if_pos hlive, hnext]

/-- The command that a ring has at HEAD may not start before every earlier one has signalled (R319, R418). -/
def Ring.holds (g : Ring) (raw : Nat) : Prop :=
  (ringSerial raw = true ∨ g.group = true) ∧ ∃ c ∈ g.cmds, c.signalled = false

theorem Ring.holds_iff (g : Ring) (raw : Nat) :
    ((ringSerial raw || g.group) && g.cmds.any (fun c => !c.signalled)) = true ↔ g.holds raw := by
  simp [Ring.holds]

/-- The access to DONE_ADDR that a fetch checks (R324). -/
def State.doneCheck (s : State) (r : Nat) : SlabRes :=
  s.slabCheck (s.ring r).fn none (s.ring r).doneAddr.toNat 8 true false

/-- A command at HEAD that is not started: each refused access is reported, and the causes are raised (R327). -/
def State.fetchFails (s : State) (f r : Nat) (refused : List SlabRes) (causes : Nat) : State :=
  (refused.foldl (fun (s : State) c => s.reportRefused f c) s).raiseDsp r causes

theorem refusals_of_ok {c : SlabRes} (h : c.isOk = true) : [c].filter (fun c => !c.isOk) = [] :=
  List.filter_cons_of_neg (by simp [h])

theorem refusals_of_not_ok {c : SlabRes} (h : c.isOk = false) : [c].filter (fun c => !c.isOk) = [c] :=
  List.filter_cons_of_pos (by simp [h])

@[simp] theorem SlabRes.isOk_ok (ps : List (Nat × Nat × Nat)) : (SlabRes.ok ps).isOk = true := rfl

@[simp] theorem SlabRes.pieces_ok (ps : List (Nat × Nat × Nat)) : (SlabRes.ok ps).pieces = ps := rfl

section
variable {s s2 : State} {r : Nat} {ps : List (Nat × Nat × Nat)} {bs : List Byte} {p u : Bool}
  (hentry : s.slabCheck (s.ring r).fn none
    ((s.ring r).base.toNat + 64 * ((s.ring r).head.toNat % 2 ^ (s.ring r).sizeLog2)) 64 false false = .ok ps)
  (hread : s.readPieces ps = (s2, bs, p, u))
include hentry hread

/-- A poisoned entry raises POISON, with RANGE where DONE_ADDR is refused too. -/
theorem State.fetchRing_poisoned {refused : List SlabRes} (hpoison : ¬ (p = false ∧ u = false))
    (hdone : [s.doneCheck r].filter (fun c => !c.isOk) = refused) :
    s.fetchRing r = s2.fetchFails (s.ring r).fn r refused (8 + bit (!refused.isEmpty) 1) := by
  have hp : (p || u) = true := by simpa [← Bool.or_eq_false_iff] using hpoison
  subst hdone
  simp only [State.fetchRing, hentry, SlabRes.isOk_ok, SlabRes.pieces_ok, hread, hp, Bool.not_true, Bool.false_eq_true,
    if_false, if_true]
  rfl

variable (hclean : p = false ∧ u = false)
include hclean

theorem State.fetchRing_waits (hwaits : (s.ring r).holds (leVal bs)) :
    s.fetchRing r = s2.onRing r (fun g => { g with serialHold := true }) := by
  simp only [State.fetchRing, hentry, SlabRes.isOk_ok, SlabRes.pieces_ok, hread, hclean, (Ring.holds_iff _ _).mpr hwaits,
    Bool.not_true, Bool.or_self, Bool.false_eq_true, if_false, if_true]

/-- A command that raises a cause is not started; otherwise HEAD moves past it. -/
theorem State.fetchRing_clean {malformed : Bool} {denied ranges : List SlabRes} (hwaits : ¬ (s.ring r).holds (leVal bs))
    (hmalformed : s2.ringMalformed (s.ring r).fn (s.ring r).group (leVal bs) = malformed)
    (hdone : [s.doneCheck r].filter (fun c => !c.isOk) = denied) (hcopy : s2.copyCheck (s.ring r).fn (leVal bs) = ranges) :
    s.fetchRing r = if bit malformed 0 + bit (!(denied ++ ranges).isEmpty) 1 ≠ 0
      then s2.fetchFails (s.ring r).fn r (denied ++ ranges) (bit malformed 0 + bit (!(denied ++ ranges).isEmpty) 1)
      else s2.onRing r (fun g =>
        { g with head := g.head + 1, serialHold := false, waiting := decide (ringOp (leVal bs) = 3),
                 cmds := g.cmds ++ [s2.waitLatch (s.ring r).fn { idx := g.head, raw := leVal bs }] }) := by
  subst hmalformed hdone hcopy
  simp only [State.fetchRing, hentry, SlabRes.isOk_ok, SlabRes.pieces_ok, hread, hclean, mt (Ring.holds_iff _ _).mp hwaits,
    Bool.not_true, Bool.or_self, Bool.false_eq_true, if_false]
  rfl

end

/-- Settles O35: a doorbell answers what the ring makes of it, and a turn comes to the causes that the entry at HEAD raises. -/
theorem ringDoorbellsAndFetches : Obligations.RingDoorbellsAndFetches := by
  refine ⟨?doorbell, ?fetch⟩
  case doorbell =>
    intro s c q n f r tail k g ring refused core rdma runs near
    refine ⟨fun hcore hruns hnear => ?accepted, fun hcore hruns hfar => ?bad, fun hcore hst => ?refused,
      exec_ringDoorbell_core_fault,
      fun hrdma hruns hnear => exec_ringDoorbell_rdma_ack hrdma (State.doorbell_accepted hruns hnear),
      fun hrdma hst => exec_ringDoorbell_rdma_nak hrdma (State.doorbell_refused hst)⟩
    case accepted => rw [exec_ringDoorbell_core hcore, State.doorbell_accepted hruns hnear]
    case bad => rw [exec_ringDoorbell_core hcore, State.doorbell_bad hruns hfar]
    case refused => rw [exec_ringDoorbell_core hcore, State.doorbell_refused hst]; rfl
  case fetch =>
    intro s q r ps s1 g s2 raw clean done waits hlive hnext hentry
    have hread : s1.readPieces ps = (s2, (s1.readPieces ps).2) := rfl
    rw [exec_ringFetch hlive hnext]
    refine ⟨fun hclean hwaits hformed hcopy hdone => ?starts, fun hclean hwaits => ?holds,
      fun hclean hwaits hmalformed hcopy hdone => ?malformed, fun hclean hwaits hcopy hdone => ?denied,
      fun hpoison hdone => ?poisoned, fun hpoison hdone => ?poisonedAndDenied⟩
    case starts =>
      exact congrArg _ ((State.fetchRing_clean hentry hread hclean hwaits hformed (refusals_of_ok hdone) hcopy).trans
        (if_neg (by decide)))
    case holds => exact congrArg _ (State.fetchRing_waits hentry hread hclean hwaits)
    case malformed =>
      exact congrArg _ ((State.fetchRing_clean hentry hread hclean hwaits hmalformed (refusals_of_ok hdone) hcopy).trans
        (if_pos (by decide)))
    case denied =>
      exact congrArg _ ((State.fetchRing_clean hentry hread hclean hwaits rfl (refusals_of_not_ok hdone) hcopy).trans
        (if_pos (Nat.succ_ne_zero _)))
    case poisoned => exact congrArg _ (State.fetchRing_poisoned hentry hread hpoison (refusals_of_ok hdone))
    case poisonedAndDenied => exact congrArg _ (State.fetchRing_poisoned hentry hread hpoison (refusals_of_not_ok hdone))

end Sys2Proof.Machine
end

section
/-! The commands of a ring: NOP, LAUNCH, COPY, WAIT and SIGNAL, and their completion (O36: R134, R318 to R321,
Table 11.6). -/

namespace Sys2Proof.Machine

/-- The first command of a live ring for which `p` holds is `c`. -/
def FirstCmd (s : State) (r : Nat) (p : RCmd → Bool) (c : RCmd) : Prop :=
  s.ringLive r = true ∧ (s.ring r).cmds.find? p = some c

theorem State.runCmd_begins {s s1 : State} {r op : Nat} {c : RCmd} (f : State → RCmd → State) (h : Begins s r op c s1) :
    s.runCmd r op f = f s1 c := by
  obtain ⟨hlive, hfind, rfl⟩ := h
  simp only [State.runCmd, if_pos hlive, hfind]

section
variable {s s1 : State} {r : RingId} {c : RCmd}

theorem exec_ringNop (h : Begins s r 0 c s1) : exec (.ringNop r) s = .next (s1.completeCmd r c.idx) :=
  congrArg Host.Outcome.next (State.runCmd_begins _ h)

/-- A LAUNCH that reaches no tile is done as it starts. -/
theorem exec_ringLaunch_none (h : Begins s r 1 c s1) (hts : (s1.launchTiles (s1.ring r).fn c.raw).filterMap id = []) :
    exec (.ringLaunch r) s = .next (s1.completeCmd r c.idx) := by
  refine congrArg Host.Outcome.next ((State.runCmd_begins _ h).trans ?_)
  rw [hts]; rfl

theorem exec_ringLaunch_delivers (h : Begins s r 1 c s1) {ts : List Nat}
    (hts : (s1.launchTiles (s1.ring r).fn c.raw).filterMap id = ts) (hne : ts ≠ []) :
    exec (.ringLaunch r) s = .next (ts.foldl (fun (s : State) t => s.deliverOne r c.idx t)
      (s1.onCmd r c.idx (fun c => { c with deliver := ts }))) := by
  refine congrArg Host.Outcome.next ((State.runCmd_begins _ h).trans ?_)
  simp only [hts]
  exact if_neg (by simpa using hne)

/-- The move that a COPY makes, as a descriptor of the DMA engine: one row from slab to slab. -/
def copyMove (raw : Nat) : DmaD :=
  { op := 1, src := fld raw 8 0 64, srcSpace := 1, dst := fld raw 16 0 64, dstSpace := 1,
    rowBytes := fld raw 24 0 64, rows := 1, srcPitch := 0, dstPitch := 0, ep := 0, pattern := 0 }

theorem exec_ringCopy_moves (h : Begins s r 2 c s1) (hlost : s1.copyLost (s1.ring r).fn c.raw = []) :
    exec (.ringCopy r) s = .next (((s1.copyRows (s1.ring r).fn (s1.spreadTile (s1.ring r).fn none) (copyMove c.raw)
      (s1.copyOpen (s1.ring r).fn (s1.spreadTile (s1.ring r).fn none) (copyMove c.raw)) false
      [(fld c.raw 8 0 64, fld c.raw 16 0 64)]).1).completeCmd r c.idx) := by
  refine congrArg Host.Outcome.next ((State.runCmd_begins _ h).trans ?_)
  simp only [hlost]; rfl

/-- A COPY with a range that is refused now raises RANGE and does not complete (R286). -/
theorem exec_ringCopy_refused (h : Begins s r 2 c s1) (hlost : s1.copyLost (s1.ring r).fn c.raw ≠ []) :
    exec (.ringCopy r) s = .next (((s1.copyLost (s1.ring r).fn c.raw).foldl (fun (s : State) x =>
      s.reportRefused (s1.ring r).fn x) s1).raiseDsp r 2) := by
  refine congrArg Host.Outcome.next ((State.runCmd_begins _ h).trans ?_)
  dsimp only
  split
  · contradiction
  · rfl

theorem exec_ringWait (h : Begins s r 3 c s1) : exec (.ringWait r) s =
    .next (if (s1.waitLatch (s1.ring r).fn c).released then s1.completeCmd r c.idx else s1) :=
  congrArg Host.Outcome.next (State.runCmd_begins _ h)

theorem exec_ringSignal (h : Begins s r 4 c s1) : exec (.ringSignal r) s =
    .next ((s1.signalFence (s1.ring r).fn (fld c.raw 8 0 16) (fld c.raw 10 0 1 = 1)
      (BitVec.ofNat 64 (fld c.raw 16 0 64))).completeCmd r c.idx) :=
  congrArg Host.Outcome.next (State.runCmd_begins _ h)

theorem exec_ringLaunchComplete
    (h : FirstCmd s r (fun c => ringOp c.raw = 1 && !c.complete && !c.cut && s.launchDone c) c) :
    exec (.ringLaunchComplete r) s = .next (s.completeCmd r c.idx) := by
  obtain ⟨hlive, hfind⟩ := h
  show Host.Outcome.next (if s.ringLive r then _ else s) = _
  rw [if_pos hlive, hfind]

theorem exec_ringWaitRelease (h : FirstCmd s r (fun c => ringOp c.raw = 3 && c.run && !c.complete && !c.cut) c)
    (hheld : (s.waitLatch (s.ring r).fn c).released = true) :
    exec (.ringWaitRelease r) s = .next (s.completeCmd r c.idx) := by
  obtain ⟨hlive, hfind⟩ := h
  show Host.Outcome.next (if s.ringLive r then _ else s) = _
  rw [if_pos hlive, hfind]
  exact congrArg Host.Outcome.next (if_pos hheld)

/-- A command whose work is visible signals, and DONE advances where DONE_ADDR is allowed. -/
theorem exec_ringCommandComplete {ps : List (Nat × Nat × Nat)}
    (h : FirstCmd s r (fun c => c.complete && !c.signalled && !c.cut) c)
    (hdone : s.slabCheck (s.ring r).fn none (s.ring r).doneAddr.toNat 8 true false = .ok ps) :
    exec (.ringCommandComplete r) s = .next ((s.signalCmd r c).advanceDone r ps) := by
  obtain ⟨hlive, hfind⟩ := h
  show Host.Outcome.next (if s.ringLive r then _ else s) = _
  rw [if_pos hlive, hfind]
  simp only [State.finishCmd, hdone]

end

/-- Settles O36: each row takes the first command of its kind that has started and that no stop has cut. -/
theorem ringCommands : Obligations.RingCommands := by
  intro s s1 r c raw f ts t d first held
  exact ⟨exec_ringNop, exec_ringLaunch_none, fun h => exec_ringLaunch_delivers h rfl, exec_ringCopy_moves,
    exec_ringCopy_refused, exec_ringWait, exec_ringSignal, exec_ringLaunchComplete, exec_ringWaitRelease,
    fun ps => exec_ringCommandComplete⟩

end Sys2Proof.Machine
end

section
/-! Skelist messages are received, requests are submitted by mailbox, and accepted requests are queued (O24: R330, R335 to
R337, R340, R350, R361). -/

namespace Sys2Proof.Machine

/-- A datagram was sent to one of the package's addresses, or is an unsigned IDENTIFY sent to a discovery address (R361). -/
def State.hears (s : State) (m : List Byte) (d : BitVec 128) : Prop :=
  s.eth.addrs.contains d = true ∨ discoveryAddr d = true ∧ beAt m 0 2 = 0x0101 ∧ beAt m 4 2 = 0xFFFF

/-- The Skelist port serves what the package hears from order 9 on, with the link up, outside the safe state. -/
theorem State.skelistUdp_eq (s : State) (m : List Byte) (a : UdpAddr) (d : BitVec 128) [Decidable (s.hears m d)] :
    s.skelistUdp m a d =
      if s.boot.pgood = true ∧ s.fatal.cause = 0 ∧ 9 ≤ s.boot.order ∧ s.eth.link = true ∧ s.hears m d
      then s.receiveMsg m (.udp a) else s := by
  simp [State.skelistUdp, State.hears, and_assoc]

section
variable {s : State} {m : List Byte} {a : UdpAddr} {d : BitVec 128}

theorem exec_skelistMessageReceive_served (hpgood : s.boot.pgood = true) (hcause : s.fatal.cause = 0)
    (horder : 9 ≤ s.boot.order) (hlink : s.eth.link = true) (hears : s.hears m d) :
    exec (.skelistMessageReceive m ⟨a, d⟩) s = .next (s.receiveMsg m (.udp a)) := by
  classical
  exact congrArg Host.Outcome.next
    ((s.skelistUdp_eq m a d).trans (if_pos ⟨hpgood, hcause, horder, hlink, hears⟩))

theorem exec_skelistMessageReceive_ignored
    (h : s.fatal.cause ≠ 0 ∨ s.boot.order < 9 ∨ s.eth.link = false ∨ ¬ s.hears m d) :
    exec (.skelistMessageReceive m ⟨a, d⟩) s = .next s := by
  classical
  refine congrArg Host.Outcome.next ((s.skelistUdp_eq m a d).trans (if_neg ?_))
  rintro ⟨-, hcause, horder, hlink, hears⟩
  rcases h with h | h | h | h
  · exact h hcause
  · omega
  · simp [hlink] at h
  · exact h hears

end

/-- The mailbox of a core that runs holds a well-formed request of the core's own function (R350). -/
theorem exec_mailboxGo_submits {s s1 : State} {c : CoreId} {f : Nat} {box : List Byte} (hruns : s.coreRuns c = true)
    (hfn : (s.core c).fn = some f) (hgo : (s.core c).go = false)
    (hbox : (List.range 256).map (fun i => (s.core c).request.get 0 i) = box)
    (hs1 : s.onCore c (fun x => { x with go := true }) = s1) (hlen : beAt box 6 2 ≤ 224) (hflags : beAt box 3 1 % 4 = 0)
    (hown : beAt box 4 2 = f) :
    exec (.mailboxGo c) s = .next (s1.accept
      { cmd := beAt box 0 2, fn := f, seq := beAt box 8 8, payload := (box.drop 16).take (beAt box 6 2), src := .mailbox c,
        key := s1.keyOf f }) := by
  subst hbox hs1 hown
  show Host.Outcome.next (if s.coreRuns c then s.submitMailbox c else s) = _
  rw [if_pos hruns]
  have hform := not_or.mpr ⟨Nat.not_lt.mpr hlen, not_not_intro hflags⟩
  simp only [State.submitMailbox, hfn, hgo, Bool.false_eq_true, if_false, gt_iff_lt, if_neg hform, ne_eq, not_true_eq_false]

/-! The queue of accepted requests (R336, R337, R340). -/

section
variable {s : State} {r : Req}

theorem State.accept_busy (hfull : 64 ≤ s.thm.queue.length + s.thm.long.length) : s.accept r = s.reply r stBusy [] :=
  if_pos hfull

variable (hroom : s.thm.queue.length + s.thm.long.length < 64)
include hroom

theorem State.accept_unsupported (hcode : skelistCodes.contains r.cmd = false) : s.accept r = s.reply r stUnsupported [] := by
  simp only [State.accept, ge_iff_le, if_neg (Nat.not_le.mpr hroom), hcode, Bool.not_false, if_true]

theorem State.accept_queues (hcode : skelistCodes.contains r.cmd = true) (hassign : r.cmd ≠ 0x0305) :
    s.accept r = { s with thm := { s.thm with queue := s.thm.queue ++ [r] } } := by
  simp only [State.accept, ge_iff_le, if_neg (Nat.not_le.mpr hroom), hcode, Bool.not_true, Bool.false_eq_true, if_false,
    hassign, false_and]

end

/-- Settles O24: a datagram is received where the package hears it, and a request is queued where nothing forbids it. -/
theorem skelistMessagesAreReceived : Obligations.SkelistMessagesAreReceived := by
  refine ⟨?received, ?accepted⟩
  case received =>
    intro s m a d c f x box n s1 find
    refine ⟨exec_skelistMessageReceive_served, fun h => exec_skelistMessageReceive_ignored ?ignored,
      fun hruns hfn hgo => exec_mailboxGo_submits hruns hfn hgo rfl rfl⟩
    case ignored =>
      refine h.imp_right (Or.imp_right (Or.imp_right ?_))
      rintro ⟨haddr, hfind⟩ (hears | hears)
      · exact absurd (haddr.symm.trans hears) Bool.false_ne_true
      · exact hfind hears
  case accepted =>
    exact fun s r => ⟨State.accept_busy, State.accept_unsupported, State.accept_queues⟩

end Sys2Proof.Machine
end

section
/-! What becomes of a message: it is dropped, accepted once, or its kept reply is sent again (O25: R331 to R335, R339). -/

namespace Sys2Proof.Machine

/-- The authentication code of a message is right under a key (R332). -/
def State.rightMac (s : State) (m : List Byte) (k : BitVec 256) : Prop :=
  (m.drop (16 + beAt m 6 2)).take 16 = mac16 k (beBytes 4 s.thm.bootEpoch.toNat ++ m.take (16 + beAt m 6 2))

section
variable {s : State} {m : List Byte} {src : MsgDest}

theorem State.receiveMsg_malformed
    (h : m.length < 32 ∨ m.length ≠ 32 + beAt m 6 2 ∨ 224 < beAt m 6 2 ∨ beAt m 3 1 % 4 ≠ 0) :
    s.receiveMsg m src = s.dropMsg := if_pos h

theorem State.receiveMsg_free (hsigned : beAt m 4 2 ≠ 0xFFFF) (hfree : (s.fn (beAt m 4 2)).st = .free) :
    s.receiveMsg m src = s.dropMsg := by
  simp only [State.receiveMsg, if_neg hsigned, hfree, or_true, if_true, ite_self]

/-- The function's own key is none, or the code of the message is wrong under it; and the claim key, which may sign for
function 0, does not serve either. -/
theorem State.receiveMsg_unauthentic (hsigned : beAt m 4 2 ≠ 0xFFFF)
    (hkey : ∀ k, s.keyOf (beAt m 4 2) = some k → ¬ s.rightMac m k)
    (hclaim : beAt m 4 2 = 0 → ¬ s.rightMac m s.fuses.claimKey) : s.receiveMsg m src = s.dropMsg := by
  unfold State.rightMac at hkey hclaim
  have hunclaimed (claims : Bool) : (decide (beAt m 4 2 = 0) && claims && decide ((m.drop (16 + beAt m 6 2)).take 16 =
      mac16 s.fuses.claimKey (beBytes 4 s.thm.bootEpoch.toNat ++ m.take (16 + beAt m 6 2)))) = false := by
    by_cases hzero : beAt m 4 2 = 0
    · rw [decide_eq_false (hclaim hzero), Bool.and_false]
    · rw [decide_eq_false hzero, Bool.false_and, Bool.false_and]
  simp only [State.receiveMsg, if_neg hsigned, hunclaimed, Bool.false_eq_true, if_false]
  cases hk : s.keyOf (beAt m 4 2) with
  | none => simp only [Option.or_none, ite_self]
  | some k => simp only [if_neg (hkey k hk), Option.or_none, ite_self]

/-- A message of a function, well formed and right under the function's key `k`. -/
def State.Authentic (s : State) (m : List Byte) (k : BitVec 256) : Prop :=
  m.length = 32 + beAt m 6 2 ∧ beAt m 6 2 ≤ 224 ∧ beAt m 3 1 % 4 = 0 ∧ beAt m 4 2 < 1024 ∧ (s.fn (beAt m 4 2)).st ≠ .free ∧
    s.keyOf (beAt m 4 2) = some k ∧ s.rightMac m k

/-- The state in which a message has been accepted (R334). -/
def State.accepts (s : State) (m : List Byte) : State :=
  let x := s.fn (beAt m 4 2)
  let acc := x.accepted ++ [{ seq := beAt m 8 8, bytes := m, reply := none }]
  s.setFn (beAt m 4 2) { x with lastSeq := beAt m 8 8, accepted := acc.drop (acc.length - 16) }

/-- The request that a message carries. -/
def msgReq (m : List Byte) (src : MsgDest) (k : BitVec 256) : Req :=
  { cmd := beAt m 0 2, fn := beAt m 4 2, seq := beAt m 8 8, payload := (m.drop 16).take (beAt m 6 2), src := src,
    key := some k }

/-- R335 drops no authentic message. -/
theorem State.Authentic.passes {k : BitVec 256} (h : s.Authentic m k) :
    ¬ (m.length < 32 ∨ m.length ≠ 32 + beAt m 6 2 ∨ beAt m 6 2 > 224 ∨ beAt m 3 1 % 4 ≠ 0) ∧ beAt m 4 2 ≠ 0xFFFF ∧
      ¬ (beAt m 4 2 ≥ 1024 ∨ (s.fn (beAt m 4 2)).st = .free) := by
  obtain ⟨hlength, hlen, hflags, hf, hst, -, -⟩ := h
  exact ⟨by omega, by omega, not_or.mpr ⟨by omega, hst⟩⟩

variable {k : BitVec 256} (h : s.Authentic m k)
include h

theorem State.receiveMsg_new (hseq : (s.fn (beAt m 4 2)).lastSeq < beAt m 8 8) :
    s.receiveMsg m src = (s.accepts m).accept (msgReq m src k) := by
  obtain ⟨hform, hsigned, hexists⟩ := h.passes
  obtain ⟨-, -, -, -, -, hkey, hmac⟩ := h
  unfold State.rightMac at hmac
  simp only [State.receiveMsg, if_neg hform, if_neg hsigned, if_neg hexists, hkey, if_pos hmac,
    Option.some_or, gt_iff_lt, if_pos hseq]
  rfl

theorem State.receiveMsg_again {a : Accepted} {b : List Byte} (hseq : beAt m 8 8 ≤ (s.fn (beAt m 4 2)).lastSeq)
    (hkept : (s.fn (beAt m 4 2)).accepted.find? (fun a => a.seq = beAt m 8 8 && a.bytes = m) = some a)
    (hreply : a.reply = some b) : s.receiveMsg m src = s.sendMsg src b := by
  obtain ⟨hform, hsigned, hexists⟩ := h.passes
  obtain ⟨-, -, -, -, -, hkey, hmac⟩ := h
  unfold State.rightMac at hmac
  simp only [State.receiveMsg, if_neg hform, if_neg hsigned, if_neg hexists, hkey, if_pos hmac,
    Option.some_or, gt_iff_lt, if_neg (Nat.not_lt.mpr hseq), hkept, hreply]

end

/-- Settles O25: each message fails one of the checks of R335, or passes them all and is new or a repetition. -/
theorem authenticMessagesAreAcceptedOnce : Obligations.AuthenticMessagesAreAcceptedOnce := by
  refine ⟨?dropped, ?authentic⟩
  case dropped =>
    intro s m src n f mac right dropped
    exact ⟨State.receiveMsg_malformed, State.receiveMsg_free, State.receiveMsg_unauthentic⟩
  case authentic =>
    intro s m src k n f q x acc r hlength hlen hflags hf hst hkey hmac
    have h : s.Authentic m k := ⟨hlength, hlen, hflags, hf, hst, hkey, hmac⟩
    exact ⟨State.receiveMsg_new h, fun a b => State.receiveMsg_again h⟩

end Sys2Proof.Machine
end

section
/-! Identity, keys, the default memory service, quotes, the tag area and the firmware slots (O26: R333, R342, R353, R355,
R524 to R528, R531, R534 to R537). -/

namespace Sys2Proof.Machine

/-- A command none of whose conditions holds takes effect on the state without its request. -/
theorem command_ok {s s0 : State} {code : Nat} {r : Req} {conds : State → Req → List (Bool × Nat)}
    {ok : State → Req → State → State} (h : Takes s code r s0) (hconds : ∀ c ∈ conds s0 r, c.1 = false) :
    s.command code (fun s r => s.judge r (conds s r) (ok s r)) = ok s0 r s0 :=
  (command_takes _ h).trans (judge_ok _ _ _ _ (takes_not_gone h) hconds)

section
variable {s s0 : State} {r : Req}

theorem execIdentify_ok (h : Takes s 0x0101 r s0) (hpay : payOk r.payload [] = true) :
    exec .identify s = .next (s0.reply r stOk s0.identity) :=
  congrArg Host.Outcome.next (command_ok h (by simp [hpay]))

/-- The state after the reply to a CLAIM, function 0 under its new key (R333). -/
def State.claimed (s : State) (r : Req) (key : BitVec 256) : State :=
  let s := (s.reply r stOk []).onFn 0 (fun x => { x with lastSeq := 0, accepted := [] })
  { s with thm := { s.thm with opKey := some key } }

theorem execClaim_ok (h : Takes s 0x0102 r s0) (hfn : r.fn = 0) (hunset : s0.thm.opKey = none)
    (hkey : r.key = some s0.fuses.claimKey) (hpay : payOk r.payload [(0, 32)] = true) (htack : s0.tacked = false) :
    exec .claim s = .next (s0.claimed r
      (s0.unwrap r s0.fuses.claimKey labelClaim 0 (r.payload.take 32))).startServices :=
  congrArg Host.Outcome.next (command_ok h (by simp [hfn, hunset, hkey, hpay, htack]))

/-- The state after the reply to a REKEY, its function under the new key and without the connections of the old (R333,
R368). -/
def State.rekeyed (s : State) (r : Req) (f : Nat) (key : BitVec 256) : State :=
  let s := ((s.reply r stOk []).closeConns f).onFn f (fun x => { x with key := key, lastSeq := 0, accepted := [] })
  if f = 0 then { s with thm := { s.thm with opKey := some key } } else s

theorem execRekey_ok (h : Takes s 0x0103 r s0) (hop : r.notOperator = false) (hf : beAt r.payload 0 2 < 1024)
    (hst : (s0.fn (beAt r.payload 0 2)).st = .stopped) (hlong : s0.longOn (beAt r.payload 0 2) = false)
    (htack : s0.tacked = false) (hpay : payOk r.payload [(0, 2), (2, 32)] = true) :
    exec .rekey s = .next (s0.rekeyed r (beAt r.payload 0 2)
      (s0.unwrap r (s0.thm.opKey.getD 0) labelFnkey (beAt r.payload 0 2) ((r.payload.drop 2).take 32))) :=
  congrArg Host.Outcome.next (command_ok h
    (by simp [hop, hf, hst, hpay, busyFor_of_idle ⟨hst, hlong, htack⟩]))

/-! SERVICE_CFG. -/

/-- Every function of the default memory service stops, or is destroyed where it has stopped (R355). -/
def State.stopServices (s : State) : State :=
  (((List.range 10).map (· + 1)).filter (fun f => (s.fn f).service)).foldl (fun s f =>
    if (s.fn f).st = .running then s.beginStop f false none
    else if (s.fn f).st = .stopped then s.destroyFn f else s) s

section
variable (h : Takes s 0x0104 r s0) (hop : r.notOperator = false) (hpay : payOk r.payload [(0, 1)] = true)
  (htack : s0.tacked = false) (hlong : s0.longOn 1024 = false)
include h hop hpay htack hlong

theorem execServiceCfg_on (hon : beAt r.payload 0 1 = 1) :
    exec .serviceCfg s = .next ({ s0 with thm := { s0.thm with defaultMem := true } }.reply r stOk []) := by
  refine congrArg Host.Outcome.next ((command_ok h (by simp [hop, hpay, htack, hlong, hon])).trans ?_)
  simp only [hon, decide_true, if_true]

theorem execServiceCfg_off {s1 : State} (hoff : beAt r.payload 0 1 = 0)
    (hs1 : ({ s0 with thm := { s0.thm with defaultMem := false } } : State).stopServices = s1) :
    exec .serviceCfg s = .next (if s1.fns.any (fun e => e.2.service) then s1.awaits { req := r, fn := 1024 }
      else s1.reply r stOk []) := by
  refine congrArg Host.Outcome.next ((command_ok h (by simp [hop, hpay, htack, hlong, hoff])).trans ?_)
  subst hs1
  simp only [hoff, Nat.zero_ne_one, decide_false, if_false]
  rfl

end

/-! QUOTE. -/

/-- The signature of a quote with an index (R530, R531). -/
def quoteSig (index : Nat) : List Byte := (List.range 3604).map (fun i => Config.fuseByte (4096 + index * 3604 + i))

theorem execQuote_ok {off : Nat} {body : List Byte} (h : Takes s 0x0201 r s0) (hoff : beAt r.payload 32 8 = off)
    (hbody : s0.quoteBody r.fn (r.payload.take 32) (beAt r.payload 40 1 = 1) = body)
    (hpay : payOk r.payload [(0, 32), (32, 8), (40, 1)] = true) (htag : beAt r.payload 40 1 ≤ 1)
    (hwin : s0.winOk r.fn off (body.length + 3604) true = true) (htack : s0.tacked = false)
    (hlong : ∀ l ∈ s0.thm.long, l.fn = r.fn → l.req.cmd ∉ quoteConflicts) (hflash : s0.flash.failed = false)
    (hsig : s0.boot.nextSig < 2 ^ 40) :
    exec .quote s = .next ((s0.takeSig.winWrite r.fn off (body ++ quoteSig s0.boot.nextSig)).holdLong r r.fn stOk
      (beBytes 4 (body.length + 3604))) := by
  subst hoff hbody
  have hconflict : s0.thm.long.any (fun l => l.fn = r.fn && quoteConflicts.contains l.req.cmd) = false := by
    simpa [List.any_eq_false] using hlong
  refine congrArg Host.Outcome.next (command_ok h ?_)
  simp only [List.forall_mem_cons, hpay, hwin, htack, hconflict, hflash]
  simpa [htag] using hsig

/-! The tag area. -/

theorem execTagRead_ok (h : Takes s 0x0C01 r s0) (hop : r.notOperator = false)
    (hpay : payOk r.payload [(0, 2), (2, 1)] = true) (hmin : 1 ≤ beAt r.payload 2 1) (hmax : beAt r.payload 2 1 ≤ 224)
    (hend : beAt r.payload 0 2 + beAt r.payload 2 1 ≤ 4096) :
    exec .tagRead s = .next (s0.reply r stOk (s0.flash.tagBytes (beAt r.payload 0 2) (beAt r.payload 2 1))) :=
  congrArg Host.Outcome.next (command_ok h (by simp [hop, hpay, Nat.ne_of_gt hmin, hmax, hend]))

theorem execTagWrite_ok {s1 : State} (h : Takes s 0x0C02 r s0) (hop : r.notOperator = false)
    (hpay : payOk r.payload [(0, 2), (2, 1), (8, beAt r.payload 2 1)] = true) (hlocked : s0.flash.locked = false)
    (hmin : 1 ≤ beAt r.payload 2 1) (hmax : beAt r.payload 2 1 ≤ 216) (hstart : 16 ≤ beAt r.payload 0 2)
    (hend : beAt r.payload 0 2 + beAt r.payload 2 1 ≤ 4096) (htack : s0.tacked = false) (hflash : s0.flash.failed = false)
    (hcount : s0.flash.count < 2 ^ 32 - 1)
    (hs1 : { s0 with flash := s0.flash.tagWrite (beAt r.payload 0 2) ((r.payload.drop 8).take (beAt r.payload 2 1)) } = s1) :
    exec .tagWrite s = .next (s1.reply r stOk (beBytes 4 s1.flash.count)) := by
  subst hs1
  refine congrArg Host.Outcome.next (command_ok h ?_)
  simp only [List.forall_mem_cons, hop, hpay, hlocked, htack, hflash, Bool.not_true, Bool.false_or, Bool.or_self,
    Bool.or_eq_false_iff, decide_eq_false_iff_not, true_and]
  exact ⟨by omega, by omega, List.forall_mem_nil _⟩

theorem execTagLock_locked (h : Takes s 0x0C03 r s0) (hop : r.notOperator = false) (hpay : payOk r.payload [] = true)
    (htack : s0.tacked = false) (hlocked : s0.flash.locked = true) :
    exec .tagLock s = .next (s0.reply r stOk []) := by
  refine congrArg Host.Outcome.next ((command_ok h (by simp [hop, hpay, htack, hlocked])).trans ?_)
  rw [if_pos hlocked]

theorem execTagLock_locks (h : Takes s 0x0C03 r s0) (hop : r.notOperator = false) (hpay : payOk r.payload [] = true)
    (htack : s0.tacked = false) (hlocked : s0.flash.locked = false) (hcount : s0.flash.count < 2 ^ 32 - 1) :
    exec .tagLock s = .next ({ s0 with flash := s0.flash.tagWrite 6 (toLe 2 1) }.reply r stOk []) := by
  refine congrArg Host.Outcome.next ((command_ok h ?_).trans ?_)
  · simp only [List.forall_mem_cons, hop, hpay, htack, hlocked]
    simpa using hcount
  · rw [if_neg (by simp [hlocked])]

/-! The firmware slots. -/

/-- No tack, trial or FW_STAGE stands in the way of a change of the slots (R506, R524, R525). -/
def State.SlotsQuiet (s : State) : Prop :=
  s.tacked = false ∧ s.trialRuns = false ∧ ∀ l ∈ s.thm.long, l.req.cmd ≠ 0x0D01

theorem State.SlotsQuiet.not_busy (h : s0.SlotsQuiet) :
    (s0.tacked || s0.trialRuns || s0.thm.long.any (fun l => l.req.cmd = 0x0D01)) = false := by
  obtain ⟨htack, htrial, hstage⟩ := h
  simpa [htack, htrial] using hstage

/-- Of two writes of a slot the later stands. -/
theorem State.setSlot_setSlot (s : State) (n : Nat) (x y : Slot) : (s.setSlot n x).setSlot n y = s.setSlot n y := by
  by_cases hn : n = 0 <;> simp [State.setSlot, hn]

/-- A slot that holds a staged image (R524). -/
def Slot.staged (x : Slot) (image : List Byte) : Slot :=
  { x with state := .valid, tried := false, factory := false, region := putBytes [] 0 image }

theorem execFwStage_ok {s1 : State} {bs : List Byte} (h : Takes s 0x0D01 r s0) (hop : r.notOperator = false)
    (hpay : payOk r.payload [(0, 2), (8, 8), (16, 4), (24, 32)] = true) (hf : beAt r.payload 0 2 < 1024)
    (hst : (s0.fn (beAt r.payload 0 2)).st ≠ .free) (hsize : beAt r.payload 16 4 ≤ 100659200) (hquiet : s0.SlotsQuiet)
    (hread : s0.readImage (beAt r.payload 0 2) (beAt r.payload 8 8) (beAt r.payload 16 4) ((r.payload.drop 24).take 32) =
      (s1, some bs)) {x : Slot} (hx : (s1.slot (1 - s0.boot.slot)).staged bs = x) :
    exec .fwStage s = .next (if s1.bootable x
      then (s1.setSlot (1 - s0.boot.slot) x).holdLong r (beAt r.payload 0 2) stOk []
      else (s1.setSlot (1 - s0.boot.slot) { x with state := .empty }).reply r stBadArg []) := by
  refine congrArg Host.Outcome.next ((command_ok h (by simp [hop, hpay, hf, hst])).trans ?_)
  subst hx
  have hbusy := hquiet.not_busy
  simp only [if_neg (Nat.not_lt.mpr hsize), hread, hbusy, Bool.false_eq_true, if_false, State.onSlot,
    State.setSlot_setSlot, Bool.not_eq_true', ← Bool.not_eq_true, ite_not]
  rfl

/-- A slot that FW_ACTIVATE accepts: the one that runs, committed or not, or another whose image can boot (R525, R526). -/
def State.mayActivate (s : State) (n : Nat) : Bool :=
  if n = s.boot.slot then (s.slot n).state = .active || (s.slot n).state = .valid
  else (s.slot n).state = .valid && s.bootable (s.slot n)

/-- The slot that runs is committed, or another is tried by a reset (R525, R526). -/
def State.activate (s : State) (r : Req) (n : Nat) : State :=
  if n = s.boot.slot then (if (s.slot n).state = .active then s else s.commitSlot n).reply r stOk []
  else ((s.setSlot n { s.slot n with state := .trial, tried := false }).reply r stOk []).doReset

section
variable (h : Takes s 0x0D02 r s0) (hop : r.notOperator = false) (hpay : payOk r.payload [(0, 1)] = true)
  (hslot : beAt r.payload 0 1 ≤ 1) (hquiet : s0.SlotsQuiet)
  (hidle : ∀ e ∈ s0.fns, e.2.service = true ∨ e.2.st ≠ .running ∧ e.2.st ≠ .stopping)
include h hop hpay hslot hquiet hidle

theorem execFwActivate_ok (hgo : s0.mayActivate (beAt r.payload 0 1) = true) :
    exec .fwActivate s = .next (s0.activate r (beAt r.payload 0 1)) := by
  unfold State.mayActivate at hgo
  have hrun : s0.fns.any (fun e => !e.2.service && (e.2.st = .running || e.2.st = .stopping)) = false := by
    simp only [List.any_eq_false]
    intro e he
    rcases hidle e he with hservice | ⟨hrun, hstop⟩
    · simp [hservice]
    · simp [hrun, hstop]
  refine congrArg Host.Outcome.next (command_ok h ?_)
  simp only [List.forall_mem_cons, hop, hpay, hquiet.not_busy, hrun]
  simp [hslot, hgo]

theorem execFwActivate_active (hhere : beAt r.payload 0 1 = s0.boot.slot)
    (hstate : (s0.slot (beAt r.payload 0 1)).state = .active) : exec .fwActivate s = .next (s0.reply r stOk []) := by
  rw [execFwActivate_ok h hop hpay hslot hquiet hidle (by rw [State.mayActivate, if_pos hhere]; simp [hstate]),
    State.activate, if_pos hhere, if_pos hstate]

theorem execFwActivate_commits (hhere : beAt r.payload 0 1 = s0.boot.slot)
    (hstate : (s0.slot (beAt r.payload 0 1)).state = .valid) :
    exec .fwActivate s = .next ((s0.commitSlot (beAt r.payload 0 1)).reply r stOk []) := by
  rw [execFwActivate_ok h hop hpay hslot hquiet hidle (by rw [State.mayActivate, if_pos hhere]; simp [hstate]),
    State.activate, if_pos hhere, if_neg (by simp [hstate])]

theorem execFwActivate_tries (hother : beAt r.payload 0 1 ≠ s0.boot.slot)
    (hstate : (s0.slot (beAt r.payload 0 1)).state = .valid) (hboot : s0.bootable (s0.slot (beAt r.payload 0 1)) = true) :
    exec .fwActivate s = .next (((s0.setSlot (beAt r.payload 0 1)
      { s0.slot (beAt r.payload 0 1) with state := .trial, tried := false }).reply r stOk []).doReset) := by
  rw [execFwActivate_ok h hop hpay hslot hquiet hidle (by simp [State.mayActivate, hother, hstate, hboot]),
    State.activate, if_neg hother]

end

theorem execFwQuery_ok (h : Takes s 0x0D03 r s0) (hop : r.notOperator = false) (hpay : payOk r.payload [] = true) :
    exec .fwQuery s = .next (s0.reply r stOk (beBytes 1 s0.boot.slot ++ beBytes 1 (bit s0.trialRuns 0) ++
      beBytes 1 s0.fuses.floor ++ List.replicate 5 0 ++ s0.slotBytes 0 ++ s0.slotBytes 1)) :=
  congrArg Host.Outcome.next (command_ok h (by simp [hop, hpay]))

end

/-- Settles O26: none of the conditions of the command holds, so it takes effect. -/
theorem identityTagAndFirmware : Obligations.IdentityTagAndFirmware := by
  refine ⟨?identity, ?tagAndFirmware⟩
  case identity =>
    intro s s0 r p f off body sig fresh key s1 s2 off3 s3 claimed
    exact ⟨execIdentify_ok, execClaim_ok, execRekey_ok,
      fun h hop hpay htack hlong => ⟨execServiceCfg_on h hop hpay htack hlong,
        fun hoff => execServiceCfg_off h hop hpay htack hlong hoff rfl⟩,
      fun h hpay htag hwin htack => execQuote_ok h rfl rfl hpay htag hwin htack⟩
  case tagAndFirmware =>
    intro s s0 s1 r bs p o n k v S quiet
    refine ⟨?tagRead, ?tagWrite, ?locked, ?locks, ?stage, ?activate, ?query⟩
    case tagRead => exact fun ⟨h, hop, hpay⟩ => execTagRead_ok h hop hpay
    case tagWrite =>
      exact fun ⟨h, hop, hpay⟩ hlocked hmin hmax hstart hend htack hflash hcount =>
        execTagWrite_ok h hop hpay hlocked hmin hmax hstart hend htack hflash hcount rfl
    case locked => exact fun ⟨h, hop, hpay⟩ => execTagLock_locked h hop hpay
    case locks => exact fun ⟨h, hop, hpay⟩ => execTagLock_locks h hop hpay
    case stage =>
      exact fun ⟨h, hop, hpay⟩ hf hst hsize hquiet hread => execFwStage_ok h hop hpay hf hst hsize hquiet hread rfl
    case activate =>
      exact fun ⟨h, hop, hpay⟩ hslot hquiet hidle => ⟨execFwActivate_active h hop hpay hslot hquiet hidle,
        execFwActivate_commits h hop hpay hslot hquiet hidle, execFwActivate_tries h hop hpay hslot hquiet hidle⟩
    case query => exact fun ⟨h, hop, hpay⟩ => execFwQuery_ok h hop hpay

end Sys2Proof.Machine
end

section
/-! The order of refusals (O32: R336, Table 12.2). -/

namespace Sys2Proof.Machine

/-- Where the function of the request is not FREE, the first condition of the command that holds is answered. -/
theorem judge_refused {s : State} {r : Req} {l : List (Bool × Nat)} {st : Nat} (ok : State → State) (h : s.gone r = false)
    (hfirst : l.find? (fun c => c.1) = some (true, st)) : s.judge r l ok = s.reply r st [] := by
  rw [judge_open s r l ok h, hfirst]

/-- A function that went FREE after acceptance is answered before any condition but DENIED and UNSUPPORTED. -/
theorem judge_gone {s : State} {r : Req} {l : List (Bool × Nat)} (ok : State → State) (h : s.gone r = true)
    (hlate : ∀ c ∈ l.head?, c.2 ≠ stDenied ∧ c.2 ≠ stUnsupported) : s.judge r l ok = s.reply r stStopped [] := by
  have hfirst : (s.conditions r l).find? (fun c => c.1) = some (true, stStopped) := by
    cases l with
    | nil => simp [State.conditions, h]
    | cons c l => simp [State.conditions, h, hlate c rfl]
  rw [State.judge, hfirst]

/-- The condition that a command answers. -/
theorem command_refused {s s0 : State} {code st : Nat} {r : Req} {conds : State → Req → List (Bool × Nat)}
    {ok : State → Req → State → State} (h : Takes s code r s0)
    (hfirst : (conds s0 r).find? (fun c => c.1) = some (true, st)) :
    s.command code (fun s r => s.judge r (conds s r) (ok s r)) = s0.reply r st [] :=
  (command_takes _ h).trans (judge_refused _ (takes_not_gone h) hfirst)

section
variable {s s0 : State} {r : Req}

theorem execFnCreate_denied (h : Takes s 0x0301 r s0) (hop : r.notOperator = true) :
    exec .fnCreate s = .next (s0.reply r stDenied []) :=
  congrArg Host.Outcome.next (command_refused h (by simp [hop]))

theorem execFnCreate_badArg (h : Takes s 0x0301 r s0) (hop : r.notOperator = false)
    (hf : beAt r.payload 0 2 = 0 ∨ 1024 ≤ beAt r.payload 0 2) : exec .fnCreate s = .next (s0.reply r stBadArg []) := by
  refine congrArg Host.Outcome.next (command_refused h ?_)
  rcases hf with hf | hf <;> simp [hop, hf]

theorem execFnCreate_noResource (h : Takes s 0x0301 r s0) (hop : r.notOperator = false)
    (hpay : payOk r.payload [(0, 2), (2, 32)] = true) (hpos : 0 < beAt r.payload 0 2) (hf : beAt r.payload 0 2 < 1024)
    (htack : s0.tacked = false) (hst : (s0.fn (beAt r.payload 0 2)).st ≠ .free) :
    exec .fnCreate s = .next (s0.reply r stNoResource []) :=
  congrArg Host.Outcome.next (command_refused h (by simp [hop, hpay, Nat.ne_of_gt hpos, hf, htack, hst]))

theorem execFnDestroy_stopped (h : Takes s 0x0302 r s0) (hop : r.notOperator = false) (hpos : 0 < beAt r.payload 0 2)
    (hf : beAt r.payload 0 2 < 1024) (hst : (s0.fn (beAt r.payload 0 2)).st = .free) :
    exec .fnDestroy s = .next (s0.reply r stStopped []) :=
  congrArg Host.Outcome.next (command_refused h (by simp [hop, Nat.ne_of_gt hpos, hf, hst]))

theorem execFnDestroy_busy (h : Takes s 0x0302 r s0) (hop : r.notOperator = false) (hpay : payOk r.payload [(0, 2)] = true)
    (hpos : 0 < beAt r.payload 0 2) (hf : beAt r.payload 0 2 < 1024) (hst : (s0.fn (beAt r.payload 0 2)).st = .running) :
    exec .fnDestroy s = .next (s0.reply r stBusy []) :=
  congrArg Host.Outcome.next (command_refused h (by simp [hop, hpay, Nat.ne_of_gt hpos, hf, hst, State.busyFor]))

theorem execClaim_denied (h : Takes s 0x0102 r s0) (hkey : s0.thm.opKey.isSome = true) :
    exec .claim s = .next (s0.reply r stDenied []) :=
  congrArg Host.Outcome.next (command_refused h (by simp [hkey]))

theorem execTagWrite_denied (h : Takes s 0x0C02 r s0) (hlocked : s0.flash.locked = true) :
    exec .tagWrite s = .next (s0.reply r stDenied []) :=
  congrArg Host.Outcome.next (command_refused h (by simp [hlocked]))

theorem execHcoreLoad_unsupported (h : Takes s 0x0602 r s0) (hpart : s0.fuses.part = 3) :
    exec .hcoreLoad s = .next (s0.reply r stUnsupported []) :=
  congrArg Host.Outcome.next (command_refused h (by simp [hpart]))

/-- FN_START of a function that has gone FREE since the request was accepted. -/
theorem execFnStart_gone {q : List Req} (htake : takeFirst s.mayStart s.thm.queue = some (r, q)) (hcode : r.cmd = 0x0303)
    (hgone : s.gone r = true) :
    exec .fnStart s = .next ({ s with thm := { s.thm with queue := q } }.reply r stStopped []) := by
  show Host.Outcome.next (State.commandIf _ _ _ _) = _
  simp only [State.commandIf, htake, hcode, Bool.and_true, decide_true, if_true]
  exact congrArg Host.Outcome.next (judge_gone _ hgone (by simp [stBadArg, stDenied, stUnsupported]))

theorem execFenceWrite_busy (h : Takes s 0x0404 r s0) (hpay : payOk r.payload [(0, 2), (2, 1), (8, 8)] = true)
    (hset : beAt r.payload 2 1 ≤ 1) (hfence : beAt r.payload 0 2 < (s0.fn r.fn).fences) (htack : s0.tacked = true) :
    exec .fenceWrite s = .next (s0.reply r stBusy []) :=
  congrArg Host.Outcome.next (command_refused h (by simp [hpay, hset, hfence, htack]))

end

/-- Settles O32: where the function has not gone, the first condition in the command's own list that holds is answered; where
it has, that comes before all but DENIED and UNSUPPORTED. -/
theorem refusalsComeInOrder : Obligations.RefusalsComeInOrder := by
  intro s s0 r q p f
  exact ⟨execFnCreate_denied, execFnCreate_badArg, execFnCreate_noResource, execFnDestroy_stopped, execFnDestroy_busy,
    execClaim_denied, execTagWrite_denied, execHcoreLoad_unsupported, execFnStart_gone, execFenceWrite_busy⟩

end Sys2Proof.Machine
end

section
/-! The accesses of the cores (O38: R347, R349, R372 to R374, Tables 12.8 and 13.4). -/

namespace Sys2Proof.Machine

/-! What a row does for a core that runs a function. -/

section
variable {s : State} {c : CoreId} {f : Nat} (hcore : s.coreFn c = some f)
include hcore

theorem exec_hcoreAccess (a : BitVec 56) (w : Bool) (lg : Fin 4) (v : W64) :
    exec (.hcoreAccess c a w lg v) s = .next (s.coreAccess f c a.toNat (2 ^ lg.val) w v.toNat) := by
  show execHcoreAccess c a w lg v s = _
  simp only [execHcoreAccess, hcore]

theorem exec_fqTxTailWrite (tail : W32) : exec (.fqTxTailWrite c tail) s = .next (s.fqTxTail f c tail) := by
  show execFqTxTailWrite c tail s = _
  simp only [execFqTxTailWrite, hcore]

theorem exec_fqRxTailWrite (tail : W32) : exec (.fqRxTailWrite c tail) s = .next (s.fqRxTail c tail) := by
  show execFqRxTailWrite c tail s = _
  simp only [execFqRxTailWrite, hcore]

theorem exec_fqPortWrite (n : Fin 4) (value : W32) : exec (.fqPortWrite c n value) s = .next (s.fqPort f c n value) := by
  show execFqPortWrite c n value s = _
  simp only [execFqPortWrite, hcore]

theorem State.coreFence_inside {i : Nat} (set : Bool) (v : W64) (hi : i < (s.fn f).fences) :
    s.coreFence c i set v = (s.signalFence f i set v).coreAns c (.data 0) := by
  simp only [State.coreFence, hcore, if_pos hi]

theorem State.coreFence_outside {i : Nat} (set : Bool) (v : W64) (hi : ¬ i < (s.fn f).fences) :
    s.coreFence c i set v = s.coreAns c .fault := by
  simp only [State.coreFence, hcore, if_neg hi]

end

/-! The apertures (Table 12.8). -/

theorem State.coreAccess_doorbell (s : State) (f c : Nat) {i v : Nat} (w : Bool) (hi : i < 8192) :
    s.coreAccess f c (0xF00000000000 + 8 * i) 8 w v = s.coreDoorbell f c (8 * i) 8 w v := by
  simp (disch := omega) only [State.coreAccess, if_neg, if_pos, Nat.add_sub_cancel_left]

theorem State.coreAccess_fence (s : State) (f c : Nat) {i v : Nat} (w : Bool) (hi : i < 16384) :
    s.coreAccess f c (0xF00000010000 + 8 * i) 8 w v = s.coreFenceAt f c (8 * i) 8 false w v := by
  have hoffset : 0xF00000010000 + 8 * i - 0xF00000000000 - 0x10000 = 8 * i := by omega
  simp (disch := omega) only [State.coreAccess, if_neg, if_pos, hoffset]

theorem State.coreAccess_time (s : State) (f c v : Nat) (w : Bool) :
    s.coreAccess f c 0xF00000060000 8 w v = s.coreTime f c 0 8 w := by
  simp (disch := omega) only [State.coreAccess, if_neg, if_pos]

/-! The first fence aperture reads its counters and adds to them. -/

theorem State.coreFenceAt_read (s : State) (f c : Nat) {i v : Nat} (hi : i < (s.fn f).fences) :
    s.coreFenceAt f c (8 * i) 8 false false v = s.coreAns c (.data (s.fence ((s.fn f).fenceBase + i))) := by
  have hindex : 8 * i / 8 = i := by omega
  simp only [State.coreFenceAt, hindex, ne_eq, not_true_eq_false, ge_iff_le, Nat.not_le.mpr hi, Bool.false_eq_true,
    false_and, or_self, if_false]

theorem State.coreFenceAt_add (s : State) (f c : Nat) {i : Nat} (v : W64) (hi : i < (s.fn f).fences) :
    s.coreFenceAt f c (8 * i) 8 false true v.toNat = (s.signalFence f i false v).coreAns c (.data 0) := by
  have hindex : 8 * i / 8 = i := by omega
  simp only [State.coreFenceAt, hindex, ne_eq, not_true_eq_false, ge_iff_le, Nat.not_le.mpr hi, Bool.false_eq_true,
    false_and, or_self, if_false, if_true, BitVec.ofNat_toNat, BitVec.setWidth_eq]

theorem State.coreFenceAt_outside (s : State) (f c : Nat) {i v : Nat} (w : Bool) (hi : ¬ i < (s.fn f).fences) :
    s.coreFenceAt f c (8 * i) 8 false w v = s.coreAns c .fault := by
  have hindex : 8 * i / 8 = i := by omega
  simp only [State.coreFenceAt, hindex, ge_iff_le, Nat.le_of_not_lt hi, true_or, or_true, if_true]

/-! What TIME and a doorbell read. -/

/-- A read of the first eight bytes of an image. -/
theorem State.coreReg_read8 (s : State) (c image v : Nat) {size : Nat} (put : State → Nat → State) (hsize : 8 ≤ size) :
    s.coreReg c 0 8 size image false v put = s.coreAns c (.data (BitVec.ofNat 64 image)) := by
  have hin : ¬ 0 + 8 > size := by omega
  have hword : BitVec.ofNat 64 (image / 2 ^ (8 * 0) % 2 ^ (8 * 8)) = BitVec.ofNat 64 image :=
    BitVec.eq_of_toNat_eq (by simp)
  simp only [State.coreReg, if_neg hin, Bool.false_eq_true, if_false, hword]

theorem leVal_append (xs ys : List Byte) : leVal (xs ++ ys) = leVal xs + 256 ^ xs.length * leVal ys := by
  induction xs with
  | nil => simp [leVal]
  | cons b xs ih =>
    rw [List.cons_append, leVal, leVal, ih, List.length_cons, Nat.pow_succ', Nat.mul_add, Nat.mul_assoc, Nat.add_assoc]

/-- DONE is the low word of a doorbell's value and HEAD the high one (R318). -/
theorem Ring.doorbellRead_value (g : Ring) : leVal g.doorbellRead = g.done.toNat + g.head.toNat * 2 ^ 32 := by
  have hdone := g.done.isLt
  have hhead := g.head.isLt
  rw [Ring.doorbellRead, leVal_append, leVal_toLe, leVal_toLe, toLe_length]
  omega

theorem State.coreDoorbell_read (s : State) (f c : Nat) {i r v : Nat} (hring : s.localRing f i = some r) :
    s.coreDoorbell f c (8 * i) 8 false v =
      s.coreAns c (.data (BitVec.ofNat 64 ((s.ring r).done.toNat + (s.ring r).head.toNat * 2 ^ 32))) := by
  have hindex : 8 * i / 8 = i := by omega
  have hbyte : 8 * i % 8 = 0 := by omega
  simp only [State.coreDoorbell, hindex, hring, Bool.false_eq_true, if_false, hbyte]
  rw [State.coreReg_read8 _ _ _ _ _ (Nat.le_refl 8), Ring.doorbellRead_value]

theorem State.coreTime_read (s : State) (f c : Nat) :
    s.coreTime f c 0 8 false = s.coreAns c (.data (BitVec.ofNat 64 s.timeNs)) := by
  have hword (id : Nat) : BitVec.ofNat 64 (s.timeNs % 2 ^ 64 + id * 2 ^ 64) = BitVec.ofNat 64 s.timeNs :=
    BitVec.eq_of_toNat_eq (by simp)
  rw [State.coreTime, State.coreReg_read8 _ _ _ _ _ (by decide), hword]

/-- Settles O38: each row does what the core's running function has it do, and each address comes to its aperture. -/
theorem coreAccesses : Obligations.CoreAccesses := by
  intro s c f i r v a w lg tail n k fence taken bound hcore
  refine ⟨fun hi => ⟨?add, ?set⟩, fun hi => ⟨?addFault, ?setFault⟩, exec_hcoreAccess hcore a w lg v,
    fun hi hmax => ⟨?readFence, ?writeFence⟩, fun hi hmax => ?noFence, ?time, fun hring hmax => ?doorbell,
    exec_fqTxTailWrite hcore tail, exec_fqRxTailWrite hcore tail, exec_fqPortWrite hcore n tail⟩
  case add => exact congrArg Host.Outcome.next (State.coreFence_inside hcore false v hi)
  case set => exact congrArg Host.Outcome.next (State.coreFence_inside hcore true v hi)
  case addFault => exact congrArg Host.Outcome.next (State.coreFence_outside hcore false v hi)
  case setFault => exact congrArg Host.Outcome.next (State.coreFence_outside hcore true v hi)
  case readFence => rw [State.coreAccess_fence s f c false hmax, State.coreFenceAt_read s f c hi]
  case writeFence => exact (State.coreAccess_fence s f c true hmax).trans (State.coreFenceAt_add s f c v hi)
  case noFence => rw [State.coreAccess_fence s f c w hmax, State.coreFenceAt_outside s f c w hi]
  case time => rw [State.coreAccess_time, State.coreTime_read]
  case doorbell => rw [State.coreAccess_doorbell s f c false hmax, State.coreDoorbell_read s f c hring]

end Sys2Proof.Machine
end

section
/-! What no command does: end in a fault, or change a fuse but FLOOR; and which commands change the keys, the boot epoch and
the tag area (O4, O58: R329, R333, R336, R523, R527, R535, R536). -/

namespace Sys2Proof.Machine

/-- What a command may change of what is guarded: of the fuses FLOOR, upwards; the operator key by CLAIM, REKEY and a boot;
the boot epoch by a boot; the tag area and its write count by TAG_WRITE, TAG_LOCK, SETADDR and a boot. -/
structure Guards (i : Instr) (s t : State) : Prop where
  fuses : ∃ n, s.fuses.floor ≤ n ∧ t.fuses = { s.fuses with floor := n }
  opKey : i ≠ .claim → i ≠ .rekey → (∀ m x, i ≠ .bootSequence m x) → t.thm.opKey = s.thm.opKey
  bootEpoch : (∀ m x, i ≠ .bootSequence m x) → t.thm.bootEpoch = s.thm.bootEpoch
  tag : i ≠ .tagWrite → i ≠ .tagLock → i ≠ .setaddr → (∀ m x, i ≠ .bootSequence m x) →
    t.flash.tag = s.flash.tag ∧ t.flash.writeCount = s.flash.writeCount

/-- The guarded fields are among those that `State.fixed` collects. -/
theorem Guards.of_fixed {i : Instr} {s t u : State} (h : t.fixed = u.fixed) (hu : Guards i s u) : Guards i s t := by
  obtain ⟨fuses, opKey, bootEpoch, tag⟩ := hu
  simp only [State.fixed, Prod.mk.injEq] at h
  obtain ⟨-, hfuses, hkey, hepoch, -, -, -, htag, hcount⟩ := h
  constructor <;> simpa only [hfuses, hkey, hepoch, htag, hcount]

/-- What leaves all of them alone keeps the guard. -/
theorem Guards.of_same {i : Instr} {s t : State} (hfuses : t.fuses = s.fuses) (hkey : t.thm.opKey = s.thm.opKey)
    (hepoch : t.thm.bootEpoch = s.thm.bootEpoch) (htag : t.flash.tag = s.flash.tag)
    (hcount : t.flash.writeCount = s.flash.writeCount) : Guards i s t :=
  ⟨⟨s.fuses.floor, Nat.le_refl _, hfuses⟩, fun _ _ _ => hkey, fun _ => hepoch, fun _ _ _ _ => ⟨htag, hcount⟩⟩

theorem Guards.refl (i : Instr) (s : State) : Guards i s s := .of_same rfl rfl rfl rfl rfl

/-- Raising FLOOR is allowed to every command. -/
theorem Guards.raiseFloor {i : Instr} {s t : State} (k : Nat) (h : Guards i s t) : Guards i s (t.raiseFloor k) := by
  obtain ⟨⟨n, hn, hfuses⟩, opKey, bootEpoch, tag⟩ := h
  refine ⟨⟨max n (min k 255), by omega, ?_⟩, opKey, bootEpoch, tag⟩
  simp only [State.raiseFloor, hfuses]

/-- A boot may change all that is guarded but the fuses. -/
theorem Guards.boot (m : BitVec 2) (x : SelfTest) {s t : State} (h : t.fuses = s.fuses) : Guards (.bootSequence m x) s t :=
  ⟨⟨s.fuses.floor, Nat.le_refl _, h⟩, fun _ _ hb => absurd rfl (hb m x), fun hb => absurd rfl (hb m x),
    fun _ _ _ hb => absurd rfl (hb m x)⟩

/-- The tag area may change by the three commands that write it. -/
theorem Guards.of_tagOnly {i : Instr} (hi : i = .tagWrite ∨ i = .tagLock ∨ i = .setaddr) {s t : State} (h : TagOnly s t) :
    Guards i s t := by
  obtain ⟨g, n, ht⟩ := h
  refine .of_fixed ht ⟨⟨s.fuses.floor, Nat.le_refl _, rfl⟩, fun _ _ _ => rfl, fun _ => rfl, fun hw hl ha _ => ?_⟩
  simp [hw, hl, ha] at hi

/-- The operator key may change by the two commands that set it. -/
theorem Guards.setKey {i : Instr} (hi : i = .claim ∨ i = .rekey) (s : State) (k : BitVec 256) :
    Guards i s { s with thm := { s.thm with opKey := some k } } := by
  refine ⟨⟨s.fuses.floor, Nat.le_refl _, rfl⟩, fun hc hr _ => ?_, fun _ => rfl, fun _ _ _ _ => ⟨rfl, rfl⟩⟩
  simp [hc, hr] at hi

/-- Every command goes on and keeps the guard: by what each of the ten commands that change a kept field changes, and since
the others change none. -/
theorem exec_guards (i : Instr) (s : State) : ∃ t, exec i s = .next t ∧ Guards i s t := by
  have kept {i : Instr} {t : State} (h : t.fixed = s.fixed) : Guards i s t := .of_fixed h (.refl i s)
  cases hi : Instr.changesFixed i
  case false =>
    obtain ⟨t, ht, hfixed⟩ := exec_fixed i s hi
    exact ⟨t, ht, kept hfixed⟩
  case true =>
    match i, hi with
    | .fatalEntry, _ =>
      obtain ⟨t, ht, hfixed⟩ := execFatalEntry_fixed s
      exact ⟨t, ht, .of_fixed hfixed (.of_same rfl rfl rfl rfl rfl)⟩
    | .fatalLatchClear a b, _ =>
      obtain ⟨t, ht, hfixed | hfixed⟩ := execFatalLatchClear_fixed a b s
      · exact ⟨t, ht, kept hfixed⟩
      · exact ⟨t, ht, .of_fixed hfixed (.of_same rfl rfl rfl rfl rfl)⟩
    | .bootSequence m x, _ =>
      obtain ⟨t, ht, hfixed | hfixed | ⟨k, hfixed⟩⟩ := execBootSequence_fixed m x s
      · exact ⟨t, ht, kept hfixed⟩
      · exact ⟨t, ht, .of_fixed hfixed (.boot m x (by split <;> rfl))⟩
      · exact ⟨t, ht, .of_fixed hfixed (.raiseFloor k (.boot m x (by split <;> rfl)))⟩
    | .fwActivate, _ =>
      obtain ⟨t, ht, k, hfixed⟩ := execFwActivate_fixed s
      exact ⟨t, ht, .of_fixed hfixed (.raiseFloor k (.refl _ s))⟩
    | .quote, _ =>
      obtain ⟨t, ht, hfixed | hfixed⟩ := execQuote_fixed s
      · exact ⟨t, ht, kept hfixed⟩
      · exact ⟨t, ht, .of_fixed (hfixed.trans (State.takeSig_fixed s)) (.of_same rfl rfl rfl rfl rfl)⟩
    | .claim, _ =>
      obtain ⟨t, ht, hfixed | ⟨k, -, hfixed⟩⟩ := execClaim_fixed s
      · exact ⟨t, ht, kept hfixed⟩
      · exact ⟨t, ht, .of_fixed hfixed (.setKey (.inl rfl) s k)⟩
    | .rekey, _ =>
      obtain ⟨t, ht, hfixed | ⟨k, hfixed⟩⟩ := execRekey_fixed s
      · exact ⟨t, ht, kept hfixed⟩
      · exact ⟨t, ht, .of_fixed hfixed (.setKey (.inr rfl) s k)⟩
    | .tagWrite, _ =>
      obtain ⟨t, ht, htag⟩ := execTagWrite_fixed s
      exact ⟨t, ht, .of_tagOnly (.inl rfl) htag⟩
    | .tagLock, _ =>
      obtain ⟨t, ht, htag⟩ := execTagLock_fixed s
      exact ⟨t, ht, .of_tagOnly (.inr (.inl rfl)) htag⟩
    | .setaddr, _ =>
      obtain ⟨t, ht, htag⟩ := execSetaddr_fixed s
      exact ⟨t, ht, .of_tagOnly (.inr (.inr rfl)) htag⟩

/-- Settles O4: that a command goes on is part of what is known of its next state. -/
theorem everyCommandGoesOn : Obligations.EveryCommandGoesOn := by
  intro i s
  obtain ⟨t, ht, -⟩ := exec_guards i s
  exact ⟨t, ht⟩

/-- What a command goes on with keeps the guard. -/
theorem guards_of_next {i : Instr} {s u : State} (h : exec i s = .next u) : Guards i s u := by
  obtain ⟨t, ht, hguards⟩ := exec_guards i s
  cases h.symm.trans ht
  exact hguards

/-- Settles O58: whatever a command goes on with, it has kept the guard. -/
theorem keysFusesAndTagAreaAreGuarded : Obligations.KeysFusesAndTagAreaAreGuarded :=
  ⟨fun _ _ _ h => (guards_of_next h).fuses, fun _ _ _ h => ⟨(guards_of_next h).opKey, (guards_of_next h).bootEpoch⟩,
    fun _ _ _ h => (guards_of_next h).tag⟩

end Sys2Proof.Machine
end

section
/-! The Ethernet port: its link, addresses, flow control, congestion notices, and the checks of a received frame (O40: R356
to R358, R360, R364, R365). -/

namespace Sys2Proof.Machine

/-! The link, addresses and flow control. -/

section
variable {s : State}

theorem exec_ethLinkUp_trained (hpgood : s.boot.pgood = true) (hcause : s.fatal.cause = 0) (htraining : s.eth.training = true) :
    exec .ethLinkUp s = .next (({ s with eth := { s.eth with
      training := false, link := true, half := s.eth.advHalf, everUp := true } } : State).ethResume.dhcpStart) :=
  congrArg Host.Outcome.next (if_pos (by simp [hpgood, hcause, htraining]))

theorem exec_ethHalfWidthFallback_neverUp (htraining : s.eth.training = true) (hnever : s.eth.everUp = false) :
    exec .ethHalfWidthFallback s = .next { s with eth := { s.eth with advHalf := true } } :=
  congrArg Host.Outcome.next (if_pos (by simp [htraining, hnever]))

variable (hruns : s.ethRuns = true)
include hruns

theorem exec_ethLinkLoss_runs : exec .ethLinkLoss s = .next { s with eth := { s.eth with
    link := false, half := false, training := true, advHalf := false, paused := 0, xoff := 0 } } :=
  congrArg Host.Outcome.next (if_pos hruns)

theorem exec_pfcFrameReceive_runs (en pa : BitVec 8) : exec (.pfcFrameReceive en pa) s = .next
    (({ s with eth := { s.eth with paused := (s.eth.paused &&& ~~~en) ||| (pa &&& en) } } : State).ethResume) :=
  congrArg Host.Outcome.next (if_pos hruns)

/-- Detection ends for an address that the package may take and does not have yet (R360). -/
theorem exec_addrDadComplete_mayTake {a : BitVec 128} (hown : s.ownAddr a = false) (hmay : s.eth.mayTake a = true) (ok : Bool) :
    exec (.addrDadComplete a ok) s = .next (
      if ok then { s with eth := { s.eth with addrs := s.eth.addrs ++ [a], learned := s.eth.learned.filter (· ≠ a) } }
      else ({ s with eth := { s.eth with learned := s.eth.learned.filter (· ≠ a) } } : State).orStat .eth 0 8) :=
  congrArg Host.Outcome.next (if_neg (by simp [hruns, hown, hmay]))

/-! Connections and their congestion notices (R365, R368). -/

/-- A request on a connection is handled while the port carries frames. -/
theorem State.rdmaConn_eq {q : Nat} {k : Conn} (hconn : s.conn q = some k) (f : State → Conn → State) :
    s.rdmaConn q f = f s k := by
  simp only [State.rdmaConn, hruns, hconn, if_true]

section
variable {q : BitVec 24} {k : Conn} (hconn : s.conn q.toNat = some k)
include hconn

theorem exec_cnpReceive_halves : exec (.cnpReceive q) s = .next
    ((s.setConn q.toNat { k with rate := k.rate / 2, cnpGot := some s.timeNs }).count .eth 0 3 1 0 1) :=
  congrArg Host.Outcome.next (State.rdmaConn_eq hruns hconn _)

/-- A rate that no notice has lowered stays. -/
theorem exec_cnpRateRaise_full (hgot : k.cnpGot = none) : exec (.cnpRateRaise q) s = .next s := by
  refine congrArg Host.Outcome.next ((State.rdmaConn_eq hruns hconn _).trans ?_)
  simp only [hgot]

variable {t : Nat} (hgot : k.cnpGot = some t)
include hgot

theorem exec_cnpRateRaise_early (hearly : s.timeNs < t + 55000) : exec (.cnpRateRaise q) s = .next s := by
  refine congrArg Host.Outcome.next ((State.rdmaConn_eq hruns hconn _).trans ?_)
  simp only [hgot, if_pos hearly]

theorem exec_cnpRateRaise_due {rate : Nat} (hdue : t + 55000 ≤ s.timeNs) (hrate : min 1000000000 (k.rate + 50000000) = rate) :
    exec (.cnpRateRaise q) s = .next (s.setConn q.toNat
      { k with rate := rate, cnpGot := if rate = 1000000000 then none else some s.timeNs }) := by
  subst hrate
  refine congrArg Host.Outcome.next ((State.rdmaConn_eq hruns hconn _).trans ?_)
  simp only [hgot, if_neg (Nat.not_lt.mpr hdue)]

end

/-! A received frame: its FEC, then the room in its buffer (R356, R364). -/

theorem exec_ethFrameReceive_badFec (m : List Byte) (occ : List Nat) :
    exec (.ethFrameReceive m ⟨false, occ⟩) s = .next ((s.raise .eth 0 1 {}).ethDrop 4) := by
  show execEthFrameReceive m ⟨false, occ⟩ s = _
  simp only [execEthFrameReceive, hruns, Bool.not_true, Bool.not_false, Bool.false_eq_true, if_false, if_true]

/-- The receive buffers act first; then the frame is handed on, or dropped for want of room. -/
theorem exec_ethFrameReceive_goodFec {m : List Byte} {occ : List Nat} {s1 : State} (hs1 : s.pfcBuffers occ = s1) :
    exec (.ethFrameReceive m ⟨true, occ⟩) s = .next (
      if s1.ethRoom (frameClass m) (occ.getD (frameClass m) 0) m.length = true then s1.ethFrame m
      else if s1.eth.netrec.pfcMask.testBit (frameClass m) = true then (s1.raise .eth 0 2 {}).ethDrop 5
      else s1.ethDrop 5) := by
  subst hs1
  show execEthFrameReceive m ⟨true, occ⟩ s = _
  simp only [execEthFrameReceive, hruns, Bool.not_true, Bool.false_eq_true, if_false]

end

/-! The length and the FCS of a frame that is handed on (R356, R358). -/

theorem State.ethFrame_badLength (s : State) {m : List Byte} (hlen : m.length < 64 ∨ 9220 < m.length) :
    s.ethFrame m = s.ethDrop 2 := by
  refine if_pos (hlen.imp_right fun hlong => ?_)
  split <;> omega

theorem State.ethFrame_badFcs (s : State) {m : List Byte} (hmin : 64 ≤ m.length) (hmax : m.length ≤ 9216)
    (hfcs : fcs (m.take (m.length - 4)) ≠ m.drop (m.length - 4)) : s.ethFrame m = s.ethDrop 1 := by
  refine (if_neg (not_or.mpr ⟨Nat.not_lt.mpr hmin, ?_⟩)).trans (if_pos hfcs)
  split <;> omega

/-- Settles O40: each row has its effect where its condition holds, and a frame with good FEC is judged by the room in its
buffer, its length and its FCS. -/
theorem ethernetLinkAndFrames : Obligations.EthernetLinkAndFrames := by
  refine ⟨?rows, ?frames⟩
  case rows =>
    intro s a en pa q k t e conn learned rate
    refine ⟨exec_ethLinkUp_trained, exec_ethLinkLoss_runs, exec_ethHalfWidthFallback_neverUp,
      fun hruns hown hmay => ⟨exec_addrDadComplete_mayTake hruns hown hmay true,
        exec_addrDadComplete_mayTake hruns hown hmay false⟩,
      fun hruns => exec_pfcFrameReceive_runs hruns en pa,
      fun hruns hconn => ⟨exec_cnpReceive_halves hruns hconn,
        fun hgot hdue => exec_cnpRateRaise_due hruns hconn hgot hdue rfl, ?noRise⟩⟩
    rintro (hgot | ⟨hgot, hearly⟩)
    · exact exec_cnpRateRaise_full hruns hconn hgot
    · exact exec_cnpRateRaise_early hruns hconn hgot hearly
  case frames =>
    intro s m occ hruns p s1 room
    have hframe : exec (.ethFrameReceive m ⟨true, occ⟩) s = .next (if room = true then s1.ethFrame m
        else if s1.eth.netrec.pfcMask.testBit p = true then (s1.raise .eth 0 2 {}).ethDrop 5 else s1.ethDrop 5) :=
      exec_ethFrameReceive_goodFec hruns rfl
    rw [hframe]
    refine ⟨exec_ethFrameReceive_badFec hruns m occ, fun hfull hlossless => ?_, fun hfull hlossy => ?_,
      fun hroom hlen => ?_, fun hroom hmin hmax hfcs => ?_, fun hroom => ?_⟩
    · rw [if_neg (Bool.eq_false_iff.mp hfull), if_pos hlossless]
    · rw [if_neg (Bool.eq_false_iff.mp hfull), if_neg (Bool.eq_false_iff.mp hlossy)]
    · rw [if_pos hroom, s1.ethFrame_badLength hlen]
    · rw [if_pos hroom, s1.ethFrame_badFcs hmin hmax hfcs]
    · rw [if_pos hroom]

end Sys2Proof.Machine
end

section
/-! RDMA WRITE, READ and SEND (O41: R318, R322, R324, R367 to R371, R374, R506). -/

namespace Sys2Proof.Machine

/-- A WRITE after its check: it lands and is then acknowledged, or is answered with the check's NAK (R370). -/
def State.landWrite (s : State) (q f : Nat) (d : List Byte) : Except Nat (List (Nat × Nat × Nat)) → State
  | .error code => s.rdmaNak q f code
  | .ok ps => ((s.writePieces ps d false).count .win 0 2 1 f d.length).answer q .ack

/-- A READ after its check: its bytes, or the NAK of poisoned ones or of the check (R324). -/
def State.fetchRead (s : State) (q f n : Nat) : Except Nat (List (Nat × Nat × Nat)) → State
  | .error code => s.rdmaNak q f code
  | .ok ps =>
    let (s1, bs, poisoned, _) := s.readPieces ps
    if poisoned then s1.rdmaNak q f 0x63 else (s1.count .win 0 2 0 f n).answer q (.data bs)

theorem State.fetchRead_clean {s s1 : State} {q f n : Nat} {ps : List (Nat × Nat × Nat)} {bs : List Byte} {u : Bool}
    (hread : s.readPieces ps = (s1, bs, false, u)) :
    s.fetchRead q f n (.ok ps) = (s1.count .win 0 2 0 f n).answer q (.data bs) := by
  simp only [State.fetchRead, hread, Bool.false_eq_true, if_false]

theorem State.fetchRead_poisoned {s s1 : State} {q f n : Nat} {ps : List (Nat × Nat × Nat)} {bs : List Byte} {u : Bool}
    (hread : s.readPieces ps = (s1, bs, true, u)) : s.fetchRead q f n (.ok ps) = s1.rdmaNak q f 0x63 := by
  simp only [State.fetchRead, hread, if_true]

section
variable {s : State} {q : BitVec 24} {k : Conn} (hruns : s.ethRuns = true) (hconn : s.conn q.toNat = some k)
include hruns hconn

/-! WRITE, by the region that its key names (R369). -/

section
variable {key : W32} {va : W64} {d : List Byte}

theorem exec_rdmaWrite_noRegion (hregion : s.region k.fn key = .none) :
    exec (.rdmaWrite q key va d) s = .next (s.rdmaNak q.toNat k.fn 0x62) := by
  refine congrArg Host.Outcome.next ((State.rdmaConn_eq hruns hconn _).trans ?_)
  simp only [hregion]

theorem exec_rdmaWrite_window_tacked (hregion : s.region k.fn key = .window) (htack : s.tacked = true) :
    exec (.rdmaWrite q key va d) s = .next (s.answer q.toNat .rnr) := by
  refine congrArg Host.Outcome.next ((State.rdmaConn_eq hruns hconn _).trans ?_)
  simp only [hregion, htack, if_true]

theorem exec_rdmaWrite_window (hregion : s.region k.fn key = .window) (htack : s.tacked = false) :
    exec (.rdmaWrite q key va d) s =
      .next (s.landWrite q.toNat k.fn d (s.windowReq k.fn va.toNat d.length true)) := by
  refine congrArg Host.Outcome.next ((State.rdmaConn_eq hruns hconn _).trans ?_)
  simp only [hregion, htack, Bool.false_eq_true, if_false]
  rfl

theorem exec_rdmaWrite_entry (hregion : s.region k.fn key = .ring) (htack : s.tacked = false) (hentry : va.toNat < 2 ^ 40) :
    exec (.rdmaWrite q key va d) s =
      .next (s.landWrite q.toNat k.fn d (s.entryReq k.fn va.toNat d.length true)) := by
  refine congrArg Host.Outcome.next ((State.rdmaConn_eq hruns hconn _).trans ?_)
  simp only [hregion, htack, ge_iff_le, if_neg (Nat.not_le.mpr hentry), Bool.false_eq_true, if_false]
  rfl

theorem exec_rdmaWrite_doorbell (hregion : s.region k.fn key = .ring) (hdoor : 2 ^ 40 ≤ va.toNat)
    (hform : va.toNat % 8 = 0 ∧ (d.length = 4 ∨ d.length = 8)) :
    exec (.rdmaWrite q key va d) s =
      .next (s.rdmaDoorbell q.toNat k.fn ((va.toNat - 2 ^ 40) / 8) (BitVec.ofNat 32 (leVal (d.take 4)))) := by
  refine congrArg Host.Outcome.next ((State.rdmaConn_eq hruns hconn _).trans ?_)
  simp only [hregion, ge_iff_le, if_pos hdoor, if_pos hform]

end

/-! READ: beyond 16 outstanding ones none is served (R369). -/

section
variable {key : W32} {va : W64} {n : Nat}

theorem exec_rdmaRead_beyond (hfull : 16 ≤ s.eth.outstanding q.toNat) :
    exec (.rdmaRead q key va n) s = .next (s.rdmaNak q.toNat k.fn 0x61) :=
  congrArg Host.Outcome.next ((State.rdmaConn_eq hruns hconn _).trans (if_pos hfull))

variable (hroom : s.eth.outstanding q.toNat < 16)
include hroom

theorem exec_rdmaRead_noRegion (hregion : s.region k.fn key = .none) :
    exec (.rdmaRead q key va n) s = .next (s.rdmaNak q.toNat k.fn 0x62) := by
  refine congrArg Host.Outcome.next ((State.rdmaConn_eq hruns hconn _).trans ((if_neg (Nat.not_le.mpr hroom)).trans ?_))
  simp only [hregion]

theorem exec_rdmaRead_window (hregion : s.region k.fn key = .window) :
    exec (.rdmaRead q key va n) s = .next (s.fetchRead q.toNat k.fn n (s.windowReq k.fn va.toNat n false)) := by
  refine congrArg Host.Outcome.next ((State.rdmaConn_eq hruns hconn _).trans ((if_neg (Nat.not_le.mpr hroom)).trans ?_))
  simp only [hregion]
  rfl

end

/-! SEND: the next buffer of the function's first core (R371). -/

section
variable {c : Nat} {l : List Nat} {d : List Byte} (hcores : s.coresOf k.fn = c :: l) (hlen : d.length ≤ 9216)
include hcores hlen

theorem exec_rdmaSend_noBuffer (hempty : (s.core c).rxDone = (s.core c).rxTail) :
    exec (.rdmaSend q d) s = .next (s.answer q.toNat .rnr) := by
  refine congrArg Host.Outcome.next ((State.rdmaConn_eq hruns hconn _).trans ?_)
  simp only [hcores, List.head?_cons, gt_iff_lt, if_neg (Nat.not_lt.mpr hlen), hempty, decide_true, Bool.or_true, if_true]

theorem exec_rdmaSend_fills {s1 : State} (htack : s.tacked = false) (hrunning : (s.fn k.fn).st = .running)
    (hposted : (s.core c).rxDone ≠ (s.core c).rxTail) (hfill : s.fqFill k.fn c d = (s1, 0)) :
    exec (.rdmaSend q d) s = .next (s1.answer q.toNat .ack) := by
  refine congrArg Host.Outcome.next ((State.rdmaConn_eq hruns hconn _).trans ?_)
  simp only [hcores, List.head?_cons, gt_iff_lt, if_neg (Nat.not_lt.mpr hlen), htack, hrunning, hposted, hfill, ne_eq,
    not_true_eq_false, decide_false, Bool.or_self, Bool.false_eq_true, if_false]

end

end

/-- Settles O41: the key's region, the tack and the check of the range select what a request comes to. -/
theorem rdmaRequests : Obligations.RdmaRequests := by
  intro s s1 q key va d bs n code k ps c l a hruns hconn
  refine ⟨exec_rdmaWrite_noRegion hruns hconn, exec_rdmaRead_beyond hruns hconn, exec_rdmaRead_noRegion hruns hconn,
    fun hregion htack => ⟨fun hcheck => ?lands, fun hcheck => ?refused⟩, exec_rdmaWrite_window_tacked hruns hconn,
    fun hregion htack hentry hcheck => ?entry,
    fun hregion hdoor hword hlen => exec_rdmaWrite_doorbell hruns hconn hregion hdoor ⟨hword, hlen⟩,
    fun u hroom hregion hcheck hread => ?reads, fun u hroom hregion hcheck hread => ?poisoned,
    fun hcores hlen => exec_rdmaSend_fills hruns hconn hcores hlen,
    fun hcores hlen _ _ => exec_rdmaSend_noBuffer hruns hconn hcores hlen⟩
  case lands => rw [exec_rdmaWrite_window hruns hconn hregion htack, hcheck, State.landWrite]
  case refused => rw [exec_rdmaWrite_window hruns hconn hregion htack, hcheck, State.landWrite]
  case entry => rw [exec_rdmaWrite_entry hruns hconn hregion htack hentry, hcheck, State.landWrite]
  case reads => rw [exec_rdmaRead_window hruns hconn hroom hregion, hcheck, State.fetchRead_clean hread]
  case poisoned => rw [exec_rdmaRead_window hruns hconn hroom hregion, hcheck, State.fetchRead_poisoned hread]

end Sys2Proof.Machine
end

section
/-! Frames of the stitch chain, what the taken ones do, and the chain's characters and losses (O42: R378 to R385,
Tables 13.6 and 13.7). -/

namespace Sys2Proof.Machine

/-! A frame as it arrives (R379, R380). -/

/-- A taken frame of a type that Table 13.6 lists joins those that wait. -/
def State.chainTake (s : State) (b : List Byte) : State :=
  if 1 ≤ beAt b 0 1 ∧ beAt b 0 1 ≤ 6 then { s with stch := { s.stch with inbox := s.stch.inbox ++ [b] } } else s

/-- Of the frames that are `mine` those of a listed type join the ones that wait, and no other frame does. -/
theorem State.chainTake_when (s : State) (b : List Byte) (mine : Prop) [Decidable mine] :
    (if mine then s.chainTake b else s) = if mine ∧ 1 ≤ beAt b 0 1 ∧ beAt b 0 1 ≤ 6
      then { s with stch := { s.stch with inbox := s.stch.inbox ++ [b] } } else s := by
  by_cases hmine : mine
  · simp only [hmine, if_true, true_and, State.chainTake]
  · simp only [hmine, if_false, false_and]

/-- A frame is as long as its LEN says, and its LEN is one that a frame may have (R379). -/
def ChainWhole (m : List Byte) : Prop := beAt m 4 2 ≤ 256 ∧ m.length = 8 + beAt m 4 2

section
variable {s : State} {m : List Byte} (hruns : s.chainRuns = true)
include hruns

theorem exec_stchFrameReceive_miscoded : exec (.stchFrameReceive m false) s = .next (s.chainDrop 1) := by
  show execStchFrameReceive m false s = _
  simp [execStchFrameReceive, hruns]

theorem exec_stchFrameReceive_notWhole (h : ¬ ChainWhole m) :
    exec (.stchFrameReceive m true) s = .next (s.chainDrop 1) := by
  have hbad : beAt m 4 2 > 256 ∨ m.length ≠ 8 + beAt m 4 2 := by
    unfold ChainWhole at h
    omega
  show execStchFrameReceive m true s = _
  simp [execStchFrameReceive, hruns, hbad]

variable {b : List Byte} (hwhole : ChainWhole m) (hb : m.take (6 + beAt m 4 2) = b)
include hwhole hb

/-- What becomes of a whole frame: its check decides first, then whom it is for. -/
theorem exec_stchFrameReceive_whole :
    exec (.stchFrameReceive m true) s = .next (
      if chainCrc b ≠ m.drop (6 + beAt m 4 2) then s.chainDrop 0
      else
        let own := beAt b 1 1 = s.stch.index ∧ beAt b 1 1 < 0xFE
        let t := if beAt b 1 1 = 0xFF ∨ own then s.chainTake b else s
        if own ∨ (beAt b 1 1 = 0xFF ∧ beAt b 0 1 = 1 ∧ beAt m 4 2 = 1) then t else t.chainForward b) := by
  obtain ⟨hmax, hlen⟩ := hwhole
  subst hb
  show execStchFrameReceive m true s = _
  simp only [execStchFrameReceive, hruns, hlen, Nat.not_lt.mpr hmax, State.chainTake_when, Bool.not_true, Bool.false_eq_true,
    if_false, ne_eq, not_true_eq_false, decide_false, Bool.or_self, Bool.and_eq_true, Bool.or_eq_true, decide_eq_true_eq, and_assoc]

theorem exec_stchFrameReceive_badCrc (hcrc : chainCrc b ≠ m.drop (6 + beAt m 4 2)) :
    exec (.stchFrameReceive m true) s = .next (s.chainDrop 0) := by
  rw [exec_stchFrameReceive_whole hruns hwhole hb, if_pos hcrc]

variable (hcrc : chainCrc b = m.drop (6 + beAt m 4 2))
include hcrc

theorem exec_stchFrameReceive_own (hdest : beAt b 1 1 = s.stch.index) (hmax : beAt b 1 1 < 0xFE) :
    exec (.stchFrameReceive m true) s = .next (s.chainTake b) := by
  have hown : beAt b 1 1 = s.stch.index ∧ beAt b 1 1 < 0xFE := ⟨hdest, hmax⟩
  rw [exec_stchFrameReceive_whole hruns hwhole hb, if_neg (not_not_intro hcrc)]
  dsimp only
  rw [if_pos (.inl hown), if_pos (.inr hown)]

theorem exec_stchFrameReceive_other (hother : beAt b 1 1 ≠ s.stch.index ∨ beAt b 1 1 = 0xFE) (hall : beAt b 1 1 ≠ 0xFF) :
    exec (.stchFrameReceive m true) s = .next (s.chainForward b) := by
  rw [exec_stchFrameReceive_whole hruns hwhole hb, if_neg (not_not_intro hcrc)]
  dsimp only
  rw [if_neg (by omega), if_neg (by omega)]

theorem exec_stchFrameReceive_all (hall : beAt b 1 1 = 0xFF) (henum : ¬ (beAt b 0 1 = 1 ∧ beAt m 4 2 = 1)) :
    exec (.stchFrameReceive m true) s = .next ((s.chainTake b).chainForward b) := by
  rw [exec_stchFrameReceive_whole hruns hwhole hb, if_neg (not_not_intro hcrc)]
  dsimp only
  rw [if_neg (by omega), if_pos (.inl hall)]

theorem exec_stchFrameReceive_enum (hall : beAt b 1 1 = 0xFF) (htype : beAt b 0 1 = 1) (hlen : beAt m 4 2 = 1) :
    exec (.stchFrameReceive m true) s = .next { s with stch := { s.stch with inbox := s.stch.inbox ++ [b] } } := by
  rw [exec_stchFrameReceive_whole hruns hwhole hb, if_neg (not_not_intro hcrc)]
  dsimp only
  rw [if_pos (.inr ⟨hall, htype, hlen⟩), if_pos (.inl hall), State.chainTake, if_pos (by omega)]

end

/-! What the taken frames do (R381 to R384). -/

/-- The first waiting frame that `ok` selects is `b`, and the chain logic runs. -/
def ChainTakes (s : State) (ok : List Byte → Bool) (b : List Byte) (rest : List (List Byte)) : Prop :=
  s.chainRuns = true ∧ takeFirst ok s.stch.inbox = some (b, rest)

theorem State.takeFrame_eq {s : State} {ok : List Byte → Bool} {b : List Byte} {rest : List (List Byte)}
    (h : ChainTakes s ok b rest) (f : State → List Byte → State) :
    s.takeFrame ok f = f { s with stch := { s.stch with inbox := rest } } b := by
  obtain ⟨hruns, htake⟩ := h
  simp only [State.takeFrame, hruns, htake, if_true]

section
variable {s s1 : State} {b : List Byte} {rest : List (List Byte)}
  (hs1 : { s with stch := { s.stch with inbox := rest } } = s1)
include hs1

theorem exec_enumFrame_numbers (h : ChainTakes s (fun b => beAt b 0 1 = 1) b rest) (hlen : (chainPayload b).length = 1) :
    exec .enumFrame s = .next (({ s1 with stch := { s1.stch with index := beAt (chainPayload b) 0 1 } } : State).chainForward
      (b.take 6 ++ beBytes 1 (min 254 (beAt (chainPayload b) 0 1 + 1)))) := by
  subst hs1
  refine congrArg Host.Outcome.next ((State.takeFrame_eq h _).trans ?_)
  simp only [hlen, ne_eq, not_true_eq_false, if_false]

theorem exec_ping_answers (h : ChainTakes s (fun b => beAt b 0 1 = 3) b rest) :
    exec .ping s = .next (s1.chainReply 3 (chainPayload b)) := by
  subst hs1
  exact congrArg Host.Outcome.next (State.takeFrame_eq h _)

theorem exec_resetReq_empty (h : ChainTakes s (fun b => beAt b 0 1 = 4) b rest) (hempty : chainPayload b = []) :
    exec .resetReq s = .next (if s.fatal.cause ≠ 0 then s1.chainReply 4 [1] else (s1.chainReply 4 [0]).doReset) := by
  subst hs1
  refine congrArg Host.Outcome.next ((State.takeFrame_eq h _).trans ?_)
  simp only [hempty, List.isEmpty_nil, Bool.not_true, Bool.false_eq_true, if_false]

theorem State.boardWarn_works {kind : Byte} {warn : Bool}
    (h : ChainTakes s (fun b => beAt b 0 1 = 5 && chainPayload b = [kind]) b rest)
    (hworks : s.boot.pgood = true ∧ s.fatal.cause = 0) :
    s.boardWarn kind warn = s1.pwrStep (fun s => { s with pwr := { s.pwr with hostWarn := warn } }) := by
  subst hs1
  refine (State.takeFrame_eq h _).trans (if_pos ?_)
  simp only [hworks, decide_true, Bool.and_self]

theorem exec_stchSkelist_receives (h : ChainTakes s (fun b => beAt b 0 1 = 6) b rest) (hpgood : s.boot.pgood = true)
    (hfail : s.boot.fail ≠ 2) (hcause : s.fatal.cause ≠ 1) (hcode : chainCodes.contains (beAt (chainPayload b) 0 2) = true) :
    exec .stchSkelist s = .next ((s1.receiveMsg (chainPayload b) .chain).chainRefuse s.thm.queue.length) := by
  subst hs1
  refine congrArg Host.Outcome.next ((State.takeFrame_eq h _).trans ?_)
  simp only [hpgood, hfail, hcause, hcode, Bool.not_true, decide_false, Bool.or_self, Bool.false_eq_true, if_false]

/-! SETADDR (R382). -/

variable (h : ChainTakes s (fun b => beAt b 0 1 = 2) b rest) (hserves : s1.chainServes = true)
  (hlen : (chainPayload b).length = 2)
include h hserves hlen

theorem exec_setaddr_busy (hrunning : s1.noneRunning = false) : exec .setaddr s = .next (s1.chainReply 2 [1]) := by
  subst hs1
  refine congrArg Host.Outcome.next ((State.takeFrame_eq h _).trans ?_)
  simp only [hserves, hlen, hrunning, ne_eq, not_true_eq_false, Bool.not_true, Bool.not_false, Bool.false_eq_true,
    if_false, if_true]

/-- The address takes effect at once; a wanted store follows unless the tag area is locked. -/
theorem exec_setaddr_sets {v : Nat} {addr : State} (hrunning : s1.noneRunning = true) (hv : beAt (chainPayload b) 0 2 = v)
    (haddr : { s1 with fab := { s1.fab with addr := some (v % 2 ^ 14) } } = addr) :
    exec .setaddr s = .next (
      if tb v 15 = false then addr.chainReply 2 [0]
      else if s.flash.locked = true then addr.chainReply 2 [2]
      else ({ addr with flash := addr.flash.tagWrite 24 (toLe 2 (v % 2 ^ 14 + 2 ^ 15)) } : State).chainReply 2 [0]) := by
  subst hs1 hv haddr
  refine congrArg Host.Outcome.next ((State.takeFrame_eq h _).trans ?_)
  simp only [hserves, hlen, hrunning, ne_eq, not_true_eq_false, Bool.not_true, Bool.false_eq_true, if_false, Bool.not_eq_true']

end

/-! The chain's own characters, losses and idle times (R378, R385). -/

section
variable {s : State} (hruns : s.chainRuns = true)
include hruns

theorem exec_upstreamLost_reports (hlost : s.stch.upstreamLost = false) :
    exec .upstreamLost s = .next (({ s with stch := { s.stch with upstreamLost := true } } : State).boardEvent 3) :=
  congrArg Host.Outcome.next (if_pos (by simp [hruns, hlost]))

theorem exec_upstreamLostRepeat_reports (hlost : s.stch.upstreamLost = true) :
    exec .upstreamLostRepeat s = .next (s.boardEvent 3) :=
  congrArg Host.Outcome.next (if_pos (by simp [hruns, hlost]))

theorem exec_stchCharacterReceive_ends (ctl : Bool) (ch : Byte) :
    exec (.stchCharacterReceive ctl ch) s = .next { s with stch := { s.stch with upstreamLost := false } } :=
  congrArg Host.Outcome.next (if_pos hruns)

theorem exec_stchNullSend_sends : exec .stchNullSend s =
    .next { s with stch := { s.stch with out := s.stch.out ++ [s.stch.own.headD []], own := s.stch.own.drop 1 } } :=
  congrArg Host.Outcome.next (if_pos hruns)

end

/-- Settles O42: an arriving frame is judged by its coding and length, its check and whom it is for; each row then takes
the first waiting frame of its type and does what that type asks. -/
theorem chainFrames : Obligations.ChainFrames := by
  refine ⟨?arrives, ?takes⟩
  case arrives =>
    intro s m n b dest type s1 whole good mine hruns
    exact ⟨exec_stchFrameReceive_miscoded hruns, exec_stchFrameReceive_notWhole hruns,
      fun hwhole => exec_stchFrameReceive_badCrc hruns hwhole rfl,
      fun ⟨hwhole, hcrc⟩ => exec_stchFrameReceive_own hruns hwhole rfl hcrc,
      fun ⟨hwhole, hcrc⟩ => exec_stchFrameReceive_other hruns hwhole rfl hcrc,
      fun ⟨hwhole, hcrc⟩ => exec_stchFrameReceive_all hruns hwhole rfl hcrc,
      fun ⟨hwhole, hcrc⟩ => exec_stchFrameReceive_enum hruns hwhole rfl hcrc⟩
  case takes =>
    intro s b rest ctl ch p v s1 addr K enum works
    refine ⟨exec_enumFrame_numbers rfl, fun h hserves hlen hrunning => ?setaddr, exec_setaddr_busy rfl, exec_ping_answers rfl,
      fun h hempty hcause => ?resets, fun h hempty hcause => ?fatal,
      fun h hworks => congrArg Host.Outcome.next (State.boardWarn_works rfl h hworks),
      fun h hworks => congrArg Host.Outcome.next (State.boardWarn_works rfl h hworks), exec_stchSkelist_receives rfl,
      exec_upstreamLost_reports, exec_upstreamLostRepeat_reports, fun hruns => exec_stchCharacterReceive_ends hruns ctl ch,
      exec_stchNullSend_sends⟩
    case setaddr =>
      rw [exec_setaddr_sets rfl h hserves hlen hrunning rfl rfl]
      refine ⟨fun hstore => ?_, fun hstore hlocked => ?_, fun hstore hlocked => ?_⟩
      · rw [if_pos hstore]
      · rw [if_neg (Bool.not_eq_false _ ▸ hstore), if_pos hlocked]
      · rw [if_neg (Bool.not_eq_false _ ▸ hstore), if_neg (Bool.not_eq_true _ ▸ hlocked)]
    case resets => rw [exec_resetReq_empty rfl h hempty, if_neg (not_not_intro hcause)]
    case fatal => rw [exec_resetReq_empty rfl h hempty, if_pos hcause]

end Sys2Proof.Machine
end

section
/-! The states of the fabric's ports and the USE bits (O43: R390, R393, R394, R407, R410, R484, Tables 14.1 and 14.3). -/

namespace Sys2Proof.Machine

/-! USE bits (R410). -/

/-- The bit that a power of two sets. -/
theorem getLsbD_ofNat_two_pow {w p : Nat} (i : Nat) (hp : p < w) : (BitVec.ofNat w (2 ^ i)).getLsbD p = decide (i = p) := by
  rw [BitVec.getLsbD_ofNat, Nat.testBit_two_pow, decide_eq_true hp, Bool.true_and]

/-- Of the bits that a list names those that are wanted are set, and every other bit stays. -/
theorem getLsbD_foldl_setBit {w : Nat} (want : Nat → Bool) (l : List Nat) (u : BitVec w) {p : Nat} (hp : p < w) :
    (l.foldl (fun (u : BitVec w) i => if want i then u ||| BitVec.ofNat w (2 ^ i) else u) u).getLsbD p =
      (u.getLsbD p || (l.contains p && want p)) := by
  induction l generalizing u with
  | nil => rw [List.foldl_nil, List.contains_nil, Bool.false_and, Bool.or_false]
  | cons i l ih =>
    have hbit : (if want i then u ||| BitVec.ofNat w (2 ^ i) else u).getLsbD p = (u.getLsbD p || (p == i && want p)) := by
      by_cases hpi : p = i
      · subst hpi
        rw [beq_self_eq_true, Bool.true_and]
        by_cases hwant : want p = true
        · rw [if_pos hwant, BitVec.getLsbD_or, getLsbD_ofNat_two_pow p hp, decide_eq_true rfl, hwant]
        · rw [if_neg hwant, eq_false_of_ne_true hwant, Bool.or_false]
      · rw [beq_false_of_ne hpi, Bool.false_and, Bool.or_false]
        by_cases hwant : want i = true
        · rw [if_pos hwant, BitVec.getLsbD_or, getLsbD_ofNat_two_pow i hp, decide_eq_false (Ne.symm hpi), Bool.or_false]
        · rw [if_neg hwant]
    rw [List.foldl_cons, ih, hbit, List.contains_cons, Bool.and_or_distrib_right, Bool.or_assoc]

theorem State.writeUse_use (s : State) (v : BitVec 20) {p : Nat} (hp : p < 20) :
    (s.writeUse v).fab.use.getLsbD p =
      (v.getLsbD p && (s.fab.use.getLsbD p || (!s.portAbsent p && (s.port p).st.active))) :=
  (getLsbD_foldl_setBit _ _ _ hp).trans (by simp [hp])

/-- The two states in which a port carries packets (Table 14.3). -/
theorem PortSt.active_iff {x : PortSt} : x.active = true ↔ x = .active8 ∨ x = .active4 := by
  cases x <;> simp [PortSt.active]

section
variable {s : State} {p : PortId} (hruns : s.portRuns p = true)
include hruns

/-! Link-up (R390, R393). -/

section
variable {x : Partner} {lanes m : BitVec 8} (hm : s.goodLanes p lanes = m)
include hm

/-- Four good lanes of a half let a port that trains or retrains meet its partner. -/
theorem exec_lnkLinkUp_meets {met : State} (hmet : s.onPort p (fun y => { y with partner := some x }) = met)
    (hst : (s.port p).st = .training ∨ (s.port p).st = .retrain) (hfour : m &&& 0x0F = 0x0F ∨ m &&& 0xF0 = 0xF0) :
    exec (.lnkLinkUp p x lanes) s = .next (
      if partnerFits p x = true then met.enterService p m (decide (m &&& 0x0F ≠ 0x0F)) (decide (m = 0xFF))
      else (met.leaveService p .miswired).raise .lnk p 32 {}) := by
  subst hm hmet
  have htrains : ¬ (!s.portRuns p || !((s.port p).st = .training || (s.port p).st = .retrain)) = true := by
    rcases hst with htraining | hretrain
    · simp [hruns, htraining]
    · simp [hruns, hretrain]
  refine congrArg Host.Outcome.next ((if_neg htrains).trans ((if_neg ?lanes).trans ?fits))
  case lanes =>
    simp only [Bool.and_eq_true, Bool.not_eq_true', decide_eq_false_iff_not, decide_eq_true_eq]
    exact fun ⟨hlow, hhigh⟩ => hfour.elim hlow hhigh
  case fits => simp only [decide_not, Bool.not_eq_true', ← Bool.not_eq_true, ite_not]

theorem exec_lnkLinkUp_fewLanes (hst : (s.port p).st = .training) (hfew : ¬ (m &&& 0x0F = 0x0F ∨ m &&& 0xF0 = 0xF0)) :
    exec (.lnkLinkUp p x lanes) s = .next (s.portGo p .down) := by
  subst hm
  refine congrArg Host.Outcome.next ((if_neg (by simp [hruns, hst])).trans ((if_pos ?lanes).trans (if_pos hst)))
  simp only [Bool.and_eq_true, Bool.not_eq_true', decide_eq_false_iff_not, decide_eq_true_eq]
  exact not_or.mp hfew

end

/-! Retraining (R393). -/

theorem exec_lnkRetrain_active (cause : RetrainCause) (hactive : (s.port p).st.active = true) :
    exec (.lnkRetrain p cause) s = .next ((s.portGo p .retrain).raise .lnk p 2 {}) := by
  refine congrArg Host.Outcome.next ((if_neg (by simp [hruns, hactive])).trans ?_)
  rw [if_pos hactive]

theorem exec_lnkRetrain_miswired (cause : RetrainCause) (hst : (s.port p).st = .miswired) :
    exec (.lnkRetrain p cause) s = .next ((s.portGo p .training).raise .lnk p 2 {}) := by
  refine congrArg Host.Outcome.next ((if_neg (by simp [hruns, hst])).trans ?_)
  rw [if_neg (by simp [hst, PortSt.active])]

theorem exec_lnkRetrainTimeout_down (hst : (s.port p).st = .retrain) :
    exec (.lnkRetrainTimeout p) s = .next (s.leaveService p .down) :=
  congrArg Host.Outcome.next (if_pos (by simp [hruns, hst]))

/-! DOWN and back (R394, R407). -/

theorem exec_lnkDownRetry_trains (hst : (s.port p).st = .down) (horder : 8 ≤ s.boot.order) :
    exec (.lnkDownRetry p) s = .next (s.portGo p .training) :=
  congrArg Host.Outcome.next (if_pos (by simp [hruns, hst, horder]))

theorem exec_fenceOrderedSetReceive_down (hst : (s.port p).st ≠ .fenced) :
    exec (.fenceOrderedSetReceive p) s = .next (s.leaveService p .down) :=
  congrArg Host.Outcome.next (if_pos (by simp [hruns, hst]))

theorem exec_portLeaveService_down (hservice : (s.port p).st.inService = true) :
    exec (.portLeaveService p) s = .next (s.leaveService p .down) :=
  congrArg Host.Outcome.next (if_pos (by simp [hruns, hservice]))

theorem exec_lnkSysUseWrite_writes (use : BitVec 20) : exec (.lnkSysUseWrite use) s = .next (s.writeUse use) := by
  obtain ⟨hpower, -⟩ := Bool.and_eq_true_iff.mp hruns
  exact congrArg Host.Outcome.next (if_pos hpower)

end

/-- Settles O43: the state of the port and its good lanes select what a row does; USE is set bit by bit. -/
theorem portStates : Obligations.PortStates := by
  refine ⟨?rows, fun s v p hp => s.writeUse_use v hp⟩
  intro s p x lanes cause use hruns st m met four
  refine ⟨fun hst hfour hfits => ?fits, fun hst hfour hfits => ?miswired, exec_lnkLinkUp_fewLanes hruns rfl,
    fun hst => exec_lnkRetrain_active hruns cause (PortSt.active_iff.mpr hst), exec_lnkRetrain_miswired hruns cause,
    exec_lnkRetrainTimeout_down hruns, exec_lnkDownRetry_trains hruns, exec_fenceOrderedSetReceive_down hruns,
    exec_portLeaveService_down hruns, exec_lnkSysUseWrite_writes hruns use⟩
  case fits => rw [exec_lnkLinkUp_meets hruns rfl rfl hst hfour, if_pos hfits]
  case miswired => rw [exec_lnkLinkUp_meets hruns rfl rfl hst hfour, if_neg (Bool.not_eq_true _ ▸ hfits)]

end Sys2Proof.Machine
end

section
/-! Peer entries, slices, routes and connections by command (O33: R368, R382, R402, R403, R405, R410, Tables 14.5 to 14.8). -/

namespace Sys2Proof.Machine

section
variable {s s0 : State} {r : Req}

/-! PEER_WRITE and SLICE_SET (R402, R405). -/

section
variable {f first : Nat} (hf : beAt r.payload 0 2 = f) (hfirst : beAt r.payload 2 2 = first) (hop : r.notOperator = false)
  (hidle : f < 1024 ∧ (s0.fn f).st = .stopped ∧ s0.longOn f = false ∧ s0.tacked = false)
include hf hfirst hop hidle

/-- A PEER_WRITE whose entries are all right writes them from its first index on. -/
theorem execPeerWrite_ok {n : Nat} {es : List (Option Peer)} (h : Takes s 0x0701 r s0) (hn : beAt r.payload 4 1 = n)
    (hes : (List.range n).map (fun i => peerEntry (s0.fn f).slice ((r.payload.drop (8 + 8 * i)).take 8)) = es)
    (hpay : payOk r.payload [(0, 2), (2, 2), (4, 1), (8, 8 * n)] = true) (hmin : 1 ≤ n) (hmax : n ≤ 27)
    (hend : first + n ≤ 16384) (hgood : none ∉ es) :
    exec .peerWrite s = .next ((s0.onFn f (fun x => { x with
      peers := es.zipIdx.foldl (fun (m : SMap Peer) e => m.set {} (first + e.2) (e.1.getD {})) x.peers })).reply r stOk []) := by
  have hany : es.any Option.isNone = false := by
    rw [List.any_eq_false]
    rintro (_ | e) he
    · exact absurd he hgood
    · simp
  subst hf hfirst hn hes
  obtain ⟨hf, hst, hlong, htack⟩ := hidle
  refine congrArg Host.Outcome.next (command_ok h ?_)
  simp only [List.forall_mem_cons, hop, hst, hpay, hany, busyFor_of_idle ⟨hst, hlong, htack⟩, Bool.not_true, Bool.false_or,
    Bool.or_false, Bool.or_eq_false_iff, decide_eq_false_iff_not, true_and]
  exact ⟨by simp, by omega, List.forall_mem_nil _⟩

/-- Slice 0 is always granted, another where the package has an address and the table of slices has it or has room. -/
theorem execSliceSet_ok (h : Takes s 0x0702 r s0) (hpay : payOk r.payload [(0, 2), (2, 2)] = true) (hmax : first ≤ 4095)
    (hroom : first = 0 ∨ s0.fab.addr.isSome = true ∧ (first ∈ s0.slicesBut f ∨ (s0.slicesBut f).length < 64)) :
    exec .sliceSet s = .next ((s0.onFn f (fun x => { x with slice := first, peers := [] })).reply r stOk []) := by
  have hfree : (decide (first ≠ 0) && (s0.fab.addr.isNone || (!(s0.slicesBut f).contains first &&
      decide ((s0.slicesBut f).length ≥ 64)))) = false := by
    rcases hroom with hzero | ⟨haddr, hheld | hroom⟩
    · simp [hzero]
    · simp [haddr, hheld]
    · simp [haddr, hroom]
  subst hf hfirst
  obtain ⟨hf, hst, hlong, htack⟩ := hidle
  refine congrArg Host.Outcome.next (command_ok h ?_)
  simp only [List.forall_mem_cons, hop, hpay, hfree, busyFor_of_idle ⟨hst, hlong, htack⟩]
  simp [hf, hst, hmax]

end

/-! ROUTE_WRITE (R382, R403, R410). -/

/-- The entries of a ROUTE_WRITE. -/
def routeEntries (p : List Byte) : List Nat := (List.range (beAt p 1 1)).map (fun i => beAt p (8 + 8 * i) 8)

section
variable (h : Takes s 0x0703 r s0) (hop : r.notOperator = false)
  (hpay : payOk r.payload [(0, 1), (1, 1), (8, 8 * beAt r.payload 1 1)] = true) (htack : s0.tacked = false)
include h hop hpay htack

/-- The system entry sets the sizes of the axes, which change only where no function runs, and writes USE. -/
theorem execRouteWrite_system {e : Nat} (he : beAt r.payload 8 8 = e)
    (hpart : s0.fuses.part = 3 → e % 256 = 0 ∧ e / 2 ^ 8 % 2 ^ 20 < 2 ^ 14)
    (hkind : beAt r.payload 0 1 = 0) (hone : beAt r.payload 1 1 = 1) (hsizes : s0.fab.sameSizes e = true ∨ s0.noneRunning = true) :
    exec .routeWrite s = .next ((({ s0 with
      fab := { s0.fab with xsM1 := e % 8, ysM1 := e / 8 % 8, zsM1 := e / 64 % 4 } } : State).writeUse
        (BitVec.ofNat 20 (e / 256 % 2 ^ 20))).reply r stOk []) := by
  have htorus : (s0.fuses.part = 3 && (e % 256 ≠ 0 || e / 2 ^ 8 % 2 ^ 20 ≥ 2 ^ 14)) = false := by simpa using hpart
  have hrun : (!s0.fab.sameSizes e && !s0.noneRunning) = false := by
    rcases hsizes with hsame | hnone
    · simp [hsame]
    · simp [hnone]
  have hhead : (routeEntries r.payload).headD 0 = e := by simp [routeEntries, hone, he]
  unfold routeEntries at hhead
  refine congrArg Host.Outcome.next ((command_ok h ?_).trans ?_)
  · simp only [List.forall_mem_cons, hkind, hhead, hop, hpay, htack, if_true, htorus, hrun]
    simp [hone]
  · simp only [hkind, hhead, if_true]

/-- Slice entries are written where each names a slice, none of which is the slice of a function that runs or stops, and the
table has room for them. -/
theorem execRouteWrite_slices {rs : List Nat} {x : Fab} (hrs : routeEntries r.payload = rs)
    (hpart : s0.fuses.part = 3 → ∀ v ∈ rs, v / 2 ^ 17 % 8 = 0)
    (hkind : beAt r.payload 0 1 = 1) (hmin : 1 ≤ beAt r.payload 1 1) (hmax : beAt r.payload 1 1 ≤ 27)
    (hslice : ∀ v ∈ rs, v % 4096 ≠ 0)
    (hfree : ∀ f ∈ s0.fns, f.2.st = .running ∨ f.2.st = .stopping → ∀ v ∈ rs, v % 4096 ≠ f.2.slice)
    (hroom : s0.fab.writeRoutes (rs.map routeImage) = some x) :
    exec .routeWrite s = .next ({ s0 with fab := x }.reply r stOk []) := by
  have htorus : (s0.fuses.part = 3 && rs.any (fun v => v / 2 ^ 17 % 8 ≠ 0)) = false := by
    simpa using hpart
  have hbad : rs.any (fun v => v % 4096 = 0) = false := by
    simpa [List.any_eq_false] using hslice
  have hrun : s0.fns.any (fun x => (x.2.st = .running || x.2.st = .stopping) && rs.any (fun v => v % 4096 = x.2.slice)) = false := by
    simpa [List.any_eq_false] using hfree
  unfold routeEntries at hrs
  refine congrArg Host.Outcome.next ((command_ok h ?_).trans ?_)
  · simp only [List.forall_mem_cons, hkind, hrs, hop, hpay, htack, hbad, hrun, hroom, Nat.one_ne_zero, if_false, htorus]
    simp [hmax, Nat.ne_of_gt hmin]
  · simp only [hkind, hrs, hroom, Nat.one_ne_zero, if_false, Option.getD_some]

end

/-! ROUTE_READ (Table 14.5). -/

section
variable (h : Takes s 0x0704 r s0) (hop : r.notOperator = false) (hpay : payOk r.payload [(0, 1), (1, 1), (2, 1)] = true)
include h hop hpay

theorem execRouteRead_system (hkind : beAt r.payload 0 1 = 0) (hfirst : beAt r.payload 1 1 = 0) (hone : beAt r.payload 2 1 = 1) :
    exec .routeRead s = .next (s0.reply r stOk (beBytes 8 s0.fab.sysReg)) :=
  congrArg Host.Outcome.next ((command_ok h (by simp [hop, hpay, hkind, hfirst, hone])).trans (by rw [if_pos hkind]))

theorem execRouteRead_slices (hkind : beAt r.payload 0 1 = 1) (hmin : 1 ≤ beAt r.payload 2 1) (hmax : beAt r.payload 2 1 ≤ 28)
    (hend : beAt r.payload 1 1 + beAt r.payload 2 1 ≤ 64) :
    exec .routeRead s = .next (s0.reply r stOk ((List.range (beAt r.payload 2 1)).flatMap (fun i =>
      beBytes 8 (s0.fab.routes.get 0 (beAt r.payload 1 1 + i)).toNat))) :=
  congrArg Host.Outcome.next ((command_ok h (by simp [hop, hpay, hkind, Nat.ne_of_gt hmin, hmax, hend])).trans
    (by rw [if_neg (by simp [hkind])]))

end

/-! WIN_CONNECT and WIN_CLOSE (R368). -/

/-- The connection that a WIN_CONNECT makes: its PSN and keys are free values. -/
def newConn (r : Req) (v : Nat → W32) : Conn :=
  let p := r.payload
  { fn := r.fn, gid := BitVec.ofNat 128 (beAt p 0 16), peerQpn := BitVec.ofNat 24 (beAt p 16 4),
    peerPsn := BitVec.ofNat 24 (beAt p 20 4), mtu := beAt p 24 2, psn := (v 1).truncate 24, rkeyWin := v 2, rkeyRing := v 3 }

theorem execWinConnect_ok {v : Nat → W32} {c : Conn} {q : Nat} (h : Takes s 0x0503 r s0)
    (hv : (fun i => Config.connValue (s0.freeCtr + i)) = v)
    (hc : newConn r v = c) (hq : s0.freeQpn 1024 ((v 0).toNat % 2 ^ 24) = q)
    (hpay : payOk r.payload [(0, 16), (16, 4), (20, 4), (24, 2)] = true) (hqpn : beAt r.payload 16 4 < 2 ^ 24)
    (hpsn : beAt r.payload 20 4 < 2 ^ 24) (hmtu : beAt r.payload 24 2 ∈ [1024, 2048, 4096]) (htack : s0.tacked = false)
    (hown : (s0.eth.conns.filter (fun e => e.2.map (·.fn) = some r.fn)).length < 16) (hall : s0.eth.conns.length < 1024) :
    exec .winConnect s =
      .next (({ s0 with freeCtr := s0.freeCtr + 4, eth := { s0.eth with conns := s0.eth.conns.set none q (some c) } } : State).reply
        r stOk (beBytes 4 q ++ beBytes 4 c.psn.toNat ++ beBytes 4 c.rkeyWin.toNat ++ beBytes 4 c.rkeyRing.toNat)) := by
  subst hv hc hq
  refine congrArg Host.Outcome.next (command_ok h ?_)
  have hsize : (beAt r.payload 24 2 = 1024 || beAt r.payload 24 2 = 2048 || beAt r.payload 24 2 = 4096) = true := by
    simpa [or_assoc] using hmtu
  simp only [List.forall_mem_cons, hpay, htack, hsize, Bool.not_true, Bool.false_or, Bool.or_false, Bool.or_eq_false_iff,
    decide_eq_false_iff_not, true_and]
  exact ⟨by omega, by omega, List.forall_mem_nil _⟩

theorem execWinClose_ok {q : Nat} (h : Takes s 0x0504 r s0) (hq : beAt r.payload 0 4 = q) (hpay : payOk r.payload [(0, 4)] = true)
    (hown : (s0.conn q).map (·.fn) = some r.fn) (htack : s0.tacked = false) :
    exec .winClose s = .next ({ s0 with eth := { s0.eth with conns := s0.eth.conns.set none q none } }.reply r stOk []) := by
  subst hq
  exact congrArg Host.Outcome.next (command_ok h (by simp [hpay, hown, htack]))

end

/-- Settles O33: none of the conditions of the command holds, so it takes effect. -/
theorem fabricAndConnectionCommands : Obligations.FabricAndConnectionCommands := by
  intro s s0 r x p f first n op idle es put k e sized rs v q c
  refine ⟨fun h hop hidle => execPeerWrite_ok rfl rfl hop hidle h rfl rfl, fun h hop hidle => execSliceSet_ok rfl rfl hop hidle h,
    fun h hop hpart hpay htack => ⟨fun hkind => ?system, fun hkind => ?slices⟩,
    fun h hop hpay => ⟨execRouteRead_system h hop hpay, execRouteRead_slices h hop hpay⟩,
    fun h => execWinConnect_ok h rfl rfl rfl, fun h => execWinClose_ok h rfl⟩
  case system => exact execRouteWrite_system h hop hpay htack rfl (by rwa [if_pos hkind] at hpart) hkind
  case slices => exact execRouteWrite_slices h hop hpay htack rfl (by rwa [if_neg (by simp [hkind])] at hpart) hkind

end Sys2Proof.Machine
end

section
/-! Collectives join their group's queue, take a slot and buffer space, end at their time limit and complete (O37: R415 to
R419, R425, R428, R430 to R433). -/

namespace Sys2Proof.Machine

/-! COLLECTIVE and BARRIER (R415 to R419). -/

/-- The collective that a ring command names before its group record has been read. -/
def Coll.ofCmd (f r : Nat) (barrier : Bool) (k : RCmd) : Coll :=
  { fn := f, ring := r, idx := k.idx, raw := k.raw, quad := r / 2048, barrier := barrier, opseq := 0,
    group := { id := 0, addr := fld k.raw 16 0 64, size := 0, rank := 0, timeoutUs := 0, vpkgs := [], addrs := [], fns := [] } }

/-- A collective stands last in the queue, with the next sequence number of its group (R419). -/
def State.joinGroup (s : State) (c : Coll) : State :=
  let n := (s.opseqs.get 0 (c.fn * 65536 + c.group.id) + 1) % 65536
  { s with opseqs := s.opseqs.set 0 (c.fn * 65536 + c.group.id) n, colls := s.colls ++ [{ c with opseq := n }] }

/-- The accesses that a collective's ranges need (R417). -/
def State.rangeChecks (s : State) (c : Coll) : List SlabRes :=
  c.srcRanges.map (fun p => s.slabCheck c.fn none p.1 p.2 false false) ++
    c.dstRanges.map (fun p => s.slabCheck c.fn none p.1 p.2 true false)

theorem State.rangeChecks_allowed {s : State} {c : Coll}
    (hsrc : ∀ p ∈ c.srcRanges, (s.slabCheck c.fn none p.1 p.2 false false).isOk = true)
    (hdst : ∀ p ∈ c.dstRanges, (s.slabCheck c.fn none p.1 p.2 true false).isOk = true) :
    (s.rangeChecks c).filter (fun x => !x.isOk) = [] := by
  rw [List.filter_eq_nil_iff]
  intro x hx
  rcases List.mem_append.mp hx with h | h <;> obtain ⟨p, hp, rfl⟩ := List.mem_map.mp h
  · simp [hsrc p hp]
  · simp [hdst p hp]

/-- None of the causes of R437 applies, so the collective joins its group. -/
theorem State.collStart_joins {s1 s2 : State} {r : Nat} {b : Bool} {k : RCmd} {ps : List (Nat × Nat × Nat)} {g : Group} {c : Coll}
    (hhead : s1.slabCheck (s1.ring r).fn none (fld k.raw 16 0 64) 64 true false = .ok ps)
    (hbody : (Coll.ofCmd (s1.ring r).fn r b k).badBody = false)
    (hload : s1.loadGroup (s1.ring r).fn (fld k.raw 16 0 64) ps = (s2, some g))
    (hc : { Coll.ofCmd (s1.ring r).fn r b k with group := g } = c)
    (hsize : c.badSize = false) (hoverlap : s2.collOverlap c = false)
    (hranges : (s2.rangeChecks c).filter (fun x => !x.isOk) = [])
    (hring : g.multiRack = true → (s2.ring r).group = true) :
    s1.collStart r b k = s2.joinGroup c := by
  have hrack : (g.multiRack && !(s2.ring r).group) = false := by simpa using hring
  subst hc
  unfold Coll.ofCmd at hbody hsize hoverlap hranges
  unfold State.rangeChecks at hranges
  simp only [State.collStart, hhead, SlabRes.isOk_ok, SlabRes.pieces_ok, hbody, hload, hsize, hoverlap, hrack,
    Bool.not_true, Bool.or_self, Bool.false_eq_true, if_false, hranges, List.isEmpty_nil]
  rfl

theorem exec_collStart {s s1 : State} {r : RingId} {b : Bool} {k : RCmd} (h : Begins s r (if b then 6 else 5) k s1) :
    exec (if b then .ringBarrier r else .ringCollective r) s = .next (s1.collStart r b k) := by
  cases b
  case false => exact congrArg Host.Outcome.next (State.runCmd_begins (fun s c => s.collStart r false c) h)
  case true => exact congrArg Host.Outcome.next (State.runCmd_begins (fun s c => s.collStart r true c) h)

/-! COLL_ADMIT: a slot, and buffer space (R419, R425). -/

/-- A collective holds a slot and waits for buffer space. -/
def Coll.awaitsSpace (c : Coll) : Bool := c.admitted && !c.running && c.abort = 0

section
variable {s : State} {c : Coll} (hlive : s.live = true)
include hlive

theorem exec_collAdmit_runs (hfirst : s.colls.find? Coll.awaitsSpace = some c) (hfits : s.collFits c = true) :
    exec .collAdmit s = .next (s.collRun c) := by
  unfold Coll.awaitsSpace at hfirst
  show Host.Outcome.next (if !s.live then s else _) = _
  simp only [hlive, hfirst, Option.filter_some, hfits, if_true, Bool.not_true, Bool.false_eq_true, if_false]

/-- Only a collective that needs no buffer space runs before one that waits for it. -/
theorem exec_collAdmit_begins {first : Option Coll} (hfirst : s.colls.find? Coll.awaitsSpace = first)
    (hwaits : first.filter s.collFits = none) (hmay : s.colls.find? s.collMayStart = some c) :
    exec .collAdmit s = .next (if (s.collBegin c).1.collFits (s.collBegin c).2 = true ∧ (first = none ∨ 2 < c.opc)
      then (s.collBegin c).1.collRun (s.collBegin c).2 else (s.collBegin c).1) := by
  have hruns : ((s.collBegin c).1.collFits (s.collBegin c).2 && (first.isNone || (s.collBegin c).2.opc > 2)) = true ↔
      (s.collBegin c).1.collFits (s.collBegin c).2 = true ∧ (first = none ∨ 2 < c.opc) := by
    rw [Bool.and_eq_true, Bool.or_eq_true, Option.isNone_iff_eq_none, decide_eq_true_iff]
    rfl
  subst hfirst
  unfold Coll.awaitsSpace at hwaits hruns
  show Host.Outcome.next (if !s.live then s else _) = _
  simp only [hlive, hwaits, hmay, Bool.not_true, Bool.false_eq_true, if_false, hruns]
  rfl

end

/-! COLL_TIMEOUT and COLL_COMPLETE (R430 to R432). -/

/-- A collective leaves the engines. -/
def State.dropColl (s : State) (c : Coll) : State :=
  { s with colls := s.colls.filter (fun d => !(d.fn = c.fn && d.group.id = c.group.id && d.opseq = c.opseq)) }

/-- The access to its group record that a collective's engine needs to complete it (R430). -/
def State.recordReach (s : State) (c : Coll) : Option (Nat × SlabRes) :=
  s.collReach c c.quad c.group.addr (64 + 16 * c.group.size) true

section
variable {s : State} {c : Coll} {f : FnId} {gid : BitVec 16} (hlive : s.live = true)
include hlive

theorem exec_collTimeout_aborts
    (hfind : s.colls.find? (fun c => c.fn = f.val && c.group.id = gid.toNat && c.admitted) = some c) :
    exec (.collTimeout f gid) s = .next (s.collAbort c 5) := by
  show Host.Outcome.next (if s.live then _ else s) = _
  rw [if_pos hlive, hfind]

variable {a : Arrive} (hcoll : s.collOf f gid.toNat = some c) (hdone : c.finished = true) (hfinal : c.final = some a)
include hcoll hdone hfinal

theorem exec_collComplete_ends (hreach : s.recordReach c = none) : exec (.collComplete f gid) s =
    .next ((((s.groupRecord c a).dropColl c).count .coll c.quad 5 0 c.fn 1).completeCmd c.ring c.idx) := by
  unfold State.recordReach at hreach
  show Host.Outcome.next (if s.live then _ else s) = _
  simp only [hlive, hcoll, hdone, hfinal, hreach, if_true]
  rfl

theorem exec_collComplete_fails {n : Nat} {x : SlabRes} (hreach : s.recordReach c = some (n, x)) :
    exec (.collComplete f gid) s = .next ((s.collFail c n x).1.putColl (s.collFail c n x).2) := by
  unfold State.recordReach at hreach
  show Host.Outcome.next (if s.live then _ else s) = _
  simp only [hlive, hcoll, hdone, hfinal, hreach, if_true]

end

/-- Settles O37: a command whose body, group and ranges raise no cause joins its group; each row then acts on the first
collective that it selects. -/
theorem collectivesAreQueuedAndRun : Obligations.CollectivesAreQueuedAndRun := by
  refine ⟨?queued, ?run⟩
  case queued =>
    intro s s1 s2 r k b ps g f a none0 c0 c n hbegins hhead hbody hload hsize hoverlap hsrc hdst hring
    rw [exec_collStart hbegins]
    exact congrArg Host.Outcome.next
      (State.collStart_joins hhead hbody hload rfl hsize hoverlap (State.rangeChecks_allowed hsrc hdst) hring)
  case run =>
    intro s c f gid a hlive b first gone reach
    exact ⟨exec_collAdmit_runs hlive, exec_collAdmit_begins hlive rfl, exec_collTimeout_aborts hlive,
      exec_collComplete_ends hlive, fun n r hcoll hdone hfinal => exec_collComplete_fails hlive hcoll hdone hfinal⟩

end Sys2Proof.Machine
end

section
/-! The packets of a running collective: PART, RESULT, DECLINE, GRANT and notices (O39: R423 to R425, R427 to R429, R433). -/

namespace Sys2Proof.Machine

/-- `p` is the first packet that the engines have received and that a row selects; `rest` are the others. -/
def ReceivesColl (s : State) (ok : FPkt → Bool) (p : FPkt) (rest : List FPkt) : Prop :=
  s.live = true ∧ takeFirst ok s.collIn = some (p, rest)

theorem State.takeColl_receives {s : State} {ok : FPkt → Bool} {p : FPkt} {rest : List FPkt} (f : State → FPkt → State)
    (h : ReceivesColl s ok p rest) : s.takeColl ok f = f { s with collIn := rest } p := by
  obtain ⟨hlive, hfirst⟩ := h
  simp only [State.takeColl, hlive, hfirst, if_true]

/-- A RESULT that has been taken is consumed from the grant of its sender, where its collective has not left the engines. -/
def State.consumeResult (s : State) (p : FPkt) (fromSwitch : Prop) [Decidable fromSwitch] : State :=
  match s.collFor p with
  | none => s
  | some d =>
    let x := s.collConsume d (if fromSwitch then 0x10000 else d.rankOf p) p.stage (d.grantQuad p.chunk)
    x.1.putColl x.2

theorem State.consumeResult_congr {s : State} {p : FPkt} {a b : Prop} [Decidable a] [Decidable b] (h : a ↔ b) :
    s.consumeResult p a = s.consumeResult p b := by
  simp only [State.consumeResult, h]

/-- The leader of a chunk in the tray at position `i` of this member's rack (R423). -/
def Group.ringLeader (g : Group) (ch i : Nat) : Nat := g.trayLeader ch ((g.trays (g.rackOf g.rank)).getD i 0)

/-- A DECLINE sends its chunk to the ring of tray leaders: this leader grants one chunk each to the
leader before it, where there is one, and to the last, where it is not the last itself (R427). -/
def State.declineGrants (s : State) (c : Coll) (ch : Nat) : State × Coll :=
  let g := c.group
  let n := (g.trays (g.rackOf g.rank)).length
  let gq := c.grantQuad ch
  let x := s.collConsume { c with chunks := c.chunks.modify {} ch (fun k => { k with declined := true }) } 0x10000 1 gq
  let y := if 0 < g.pos g.rank then x.1.collGrant x.2 (g.ringLeader ch (g.pos g.rank - 1)) 2 gq 1 else x
  if g.pos g.rank + 1 < n then y.1.collGrant y.2 (g.ringLeader ch (n - 1)) 2 gq 1 else y

/-- Chunks that a receiver has granted for a stage are added to what is held from it. -/
def Coll.addHeld (c : Coll) (rank stage n : Nat) : Coll :=
  { c with held := c.held.modify 0 (gKey rank stage) (· + n) }

theorem FPkt.otherCode_iff {p : FPkt} :
    (p.noticeCode < 2 || p.noticeCode > 4) = true ↔ ¬ (2 ≤ p.noticeCode ∧ p.noticeCode ≤ 4) := by
  simp only [Bool.or_eq_true, decide_eq_true_iff]
  omega

/-- What a notice of codes 2 to 4 does to its collective: one in progress that has not aborted aborts. -/
def State.noticeEnds (s : State) (p : FPkt) : Option Coll → State
  | some c => if c.abort = 0 then s.collAbort c 6 else s.noticeDrop p
  | none => s.noticeDrop p

section
variable {s s1 : State} {q : QuadId} {p : FPkt} {rest : List FPkt} {c : Coll} (hs1 : { s with collIn := rest } = s1)
include hs1

/-! PART, RESULT and DECLINE of a running collective (R423, R427, R428). -/

section
variable (hruns : s1.collFor p = some c ∧ c.running = true)
include hruns

theorem exec_collPartReceive (h : ReceivesColl s (fun p => p.kind = 8 && chunkQuad p.chunk = q) p rest)
    {s2 : State} {d : Coll} {v : ChunkVal} (hvalue : s1.collValue c p = (s2, d, v)) :
    exec (.collPartReceive q) s = .next (if d.reduced p.chunk
      then s2.collAdvance (d.addPart p.chunk p.stage (d.rankOf p) v) p.chunk else s2.collData d p.chunk (d.rankOf p) v) := by
  subst hs1
  refine congrArg Host.Outcome.next ((State.takeColl_receives _ h).trans ?_)
  simp only [Option.filter_eq_some_iff.mpr hruns, hvalue]

/-- A RESULT of stage 1 is the rack switch's where the chunk has gone to the switch and nothing has answered it. -/
theorem exec_collResultReceive (h : ReceivesColl s (fun p => p.kind = 9 && chunkQuad p.chunk = q) p rest)
    {s2 : State} {d : Coll} {v : ChunkVal} (hvalue : s1.collValue c p = (s2, d, v))
    {k : ChunkSt} (hk : c.chunks.get {} p.chunk = k) :
    exec (.collResultReceive q) s = .next ((s2.collAdvance
      { d with chunks := d.chunks.modify {} p.chunk (fun k => d.takeResult p.stage k v) } p.chunk).consumeResult p
        (p.stage = 1 ∧ k.sentRack = true ∧ k.rackVal = none ∧ k.declined = false)) := by
  subst hs1 hk
  refine congrArg Host.Outcome.next ((State.takeColl_receives _ h).trans ?_)
  simp only [Option.filter_eq_some_iff.mpr hruns, hvalue]
  exact State.consumeResult_congr (by simp [and_assoc])

theorem exec_collDeclineReceive (h : ReceivesColl s (fun p => p.kind = 10 && chunkQuad p.chunk = q) p rest)
    {z : State × Coll} (hz : ((s1.orStat .coll q (2 ^ 8)).count .coll q 2 0 c.fn 1).declineGrants c p.chunk = z) :
    exec (.collDeclineReceive q) s = .next ((z.1.putColl z.2).collAdvance z.2 p.chunk) := by
  subst hs1 hz
  refine congrArg Host.Outcome.next ((State.takeColl_receives _ h).trans ?_)
  simp only [Option.filter_eq_some_iff.mpr hruns]
  rfl

end

/-! GRANT (R425). -/

theorem exec_collGrantReceive
    (h : ReceivesColl s (fun p => p.kind = 11 && p.noticeCode = 1 && s.noticeQuad p = q && !s.grantEarly p) p rest)
    (hfor : s1.collFor p = some c) {d : Coll}
    (hd : c.addHeld (c.rankOf p) (p.aux / 2 ^ 56 % 4) (p.aux / 2 ^ 40 % 2 ^ 16) = d) :
    exec (.collGrantReceive q) s = .next ((s1.putColl d).collFlush d) := by
  subst hs1 hd
  refine congrArg Host.Outcome.next ((State.takeColl_receives _ h).trans ?_)
  simp only [hfor]
  rfl

/-! Notices of other codes (R433). -/

section
variable (h : ReceivesColl s (fun p => p.kind = 11 && p.noticeCode ≠ 1 && s.noticeQuad p = q) p rest)
include h

theorem exec_collNoticeReceive_otherCode (hcode : ¬ (2 ≤ p.noticeCode ∧ p.noticeCode ≤ 4)) :
    exec (.collNoticeReceive q) s = .next s1 := by
  subst hs1
  exact congrArg Host.Outcome.next ((State.takeColl_receives _ h).trans (if_pos (FPkt.otherCode_iff.mpr hcode)))

variable (hmin : 2 ≤ p.noticeCode) (hmax : p.noticeCode ≤ 4)
include hmin hmax

theorem exec_collNoticeReceive_stops :
    exec (.collNoticeReceive q) s = .next (s1.noticeEnds p ((s1.collFor p).filter (·.admitted))) := by
  have hstop : ¬ (p.noticeCode < 2 || p.noticeCode > 4) = true := fun hother => FPkt.otherCode_iff.mp hother ⟨hmin, hmax⟩
  subst hs1
  exact congrArg Host.Outcome.next ((State.takeColl_receives _ h).trans (if_neg hstop))

theorem exec_collNoticeReceive_aborts (hfor : s1.collFor p = some c) (hadmitted : c.admitted = true) (habort : c.abort = 0) :
    exec (.collNoticeReceive q) s = .next (s1.collAbort c 6) := by
  rw [exec_collNoticeReceive_stops hs1 h hmin hmax, Option.filter_eq_some_iff.mpr ⟨hfor, hadmitted⟩]
  exact congrArg Host.Outcome.next (if_pos habort)

theorem exec_collNoticeReceive_drops (hnone : (s1.collFor p).filter (·.admitted) = none) :
    exec (.collNoticeReceive q) s = .next (s1.noticeDrop p) := by
  rw [exec_collNoticeReceive_stops hs1 h hmin hmax, hnone]
  rfl

end

end

/-- Settles O39: each row takes the first packet for its engine and acts on the collective that the packet names. -/
theorem collectivePackets : Obligations.CollectivePackets := by
  intro s q p rest c s1 T runs v rank k n
  exact ⟨fun h hruns => exec_collPartReceive rfl hruns h rfl, fun h hruns => exec_collResultReceive rfl hruns h rfl rfl,
    fun h hruns => exec_collDeclineReceive rfl hruns h rfl, fun h hfor => exec_collGrantReceive rfl h hfor rfl,
    fun h hfor hadmitted hmin hmax habort => exec_collNoticeReceive_aborts rfl h hmin hmax hfor hadmitted habort,
    exec_collNoticeReceive_otherCode rfl, fun h hnone hmin hmax => exec_collNoticeReceive_drops rfl h hmin hmax hnone⟩

end Sys2Proof.Machine
end

section
/-! The queue, the latched cause and the signature indices under every step (O1, O2, O57, O59, O60: R465, R483, R486, R530). -/

namespace Sys2Proof.Machine

/-- The queue, the latched fatal cause, the signature block that flash has recorded and the next signature index. -/
def State.records (s : State) : List Instr × Nat × Nat × Nat := (s.pending, s.fatal.cause, s.flash.sigBlock, s.boot.nextSig)

theorem State.records_of_fixed {s t : State} (h : t.fixed = s.fixed) : t.records = s.records := by
  simp only [State.fixed, Prod.mk.injEq] at h
  obtain ⟨hpending, -, -, -, hcause, hblock, hnext, -⟩ := h
  simp only [State.records, hpending, hcause, hblock, hnext]

/-- What becomes of them: entry into the safe state latches a cause where none is latched, FATAL_LATCH_CLEAR with both supplies
removed clears it, a boot takes the indices from the recorded block, QUOTE uses an index, and nothing else changes one. -/
inductive Records (s t : State) : Instr → Prop
  | same (i : Instr) (h : t.records = s.records) : Records s t i
  | latches (hnone : s.fatal.cause = 0)
      (h : t.records = (s.pending, s.fatal.pendingCause, s.flash.sigBlock, s.boot.nextSig)) : Records s t .fatalEntry
  | clears (a b : Nat) (ha : a < 1000) (hb : b < 500)
      (h : t.records = (s.pending, 0, s.flash.sigBlock, s.boot.nextSig)) : Records s t (.fatalLatchClear a b)
  | boots (m : BitVec 2) (x : SelfTest)
      (h : t.records = (s.pending, s.fatal.cause, s.flash.sigBlock, s.flash.sigBlock * 4096)) : Records s t (.bootSequence m x)
  | signs (h : t.records = (s.pending, s.fatal.cause,
      if s.boot.nextSig / 4096 ≥ s.flash.sigBlock then s.boot.nextSig / 4096 + 1 else s.flash.sigBlock, s.boot.nextSig + 1)) :
      Records s t .quote

theorem Records.of_fixed {i : Instr} {s t u : State} (h : t.fixed = u.fixed) (hu : u.records = s.records) : Records s t i :=
  .same i ((State.records_of_fixed h).trans hu)

theorem execFatalEntry_records (s : State) : ∃ t, exec .fatalEntry s = .next t ∧ Records s t .fatalEntry := by
  obtain ⟨t, ht, hfixed⟩ := execFatalEntry_fixed s
  have hrecords := State.records_of_fixed hfixed
  refine ⟨t, ht, ?_⟩
  by_cases hnone : s.fatal.cause = 0
  · rw [if_pos hnone] at hrecords
    exact .latches hnone hrecords
  · rw [if_neg hnone] at hrecords
    exact .same _ hrecords

/-- Both supplies are removed (R486). -/
theorem exec_fatalLatchClear_removed {a b : Nat} (ha : a < 1000) (hb : b < 500) (s : State) :
    exec (.fatalLatchClear a b) s = .next { s.powerOff false false with fatal := {} } :=
  congrArg Host.Outcome.next (if_pos (by simp [ha, hb]))

theorem execFatalLatchClear_records (a b : Nat) (s : State) :
    ∃ t, exec (.fatalLatchClear a b) s = .next t ∧ Records s t (.fatalLatchClear a b) := by
  by_cases hremoved : a < 1000 ∧ b < 500
  · obtain ⟨ha, hb⟩ := hremoved
    refine ⟨_, exec_fatalLatchClear_removed ha hb s, .clears a b ha hb ?_⟩
    have hoff := State.records_of_fixed (State.powerOff_fixed s false false)
    simp only [State.records, Prod.mk.injEq] at hoff ⊢
    simp [hoff]
  · exact ⟨s, congrArg Host.Outcome.next (if_neg (by simpa using hremoved)), .same _ rfl⟩

theorem execBootSequence_records (m : BitVec 2) (x : SelfTest) (s : State) :
    ∃ t, exec (.bootSequence m x) s = .next t ∧ Records s t (.bootSequence m x) := by
  obtain ⟨t, ht, hfixed | hfixed | ⟨k, hfixed⟩⟩ := execBootSequence_fixed m x s <;> refine ⟨t, ht, ?_⟩
  · exact .same _ (State.records_of_fixed hfixed)
  · exact .same _ ((State.records_of_fixed hfixed).trans (by split <;> rfl))
  · exact .boots m x ((State.records_of_fixed hfixed).trans (by split <;> rfl))

theorem execQuote_records (s : State) : ∃ t, exec .quote s = .next t ∧ Records s t .quote := by
  obtain ⟨t, ht, hfixed | hfixed⟩ := execQuote_fixed s
  · exact ⟨t, ht, .same _ (State.records_of_fixed hfixed)⟩
  · exact ⟨t, ht, .signs (State.records_of_fixed (hfixed.trans (State.takeSig_fixed s)))⟩

/-- Every command goes on and does no more to them. -/
theorem exec_records (i : Instr) (s : State) : ∃ t, exec i s = .next t ∧ Records s t i := by
  cases hi : Instr.changesFixed i
  case false =>
    obtain ⟨t, ht, hfixed⟩ := exec_fixed i s hi
    exact ⟨t, ht, .same i (State.records_of_fixed hfixed)⟩
  case true =>
    match i, hi with
    | .fatalEntry, _ => exact execFatalEntry_records s
    | .fatalLatchClear a b, _ => exact execFatalLatchClear_records a b s
    | .bootSequence m x, _ => exact execBootSequence_records m x s
    | .quote, _ => exact execQuote_records s
    | .fwActivate, _ =>
      obtain ⟨t, ht, k, hfixed⟩ := execFwActivate_fixed s
      exact ⟨t, ht, .of_fixed hfixed rfl⟩
    | .claim, _ =>
      obtain ⟨t, ht, hfixed | ⟨k, -, hfixed⟩⟩ := execClaim_fixed s <;> exact ⟨t, ht, .of_fixed hfixed rfl⟩
    | .rekey, _ =>
      obtain ⟨t, ht, hfixed | ⟨k, hfixed⟩⟩ := execRekey_fixed s <;> exact ⟨t, ht, .of_fixed hfixed rfl⟩
    | .tagWrite, _ =>
      obtain ⟨t, ht, g, n, hfixed⟩ := execTagWrite_fixed s
      exact ⟨t, ht, .of_fixed hfixed rfl⟩
    | .tagLock, _ =>
      obtain ⟨t, ht, g, n, hfixed⟩ := execTagLock_fixed s
      exact ⟨t, ht, .of_fixed hfixed rfl⟩
    | .setaddr, _ =>
      obtain ⟨t, ht, g, n, hfixed⟩ := execSetaddr_fixed s
      exact ⟨t, ht, .of_fixed hfixed rfl⟩

theorem records_of_next {i : Instr} {s u : State} (h : exec i s = .next u) : Records s u i := by
  obtain ⟨t, ht, hrecords⟩ := exec_records i s
  cases h.symm.trans ht
  exact hrecords

theorem Records.pending {i : Instr} {s t : State} (h : Records s t i) : t.pending = s.pending := by
  cases h with
  | same _ h | latches _ h | clears _ _ _ _ h | boots _ _ h | signs h => exact congrArg Prod.fst h

/-- A latched cause is cleared with both supplies removed, and else stays. -/
theorem Records.cause {i : Instr} {s t : State} (h : Records s t i) (hlatched : s.fatal.cause ≠ 0)
    (hkept : ∀ a b, a < 1000 → b < 500 → i ≠ .fatalLatchClear a b) : t.fatal.cause = s.fatal.cause := by
  cases h with
  | same _ h | boots _ _ h | signs h => exact congrArg (·.2.1) h
  | latches hnone _ => exact absurd hnone hlatched
  | clears a b ha hb _ => exact absurd rfl (hkept a b ha hb)

/-- Neither the next signature index nor the recorded block falls, and the index stays within the block (R530). -/
def SignsOn (s t : State) : Prop :=
  s.boot.nextSig ≤ t.boot.nextSig ∧ s.flash.sigBlock ≤ t.flash.sigBlock ∧ t.boot.nextSig ≤ t.flash.sigBlock * 4096

/-- A boot goes on at the end of the recorded block; QUOTE records the next block before it uses its first index. -/
theorem Records.signsOn {i : Instr} {s t : State} (h : Records s t i) (hs : s.boot.nextSig ≤ s.flash.sigBlock * 4096) :
    SignsOn s t := by
  cases h with
  | same _ h | latches _ h | clears _ _ _ _ h | boots _ _ h =>
    simp only [State.records, Prod.mk.injEq] at h
    obtain ⟨-, -, hblock, hnext⟩ := h
    rw [SignsOn, hblock, hnext]
    omega
  | signs h =>
    simp only [State.records, Prod.mk.injEq] at h
    obtain ⟨-, -, hblock, hnext⟩ := h
    rw [SignsOn, hblock, hnext]
    split <;> omega

/-- A step idles, or runs the command at the front of the queue. -/
theorem step_cases {s t : State} (h : step s = .next t) :
    (s.pending = [] ∧ t = { s with timeNs := s.timeNs + 1 }) ∨
      ∃ c rest, s.pending = c :: rest ∧ Records { s with pending := rest } t c := by
  unfold step at h
  split at h
  case h_1 hempty => cases h; exact .inl ⟨hempty, rfl⟩
  case h_2 c rest hfront => exact .inr ⟨c, rest, hfront, records_of_next h⟩

/-- Settles O59: idling touches neither, and every command signs on. -/
theorem signatureIndicesNeverFall : Obligations.SignatureIndicesNeverFall := by
  intro s u hs hstep
  rcases step_cases hstep with ⟨-, rfl⟩ | ⟨c, rest, -, hrecords⟩
  · exact ⟨le_rfl, le_rfl, hs⟩
  · exact hrecords.signsOn hs

/-- Settles O57. -/
theorem fatalCauseStaysLatched : Obligations.FatalCauseStaysLatched :=
  fun _ _ _ hlatched hkept h => (records_of_next h).cause hlatched hkept

/-- Settles O2: an empty queue stays empty, and no command changes the queue that it is given. -/
theorem stepOnTheQueue : Obligations.StepOnTheQueue := by
  refine ⟨fun s hempty => by simp only [step, hempty], fun s t hstep => ?_⟩
  rcases step_cases hstep with ⟨hempty, rfl⟩ | ⟨c, rest, hfront, hrecords⟩
  · exact hempty.trans (congrArg List.tail hempty).symm
  · rw [hfront]
    exact hrecords.pending

/-- Settles O60: every memory is empty after reset, and the next index is the first of all. -/
theorem resetMeetsTheInvariants : Obligations.ResetMeetsTheInvariants := ⟨reset_memWf, Nat.zero_le _⟩

/-- Settles O1. -/
theorem stepRunsFrontCommand : Obligations.StepRunsFrontCommand := fun _ _ _ => rfl

end Sys2Proof.Machine
end

section
/-! ERR_FIRST and the counts of an error register after an event (O50: R474, R475, R477). -/

namespace Sys2Proof.Machine

section
variable (r : ErrRegs) (b : Blk) (m : Nat) (sc : Scope) (j : Bool)

/-- OVERFLOW joins the causes only where a cause was set before. -/
theorem ErrRegs.report_stat_cleared (h : r.stat = 0) : (r.report b m sc j).stat = BitVec.ofNat 32 m := by
  simp [ErrRegs.report, h]

/-- ERR_FIRST takes the event where it is not VALID or holds a lower class. -/
theorem ErrRegs.report_first : (r.report b m sc j).first =
    if r.first.toNat / 128 % 2 = 0 ∨ r.first.toNat / 32 % 4 < (b.maskCls m).code
    then BitVec.ofNat 32 (errImage (lowBit m 16) (b.maskCls m) sc j) else r.first := by
  simp [ErrRegs.report]

theorem ErrRegs.report_counts_corrected (h : b.maskCls m = .c) :
    (r.report b m sc j).corr = min (2 ^ 64 - 1) (r.corr + 1) ∧ (r.report b m sc j).uncorr = r.uncorr :=
  ⟨if_pos h, if_pos h⟩

theorem ErrRegs.report_counts_uncorrected (h : b.maskCls m ≠ .c) :
    (r.report b m sc j).uncorr = min (2 ^ 64 - 1) (r.uncorr + 1) ∧ (r.report b m sc j).corr = r.corr :=
  ⟨if_neg h, if_neg h⟩

end

/-- Settles O50: the registers of the event are what they report of it. -/
theorem errorRegistersLatchTheFirst : Obligations.ErrorRegistersLatchTheFirst := by
  intro s b i m sc j hm r q cls
  have hq : q = r.report b m sc j := State.raise_err s b i m sc j hm
  rw [hq]
  refine ⟨r.report_stat_cleared b m sc j, fun hfree => ?first, fun hvalid hlow => ?kept, fun _ hhigh => ?higher,
    r.report_counts_corrected b m sc j, r.report_counts_uncorrected b m sc j, rfl⟩ <;> rw [ErrRegs.report_first]
  case first => exact if_pos (.inl hfree)
  case kept => exact if_neg (not_or.mpr ⟨by omega, Nat.not_lt.mpr hlow⟩)
  case higher => exact if_pos (.inr hhigh)

end Sys2Proof.Machine
end

section
/-! Boot, the fatal latch and the time base: what reports, notices, services and the state changes of ports leave alone (for O48,
O49, O54 and O56). -/

namespace Sys2Proof.Machine

/-- What every step of a fold keeps, the fold keeps. -/
theorem foldl_keeps {α β : Type} (g : State → β) (f : State → α → State) (h : ∀ s a, g (f s a) = g s) (l : List α) (s : State) :
    g (l.foldl f s) = g s := by
  induction l generalizing s with
  | nil => rfl
  | cons a l ih => exact (ih (f s a)).trans (h s a)

/-- How far the boot has come, the fatal latch and the time base. -/
def State.standing (s : State) : Boot × Fatal × TimeB := (s.boot, s.fatal, s.timeBase)

theorem State.boot_of_standing {s t : State} (h : t.standing = s.standing) : t.boot = s.boot := congrArg Prod.fst h
theorem State.fatal_of_standing {s t : State} (h : t.standing = s.standing) : t.fatal = s.fatal := congrArg (·.2.1) h
theorem State.timeBase_of_standing {s t : State} (h : t.standing = s.standing) : t.timeBase = s.timeBase := congrArg (·.2.2) h

theorem foldl_standing {α : Type} (f : State → α → State) (h : ∀ s a, (f s a).standing = s.standing) (l : List α) (s : State) :
    (l.foldl f s).standing = s.standing := foldl_keeps State.standing f h l s

/-! Reports, notices and ports. -/

theorem State.count_standing (s : State) (b : Blk) (i e u f n : Nat) : (s.count b i e u f n).standing = s.standing :=
  (congrArg State.standing (s.count_apart b i e u f n) :)

theorem State.event_standing (s : State) (b : Blk) (i k : Nat) (f : Option Nat) (p : Nat) (j : Bool) :
    (s.event b i k f p j).standing = s.standing :=
  (congrArg State.standing (s.event_apart b i k f p j) :)

theorem State.triggerTack_standing (s : State) (o b : Nat) : (s.triggerTack o b).standing = s.standing := by
  unfold State.triggerTack
  split
  · rfl
  · exact State.event_standing _ _ _ _ _ _ _

theorem State.charge_standing (s : State) (f : Nat) (c : Charge) : (s.charge f c).standing = s.standing := by
  unfold State.charge
  split <;> rfl

theorem State.retireTally_standing (s : State) (b : Blk) (i m : Nat) : (s.retireTally b i m).standing = s.standing := by
  unfold State.retireTally
  split
  · rfl
  · split <;> rfl

theorem State.raise_standing (s : State) (b : Blk) (i m : Nat) (sc : Scope) (j : Bool) :
    (s.raise b i m sc j).standing = s.standing :=
  State.raise_keeps State.standing b i m sc j (fun _ _ => rfl) (fun s => s.retireTally_standing b i m)
    (fun s k f p => s.event_standing b i k f p j) State.triggerTack_standing State.charge_standing s

theorem State.boardEvent_standing (s : State) (k : Nat) : (s.boardEvent k).standing = s.standing := by
  unfold State.boardEvent State.chainOwn
  dsimp only
  split
  · exact (State.count_standing _ _ _ _ _ _ _).trans (State.raise_standing _ _ _ _ _ _)
  · rfl

theorem State.notify_standing (s : State) (f k : Nat) (p : List Byte) : (s.notify f k p).standing = s.standing := by
  unfold State.notify State.sendUdp
  dsimp only
  split
  · rfl
  · exact State.count_standing _ _ _ _ _ _ _

theorem State.portGo_standing (s : State) (p : Nat) (st : PortSt) : (s.portGo p st).standing = s.standing := by
  unfold State.portGo
  dsimp only
  split
  · rfl
  · exact State.event_standing _ _ _ _ _ _ _

/-! Self-test (Table 19.4). -/

theorem State.onTile_standing (s : State) (t : Nat) (f : Tile → Tile) : (s.onTile t f).standing = s.standing := rfl
theorem State.onSlab_standing (s : State) (t : Nat) (f : Slab → Slab) : (s.onSlab t f).standing = s.standing := rfl
theorem State.onFn_standing (s : State) (n : Nat) (f : Fn → Fn) : (s.onFn n f).standing = s.standing := rfl
theorem State.onRing_standing (s : State) (n : Nat) (f : Ring → Ring) : (s.onRing n f).standing = s.standing := rfl
theorem State.onCore_standing (s : State) (n : Nat) (f : HCore → HCore) : (s.onCore n f).standing = s.standing := rfl
theorem State.onDom_standing (s : State) (d : Nat) (f : Dom → Dom) : (s.onDom d f).standing = s.standing := rfl
theorem State.setFence_standing (s : State) (i : Nat) (v : W64) : (s.setFence i v).standing = s.standing := rfl
theorem State.setHalves_standing (s : State) (t : Nat) (d : Dir) (n : Nat) : (s.setHalves t d n).standing = s.standing := rfl

theorem State.dropPlb_standing (s : State) (f : Nat) : (s.dropPlb f).standing = s.standing :=
  foldl_standing _ (fun s _ => s.onTile_standing _ _) _ s

theorem State.retireEnter_standing (s : State) (t page : Nat) : (s.retireEnter t page).standing = s.standing := by
  unfold State.retireEnter
  dsimp only
  split
  · rfl
  · split
    · rfl
    · split
      · exact (State.notify_standing _ _ _ _).trans (State.dropPlb_standing _ _)
      · rfl

theorem State.retirePage_standing (s : State) (t page : Nat) : (s.retirePage t page).standing = s.standing := by
  unfold State.retirePage
  split
  · exact s.raise_standing _ _ _ _ _
  · exact s.retireEnter_standing t page

theorem State.failTile_standing (s : State) (t : Nat) : (s.failTile t).standing = s.standing := by
  unfold State.failTile
  split <;> rfl

theorem State.selfTest_standing (s : State) (x : SelfTest) : (s.selfTest x).standing = s.standing := by
  unfold State.selfTest State.fresh
  grind only [State.standing, foldl_standing, State.raise_standing, State.failTile_standing, State.retirePage_standing,
    State.setHalves_standing, State.onSlab_standing]

/-! Services (R353). -/

theorem State.seqGoto_standing (s : State) (t : Nat) (new : SeqState) : (s.seqGoto t new).standing = s.standing := by
  unfold State.seqGoto
  dsimp only
  split
  · rfl
  · exact State.event_standing _ _ _ _ _ _ _

theorem State.giveTile_standing (s : State) (f t first n : Nat) : (s.giveTile f t first n).standing = s.standing := by
  unfold State.giveTile
  dsimp only
  split <;> rfl

theorem State.setWindow_standing (s : State) (f set pages : Nat) (valid : Bool) :
    (s.setWindow f set pages valid).standing = s.standing := by
  unfold State.setWindow
  grind only [State.standing, foldl_standing, State.onSlab_standing, State.onFn_standing]

theorem State.startFn_standing (s : State) (f : Nat) : (s.startFn f).standing = s.standing := by
  unfold State.startFn State.loadTile
  grind only [State.standing, foldl_standing, State.seqGoto_standing, State.onTile_standing, State.onRing_standing,
    State.setFence_standing, State.onCore_standing, State.onFn_standing]

theorem State.startService_standing (s : State) (f : Nat) : (s.startService f).standing = s.standing := by
  unfold State.startService State.setSpread
  grind only [State.standing, foldl_standing, State.giveTile_standing, State.onDom_standing, State.onFn_standing,
    State.onSlab_standing, State.setWindow_standing, State.startFn_standing, State.setFn]

theorem State.startServices_standing (s : State) : s.startServices.standing = s.standing := by
  unfold State.startServices
  split
  · exact foldl_standing _ (fun s i => s.startService_standing (i + 1)) _ s
  · rfl

end Sys2Proof.Machine
end

section
/-! Resets, supplies and JTAG (O54, O55: R486, R513, R515 to R517, R527). -/

namespace Sys2Proof.Machine

/-! What a reset leaves (R515). -/

theorem State.doReset_powered {s : State} (hpgood : s.boot.pgood = true) (hcause : s.fatal.cause = 0) :
    s.doReset = s.resetPackage := if_pos (by simp [hpgood, hcause])

/-- Function 0 is STOPPED and every other FREE (Table 11.11). -/
theorem State.resetPackage_fn_st (s : State) (f : Nat) : (s.resetPackage.fn f).st = if f = 0 then .stopped else .free := by
  by_cases hf : f = 0
  · subst hf; rfl
  · rw [if_neg hf]
    simp [State.fn, State.resetPackage, SMap.get, Ne.symm hf]

/-- Settles O55: a reset with power and without a latched cause keeps what persists and has every other part at its default. -/
theorem resetLeavesWhatPersists : Obligations.ResetLeavesWhatPersists := by
  intro s hpgood hcause u
  have hu : u = s.resetPackage := State.doReset_powered hpgood hcause
  rw [hu]
  exact ⟨rfl, rfl, rfl, rfl, rfl, rfl, rfl, rfl, s.resetPackage_fn_st, fun _ => ⟨rfl, rfl⟩, fun _ => rfl, fun _ => rfl,
    fun _ => rfl, rfl, rfl, rfl, rfl⟩

/-! Supplies and resets. -/

section
variable {s : State}

theorem exec_v3p3Rise_rises (hoff : s.boot.v3p3 = false) :
    exec .v3p3Rise s = .next { s with boot := { s.boot with v3p3 := true, order := 1 } } :=
  congrArg Host.Outcome.next (if_neg (by simp [hoff]))

theorem exec_suppliesInRange_resets (hv3p3 : s.boot.v3p3 = true) (hpgood : s.boot.pgood = false) :
    exec .suppliesInRange s =
      .next (State.resetPackage { s with boot := { s.boot with vin12 := true, pgood := true } }) :=
  congrArg Host.Outcome.next (if_pos (by simp [hv3p3, hpgood]))

theorem exec_powerDown_off {a b : Nat} (h : a < 10500 ∨ b < 3000) :
    exec (.powerDown a b) s = .next (s.powerOff (decide (a ≥ 10500)) (decide (b ≥ 3000))) :=
  congrArg Host.Outcome.next (if_pos (by simpa using h))

theorem exec_resetNAssert_long {ns : Nat} (hlong : 2000 ≤ ns) : exec (.resetNAssert ns) s = .next s.doReset :=
  congrArg Host.Outcome.next (if_pos hlong)

theorem exec_resetNAssert_short {ns : Nat} (hshort : ns < 2000) : exec (.resetNAssert ns) s = .next s :=
  congrArg Host.Outcome.next (if_neg (Nat.not_le.mpr hshort))

theorem exec_trialWatchdog_resets (htrial : s.boot.trial = true) (hmin : 3 ≤ s.boot.order) (hmax : s.boot.order < 7) :
    exec .trialWatchdog s = .next s.doReset :=
  congrArg Host.Outcome.next (if_pos (by simp [htrial, hmin, hmax]))

end

/-- Without a supply the ports go idle, and what fuses and flash hold stays (R516). -/
theorem State.powerOff_keeps (s : State) (vin12 v3p3 : Bool) :
    (s.powerOff vin12 v3p3).fuses = s.fuses ∧ (s.powerOff vin12 v3p3).flash = s.flash := by
  refine Prod.mk.inj (?_ : ((s.powerOff vin12 v3p3).fuses, (s.powerOff vin12 v3p3).flash) = (s.fuses, s.flash))
  unfold State.powerOff
  dsimp only
  exact foldl_keeps (fun s => (s.fuses, s.flash)) _ (fun s p => by split <;> rfl) _ s

/-! JTAG. -/

theorem State.setSlot_slot (s : State) (n : Fin 2) (x : Slot) : (s.setSlot n x).slot n = x := by
  by_cases hn : n.val = 0 <;> simp [State.setSlot, State.slot, hn]

/-- An image written by JTAG within its region (R510, R517). -/
theorem exec_jtagImageWrite_writes {s : State} {n : Fin 2} {o : Nat} {l : List Byte} (hv3p3 : s.boot.v3p3 = true)
    (hcause : s.fatal.cause = 0) (hend : o + l.length ≤ 100659200) : exec (.jtagImageWrite n o l) s =
      .next (s.setSlot n { s.slot n with factory := false, region := putBytes (s.slot n).region o l }) :=
  congrArg Host.Outcome.next (if_pos (by simp [hv3p3, hcause, hend]))

/-- Settles O54. -/
theorem powerAndReset : Obligations.PowerAndReset := by
  intro s a b ns o slot l
  refine ⟨exec_v3p3Rise_rises, exec_suppliesInRange_resets,
    fun hlow => ⟨_, exec_powerDown_off hlow, rfl, rfl, ?order, State.powerOff_keeps s _ _⟩,
    fun hlong hpgood hcause => ?pin, exec_resetNAssert_short, exec_trialWatchdog_resets, fun hv3p3 hcause hend => ?jtag⟩
  case order => simp [State.powerOff]
  case pin => rw [exec_resetNAssert_long hlong, State.doReset_powered hpgood hcause]
  case jtag =>
    refine ⟨_, exec_jtagImageWrite_writes hv3p3 hcause hend, ?_⟩
    rw [State.setSlot_slot]
    exact ⟨rfl, fun k => putBytes_get _ _ _ _⟩

end Sys2Proof.Machine
end

section
/-! Faults of the supply and the fatal latch (O48: R447, R481, R483, R486, Table 17.11). -/

namespace Sys2Proof.Machine

/-! Faults wait to be latched. -/

/-- A fault of the supply is reported in PWR's ERR_STAT and its cause waits to be latched. -/
def FaultWaits (u : State) (n cause : Nat) : Prop :=
  (u.err .pwr 0).stat.getLsbD n = true ∧ u.fatal.cause = 0 ∧ u.fatal.pendingCause = cause

/-- The first fatal cause waits (R481). -/
theorem State.latchFatal_first {s : State} (hnone : s.fatal.cause = 0) (hfirst : s.fatal.pendingCause = 0) (cause d k : Nat) :
    s.latchFatal cause d k = { s with fatal := { s.fatal with pendingCause := cause, domain := d, sensor := k } } :=
  if_neg (by simp [hnone, hfirst])

section
variable {s : State} (hnone : s.fatal.cause = 0) (hfirst : s.fatal.pendingCause = 0)
include hnone hfirst

theorem State.raise_latchFatal (m cause d k : Nat) : (s.raise .pwr 0 m {}).latchFatal cause d k =
    { s.raise .pwr 0 m {} with fatal := { s.fatal with pendingCause := cause, domain := d, sensor := k } } := by
  have hfatal := State.fatal_of_standing (s.raise_standing .pwr 0 m {} false)
  rw [State.latchFatal_first (by rw [hfatal, hnone]) (by rw [hfatal, hfirst]), hfatal]

theorem State.raise_latchFatal_waits {m n : Nat} (hn : n < 32) (hm : m.testBit n = true) (cause d k : Nat) :
    FaultWaits ((s.raise .pwr 0 m {}).latchFatal cause d k) n cause := by
  rw [State.raise_latchFatal hnone hfirst]
  exact ⟨s.raise_stat .pwr 0 m {} false hn hm, hnone, rfl⟩

section
variable (hpgood : s.boot.pgood = true) (d : DomId)
include hpgood

theorem exec_brownout_waits : ∃ u, exec (.brownout d) s = .next u ∧ FaultWaits u 1 2 :=
  ⟨_, congrArg Host.Outcome.next (if_pos hpgood), State.raise_latchFatal_waits hnone hfirst (by decide) rfl 2 d 0x7F⟩

theorem exec_regControlLoss_waits : ∃ u, exec (.regControlLoss d) s = .next u ∧ FaultWaits u 2 3 :=
  ⟨_, congrArg Host.Outcome.next (if_pos hpgood), State.raise_latchFatal_waits hnone hfirst (by decide) rfl 3 d 0x7F⟩

end

/-- THERMTRIP_N is low. -/
def State.tripped (s : State) : State := { s with fatal := { s.fatal with thermtripN := false } }

/-- The independent comparator needs no more than V3P3 (Table 16.4). -/
theorem exec_thermtrip_waits (hv3p3 : s.boot.v3p3 = true) (sn : Sensor) :
    ∃ u, exec (.thermtrip sn) s = .next u ∧ FaultWaits u 3 4 ∧ u.fatal.thermtripN = false :=
  ⟨_, congrArg Host.Outcome.next (if_pos hv3p3),
    State.raise_latchFatal_waits (s := s.tripped) hnone hfirst (by decide) rfl 4 0x1F _,
    congrArg (·.fatal.thermtripN) (State.raise_latchFatal (s := s.tripped) hnone hfirst 8 4 0x1F _)⟩

end

/-! Entry into the safe state. -/

theorem State.fenceAll_standing (s : State) : s.fenceAll.standing = s.standing := by
  unfold State.fenceAll
  refine foldl_standing _ (fun s p => ?_) _ s
  split
  · rfl
  · exact State.portGo_standing s p .fenced

theorem State.recordFatal_fatal (s : State) : s.recordFatal.fatal = s.fatal := by
  unfold State.recordFatal
  split <;> rfl

/-- Orders 1 to 8 of Table 17.11: what follows the latching of the cause leaves the latch as it is. -/
theorem exec_fatalEntry_latches {s : State} (hwaits : s.fatal.pendingCause ≠ 0) (hnone : s.fatal.cause = 0) :
    ∃ u, exec .fatalEntry s = .next u ∧ u.fatal = s.latchCause.fatal := by
  refine ⟨_, congrArg Host.Outcome.next (if_pos (by simp [hwaits, hnone])), ?_⟩
  rw [State.recordFatal_fatal]
  exact State.fatal_of_standing ((State.boardEvent_standing _ 2).trans (State.fenceAll_standing _))

theorem exec_safeStateEthernetIdle_idles {s : State} (hlatched : s.fatal.cause ≠ 0) : exec .safeStateEthernetIdle s = .next
    { s with fatal := { s.fatal with ethIdle := true }, eth := { s.eth with link := false, training := false } } :=
  congrArg Host.Outcome.next (if_pos hlatched)

/-- Settles O48. -/
theorem supplyFaultsAndTheFatalLatch : Obligations.SupplyFaultsAndTheFatalLatch := by
  refine ⟨?faults, ?latch⟩
  case faults =>
    intro s d sn hnone hfirst F
    refine ⟨fun hpgood => ⟨exec_brownout_waits hnone hfirst hpgood d, exec_regControlLoss_waits hnone hfirst hpgood d⟩,
      fun hv3p3 => ?_⟩
    obtain ⟨u, hu, hwaits, htrip⟩ := exec_thermtrip_waits hnone hfirst hv3p3 sn
    exact ⟨⟨u, hu, hwaits⟩, u, hu, htrip⟩
  case latch =>
    intro s a b
    refine ⟨fun hwaits hnone => ?_, exec_safeStateEthernetIdle_idles, fun ha hb => exec_fatalLatchClear_removed ha hb s⟩
    obtain ⟨u, hu, hfatal⟩ := exec_fatalEntry_latches hwaits hnone
    refine ⟨u, hu, ?_⟩
    rw [hfatal]
    exact ⟨rfl, rfl, rfl, rfl⟩

end Sys2Proof.Machine
end

section
/-! The state of the time base and the offsets of links (O49: R376, R465 to R467, Table 16.7). -/

namespace Sys2Proof.Machine

/-- The time base has the sources of `x` and the state that they call for. -/
def FollowsSources (u : State) (x : TimeB) : Prop :=
  u.timeBase.timeref = x.timeref ∧ u.timeBase.pps = x.pps ∧ u.timeBase.ptp = x.ptp ∧ u.timeBase.state = x.next

@[simp] theorem State.event_timeBase (s : State) (b : Blk) (i k : Nat) (f : Option Nat) (p : Nat) (j : Bool) :
    (s.event b i k f p j).timeBase = s.timeBase := State.timeBase_of_standing (s.event_standing b i k f p j)

@[simp] theorem State.raise_timeBase (s : State) (b : Blk) (i m : Nat) (sc : Scope) (j : Bool) :
    (s.raise b i m sc j).timeBase = s.timeBase := State.timeBase_of_standing (s.raise_standing b i m sc j)

@[simp] theorem State.stepTime_timeBase (s : State) (d : Int) : (s.stepTime d).timeBase = s.timeBase := rfl

/-- The event of the change, and the step of package time at the first lock, leave the sources and the state. -/
theorem State.timeGo_follows {s : State} {x : TimeB} (h : s.timeBase = x) : FollowsSources s.timeGo x := by
  subst h
  unfold State.timeGo FollowsSources
  dsimp only
  split
  case isTrue hsame => exact ⟨rfl, rfl, rfl, hsame⟩
  case isFalse => split <;> simp

theorem State.onPort_port (s : State) (p q : Nat) (f : Port → Port) :
    (s.onPort p f).port q = if p = q then f (s.port p) else s.port q := SMap.get_set ..

section
variable {s : State} (hpgood : s.boot.pgood = true)
include hpgood

theorem exec_timerefLoss_follows (hon : s.timeBase.timeref = true) :
    ∃ u, exec .timerefLoss s = .next u ∧ FollowsSources u { s.timeBase with timeref := false } :=
  ⟨_, congrArg Host.Outcome.next (if_pos (by simp [hpgood, hon])), State.timeGo_follows (State.raise_timeBase ..)⟩

theorem exec_timerefRestore_follows (hoff : s.timeBase.timeref = false) :
    ∃ u, exec .timerefRestore s = .next u ∧ FollowsSources u { s.timeBase with timeref := true } :=
  ⟨_, congrArg Host.Outcome.next (if_pos (by simp [hpgood, hoff])), State.timeGo_follows rfl⟩

theorem exec_ppsEdge_follows : ∃ u, exec .ppsEdge s = .next u ∧ FollowsSources u { s.timeBase with pps := true } :=
  ⟨_, congrArg Host.Outcome.next (if_pos hpgood), State.timeGo_follows rfl⟩

section
variable (hlocked : s.timeBase.state = 2)
include hlocked

theorem exec_ppsLoss_follows : ∃ u, exec .ppsLoss s = .next u ∧ FollowsSources u { s.timeBase with pps := false } :=
  ⟨_, congrArg Host.Outcome.next (if_pos (by simp [hpgood, hlocked])), State.timeGo_follows (State.raise_timeBase ..)⟩

theorem exec_ptpLoss_follows : ∃ u, exec .ptpLoss s = .next u ∧ FollowsSources u { s.timeBase with ptp := false } :=
  ⟨_, congrArg Host.Outcome.next (if_pos (by simp [hpgood, hlocked])), State.timeGo_follows (State.raise_timeBase ..)⟩

end

/-- A message of the package's own domain (R376). -/
theorem exec_ptpMessageReceive_follows {dom : Byte} (mt off : W64) (hlink : s.eth.link = true) (hcause : s.fatal.cause = 0)
    (hdom : dom.toNat = s.eth.netrec.ptpDomain) : ∃ u, exec (.ptpMessageReceive dom mt off) s = .next u ∧
      FollowsSources u { s.timeBase with ptp := true, ptpOffset := off.toInt, ptpDelta := mt.toNat - s.timeNs } :=
  ⟨_, congrArg Host.Outcome.next (if_pos (by simp [hpgood, hlink, hcause, hdom])), State.timeGo_follows rfl⟩

/-- The steering of a LOCKED time base leaves the ports as they are. -/
theorem exec_linkTimeOffset_keeps {p : PortId} (off : W64) (lk : Bool) (hside : p.val < 6 ∨ 14 ≤ p.val)
    (hpresent : s.portAbsent p = false) (hactive : (s.port p).st.active = true) :
    ∃ u, exec (.linkTimeOffset p lk off) s = .next u ∧
      u.ports = (s.onPort p (fun x => { x with timeOffset := off, partnerLocked := lk })).ports := by
  refine ⟨_, congrArg Host.Outcome.next (if_pos ?_), ?_⟩
  · simpa [hpgood, hpresent, hactive] using hside
  · dsimp only
    split <;> rfl

end

/-- Settles O49: each source's command sets the source and lets the time base follow its sources. -/
theorem timeBaseFollowsItsSources : Obligations.TimeBaseFollowsItsSources := by
  intro s dom mt off p lk hpgood T x
  refine ⟨exec_timerefLoss_follows hpgood, exec_timerefRestore_follows hpgood, exec_ppsEdge_follows hpgood,
    fun hlocked => ⟨exec_ppsLoss_follows hpgood hlocked, exec_ptpLoss_follows hpgood hlocked⟩,
    exec_ptpMessageReceive_follows hpgood mt off, fun hside hpresent hactive => ?link⟩
  case link =>
    obtain ⟨u, hu, hports⟩ := exec_linkTimeOffset_keeps hpgood off lk hside hpresent hactive
    have hport (q : Nat) : u.port q = (s.onPort p (fun x => { x with timeOffset := off, partnerLocked := lk })).port q :=
      congrArg (·.get {} q) hports
    refine ⟨u, hu, ?_, fun q hq => ?_⟩
    · rw [hport, State.onPort_port, if_pos rfl]
    · rw [hport, State.onPort_port, if_neg (Ne.symm hq)]

end Sys2Proof.Machine
end

section
/-! The domains of the power governor: setpoints, droops, shortfall, temperature and current (O45, O46: R442, R443, R445, R446, R456,
R457, Tables 16.2 and 16.4). -/

namespace Sys2Proof.Machine

/-- Domain `d` has become `y`, and no other domain has changed. -/
def OnlyDom (s u : State) (d : Nat) (y : Dom) : Prop := ∀ k, u.dom k = if k = d then y else s.dom k

theorem State.setDom_onlyDom (s : State) (d : Nat) (y : Dom) : OnlyDom s (s.setDom d y) d y :=
  fun k => (s.setDom_dom d k y).trans (if_congr eq_comm rfl rfl)

theorem State.refl_onlyDom (s : State) (d : Nat) : OnlyDom s s d (s.dom d) := by
  intro k
  split
  case isTrue hk => rw [hk]
  case isFalse => rfl

theorem OnlyDom.congr {s u : State} {d : Nat} {y z : Dom} (h : OnlyDom s u d y) (hyz : y = z) : OnlyDom s u d z := hyz ▸ h

theorem State.accrue_dom (s : State) (k : Nat) : s.accrue.dom k = s.dom k := congrArg (·.get {} k) s.accrue_doms

/-- The bookkeeping of a step of the governor leaves the domains as its own work does. -/
theorem State.pwrStep_onlyDom {s : State} {f : State → State} {d : Nat} {y : Dom} (h : OnlyDom s.accrue (f s.accrue) d y) :
    OnlyDom s (s.pwrStep f) d y := by
  intro k
  rw [State.pwrStep_dom, h k, State.accrue_dom]

theorem State.pwrStep_onDom (s : State) (d : Nat) (f : Dom → Dom) :
    OnlyDom s (s.pwrStep (fun s => s.onDom d f)) d (f (s.dom d)) := by
  refine State.pwrStep_onlyDom ?_
  rw [← State.accrue_dom]
  exact State.setDom_onlyDom _ _ _

/-! Setpoints, droops and shortfall. -/

section
variable {s : State} {d : DomId}

/-- VSET moves by 5 mV towards the target rate, within its limits (R442). -/
theorem exec_rateLoopTick_moves {rate : Nat} (hruns : s.govRuns = true) (hungated : (s.dom d).gated = false)
    (hheld : (s.dom d).slewing = false) : exec (.rateLoopTick d rate) s = .next (s.setDom d { s.dom d with
      vset := max (s.fuses.vnom d (s.dom d).op - 60) (min
        (if rate < targetRate (s.dom d).op then (s.dom d).vset + 5
          else if rate * 100 > targetRate (s.dom d).op * 102 then (s.dom d).vset - 5 else (s.dom d).vset)
        (s.fuses.vnom d (s.dom d).op + s.fuses.age d)) }) :=
  congrArg Host.Outcome.next (if_neg (by simp [hruns, hungated, hheld]))

theorem exec_regSetpointAck_acks (hpgood : s.boot.pgood = true) (hslews : (s.dom d).slewing = true) :
    exec (.regSetpointAck d) s = .next (s.setDom d { s.dom d with acked := true }) :=
  congrArg Host.Outcome.next (if_pos (by simp [hpgood, hslews]))

theorem exec_regSlewEnd_ends (hpgood : s.boot.pgood = true) (hslews : (s.dom d).slewing = true)
    (hacked : (s.dom d).acked = true) (hdroop : (s.dom d).droop = false) :
    exec (.regSlewEnd d) s = .next (s.setDom d { s.dom d with slewing := false, vset := (s.dom d).target }) :=
  congrArg Host.Outcome.next (if_pos (by simp [hpgood, hslews, hacked, hdroop]))

theorem exec_droopEngage_gates (hpgood : s.boot.pgood = true) :
    ∃ u, exec (.droopEngage d) s = .next u ∧ OnlyDom s u d { s.dom d with droop := true } :=
  ⟨_, congrArg Host.Outcome.next (if_pos hpgood), s.pwrStep_onDom d _⟩

theorem exec_droopRelease_releases (hpgood : s.boot.pgood = true) :
    ∃ u, exec (.droopRelease d) s = .next u ∧ OnlyDom s u d { s.dom d with droop := false } :=
  ⟨_, congrArg Host.Outcome.next (if_pos hpgood), s.pwrStep_onDom d _⟩

section
variable {rate : Nat} (hruns : s.govRuns = true)
include hruns

theorem exec_shortfallEnter_reports (hungated : (s.dom d).gated = false) (hheld : (s.dom d).slewing = false)
    (hnone : (s.dom d).shortfall = false) (hhighest : (s.dom d).vset = s.fuses.vnom d (s.dom d).op + s.fuses.age d)
    (hslow : rate * 100 < targetRate (s.dom d).op * 98) : exec (.shortfallEnter d rate) s =
      .next ((s.setDom d { s.dom d with shortfall := true }).shortfallReport d 1) :=
  congrArg Host.Outcome.next (if_pos (by simp [hruns, hungated, hheld, hnone, hhighest, hslow]))

theorem exec_shortfallClear_reports (hshort : (s.dom d).shortfall = true) (hrate : targetRate (s.dom d).op ≤ rate) :
    exec (.shortfallClear d rate) s = .next ((s.setDom d { s.dom d with shortfall := false }).shortfallReport d 0) :=
  congrArg Host.Outcome.next (if_pos (by simp [hruns, hshort, hrate]))

end

end

/-- Settles O45. -/
theorem setpointsAndShortfall : Obligations.SetpointsAndShortfall := by
  refine ⟨?setpoints, ?shortfall⟩
  case setpoints =>
    intro s d rate x v t next Dom
    exact ⟨fun hruns hungated hheld => ⟨_, exec_rateLoopTick_moves hruns hungated hheld, s.setDom_onlyDom d _⟩,
      fun hpgood hslews => ⟨_, exec_regSetpointAck_acks hpgood hslews, s.setDom_onlyDom d _⟩,
      fun hpgood hslews hacked hdroop => ⟨_, exec_regSlewEnd_ends hpgood hslews hacked hdroop, s.setDom_onlyDom d _⟩,
      fun hpgood => ⟨exec_droopEngage_gates hpgood, exec_droopRelease_releases hpgood⟩⟩
  case shortfall =>
    intro s d rate l hruns x recs
    exact ⟨exec_shortfallEnter_reports hruns, exec_shortfallClear_reports hruns, congrArg Host.Outcome.next (if_pos hruns)⟩

/-! Temperature and current. -/

/-- The governor's commands do their step where it runs. -/
theorem govStep_runs {s : State} (hruns : s.govRuns = true) (f : State → State) :
    (if !s.govRuns then s else s.pwrStep f) = s.pwrStep f := if_neg (by simp [hruns])

section
variable {s : State} (hruns : s.govRuns = true) (d : DomId) (temp : BitVec 16)
include hruns

/-- THERM by the temperatures of the domain and its stack. -/
theorem exec_thermCeilingStep_steps : ∃ u, exec (.thermCeilingStep d) s = .next u ∧ OnlyDom s u d { s.dom d with
    therm := if (s.dom d).temp ≥ 103 * 16 ∨ (s.dom d).stackTemp.toInt ≥ 93 * 16 then max 1 ((s.dom d).therm - 1)
      else if (s.dom d).temp ≤ 100 * 16 ∧ (s.dom d).stackTemp.toInt ≤ 90 * 16 then min 8 ((s.dom d).therm + 1)
      else (s.dom d).therm } := by
  refine ⟨_, congrArg Host.Outcome.next (govStep_runs hruns _), (s.pwrStep_onDom d _).congr ?_⟩
  dsimp only
  split
  · rfl
  · split <;> rfl

/-- A tile's reading gates its domain at 105 °C and releases it at 104 °C. -/
theorem exec_thermalThreshold_tile {t : TileId} (ht : domainOf t = d.val) :
    ∃ u, exec (.thermalThreshold (.tile t) temp) s = .next u ∧ OnlyDom s u d
      (let y := { s.dom d with tileTemp := (s.dom d).tileTemp.set 0 t temp }
       { y with thermGate := if y.temp ≥ 105 * 16 then true else if y.temp ≤ 104 * 16 then false else (s.dom d).thermGate }) := by
  rw [← ht]
  exact ⟨_, congrArg Host.Outcome.next (govStep_runs hruns _), s.pwrStep_onDom (domainOf t) _⟩

/-- A stack's reading doubles its refresh rate above 85 °C, slows it at 95 °C and releases it at 93 °C. -/
theorem exec_thermalThreshold_stack : ∃ u, exec (.thermalThreshold (.stack d) temp) s = .next u ∧
    OnlyDom s u d { s.dom d with stackTemp := temp, doubled := decide (temp.toInt > 85 * 16), stackSlow :=
      if temp.toInt ≥ 95 * 16 then true else if temp.toInt ≤ 93 * 16 then false else (s.dom d).stackSlow } :=
  ⟨_, congrArg Host.Outcome.next (govStep_runs hruns _), s.pwrStep_onDom d _⟩

end

/-- CURR falls where a reading is high, and rises where it is low (R457). -/
def Dom.stepCurr (x : Dom) (high low : Prop) [Decidable high] [Decidable low] : Dom :=
  { x with curr := if high then max 1 (x.curr - 1) else if low then min 8 (x.curr + 1) else x.curr }

theorem State.currentLimit_regulator (s : State) (d : Nat) (high low : Prop) [Decidable high] [Decidable low] :
    OnlyDom s (if high then s.onDom d (fun x => { x with curr := max 1 (x.curr - 1) })
      else if low then s.onDom d (fun x => { x with curr := min 8 (x.curr + 1) }) else s) d ((s.dom d).stepCurr high low) := by
  unfold Dom.stepCurr
  split
  · exact s.setDom_onlyDom d _
  · split
    · exact s.setDom_onlyDom d _
    · exact s.refl_onlyDom d

/-- Every domain of a list changes once. -/
theorem foldl_onDom_dom (f : Dom → Dom) {l : List Nat} (hl : l.Nodup) (s : State) (k : Nat) :
    (l.foldl (fun s d => s.onDom d f) s).dom k = if k ∈ l then f (s.dom k) else s.dom k := by
  induction l generalizing s with
  | nil => rfl
  | cons d l ih =>
    obtain ⟨hd, hl⟩ := List.nodup_cons.mp hl
    rw [List.foldl_cons, ih hl, State.onDom, State.setDom_dom]
    by_cases hk : d = k
    · subst hk
      simp [hd]
    · simp [hk, Ne.symm hk]

theorem State.foldl_doms20_dom (s : State) (f : Dom → Dom) {k : Nat} (hk : k < 20) :
    (doms20.foldl (fun s d => s.onDom d f) s).dom k = f (s.dom k) := by
  unfold doms20
  rw [foldl_onDom_dom f List.nodup_range, if_pos (List.mem_range.mpr hk)]

theorem State.currentLimit_vin12 (s : State) (high low : Prop) [Decidable high] [Decidable low] {k : Nat} (hk : k < 20) :
    (if high then doms20.foldl (fun s d => s.onDom d (fun x => { x with curr := max 1 (x.curr - 1) })) s
      else if low then doms20.foldl (fun s d => s.onDom d (fun x => { x with curr := min 8 (x.curr + 1) })) s
      else s).dom k = (s.dom k).stepCurr high low := by
  unfold Dom.stepCurr
  split
  · exact s.foldl_doms20_dom _ hk
  · split
    · exact s.foldl_doms20_dom _ hk
    · rfl

section
variable {s : State} (hruns : s.govRuns = true) (n : Nat)
include hruns

/-- A regulator's reading against 95 % and 80 % of its limit. -/
theorem exec_currentLimit_regulator (d : DomId) : ∃ u, exec (.currentLimit (.regulator d) n) s = .next u ∧
    OnlyDom s u d ((s.dom d).stepCurr (n * 2 > s.fuses.limit d * 19) (n < s.fuses.limit d * 8)) := by
  refine ⟨_, congrArg Host.Outcome.next (govStep_runs hruns _), State.pwrStep_onlyDom ?_⟩
  rw [← State.accrue_dom]
  exact s.accrue.currentLimit_regulator d (n * 2 > s.fuses.limit d * 19) (n < s.fuses.limit d * 8)

/-- The reading of VIN12 against 240 A and 200 A. -/
theorem exec_currentLimit_vin12 : ∃ u, exec (.currentLimit .vin12 n) s = .next u ∧
    ∀ k < 20, u.dom k = (s.dom k).stepCurr (n > 2400) (n < 2000) := by
  refine ⟨_, congrArg Host.Outcome.next (govStep_runs hruns _), fun k hk => ?_⟩
  rw [State.pwrStep_dom, ← s.accrue_dom k]
  exact s.accrue.currentLimit_vin12 (n > 2400) (n < 2000) hk

end

/-- What leaves one domain as a function of it does so at every number. -/
theorem exists_onlyDom_at {i : Instr} {s : State} {d : Nat} (f : Dom → Dom)
    (h : ∃ u, exec i s = .next u ∧ OnlyDom s u d (f (s.dom d))) :
    ∃ u, exec i s = .next u ∧ ∀ k, u.dom k = if k = d then f (s.dom k) else s.dom k := by
  obtain ⟨u, hu, honly⟩ := h
  refine ⟨u, hu, fun k => (honly k).trans ?_⟩
  split
  case isTrue hk => rw [hk]
  case isFalse => rfl

/-- Settles O46. -/
theorem thermalAndCurrentCeilings : Obligations.ThermalAndCurrentCeilings := by
  intro s d t temp n hruns x hot cool At All v slow stack therm reg vin tile
  exact ⟨exists_onlyDom_at (fun x => { x with therm := therm x }) (exec_thermCeilingStep_steps hruns d),
    fun ht => exists_onlyDom_at tile (exec_thermalThreshold_tile hruns d temp ht),
    exists_onlyDom_at stack (exec_thermalThreshold_stack hruns d temp),
    exists_onlyDom_at (fun x => { x with curr := reg x }) (exec_currentLimit_regulator hruns n d),
    exec_currentLimit_vin12 hruns n⟩

end Sys2Proof.Machine
end

section
/-! The orders of a boot (O56: R513, R517, R522, Table 19.2). -/

namespace Sys2Proof.Machine

/-! What each part of a boot leaves of THM_BOOT. -/

theorem State.bootFirmware_boot (s : State) :
    s.bootFirmware.boot = { s.boot with order := 5, nextSig := s.flash.sigBlock * 4096 } := by
  unfold State.bootFirmware
  dsimp only
  rw [foldl_keeps State.boot _ (fun s l => by rfl), foldl_keeps State.boot _ (fun s p => by split <;> rfl),
    foldl_keeps State.boot _ (fun s t => by rfl)]

theorem State.trainAll_boot (s : State) (osc : Bool) : (s.trainAll osc).boot = { s.boot with order := 10 } := by
  unfold State.trainAll
  dsimp only
  rw [foldl_keeps State.boot _ (fun s p => ?_)]
  split
  · rfl
  · exact State.boot_of_standing (s.portGo_standing p .training)

theorem State.bootFinish_boot (s : State) (osc : Bool) : (s.bootFinish osc).boot = { s.boot with order := 10 } := by
  have hcommitted : (if s.boot.trial then s.commitSlot s.boot.slot else s).boot = s.boot := by
    split <;> rfl
  have hready := State.boot_of_standing ((State.boardEvent_standing _ 1).trans (State.startServices_standing
    ((if s.boot.trial then s.commitSlot s.boot.slot else s).trainAll osc)))
  rw [State.bootFinish, hready, State.trainAll_boot, hcommitted]

theorem State.bootEpoch_of_fixed {s t : State} (h : t.fixed = s.fixed) : t.thm.bootEpoch = s.thm.bootEpoch := by
  simp only [State.fixed, Prod.mk.injEq] at h
  obtain ⟨-, -, -, hepoch, -⟩ := h
  exact hepoch

theorem State.raiseFloor_thm (s : State) (k : Nat) : (s.raiseFloor k).thm = s.thm := rfl

/-- Self-test and the orders after it do not advance the boot epoch. -/
theorem State.bootFinish_selfTest_bootEpoch (s : State) (x : SelfTest) (osc : Bool) :
    ((s.selfTest x).bootFinish osc).thm.bootEpoch = s.thm.bootEpoch := by
  obtain ⟨k, hk⟩ := (s.selfTest x).bootFinish_fixed osc
  rw [State.bootEpoch_of_fixed hk, State.raiseFloor_thm, State.bootEpoch_of_fixed (s.selfTest_fixed x)]

/-- The choice of a slot, after RECOVERY where that is the mode, does not advance the boot epoch. -/
theorem State.pickSlot_recover_bootEpoch (s : State) (m : Nat) (alternate : Bool) :
    ((s.recover m).pickSlot alternate).1.thm.bootEpoch = s.thm.bootEpoch := by
  rw [State.bootEpoch_of_fixed (State.pickSlot_fixed _ _), State.recover]
  split <;> rfl

/-! The boot. -/

/-- Order 3: the mode is read. -/
def State.readMode (s : State) (mode : Nat) : State := { s with boot := { s.boot with order := 3, mode := mode, modeBad := mode = 3 } }

/-- Order 5 with the slot that has been picked. -/
def State.bootSlot (s : State) (n : Nat) : State := { s with boot := { s.boot with slot := n } }.bootFirmware

/-- Orders 4 to 10, by the slot that is picked and what self-test finds. -/
def State.bootFrom (x : SelfTest) : State × Option Nat → State
  | (s, none) => s.haltBoot 4 1 0
  | (s, some n) =>
    match x.unitFail with
    | some b => (s.bootSlot n).haltBoot 6 3 b.toNat
    | none => ((s.bootSlot n).selfTest x).bootFinish (!x.noOscillator)

theorem State.bootSlot_boot (s : State) (n : Nat) :
    (s.bootSlot n).boot = { s.boot with slot := n, order := 5, nextSig := s.flash.sigBlock * 4096 } :=
  State.bootFirmware_boot _

theorem State.bootSlot_bootEpoch (s : State) (n : Nat) : (s.bootSlot n).thm.bootEpoch = s.thm.bootEpoch + 1 :=
  State.bootEpoch_of_fixed (State.bootFirmware_fixed _)

section
variable {s : State} {mode : Nat} {x : SelfTest}

theorem State.bootRun_comparatorFail (hcomp : x.comparatorFail = true) :
    s.bootRun mode x = (s.readMode mode).haltBoot 3 2 0 := if_pos hcomp

section
variable (hcomp : x.comparatorFail = false)
include hcomp

theorem State.bootRun_flashFail (hflash : x.flashFail = true ∨ s.flash.failed = true) :
    s.bootRun mode x = (s.readMode mode).haltBoot 4 4 0 := by
  unfold State.bootRun
  exact (if_neg (by simp [hcomp])).trans (if_pos (by simpa using hflash))

section
variable (hread : x.flashFail = false) (hflash : s.flash.failed = false)
include hread hflash

/-- The slot that is picked decides. -/
theorem State.bootRun_picks :
    s.bootRun mode x = State.bootFrom x (((s.readMode mode).recover mode).pickSlot (mode = 1)) := by
  simp only [State.bootRun, hcomp, hread, hflash, Bool.or_self, Bool.false_eq_true, if_false]
  rfl

variable {s2 : State} {n : Nat}

theorem State.bootRun_noSlot (hpick : ((s.readMode mode).recover mode).pickSlot (mode = 1) = (s2, none)) :
    s.bootRun mode x = s2.haltBoot 4 1 0 := by
  rw [State.bootRun_picks hcomp hread hflash, hpick, State.bootFrom]

variable (hpick : ((s.readMode mode).recover mode).pickSlot (mode = 1) = (s2, some n))
include hpick

theorem State.bootRun_unitFail {b : Byte} (hunit : x.unitFail = some b) :
    s.bootRun mode x = (s2.bootSlot n).haltBoot 6 3 b.toNat := by
  simp only [State.bootRun_picks hcomp hread hflash, hpick, State.bootFrom, hunit]

theorem State.bootRun_finishes (hunit : x.unitFail = none) :
    s.bootRun mode x = ((s2.bootSlot n).selfTest x).bootFinish (!x.noOscillator) := by
  simp only [State.bootRun_picks hcomp hread hflash, hpick, State.bootFrom, hunit]

/-- The boot epoch advances by 1, where order 5 is reached. -/
theorem State.bootRun_finishes_bootEpoch (hunit : x.unitFail = none) :
    (s.bootRun mode x).thm.bootEpoch = s.thm.bootEpoch + 1 := by
  have hpicked : s2.thm.bootEpoch = s.thm.bootEpoch := by
    have hkept := State.pickSlot_recover_bootEpoch (s.readMode mode) mode (mode = 1)
    rw [hpick] at hkept
    exact hkept
  rw [State.bootRun_finishes hcomp hread hflash hpick hunit, State.bootFinish_selfTest_bootEpoch, State.bootSlot_bootEpoch, hpicked]

theorem State.bootRun_finishes_boot (hunit : x.unitFail = none) :
    (s.bootRun mode x).boot = { (s2.bootSlot n).boot with order := 10 } := by
  rw [State.bootRun_finishes hcomp hread hflash hpick hunit, State.bootFinish_boot,
    State.boot_of_standing (State.selfTest_standing _ x)]

end

end

end

/-- Settles O56: a boot runs where nothing forbids it, and how far it comes is decided by the first failure that it meets. -/
theorem bootReachesItsOrder : Obligations.BootReachesItsOrder := by
  intro s m x n b s2 s1 hpgood horder hfail hcause B halted
  have hrun : exec (.bootSequence m x) s = .next (s.bootRun m.toNat x) :=
    congrArg Host.Outcome.next (if_pos (by simp [hpgood, horder, hfail, hcause]))
  have reaches {P : State → Prop} (h : P (s.bootRun m.toNat x)) : B P := ⟨_, hrun, h⟩
  refine ⟨fun hcomp => reaches ?comparator, fun hcomp hflash => reaches ?flash, fun hcomp hread hflash =>
    ⟨fun hpick => reaches ?noSlot, fun hpick hunit => reaches ?unitFail, fun hpick hunit => reaches ?finishes⟩⟩
  case comparator =>
    rw [State.bootRun_comparatorFail hcomp]
    exact ⟨rfl, rfl⟩
  case flash =>
    rw [State.bootRun_flashFail hcomp hflash]
    exact ⟨rfl, rfl⟩
  case noSlot =>
    rw [State.bootRun_noSlot hcomp hread hflash hpick]
    exact ⟨rfl, rfl⟩
  case unitFail =>
    rw [State.bootRun_unitFail hcomp hread hflash hpick hunit]
    exact ⟨⟨rfl, rfl⟩, rfl, congrArg Boot.slot (s2.bootSlot_boot n)⟩
  case finishes =>
    refine ⟨?_, ?_, State.bootRun_finishes_bootEpoch hcomp hread hflash hpick hunit⟩ <;>
      rw [State.bootRun_finishes_boot hcomp hread hflash hpick hunit]
    exact congrArg Boot.slot (s2.bootSlot_boot n)

end Sys2Proof.Machine
end

section
/-! Power, counter, event, trace, tack and error commands (O34: R451, R464, R476, R485, R493, R494, R497 to R499, R505, R507,
R508). -/

namespace Sys2Proof.Machine

section
variable {s s0 : State} {r : Req}

/-! Power (R451, R464). -/

/-- The cap and the lease of a grant: 0 W returns the cap to 1,200 W and ends the lease. -/
def Pwr.granted (x : Pwr) (g leaseEnd : Nat) : Pwr :=
  { x with grantW := g, capW := if g = 0 then 1200 else g, leaseEnd := if g = 0 then 0 else leaseEnd }

theorem execPowerGrant_ok (h : Takes s 0x0801 r s0) (hpay : payOk r.payload [(0, 2), (4, 4)] = true)
    (hop : r.notOperator = false) (hwatts : beAt r.payload 0 2 = 0 ∨ 600 ≤ beAt r.payload 0 2)
    (hmin : 100 ≤ beAt r.payload 4 4) (hmax : beAt r.payload 4 4 ≤ 3600000) :
    exec .powerGrant s = .next (({ s0 with
      pwr := s0.pwr.granted (min (beAt r.payload 0 2) 2800) (s0.timeNs + beAt r.payload 4 4 * 1000000) } : State).reply r stOk
        (beBytes 2 (min (beAt r.payload 0 2) 2800))) := by
  refine congrArg Host.Outcome.next (command_ok h ?_)
  simp only [List.forall_mem_cons, hpay, hop, Bool.not_true, Bool.false_or, Bool.or_eq_false_iff, Bool.and_eq_false_iff,
    decide_eq_false_iff_not, true_and]
  exact ⟨by omega, List.forall_mem_nil _⟩

theorem execPowerQuery_ok (h : Takes s 0x0802 r s0) (hpay : payOk r.payload [] = true) (hop : r.notOperator = false) :
    exec .powerQuery s = .next (s0.reply r stOk s0.powerReply) :=
  congrArg Host.Outcome.next (command_ok h (by simp [hpay, hop]))

/-! COUNTERS_READ (R493, R494). -/

/-- The counter identifiers of a COUNTERS_READ. -/
def counterIds (p : List Byte) : List Nat := (List.range (beAt p 1 1)).map (fun i => beAt p (4 + 4 * i) 4)

/-- The reply with the values of a reading. -/
def State.replyCounters (s : State) (r : Req) (x : Snap) : State :=
  s.reply r stOk (beBytes 8 x.time ++ (counterIds r.payload).flatMap (fun v => beBytes 8 (s.idValue x r.fn v)))

section
variable (hpay : payOk r.payload [(0, 1), (1, 1), (4, 4 * beAt r.payload 1 1)] = true)
  (hmin : 1 ≤ beAt r.payload 1 1) (hmax : beAt r.payload 1 1 ≤ 27)
  (hids : ∀ v ∈ counterIds r.payload, s0.idOk r.fn v = true ∧ s0.idAbsent v = false ∧ s0.idRetired r.fn v = false)
include hpay hmin hmax hids

/-- No condition of COUNTERS_READ holds. -/
theorem countersRead_allowed (hsnap : beAt r.payload 0 1 ≤ 2) (hheld : beAt r.payload 0 1 = 2 → s0.snap.isSome = true) :
    ∀ c ∈ [((counterIds r.payload).any s0.idAbsent, stUnsupported),
      (!payOk r.payload [(0, 1), (1, 1), (4, 4 * beAt r.payload 1 1)] || beAt r.payload 0 1 > 2 || beAt r.payload 1 1 < 1 ||
        beAt r.payload 1 1 > 27 || !(counterIds r.payload).all (s0.idOk r.fn) || (beAt r.payload 0 1 = 2 && s0.snap.isNone),
        stBadArg),
      ((counterIds r.payload).any (s0.idRetired r.fn), stFaulted)], c.1 = false := by
  have hok : (counterIds r.payload).all (s0.idOk r.fn) = true := List.all_eq_true.mpr fun v hv => (hids v hv).1
  have habsent : (counterIds r.payload).any s0.idAbsent = false :=
    List.any_eq_false.mpr fun v hv => by simp [(hids v hv).2.1]
  have hretired : (counterIds r.payload).any (s0.idRetired r.fn) = false :=
    List.any_eq_false.mpr fun v hv => by simp [(hids v hv).2.2]
  have hmissing : (decide (beAt r.payload 0 1 = 2) && s0.snap.isNone) = false := by simpa using hheld
  simp [hok, habsent, hretired, hmissing, hpay, hsnap, hmax, Nat.ne_of_gt hmin]

variable (h : Takes s 0x0901 r s0)
include h

theorem execCountersRead_now (hmode : beAt r.payload 0 1 = 0) :
    exec .countersRead s = .next (({ s0 with freeCtr := s0.freeCtr + 1 } : State).replyCounters r s0.reading) := by
  refine congrArg Host.Outcome.next ((command_ok h (countersRead_allowed hpay hmin hmax hids (by omega) (by omega))).trans ?_)
  simp only [hmode, OfNat.zero_ne_ofNat, if_false]
  rfl

/-- The reading becomes the snapshot. -/
theorem execCountersRead_snapshot (hmode : beAt r.payload 0 1 = 1) : exec .countersRead s =
    .next (({ s0 with snap := some s0.reading, freeCtr := s0.freeCtr + 1 } : State).replyCounters r s0.reading) := by
  refine congrArg Host.Outcome.next ((command_ok h (countersRead_allowed hpay hmin hmax hids (by omega) (by omega))).trans ?_)
  simp only [hmode, OfNat.one_ne_ofNat, if_false, if_true]
  rfl

/-- The snapshot is read. -/
theorem execCountersRead_kept {x : Snap} (hmode : beAt r.payload 0 1 = 2) (hx : s0.snap = some x) :
    exec .countersRead s = .next (s0.replyCounters r x) := by
  refine congrArg Host.Outcome.next ((command_ok h (countersRead_allowed hpay hmin hmax hids (by omega)
    (fun _ => by simp [hx]))).trans ?_)
  simp only [hmode, OfNat.ofNat_ne_one, if_false, if_true, hx]
  rfl

end

/-! EVENT_SUBSCRIBE and EVENTS_READ (R338, R497). -/

/-- The destination that an EVENT_SUBSCRIBE names; none where PORT and ADDR are both zero. -/
def subscriber (p : List Byte) : Option UdpAddr :=
  if beAt p 2 2 = 0 ∧ beAt p 4 16 = 0 then none
  else some { ip := BitVec.ofNat 128 (beAt p 4 16), port := BitVec.ofNat 16 (beAt p 2 2) }

section
variable (h : Takes s 0x0902 r s0) (hpay : payOk r.payload [(0, 1), (2, 2), (4, 16)] = true) (htack : s0.tacked = false)
include h hpay htack

theorem execEventSubscribe_first (hdest : beAt r.payload 0 1 = 0) : exec .eventSubscribe s =
    .next ((s0.onFn r.fn (fun x => { x with sub0 := subscriber r.payload })).reply r stOk []) := by
  refine congrArg Host.Outcome.next ((command_ok h (by simp [hpay, htack, hdest])).trans ?_)
  simp only [hdest, if_true]
  rfl

theorem execEventSubscribe_second (hdest : beAt r.payload 0 1 = 1) : exec .eventSubscribe s =
    .next ((s0.onFn r.fn (fun x => { x with sub1 := subscriber r.payload })).reply r stOk []) := by
  refine congrArg Host.Outcome.next ((command_ok h (by simp [hpay, htack, hdest])).trans ?_)
  simp only [hdest, Nat.one_ne_zero, if_false]
  rfl

end

/-- The records of an event ring from a sequence number on that a function may read, of one block or of every one. -/
def State.readableRecs (s : State) (f key first blk : Nat) : List EvRec :=
  ((s.evrings.get {} key).recs.dropWhile (fun e => (e.seq + 65536 - first) % 65536 ≥ 2 ^ 15)).filter
    (fun e => (blk = 0 || e.block = blk) && e.readable f)

/-- The reply with the first records of a ring. -/
def State.replyRecs (s : State) (r : Req) (key : Nat) : State :=
  s.reply r stOk (((s.readableRecs r.fn key (beAt r.payload 2 2) (beAt r.payload 1 1)).take (beAt r.payload 4 1)).flatMap
    (fun e => e.bytes beBytes (s.evInst r.fn e)))

section
variable (h : Takes s 0x0903 r s0) (hpay : payOk r.payload [(0, 1), (1, 1), (2, 2), (4, 1)] = true)
  (hmin : 1 ≤ beAt r.payload 4 1) (hmax : beAt r.payload 4 1 ≤ 7)
include h hpay hmin hmax

theorem execEventsRead_package {b : Blk} (hpkg : beAt r.payload 0 1 = 0xFF) (hring : b.hasRing = true)
    (hblk : beAt r.payload 1 1 = b.code) : exec .eventsRead s = .next (s0.replyRecs r (256 + b.code)) := by
  refine congrArg Host.Outcome.next ((command_ok h ?_).trans ?_)
  · simp [hpay, hpkg, hblk, Blk.ofCode_code, hring, hmax, Nat.ne_of_gt hmin]
  · simp only [hpkg, if_true, State.replyRecs, hblk]
    rfl

/-- A tile's ring, by its physical number for the operator and its virtual one for a tenant. -/
theorem execEventsRead_tile {t : Nat} (htile : beAt r.payload 0 1 ≠ 0xFF) (hblk : beAt r.payload 1 1 ≤ 22)
    (ht : if r.fn = 0 then beAt r.payload 0 1 < 80 ∧ t = beAt r.payload 0 1 else s0.vtile r.fn (beAt r.payload 0 1) = some t) :
    exec .eventsRead s = .next (s0.replyRecs r t) := by
  have hname : (if r.fn = 0 then (if beAt r.payload 0 1 < 80 then some (beAt r.payload 0 1) else none)
      else s0.vtile r.fn (beAt r.payload 0 1)) = some t := by
    split at ht
    case isTrue hfn =>
      obtain ⟨hlt, rfl⟩ := ht
      rw [if_pos hfn, if_pos hlt]
    case isFalse hfn => rw [if_neg hfn, ht]
  refine congrArg Host.Outcome.next ((command_ok h ?_).trans ?_)
  · simp [hname, htile, hpay, hmax, hblk, Nat.ne_of_gt hmin]
  · simp only [if_neg htile, hname]
    rfl

end

/-! TRACE_CFG (R498, Table 18.4). -/

/-- The trace that a TRACE_CFG sets up, with the sequence number of the one before. -/
def newTrace (p : List Byte) (seq now : Nat) : Trace :=
  { en := beAt p 0 1 % 2 = 1, dest := beAt p 0 1 / 2 % 2, cap := if beAt p 1 1 = 0 then 20 else beAt p 1 1,
    blocks := BitVec.ofNat 32 (beAt p 4 4), buf := beAt p 8 8, bytes := beAt p 16 4, ip := BitVec.ofNat 128 (beAt p 24 16),
    port := BitVec.ofNat 16 (beAt p 20 2), seq := seq, bucketTime := now }

/-- The buffer of a trace that is on and goes to the slab is one that the function may write. -/
theorem traceBuffer_allowed {s : State} {r : Req} (hbuf : beAt r.payload 0 1 % 4 = 1 → beAt r.payload 8 8 % 64 = 0 ∧
      beAt r.payload 16 4 % 64 = 0 ∧ 4096 ≤ beAt r.payload 16 4 ∧ beAt r.payload 16 4 ≤ 2 ^ 31 ∧
      (s.slabCheck r.fn none (beAt r.payload 8 8) (beAt r.payload 16 4) true false).isOk = true) :
    (decide (beAt r.payload 0 1 % 2 = 1) && decide (beAt r.payload 0 1 / 2 % 2 = 0) &&
      (decide (beAt r.payload 8 8 % 64 ≠ 0) || decide (beAt r.payload 16 4 % 64 ≠ 0) || decide (beAt r.payload 16 4 < 4096) ||
        decide (beAt r.payload 16 4 > 2 ^ 31) ||
        !(s.slabCheck r.fn none (beAt r.payload 8 8) (beAt r.payload 16 4) true false).isOk)) = false := by
  by_cases hslab : beAt r.payload 0 1 % 4 = 1
  · obtain ⟨haddr, hlines, hlow, hhigh, hok⟩ := hbuf hslab
    simp only [haddr, hlines, gt_iff_lt, Nat.not_lt.mpr hlow, Nat.not_lt.mpr hhigh, hok, ne_eq, not_true_eq_false,
      decide_false, Bool.not_true, Bool.or_self, Bool.and_false]
  · have helse : ¬ (beAt r.payload 0 1 % 2 = 1 ∧ beAt r.payload 0 1 / 2 % 2 = 0) := by omega
    rw [← Bool.decide_and, decide_eq_false helse, Bool.false_and]

/-- Only the operator may set the blocks whose errors trigger a tack. -/
theorem traceTackOn_allowed {r : Req}
    (hon : if r.fn = 0 then beAt r.payload 40 4 % 2 = 0 ∧ beAt r.payload 40 4 < 2 ^ 23 else beAt r.payload 40 4 = 0) :
    (if r.fn = 0 then decide (beAt r.payload 40 4 % 2 = 1) || decide (beAt r.payload 40 4 ≥ 2 ^ 23)
      else decide (beAt r.payload 40 4 ≠ 0)) = false := by
  split at hon
  case isTrue hfn =>
    obtain ⟨heven, hlt⟩ := hon
    simp only [if_pos hfn, heven, ge_iff_le, Nat.not_le.mpr hlt, Nat.zero_ne_one, decide_false, Bool.or_self]
  case isFalse hfn => simp only [if_neg hfn, hon, ne_eq, not_true_eq_false, decide_false]

theorem execTraceCfg_ok {t : State} (h : Takes s 0x0904 r s0)
    (hpay : payOk r.payload [(0, 1), (1, 1), (4, 4), (8, 8), (16, 4), (20, 2), (24, 16), (40, 4)] = true)
    (hcap : beAt r.payload 1 1 ≤ 100) (heven : beAt r.payload 4 4 % 2 = 0) (hblocks : beAt r.payload 4 4 < 2 ^ 23)
    (hbuf : beAt r.payload 0 1 % 4 = 1 → beAt r.payload 8 8 % 64 = 0 ∧ beAt r.payload 16 4 % 64 = 0 ∧
      4096 ≤ beAt r.payload 16 4 ∧ beAt r.payload 16 4 ≤ 2 ^ 31 ∧
      (s0.slabCheck r.fn none (beAt r.payload 8 8) (beAt r.payload 16 4) true false).isOk = true)
    (hon : if r.fn = 0 then beAt r.payload 40 4 % 2 = 0 ∧ beAt r.payload 40 4 < 2 ^ 23 else beAt r.payload 40 4 = 0)
    (htack : s0.tacked = false)
    (ht : (s0.traceFlush r.fn).onFn r.fn (fun x => { x with
      trace := newTrace r.payload x.trace.seq (s0.traceFlush r.fn).timeNs }) = t) :
    exec .traceCfg s = .next ((if r.fn = 0 then { t with trc := { t.trc with tackOn := BitVec.ofNat 32 (beAt r.payload 40 4) } }
      else t).reply r stOk []) := by
  have hflags : beAt r.payload 0 1 % 4 % 2 = beAt r.payload 0 1 % 2 ∧
      beAt r.payload 0 1 % 4 / 2 % 2 = beAt r.payload 0 1 / 2 % 2 := by omega
  obtain ⟨hen, hdest⟩ := hflags
  subst ht
  refine congrArg Host.Outcome.next ((command_ok h ?_).trans ?_)
  · simp only [List.forall_mem_cons, hen, hdest, traceBuffer_allowed hbuf, traceTackOn_allowed hon, hpay, htack, heven, gt_iff_lt,
      ge_iff_le, Nat.not_lt.mpr hcap, Nat.not_le.mpr hblocks, Nat.zero_ne_one, decide_false, Bool.not_true, Bool.or_self]
    exact ⟨trivial, trivial, List.forall_mem_nil _⟩
  · simp only [hen, hdest]
    rfl

/-! TACK, TACK_RESUME and TACK_LOG_READ (R505, R507, R508). -/

theorem execTack_ok (h : Takes s 0x0A01 r s0) (hpay : payOk r.payload [] = true) (hop : r.notOperator = false)
    (htack : s0.tacked = false) :
    exec .tack s = .next ((s0.triggerTack 0 0).awaits { req := r, fn := 1025 }) :=
  congrArg Host.Outcome.next (command_ok h (by simp [hpay, hop, htack]))

theorem execTackResume_ok (h : Takes s 0x0A02 r s0) (hpay : payOk r.payload [] = true) (hop : r.notOperator = false)
    (htack : s0.tacked = true) : exec .tackResume s = .next (s0.askResume.reply r stOk []) :=
  congrArg Host.Outcome.next (command_ok h (by simp [hpay, hop, htack]))

/-- The reply with the number of entries of a channel's log, and some of them. -/
def State.replyTackLog (s : State) (r : Req) (key : Nat) : State :=
  let l := s.trc.logs.get {} key
  s.reply r stOk (beBytes 4 l.entries.length ++
    ((l.entries.drop (beAt r.payload 4 2)).take (beAt r.payload 6 1)).flatMap (fun e => e.take 32))

section
variable (h : Takes s 0x0A03 r s0) (hpay : payOk r.payload [(0, 1), (1, 1), (2, 1), (4, 2), (6, 1)] = true)
  (hop : r.notOperator = false) (hmin : 1 ≤ beAt r.payload 6 1) (hmax : beAt r.payload 6 1 ≤ 6) (hheld : s0.trc.tack = .held)
include h hpay hop hmin hmax hheld

/-- The log of a mesh channel of a tile in service. -/
theorem execTackLogRead_mesh (hkind : beAt r.payload 0 1 = 0) (hinst : beAt r.payload 1 1 < 80) (hch : beAt r.payload 2 1 ≤ 3)
    (hserves : (s0.tile (beAt r.payload 1 1)).retired = false) :
    exec .tackLogRead s = .next (s0.replyTackLog r (beAt r.payload 1 1 * 4 + beAt r.payload 2 1)) := by
  refine congrArg Host.Outcome.next ((command_ok h ?_).trans ?_)
  · simp [hpay, hop, hmax, hheld, hkind, hinst, hch, hserves, Nat.ne_of_gt hmin]
  · simp only [hkind, if_true]
    rfl

/-- The log of a virtual channel of a port that the part has. -/
theorem execTackLogRead_fabric (hkind : beAt r.payload 0 1 = 1) (hinst : beAt r.payload 1 1 < 20) (hch : beAt r.payload 2 1 ≤ 5)
    (hpresent : s0.portAbsent (beAt r.payload 1 1) = false) :
    exec .tackLogRead s = .next (s0.replyTackLog r (0x1000 + beAt r.payload 1 1 * 8 + beAt r.payload 2 1)) := by
  refine congrArg Host.Outcome.next ((command_ok h ?_).trans ?_)
  · simp [hpay, hop, hmax, hheld, hkind, hinst, hch, hpresent, Nat.ne_of_gt hmin]
  · simp only [hkind, Nat.one_ne_zero, if_false]
    rfl

end

/-! FAULT_STATUS and ERR_CLEAR (R476, R485). -/

/-- The reply with the four fields of a fault status. -/
def State.replyFault (s : State) (r : Req) (b : Blk) (inst : Nat) : State :=
  let x := s.faultFields b inst
  s.reply r stOk (beBytes 4 x.1 ++ beBytes 4 x.2.1 ++ beBytes 8 x.2.2.1 ++ beBytes 8 x.2.2.2)

section
variable {b : Blk} (hpresent : b = .lnk → s0.portAbsent (beAt r.payload 2 2) = false)
include hpresent

/-- The part has the port that a command names. -/
theorem lnk_present : (decide (b = .lnk) && decide (beAt r.payload 2 2 < 20) && s0.portAbsent (beAt r.payload 2 2)) = false := by
  by_cases hb : b = .lnk
  · simp [hpresent hb]
  · simp [hb]

variable (hblk : beAt r.payload 0 1 = b.code)
include hblk

theorem execFaultStatus_ok (h : Takes s 0x0B01 r s0) (hpay : payOk r.payload [(0, 1), (2, 2)] = true) (hkey : r.key.isSome = true)
    (hinst : b.hasInst (beAt r.payload 2 2) = true ∨ b = .thm ∧ beAt r.payload 2 2 < 3)
    (hown : r.fn = 0 ∨ b.perTile = true ∧ (s0.tile (beAt r.payload 2 2 % 256)).owner = some r.fn) :
    exec .faultStatus s = .next (s0.replyFault r b (beAt r.payload 2 2)) := by
  have hblock : Blk.ofCode (beAt r.payload 0 1) = some b := by rw [hblk, Blk.ofCode_code]
  have hexists : (b.hasInst (beAt r.payload 2 2) || (decide (b = .thm) && decide (beAt r.payload 2 2 < 3))) = true := by
    simpa using hinst
  have howner : (decide (r.fn ≠ 0) && (true && (!b.perTile ||
      decide ((s0.tile (beAt r.payload 2 2 % 256)).owner ≠ some r.fn)))) = false := by
    rcases hown with hfn | ⟨htile, howner⟩
    · simp [hfn]
    · simp [htile, howner]
  refine congrArg Host.Outcome.next ((command_ok h ?_).trans ?_)
  · simp only [List.forall_mem_cons, hblock, hexists, howner, lnk_present hpresent, hpay]
    simp [hkey]
  · simp only [hblock]
    rfl

theorem execErrClear_ok (h : Takes s 0x0B03 r s0) (hpay : payOk r.payload [(0, 1), (2, 2), (4, 4)] = true)
    (hop : r.notOperator = false) (hinst : b.hasInst (beAt r.payload 2 2) = true)
    (hserves : b.perTile = true → (s0.tile (beAt r.payload 2 2 % 256)).retired = false) : exec .errClear s =
      .next ((s0.clearErr b (beAt r.payload 2 2) (BitVec.ofNat 32 (beAt r.payload 4 4))).reply r stOk []) := by
  have hblock : Blk.ofCode (beAt r.payload 0 1) = some b := by rw [hblk, Blk.ofCode_code]
  have hretired : (b.perTile && (s0.tile (beAt r.payload 2 2 % 256)).retired) = false := by simpa using hserves
  refine congrArg Host.Outcome.next ((command_ok h ?_).trans ?_)
  · simp only [List.forall_mem_cons, hblock, hinst, hretired, hpay, hop, Option.some.injEq, lnk_present hpresent]
    simp
  · simp only [hblock]
    rfl

end

end

/-- Settles O34: none of the conditions of the command holds, so it takes effect. -/
theorem observationCommands : Obligations.ObservationCommands := by
  intro s s0 r b fn key p w g granted S op ids sums dest inst n readable records cfg traced s1
  refine ⟨fun ⟨h, hpay⟩ => execPowerGrant_ok h hpay, fun ⟨h, hpay⟩ => execPowerQuery_ok h hpay,
    fun ⟨h, hpay⟩ hmin hmax hids => ⟨execCountersRead_now hpay hmin hmax hids h, execCountersRead_snapshot hpay hmin hmax hids h,
      fun x => execCountersRead_kept hpay hmin hmax hids h⟩,
    fun ⟨h, hpay⟩ htack => ⟨execEventSubscribe_first h hpay htack, execEventSubscribe_second h hpay htack⟩,
    fun ⟨h, hpay⟩ hmin hmax => ⟨execEventsRead_package h hpay hmin hmax, execEventsRead_tile h hpay hmin hmax⟩,
    fun ⟨h, hpay⟩ hcap heven hblocks hbuf hon htack => execTraceCfg_ok h hpay hcap heven hblocks hbuf hon htack rfl, rfl,
    fun ⟨h, hpay⟩ => execTack_ok h hpay, fun ⟨h, hpay⟩ => execTackResume_ok h hpay,
    fun ⟨h, hpay⟩ hop hmin hmax hheld hchannel => ?log,
    fun ⟨h, hpay⟩ hkey hblk hinst hpresent => execFaultStatus_ok hpresent hblk h hpay hkey hinst,
    fun ⟨h, hpay⟩ hop hblk hinst hpresent => execErrClear_ok hpresent hblk h hpay hop hinst⟩
  case log =>
    rcases hchannel with ⟨hkind, hinst, hch, hserves, rfl⟩ | ⟨hkind, hinst, hch, hpresent, rfl⟩
    · exact execTackLogRead_mesh h hpay hop hmin hmax hheld hkind hinst hch hserves
    · exact execTackLogRead_fabric h hpay hop hmin hmax hheld hkind hinst hch hpresent

end Sys2Proof.Machine
end
